-- ==== Sys2Proof/Word.lean ====
section
/-! DEFINITION. The word types of the machine (R9, R13, R42, R45, R47). -/

namespace Sys2Proof

/-- One byte of memory. -/
abbrev Byte := BitVec 8

/-- The 64-bit register width of the scalar and lane register files (R42). -/
abbrev Word := BitVec 64

/-- A scalar instruction word (R45). -/
abbrev ScalarBits := BitVec 32

/-- A lane word or clause header (R47, R51). -/
abbrev LaneBits := BitVec 96

/-- The name of a scalar register, s0 to s63 (R42). -/
abbrev SReg := BitVec 6

/-- The name of a predicate bit of the scalar stream, q0 to q15 (R42). -/
abbrev QReg := BitVec 4

end Sys2Proof
end

