-- ==== Sys2Proof/Machine/Bits.lean ====
section
/-! DEFINITION. Bit-field, sign and byte-order helpers (R9, R12, R14). -/

namespace Sys2Proof.Machine

/-- `x[hi:lo]` of R12, as a natural number. -/
def natBits (x hi lo : Nat) : Nat := (x >>> lo) % 2 ^ (hi + 1 - lo)

/-- Bit `i` of a natural number. -/
def natBit (x i : Nat) : Bool := (x >>> i) % 2 == 1

/-- The two's-complement value of the low `w` bits of `x`. -/
def signed (w x : Nat) : Int :=
  if x % 2 ^ w < 2 ^ (w - 1) then Int.ofNat (x % 2 ^ w) else Int.ofNat (x % 2 ^ w) - 2 ^ w

/-- Wrap (R16): the low `w` bits of an exact integer. -/
def wrapNat (w : Nat) (z : Int) : Nat := (z % (2 ^ w : Int)).toNat

/-- Wrap to a 64-bit register (R73). -/
def wrap64 (z : Int) : Word := BitVec.ofInt 64 z

/-- Sat (R16): an exact integer clamped to the `w`-bit signed or unsigned range. -/
def saturate (isSigned : Bool) (w : Nat) (z : Int) : Nat :=
  if isSigned then
    wrapNat w (max (-(2 ^ (w - 1))) (min z (2 ^ (w - 1) - 1)))
  else wrapNat w (max 0 (min z (2 ^ w - 1)))

/-- Element `i` of width `w` of a register (R14). -/
def elemAt (w i x : Nat) : Nat := (x >>> (w * i)) % 2 ^ w

/-- The register whose elements, from element 0 upward, are the list (R14): unused bits are zero. -/
def packElems (w : Nat) : List Nat → Nat
  | [] => 0
  | e :: es => e % 2 ^ w + (packElems w es) <<< w

/-- `x` with element `i` of width `w` replaced (R14). -/
def setElem (w i x e : Nat) : Nat :=
  x - (elemAt w i x) <<< (w * i) + (e % 2 ^ w) <<< (w * i)

/-- The number of one bits in the low `n` bits. -/
def popCount : Nat → Nat → Nat
  | 0, _ => 0
  | n + 1, x => x % 2 + popCount n (x / 2)

/-- The number of leading zeros of the low `w` bits; `w` for zero (R79, R123). -/
def clz (w x : Nat) : Nat := if x % 2 ^ w = 0 then w else w - 1 - Nat.log2 (x % 2 ^ w)

/-- The number of trailing zeros of the low `n` bits; `n` for zero (R79, R123). -/
def ctz : Nat → Nat → Nat
  | 0, _ => 0
  | n + 1, x => if x % 2 = 1 then 0 else 1 + ctz n (x / 2)

/-- Bit `j` moved to bit `w − 1 − j` (R79, R123). -/
def bitReverse : Nat → Nat → Nat
  | 0, _ => 0
  | w + 1, x => (x % 2) <<< w + bitReverse w (x / 2)

/-- Little-endian: the value of a list of bytes, lowest address first (R9). -/
def ofBytes : List Byte → Nat
  | [] => 0
  | b :: bs => b.toNat + (ofBytes bs) <<< 8

/-- Little-endian: the `n` bytes of a value, lowest address first (R9). -/
def toBytes : Nat → Nat → List Byte
  | 0, _ => []
  | n + 1, x => BitVec.ofNat 8 x :: toBytes n (x >>> 8)

/-- The index of the first list entry that satisfies the test, counted from `k`. -/
def findIndexFrom {α : Type} (p : α → Bool) : Nat → List α → Option Nat
  | _, [] => none
  | k, x :: xs => if p x then some k else findIndexFrom p (k + 1) xs

/-- The mask whose bit `L` is the `L`-th Boolean. -/
def maskOf : List Bool → Nat
  | [] => 0
  | b :: bs => (if b then 1 else 0) + (maskOf bs) <<< 1

/-- Entry `i` of a list changed by `f`; an index past the end changes nothing. -/
def modifyAt {α : Type} (f : α → α) : Nat → List α → List α
  | _, [] => []
  | 0, x :: xs => f x :: xs
  | i + 1, x :: xs => x :: modifyAt f i xs

/-- The list with its indices. -/
def indexed {α : Type} : Nat → List α → List (Nat × α)
  | _, [] => []
  | k, x :: xs => (k, x) :: indexed (k + 1) xs

end Sys2Proof.Machine
end

