-- ==== Sys2Proof/Syntax.lean ====
section
/-! DEFINITION. Every instruction of spec/opcode_table.json: the scalar words, the lane words, and the events of hardware,
host and fabric, one constructor for each row. -/

namespace Sys2Proof

/-- Scopes, in the order of their codes 0 to 5 (R56). -/
inductive Scope where
  | grp | team | clu | dev | pod | sys
deriving DecidableEq, Repr, Inhabited

/-- Sizes of a scalar store or ordered access: size codes 0 to 3 (R46). -/
inductive Size where
  | b8 | b16 | b32 | b64
deriving DecidableEq, Repr, Inhabited

/-- Sizes of a scalar load: size codes 0 to 6 (R46). -/
inductive LoadSize where
  | u8 | u16 | u32 | u64 | s8 | s16 | s32
deriving DecidableEq, Repr, Inhabited

/-- Conditions of the scalar compares (R56). -/
inductive ScalarCond where
  | eq | ne | lt | ge | ltn | gen
deriving DecidableEq, Repr, Inhabited

/-- Functions of QOP (R81). -/
inductive QFun where
  | and | or | xor | andn | not | mov
deriving DecidableEq, Repr, Inhabited

/-- Operations of ATOM (R56, R58). -/
inductive AtomOp where
  | add | min | max | and | or | xor | xchg
deriving DecidableEq, Repr, Inhabited

/-- Conditions of CMP and BSCMP (R58). -/
inductive IntCond where
  | eq | ne | lt | le | gt | ge
deriving DecidableEq, Repr, Inhabited

/-- Conditions of FCMP (R58). -/
inductive FloatCond where
  | eq | ne | lt | le | gt | ge | un | ord
deriving DecidableEq, Repr, Inhabited

/-- Operations of GRED and GSCAN (R58). -/
inductive RedOp where
  | add | min | max | and | or | xor
deriving DecidableEq, Repr, Inhabited

/-- The fields of a long lane word below its opcode and function, as they stand (R47). -/
structure LaneWord where
  guard : BitVec 7
  neg   : Bool
  vd    : BitVec 8
  va    : BitVec 8
  vb    : BitVec 8
  vc    : BitVec 8
  ty    : BitVec 5
  md    : BitVec 5
  rm    : BitVec 2
  imm   : BitVec 32
deriving DecidableEq, Repr, Inhabited

/-- One slot of a pair word (R48). -/
structure ShortOp where
  op    : BitVec 6
  guard : BitVec 4
  neg   : Bool
  vd    : BitVec 8
  va    : BitVec 8
  vb    : BitVec 8
  ty    : BitVec 4
  imm   : BitVec 8
deriving DecidableEq, Repr, Inhabited

/-- A pair word: slot 1, bit [47], slot 0 (R48). -/
structure PairWord where
  slot1 : ShortOp
  mid   : Bool
  slot0 : ShortOp
deriving DecidableEq, Repr, Inhabited

/-- A host access over CXL.mem to HBM, or a read (R336): the bytes to write, or how many to read; `take` says that the host takes the
line under back-invalidation (R333), `port` the CXL port that it comes by. -/
structure HostReq where
  port  : Nat := 0
  addr  : Nat
  len   : Nat
  write : Option (List Byte)
  take  : Bool
deriving DecidableEq, Repr

/-- What a fabric request asks at the target's Dome (R345): sizes in bytes. -/
inductive FabricOp where
  | read (len : Nat)
  | write (data : List Byte)
  | atom (op : AtomOp) (isSigned : Bool) (size : Nat) (b : Word)
  | cas (size : Nat) (new expected : Word)
  | radd (addends : List (List Byte)) (ty : Nat)
  | add (kind : Nat) (element : List Byte)
  | signal (value : Word)
deriving DecidableEq, Repr

/-- A request that arrives from another device of the pod, on a canal (R341, R344, R345); `zero` says that it is class-0 traffic (R302). -/
structure FabricReq where
  port : Nat
  src  : Nat
  tag  : BitVec 16
  off  : Nat
  op   : FabricOp
  id   : Nat
  zero : Bool
deriving DecidableEq, Repr

/-- The answer to one of this device's requests: an acknowledgement or data, or a NACK code of R344. -/
structure FabricResp where
  id   : Nat
  nack : Option Nat
  data : List Byte
deriving DecidableEq, Repr

/-- Which tile of which collective a fabric message concerns (R350, R351). -/
structure PlaneKey where
  ctx    : Nat
  handle : Nat
  seq    : Nat
  tile   : Nat
deriving DecidableEq, Repr

/-- What a link loss takes away (R360): a port of this device, or, for a collective, one that a position of its ring reports. -/
inductive LinkLoss where
  | own (port : Nat)
  | ring (k : PlaneKey) (pos : Nat)
deriving DecidableEq, Repr

/-- The owner's answer to a cancel (R359): the count and the position that asked, and whether it conflicts under determinism. -/
structure CancelReply where
  count     : Nat
  pos       : Nat
  violation : Bool
deriving DecidableEq, Repr

/-- A collective header (R350, R352): the parameters and the ring as position 0 describes them (its own device, its previous device), the device that
sends it (1,024, which no device has, where it is formed) and the next device of that one's entry, the mismatching device if one is known, and the
tile's exponent and flags; `final` says that the values are the ring's maximum. -/
structure HeaderBody where
  op       : Nat
  fmt      : Nat
  planes   : Nat
  count    : Nat
  ringSize : Nat
  podTag   : Nat
  first    : Nat
  last     : Nat
  sender   : Nat
  next     : Nat
  mismatch : Option Nat
  exp      : Option Int
  flags    : Nat
  final    : Bool
deriving DecidableEq, Repr

/-- Where a bit error arises (R387). The address of an L1 or L2 line of host memory has bit 52 set. Of a lane's accumulators 0 to 15 are its
a-registers, and 16 + 32t + c is accumulator c of its row of tile t. -/
inductive EccUnit where
  | hbm (addr : Nat)
  | l2 (addr : Nat)
  | l1 (core asid line : Nat)
  | scratch (team off : Nat)
  | vreg (team grp lane idx : Nat)
  | acc (team grp lane idx : Nat)
  | obuf (team o off : Nat)
  | canal (port : Nat)
deriving DecidableEq, Repr

/-- The instructions: one constructor for each row of the opcode table. -/
inductive Instr where
  /-- ADD (R73). Scalar add of two registers, wrapping modulo 2^64. -/
  | add (sd : SReg) (sa : SReg) (sb : SReg)
  /-- SUB (R73). Scalar subtract of two registers, wrapping. -/
  | sub (sd : SReg) (sa : SReg) (sb : SReg)
  /-- MUL (R73). Scalar multiply, low 64 bits. -/
  | mul (sd : SReg) (sa : SReg) (sb : SReg)
  /-- MULH (R73). Scalar multiply high half, signed or unsigned by the function bit. -/
  | mulh (u : Bool) (sd : SReg) (sa : SReg) (sb : SReg)
  /-- DIV (R74). Scalar divide truncating toward zero; never traps. -/
  | div (u : Bool) (sd : SReg) (sa : SReg) (sb : SReg)
  /-- REM (R74). Scalar remainder with the sign of the dividend; never traps. -/
  | rem (u : Bool) (sd : SReg) (sa : SReg) (sb : SReg)
  /-- AND (R73). Scalar bitwise AND. -/
  | and (sd : SReg) (sa : SReg) (sb : SReg)
  /-- OR (R73). Scalar bitwise OR. -/
  | or (sd : SReg) (sa : SReg) (sb : SReg)
  /-- XOR (R73). Scalar bitwise XOR. -/
  | xor (sd : SReg) (sa : SReg) (sb : SReg)
  /-- SHL (R75). Scalar shift left by the whole of sb. -/
  | shl (sd : SReg) (sa : SReg) (sb : SReg)
  /-- SHR (R75). Scalar logical shift right. -/
  | shr (sd : SReg) (sa : SReg) (sb : SReg)
  /-- SAR (R75). Scalar arithmetic shift right. -/
  | sar (sd : SReg) (sa : SReg) (sb : SReg)
  /-- MIN (R73). Scalar minimum, signed or unsigned. -/
  | min (u : Bool) (sd : SReg) (sa : SReg) (sb : SReg)
  /-- MAX (R73). Scalar maximum, signed or unsigned. -/
  | max (u : Bool) (sd : SReg) (sa : SReg) (sb : SReg)
  /-- BFX (R78). Scalar unsigned bit-field extract by a descriptor register. -/
  | bfx (sd : SReg) (sa : SReg) (sb : SReg)
  /-- BFI (R78). Scalar bit-field insert into sd by a descriptor register. -/
  | bfi (sd : SReg) (sa : SReg) (sb : SReg)
  /-- ADDI (R76). Scalar add of a sign-extended 13-bit immediate. -/
  | addi (sd : SReg) (sa : SReg) (imm : BitVec 13)
  /-- ANDI (R76). Scalar AND with a sign-extended immediate. -/
  | andi (sd : SReg) (sa : SReg) (imm : BitVec 13)
  /-- ORI (R76). Scalar OR with a sign-extended immediate. -/
  | ori (sd : SReg) (sa : SReg) (imm : BitVec 13)
  /-- XORI (R76). Scalar XOR with a sign-extended immediate. -/
  | xori (sd : SReg) (sa : SReg) (imm : BitVec 13)
  /-- SHLI (R76). Scalar shift left by an immediate count. -/
  | shli (sd : SReg) (sa : SReg) (cnt : BitVec 6)
  /-- SHRI (R76). Scalar logical shift right by an immediate count. -/
  | shri (sd : SReg) (sa : SReg) (cnt : BitVec 6)
  /-- SARI (R76). Scalar arithmetic shift right by an immediate count. -/
  | sari (sd : SReg) (sa : SReg) (cnt : BitVec 6)
  /-- MOVI (R77). Scalar load of a sign-extended 32-bit second-word immediate. -/
  | movi (sd : SReg) (v : BitVec 32)
  /-- MOVHI (R77). Scalar write of the upper 32 bits from the second word. -/
  | movhi (sd : SReg) (v : BitVec 32)
  /-- CMP (R80). Scalar compare of two registers into a q-register. -/
  | cmp (c : ScalarCond) (qd : QReg) (sa : SReg) (sb : SReg)
  /-- CMPI (R80). Scalar compare against a sign-extended 32-bit second word into a q-register. -/
  | cmpi (c : ScalarCond) (qd : QReg) (sa : SReg) (v : BitVec 32)
  /-- QOP (R81). Logic operation on q-registers. -/
  | qop (f : QFun) (qd : QReg) (qa : QReg) (qb : QReg)
  /-- SEL (R82). Scalar select of sa or sb by a q-register. -/
  | sel (sd : SReg) (q : QReg) (sa : SReg) (sb : SReg)
  /-- POPC (R79). Scalar population count. -/
  | popc (sd : SReg) (sa : SReg)
  /-- CLZ (R79). Scalar count of leading zeros. -/
  | clz (sd : SReg) (sa : SReg)
  /-- CTZ (R79). Scalar count of trailing zeros. -/
  | ctz (sd : SReg) (sa : SReg)
  /-- BREV (R79). Scalar bit reversal. -/
  | brev (sd : SReg) (sa : SReg)
  /-- LD (R83). Scalar load from global memory, blocking until data arrives. -/
  | ld (sz : LoadSize) (sd : SReg) (base : SReg) (off : BitVec 10)
  /-- ST (R83). Scalar store to global memory. -/
  | st (sz : Size) (ss : SReg) (base : SReg) (off : BitVec 10)
  /-- LDS (R83). Scalar load from the team scratchpad. -/
  | lds (sz : LoadSize) (sd : SReg) (base : SReg) (off : BitVec 10)
  /-- STS (R83). Scalar store to the team scratchpad. -/
  | sts (sz : Size) (ss : SReg) (base : SReg) (off : BitVec 10)
  /-- LDAQ (R84). Scalar load-acquire at a scope. -/
  | ldaq (sc : Scope) (sz : Size) (sd : SReg) (sa : SReg)
  /-- STRL (R84). Scalar store-release at a scope. -/
  | strl (sc : Scope) (sz : Size) (ss : SReg) (sa : SReg)
  /-- ATOM (R85). Scalar 64-bit atomic read-modify-write at a scope. -/
  | atom (op : AtomOp) (sc : Scope) (sd : SReg) (sa : SReg) (sb : SReg)
  /-- CAS (R85). Scalar 64-bit compare-and-swap at a scope. -/
  | cas (sc : Scope) (sd : SReg) (sa : SReg) (sb : SReg)
  /-- FENCE (R86). Scalar fence ordering the stream's own accesses at a scope. -/
  | fence (sc : Scope)
  /-- BR (R87). Guarded relative branch. -/
  | br (q : QReg) (neg : Bool) (off : BitVec 20)
  /-- CALL (R87). Guarded relative call writing the link to s63. -/
  | call (q : QReg) (neg : Bool) (off : BitVec 20)
  /-- RET (R87). Guarded return to the address in s63. -/
  | ret (q : QReg) (neg : Bool)
  /-- JMPR (R87). Unguarded jump to a register address. -/
  | jmpr (sa : SReg)
  /-- LRUN (R88). Enqueue a lane run at a clause, capturing up to eight clause constants. -/
  | lrun (sa : SReg) (n : BitVec 4) (target : BitVec 32)
  /-- SPOP (R89). Pop the oldest lane-to-scalar queue entry, blocking while empty. -/
  | spop (sd : SReg)
  /-- LNCH (R91). Submit a child launch record to the command processor and await its answer. -/
  | lnch (sd : SReg) (sa : SReg)
  /-- SGET (R92). Read a special register into a scalar register. -/
  | sget (sd : SReg) (ty : BitVec 5) (code : BitVec 8)
  /-- SSET (R92). Write a handler scratch register HS0-HS3. -/
  | sset (hs : BitVec 2) (sa : SReg)
  /-- MRST (R204). Register the restart address used when recomputable tiles are discarded. -/
  | mrst (off : BitVec 32)
  /-- CPY (R183). Issue a 1-D to 3-D block copy to the copy engine. -/
  | cpy (flag : BitVec 6) (sa : SReg)
  /-- GATH (R184). Issue an indexed row gather to the copy engine. -/
  | gath (flag : BitVec 6) (sa : SReg)
  /-- PART (R184). Issue a hash partition scatter to the copy engine. -/
  | part (flag : BitVec 6) (sa : SReg)
  /-- PUTS (R186). Issue a one-sided put, optionally with a signal add, to a peer device. -/
  | puts (flag : BitVec 6) (sa : SReg)
  /-- GET (R186). Issue a one-sided get from a peer device. -/
  | get (flag : BitVec 6) (sa : SReg)
  /-- FABRIC_RADD (R186). Issue a commutative add of local elements into a peer's elements. -/
  | fabricRadd (flag : BitVec 6) (sa : SReg)
  /-- PLCL (R187). Start a bit-plane collective on a communicator. -/
  | plcl (flag : BitVec 6) (sa : SReg)
  /-- PLCN (R188). Read a collective tile's counter word. -/
  | plcn (sd : SReg) (sa : SReg) (sb : SReg)
  /-- PLWT (R188). Park until a tile has the given planes landed or is cancelled. -/
  | plwt (sd : SReg) (sa : SReg) (sb : SReg)
  /-- PLVAL (R188). Issue a view write of a tile's prefix value as an engine command. -/
  | plval (flag : BitVec 6) (sa : SReg) (sb : SReg)
  /-- PLCX (R188). Cancel a tile, or every tile, at a plane count. -/
  | plcx (sd : SReg) (sa : SReg) (sb : SReg)
  /-- WFLG (R90). Wait for earlier runs to finish, then for the masked flags to clear. -/
  | wflg (mask : BitVec 12)
  /-- WFLG_NOW (R90). Wait only until the masked flags are clear as they stand. -/
  | wflgNow (mask : BitVec 12)
  /-- SWINI (R179). Initialise a scratchpad sync word's target and count. -/
  | swini (sa : SReg) (sb : SReg)
  /-- SWAIT (R180). Scalar wait until a sync word's generation differs from a value. -/
  | swait (sa : SReg) (sb : SReg)
  /-- WAITA (R175). Scalar wait on an address: arm a monitor, read, and park on a compare match. -/
  | waita (sd : SReg) (sa : SReg) (sb : SReg)
  /-- SBARA (R177). Initialise or arrive at a team or cluster barrier slot. -/
  | sbara (sd : SReg) (sa : SReg) (sb : SReg)
  /-- SBARW (R178). Scalar wait until a barrier slot's phase differs from a value. -/
  | sbarw (sa : SReg) (sb : SReg)
  /-- OBRES (R193). Create an operand-buffer reservation from a scratchpad record. -/
  | obres (sd : SReg) (sa : SReg) (sb : SReg)
  /-- OBREL (R193). Release an operand-buffer reservation. -/
  | obrel (sa : SReg)
  /-- CTAB (R194). Load a core companding table from global memory. -/
  | ctab (sa : SReg) (sb : SReg)
  /-- TRAP (R94). Raise BREAK with an immediate in TINFO. -/
  | trap (imm : BitVec 12) (sa : SReg)
  /-- TRD (R96). Handler read of a stopped group's register. -/
  | trd (sd : SReg) (sa : SReg) (sb : SReg)
  /-- TWR (R96). Handler write of a stopped group's register. -/
  | twr (ss : SReg) (sa : SReg) (sb : SReg)
  /-- TRES (R97). Handler sets a group's resume scalar and lane addresses. -/
  | tres (sl : SReg) (sa : SReg) (sb : SReg)
  /-- TKIL (R97). Handler marks a group killed, effective at ERET. -/
  | tkil (sa : SReg)
  /-- DUMP (R381). Handler writes a dump of the stopped team into a buffer. -/
  | dump (sd : SReg) (sa : SReg) (sb : SReg)
  /-- PAIR_WORD (R48). Lane pair word executing two short-form operations as one step. -/
  | pairWord (w : PairWord)
  /-- LANE_ADD (R104). Lane wrapping integer add. -/
  | laneAdd (w : LaneWord)
  /-- LANE_ADDI (R104). Lane wrapping add of a 16-bit immediate. -/
  | laneAddi (w : LaneWord)
  /-- LANE_SUB (R104). Lane wrapping integer subtract. -/
  | laneSub (w : LaneWord)
  /-- ADDS (R104). Lane saturating integer add. -/
  | adds (w : LaneWord)
  /-- SUBS (R104). Lane saturating integer subtract. -/
  | subs (w : LaneWord)
  /-- NEG (R104). Lane wrapping integer negate. -/
  | neg (w : LaneWord)
  /-- ABS (R104). Lane wrapping integer absolute value. -/
  | abs (w : LaneWord)
  /-- LANE_MUL (R105). Lane wrapping integer multiply. -/
  | laneMul (w : LaneWord)
  /-- LANE_MULH (R105). Lane integer multiply upper half. -/
  | laneMulh (w : LaneWord)
  /-- MULS (R105). Lane saturating integer multiply. -/
  | muls (w : LaneWord)
  /-- MAD (R105). Lane wrapping multiply-add. -/
  | mad (w : LaneWord)
  /-- MADS (R105). Lane saturating multiply-add. -/
  | mads (w : LaneWord)
  /-- LANE_DIV (R106). Lane integer divide; never traps. -/
  | laneDiv (w : LaneWord)
  /-- LANE_REM (R106). Lane integer remainder; never traps. -/
  | laneRem (w : LaneWord)
  /-- LANE_MIN (R107). Lane integer minimum. -/
  | laneMin (w : LaneWord)
  /-- LANE_MAX (R107). Lane integer maximum. -/
  | laneMax (w : LaneWord)
  /-- CLAMP (R107). Lane integer clamp between two bounds. -/
  | clamp (w : LaneWord)
  /-- LANE_AND (R108). Lane bitwise AND. -/
  | laneAnd (w : LaneWord)
  /-- LANE_OR (R108). Lane bitwise OR. -/
  | laneOr (w : LaneWord)
  /-- LANE_XOR (R108). Lane bitwise XOR. -/
  | laneXor (w : LaneWord)
  /-- ANDN (R108). Lane bitwise AND-NOT. -/
  | andn (w : LaneWord)
  /-- NOT (R108). Lane bitwise NOT. -/
  | not (w : LaneWord)
  /-- TERN (R108). Lane three-input bitwise function by an 8-bit table. -/
  | tern (w : LaneWord)
  /-- LANE_SHL (R109). Lane per-element shift left by register count. -/
  | laneShl (w : LaneWord)
  /-- LANE_SHR (R109). Lane per-element logical shift right by register count. -/
  | laneShr (w : LaneWord)
  /-- LANE_SAR (R109). Lane per-element arithmetic shift right by register count. -/
  | laneSar (w : LaneWord)
  /-- ROL (R109). Lane per-element rotate left by register count. -/
  | rol (w : LaneWord)
  /-- ROR (R109). Lane per-element rotate right by register count. -/
  | ror (w : LaneWord)
  /-- LANE_SHLI (R109). Lane shift left by an immediate count. -/
  | laneShli (w : LaneWord)
  /-- LANE_SHRI (R109). Lane logical shift right by an immediate count. -/
  | laneShri (w : LaneWord)
  /-- LANE_SARI (R109). Lane arithmetic shift right by an immediate count. -/
  | laneSari (w : LaneWord)
  /-- ROLI (R109). Lane rotate left by an immediate count. -/
  | roli (w : LaneWord)
  /-- RORI (R109). Lane rotate right by an immediate count. -/
  | rori (w : LaneWord)
  /-- MOV (R110). Lane register move. -/
  | mov (w : LaneWord)
  /-- LANE_MOVI (R110). Lane move of a 32-bit immediate into every element. -/
  | laneMovi (w : LaneWord)
  /-- LANE_SEL (R110). Lane select of a or b by a predicate. -/
  | laneSel (w : LaneWord)
  /-- LGET (R110). Lane read of a special register. -/
  | lget (w : LaneWord)
  /-- FADD (R111). Lane float add, rounded once. -/
  | fadd (w : LaneWord)
  /-- FSUB (R111). Lane float subtract, rounded once. -/
  | fsub (w : LaneWord)
  /-- FMUL (R111). Lane float multiply, rounded once. -/
  | fmul (w : LaneWord)
  /-- FDIV (R111). Lane float divide, rounded once. -/
  | fdiv (w : LaneWord)
  /-- FSQRT (R111). Lane float square root, rounded once. -/
  | fsqrt (w : LaneWord)
  /-- FMIN (R111). Lane float minimumNumber. -/
  | fmin (w : LaneWord)
  /-- FMAX (R111). Lane float maximumNumber. -/
  | fmax (w : LaneWord)
  /-- FABS (R111). Lane float absolute value as a bit operation. -/
  | fabs (w : LaneWord)
  /-- FNEG (R111). Lane float negate as a bit operation. -/
  | fneg (w : LaneWord)
  /-- CPSGN (R111). Lane float copy-sign. -/
  | cpsgn (w : LaneWord)
  /-- FMA (R112). Lane fused multiply-add with one rounding. -/
  | fma (w : LaneWord)
  /-- FMS (R112). Lane fused multiply-subtract with one rounding. -/
  | fms (w : LaneWord)
  /-- FNMA (R112). Lane fused negated multiply-add with one rounding. -/
  | fnma (w : LaneWord)
  /-- EX2F (R114). Lane 2^f for f in [0,1], correctly rounded. -/
  | ex2f (w : LaneWord)
  /-- LG2 (R115). Lane correctly rounded base-two logarithm. -/
  | lg2 (w : LaneWord)
  /-- RCP (R115). Lane correctly rounded reciprocal. -/
  | rcp (w : LaneWord)
  /-- RSQ (R115). Lane correctly rounded reciprocal square root. -/
  | rsq (w : LaneWord)
  /-- SINP (R116). Lane correctly rounded sin(pi x). -/
  | sinp (w : LaneWord)
  /-- COSP (R116). Lane correctly rounded cos(pi x). -/
  | cosp (w : LaneWord)
  /-- RNDI (R113). Lane round to an integral value under RM. -/
  | rndi (w : LaneWord)
  /-- EXPI (R113). Lane multiply by a power of two given as an integral float. -/
  | expi (w : LaneWord)
  /-- CVT (R118). Lane conversion between integer, bit-serial and float types with the part rule. -/
  | cvt (w : LaneWord)
  /-- QNT (R119). Lane quantisation to a narrow format under a scale and optional companding table. -/
  | qnt (w : LaneWord)
  /-- DQNT (R120). Lane dequantisation from a narrow format under a scale. -/
  | dqnt (w : LaneWord)
  /-- BS_ADD (R122). Bit-serial wrapping add. -/
  | bsAdd (w : LaneWord)
  /-- BS_SUB (R122). Bit-serial wrapping subtract. -/
  | bsSub (w : LaneWord)
  /-- BS_ADDS (R122). Bit-serial saturating add. -/
  | bsAdds (w : LaneWord)
  /-- BS_SUBS (R122). Bit-serial saturating subtract. -/
  | bsSubs (w : LaneWord)
  /-- BS_MUL (R122). Bit-serial wrapping multiply. -/
  | bsMul (w : LaneWord)
  /-- BS_MULS (R122). Bit-serial saturating multiply. -/
  | bsMuls (w : LaneWord)
  /-- BS_MIN (R122). Bit-serial minimum. -/
  | bsMin (w : LaneWord)
  /-- BS_MAX (R122). Bit-serial maximum. -/
  | bsMax (w : LaneWord)
  /-- BSCMP (R122). Bit-serial compare writing a per-element mask. -/
  | bscmp (c : IntCond) (w : LaneWord)
  /-- LANE_POPC (R123). Lane per-element population count. -/
  | lanePopc (w : LaneWord)
  /-- LANE_CLZ (R123). Lane per-element leading zero count. -/
  | laneClz (w : LaneWord)
  /-- LANE_CTZ (R123). Lane per-element trailing zero count. -/
  | laneCtz (w : LaneWord)
  /-- LANE_BREV (R123). Lane per-element bit reversal. -/
  | laneBrev (w : LaneWord)
  /-- LANE_BFX (R124). Lane bit-field extract by a descriptor register. -/
  | laneBfx (w : LaneWord)
  /-- LANE_BFI (R124). Lane bit-field insert by a descriptor register. -/
  | laneBfi (w : LaneWord)
  /-- BFXI (R124). Lane bit-field extract by immediate position and width. -/
  | bfxi (w : LaneWord)
  /-- BFII (R124). Lane bit-field insert by immediate position and width. -/
  | bfii (w : LaneWord)
  /-- HASH_CRC (R125). Lane CRC32C state advance over data bytes. -/
  | hashCrc (w : LaneWord)
  /-- HASH_MIX (R126). Lane Mix32 or Mix64 hash of two elements. -/
  | hashMix (w : LaneWord)
  /-- SCMP (R127). Lane eight-byte string compare. -/
  | scmp (w : LaneWord)
  /-- SFIND (R127). Lane eight-byte character and terminator search. -/
  | sfind (w : LaneWord)
  /-- SLEN (R127). Lane eight-byte terminator search. -/
  | slen (w : LaneWord)
  /-- RNG (R129). Lane generator outputs keyed by item, advancing RNGC per element. -/
  | rng (w : LaneWord)
  /-- LANE_CMP (R140). Lane integer compare of one element into a predicate. -/
  | laneCmp (c : IntCond) (w : LaneWord)
  /-- FCMP (R140). Lane float compare of one element into a predicate. -/
  | fcmp (c : FloatCond) (w : LaneWord)
  /-- PAND (R141). Predicate AND. -/
  | pand (w : LaneWord)
  /-- POR (R141). Predicate OR. -/
  | por (w : LaneWord)
  /-- PXOR (R141). Predicate XOR. -/
  | pxor (w : LaneWord)
  /-- PANDN (R141). Predicate AND-NOT. -/
  | pandn (w : LaneWord)
  /-- PNOT (R141). Predicate NOT. -/
  | pnot (w : LaneWord)
  /-- PMOV (R141). Predicate move. -/
  | pmov (w : LaneWord)
  /-- PSET (R141). Predicate set to an immediate bit. -/
  | pset (w : LaneWord)
  /-- PGET (R141). Move a block of predicates into a v-register. -/
  | pget (w : LaneWord)
  /-- PPUT (R141). Move a v-register into a block of predicates. -/
  | pput (w : LaneWord)
  /-- IF (R134). Open a conditional level on the nesting counters. -/
  | laneIf (w : LaneWord)
  /-- ELSE (R134). Switch active and inactive lanes of the innermost IF. -/
  | laneElse (w : LaneWord)
  /-- ENDIF (R134). Close a conditional level. -/
  | laneEndif (w : LaneWord)
  /-- LOOP (R134). Open a loop, reserving two levels for inactive lanes. -/
  | laneLoop (w : LaneWord)
  /-- BRK (R134). Switch lanes off until the loop end, as broken. -/
  | laneBrk (w : LaneWord)
  /-- CONT (R134). Switch lanes off until the loop end, as continuing. -/
  | laneCont (w : LaneWord)
  /-- ENDLOOP (R134). Rejoin lanes and branch back to the loop body header or fall through. -/
  | laneEndloop (w : LaneWord)
  /-- EXIT (R134). Vacate active guarded lanes, finishing their items. -/
  | laneExit (w : LaneWord)
  /-- STOP (R53). End the current lane run, checking depth. -/
  | laneStop (w : LaneWord)
  /-- RFIL (R138). Refill vacant lanes from the item queue and push a refill entry. -/
  | rfil (w : LaneWord)
  /-- POLL_THR (R144). Threshold count of a predicate over participants. -/
  | pollThr (w : LaneWord)
  /-- POLL_MASK (R144). Mask of participants holding a predicate. -/
  | pollMask (w : LaneWord)
  /-- POLL_RANK (R144). Dense rank of each participant holding a predicate. -/
  | pollRank (w : LaneWord)
  /-- KEYG (R144). Lowest lane holding an equal key, per participant. -/
  | keyg (w : LaneWord)
  /-- LEAD (R144). Elect the lowest-numbered participant. -/
  | lead (w : LaneWord)
  /-- LPUSH (R144). Push the lowest participant's register to the lane-to-scalar queue. -/
  | lpush (w : LaneWord)
  /-- XLN_GET (R145). Cross-lane window fetch from a base element. -/
  | xlnGet (w : LaneWord)
  /-- XLN_FLIP (R145). Cross-lane butterfly exchange by XOR of element number. -/
  | xlnFlip (w : LaneWord)
  /-- XLN_ROT (R145). Cross-lane rotation of all group elements. -/
  | xlnRot (w : LaneWord)
  /-- XLN_SLIDE (R145). Cross-lane signed slide of elements. -/
  | xlnSlide (w : LaneWord)
  /-- BCST (R145). Broadcast one lane's register to participants. -/
  | bcst (w : LaneWord)
  /-- GRED (R146). Group reduction of an element across participants. -/
  | gred (op : RedOp) (w : LaneWord)
  /-- GSCAN (R146). Group inclusive or exclusive scan across participants. -/
  | gscan (op : RedOp) (excl : Bool) (w : LaneWord)
  /-- GSYNC (R147). Synchronise lane accesses among the lanes of a mask. -/
  | gsync (w : LaneWord)
  /-- AZERO (R155). Clear an accumulator. -/
  | azero (w : LaneWord)
  /-- AADD (R156). Add each element of a register into an accumulator. -/
  | aadd (w : LaneWord)
  /-- AADDA (R157). Add one accumulator into another. -/
  | aadda (w : LaneWord)
  /-- ANEG (R157). Write the negation of an accumulator. -/
  | aneg (w : LaneWord)
  /-- AMAC (R158). Add exact element products into an accumulator. -/
  | amac (w : LaneWord)
  /-- ADOT (R159). Add a scaled quantised dot product into an accumulator. -/
  | adot (w : LaneWord)
  /-- CRES (R155). Resolve an accumulator's carry counters c0 to c8. -/
  | cres (w : LaneWord)
  /-- ARND (R160). Round an accumulator once into one element. -/
  | arnd (w : LaneWord)
  /-- ARND_DIV (R160). Round an accumulator divided exactly by an integer. -/
  | arndDiv (w : LaneWord)
  /-- ALD (R161). Load a 128-byte accumulator image. -/
  | ald (w : LaneWord)
  /-- AST (R161). Store an accumulator's raw image. -/
  | ast (w : LaneWord)
  /-- ASEG (R162). Read a segment of the canonical image. -/
  | aseg (w : LaneWord)
  /-- ASTAT (R162). Read an accumulator's status bits. -/
  | astat (w : LaneWord)
  /-- AGETI (R162). Read an accumulator's integer content with an optional range predicate. -/
  | ageti (w : LaneWord)
  /-- ARED (R163). Exact group reduction of accumulators. -/
  | ared (w : LaneWord)
  /-- LANE_LD (R166). Lane load from global memory. -/
  | laneLd (w : LaneWord)
  /-- LANE_ST (R166). Lane store to global memory. -/
  | laneSt (w : LaneWord)
  /-- LANE_LDS (R166). Lane load from the scratchpad. -/
  | laneLds (w : LaneWord)
  /-- LANE_STS (R166). Lane store to the scratchpad. -/
  | laneSts (w : LaneWord)
  /-- LANE_ATOM (R171). Lane atomic read-modify-write at a scope. -/
  | laneAtom (op : AtomOp) (w : LaneWord)
  /-- LANE_CAS (R171). Lane compare-and-swap at a scope. -/
  | laneCas (w : LaneWord)
  /-- RADD (R173). Lane commutative add of register elements into a commutative element. -/
  | radd (w : LaneWord)
  /-- RADD_ACC (R173). Lane commutative add of an accumulator into an ACC element. -/
  | raddAcc (w : LaneWord)
  /-- LANE_FENCE (R174). Per-lane fence ordering lane accesses at a scope. -/
  | laneFence (w : LaneWord)
  /-- LANE_WAITA (R175). Lane wait on an address, parking the group on a compare match. -/
  | laneWaita (w : LaneWord)
  /-- BARA (R178). Lane arrival at a team barrier slot. -/
  | bara (w : LaneWord)
  /-- BARW (R178). Lane wait on a team barrier phase, parking. -/
  | barw (w : LaneWord)
  /-- CBARA (R178). Lane arrival at a cluster barrier slot. -/
  | cbara (w : LaneWord)
  /-- CBARW (R178). Lane wait on a cluster barrier phase, parking. -/
  | cbarw (w : LaneWord)
  /-- LANE_SWAIT (R180). Lane wait until a sync word's generation differs, parking. -/
  | laneSwait (w : LaneWord)
  /-- MMA (R198). Queue a tile multiply-accumulate of register A against a reservation fragment. -/
  | mma (w : LaneWord)
  /-- MMA_KREG (R198). MMA form taking cb and ks from a clause constant. -/
  | mmaKreg (w : LaneWord)
  /-- MFEN (R201). Close the group's unfenced MMAs into a batch and push its number. -/
  | mfen (w : LaneWord)
  /-- MWAIT (R201). Stall until batches up to a clause-constant number complete. -/
  | mwait (w : LaneWord)
  /-- MWAIT_LAST (R201). Stall until every fenced batch completes. -/
  | mwaitLast (w : LaneWord)
  /-- MZERO (R202). Zero every accumulator of a tile. -/
  | mzero (w : LaneWord)
  /-- MST_RND (R203). Store tile rows rounded to a float format. -/
  | mstRnd (w : LaneWord)
  /-- MST_RAW (R203). Store tile rows as raw accumulator images. -/
  | mstRaw (w : LaneWord)
  /-- MST_ADD (R203). Commutatively add tile rows into ACC elements. -/
  | mstAdd (w : LaneWord)
  /-- VPJS (R212). Issue Spire initialisation of a state record. -/
  | vpjs (w : LaneWord)
  /-- VPJR (R213). Issue Spire streaming of vocabulary rows against h. -/
  | vpjr (w : LaneWord)
  /-- VPJM (R215). Issue Spire merge of one record into another. -/
  | vpjm (w : LaneWord)
  /-- VPJX (R216). Issue Spire extract of a record. -/
  | vpjx (w : LaneWord)
  /-- VPJB (R217). Issue Spire backward pass regenerating logits and forming gradients. -/
  | vpjb (w : LaneWord)
  /-- RESERVED_LANE_WORD (R57). A lane long word with opcode 0x00 or a reserved opcode is reached by a run and raises ILLEGAL_OP. -/
  | reservedLaneWord (w : LaneBits)
  /-- RESERVED_SCALAR_WORD (R55). A scalar word with a reserved opcode, an unlisted function or a nonzero unused field is decoded and raises ILLEGAL_OP. -/
  | reservedScalarWord
  /-- SDONE (R93). End the scalar stream; the group retires once runs finish and flags clear. -/
  | sdone
  /-- NOP (R93). Scalar no-operation. -/
  | nop
  /-- ERET (R98). End the handler; resume groups or enter for the next held trap. -/
  | eret
  /-- RUN_START (R53). The group starts the next enqueued run at its target clause. -/
  | runStart (team : Nat) (grp : Nat)
  /-- CLAUSE_START (R53). A clause starts once its wait mask clears, raising FA and FB. -/
  | clauseStart (team : Nat) (grp : Nat)
  /-- LOAD_DATA_RETURN (R53). A lane load or atomic's data lands in registers; FA falls when the clause's last lands. -/
  | loadDataReturn (team : Nat) (grp : Nat) (id : Nat)
  /-- STORE_PERFORMED (R54). A lane store or commutative add is performed at its scope; FB falls when the clause's last is. -/
  | storePerformed (team : Nat) (grp : Nat) (id : Nat)
  /-- ENGINE_PIECE_LAND (R179). A piece of an engine or fabric command lands and counts toward its sync word. -/
  | enginePieceLand (team : Nat) (cmd : Nat)
  /-- CPY_COMPLETE (R183). A copy command completes, lowering its flag and releasing its range locks. -/
  | cpyComplete (team : Nat) (cmd : Nat)
  /-- GATH_COMPLETE (R184). A gather completes, writing its result word before its flag falls. -/
  | gathComplete (team : Nat) (cmd : Nat)
  /-- PART_COMPLETE (R184). A partition scatter completes, writing its dropped count. -/
  | partComplete (team : Nat) (cmd : Nat)
  /-- PUTS_COMPLETE (R186). A put is acknowledged at the target, signal included, and its flag falls. -/
  | putsComplete (team : Nat) (cmd : Nat)
  /-- GET_COMPLETE (R186). A get's bytes are performed locally and its flag falls. -/
  | getComplete (team : Nat) (cmd : Nat)
  /-- FABRIC_RADD_COMPLETE (R186). Every element of a fabric RADD is merged at the target and its flag falls. -/
  | fabricRaddComplete (team : Nat) (cmd : Nat)
  /-- ENGINE_FAULT (R185). An engine command meets a fault and reports it to the issuing group at its next boundary. -/
  | engineFault (team : Nat) (cmd : Nat) (cause : BitVec 8) (addr : Word) (detail : BitVec 32)
  /-- MMA_COMPLETE (R200). The matrix engine finishes an MMA, updating its tile and settling its batch and lock entry. -/
  | mmaComplete (team : Nat) (grp : Nat) (id : Nat)
  /-- SPIRE_COMPLETE (R211). A Spire command completes, writing its record whole and lowering FB. -/
  | spireComplete (core : Nat)
  /-- PLVAL_VIEW_WRITE (R188). A waiting PLVAL writes the tile view once E and the plane count are available. -/
  | plvalViewWrite (team : Nat) (cmd : Nat)
  /-- PARK_WAKE (R176). A parked group wakes on a wake event and re-reads or re-checks. -/
  | parkWake (team : Nat) (grp : Nat)
  /-- WAITA_TIMEOUT (R175). Expiry of a WAITA timeout wakes the parked group. -/
  | waitaTimeout (team : Nat) (grp : Nat)
  /-- HANG (R305). Watchdog expiry on a stalled group raises HANG. -/
  | hang (team : Nat) (grp : Nat)
  /-- ORDERED_OP_RELEASE (R395). Under mode 2 an ordered operation proceeds once its stamp is least. -/
  | orderedOpRelease (team : Nat) (grp : Nat)
  /-- HANDLER_ENTRY (R380). Once every group is stopped and settled the handler starts for the earliest trap. -/
  | handlerEntry (team : Nat)
  /-- HANDLER_WDOG_EXPIRY (R384). A handler exceeding its class watchdog is a double fault. -/
  | handlerWdogExpiry (team : Nat)
  /-- LAUNCH_ACCEPT (R293). The command processor accepts or refuses a submission queue entry's launch. -/
  | launchAccept (ctx : Nat) (queue : Nat)
  /-- TEAM_PLACE (R234). The command processor places a further team when room frees and dependences are met. -/
  | teamPlace (launch : Nat)
  /-- LAUNCH_END (R229). The launch ends when no team is live and none will be placed, writing its completion record. -/
  | launchEnd (launch : Nat)
  /-- SWAP_ELIGIBLE (R304). Expiry of the park threshold makes a fully parked team eligible for swap-out. -/
  | swapEligible (team : Nat)
  /-- PREEMPT (R306). Pre-emption stops a team, drains work and writes its save area. -/
  | preempt (team : Nat)
  /-- RESTORE (R316). A saved team image is restored onto a qualifying core. -/
  | restore (team : Nat) (core : Nat)
  /-- DOME_TLBI (R323). Write of DOME.TLBI with GO invalidates matching translations, lines and retries waiting accesses. -/
  | domeTlbi (v : Word)
  /-- SWEEPER_PASS (R322). Expiry of the sweep period starts a pass lowering heat in every leaf. -/
  | sweeperPass
  /-- L1_CLEAN_EXPIRY (R332). A clean line of a shared or host page leaves the L1 within 4,096 cycles of its fill. -/
  | l1CleanExpiry (core : Nat) (asid : Nat) (line : Nat)
  /-- HOST_ACCESS (R336). A host CXL access reaches the Dome and is performed at sys. -/
  | hostAccess (r : HostReq)
  /-- HOST_SNOOP (R335). A host snoop of a device-cached host line is answered by the host agent. -/
  | hostSnoop (line : Nat) (inval : Bool)
  /-- BACK_INVALIDATE_RESPONSE (R336). The host's answer to a back-invalidate snoop lets the waiting device access proceed. -/
  | backInvalidateResponse (line : Nat) (data : List Byte)
  /-- FABRIC_REQUEST (R345). A fabric request arrives at the target Dome and is translated, checked and performed or parked. -/
  | fabricRequest (r : FabricReq)
  /-- FABRIC_RESPONSE (R347). An acknowledgement, data or NACK returns to the requester. -/
  | fabricResponse (r : FabricResp)
  /-- LINK_DOWN (R360). A UALink port goes down, faulting commands and freezing collectives that cross it: a port of this device, or, for a
  collective, one that a position of its ring reports. -/
  | linkDown (x : LinkLoss)
  /-- PLANE_HEADER (R352). A collective header arrives at a canal for max-reduction and broadcast. -/
  | planeHeader (k : PlaneKey) (h : HeaderBody)
  /-- COUNT_PLANE (R354). A count plane arrives at a canal, which adds its bits and forwards it. -/
  | countPlane (k : PlaneKey) (plane : Nat) (counts : List Nat)
  /-- GATHER_PLANE (R355). A gather plane arrives at a device, advancing LANDED and completing the tile. -/
  | gatherPlane (k : PlaneKey) (plane : Nat) (vals : List Int)
  /-- CANCEL_REQUEST (R359). A tile cancel arrives at the tile's owner for arbitration. -/
  | cancelRequest (k : PlaneKey) (c : Nat) (pos : Nat) (detm : Bool)
  /-- FREEZE (R359). A freeze and its gather planes arrive, freezing the tile's view and destination. -/
  | freeze (k : PlaneKey) (f : Nat) (vals : List Int)
  /-- CANCEL_ANSWER (R359). The owner's answer to a conflicting cancel returns to the issuing device. -/
  | cancelAnswer (k : PlaneKey) (r : CancelReply)
  /-- DOME_L2QUOTA (R260). Write of the L2 way quota register, discarded whole when invalid. -/
  | domeL2quota (v : Word)
  /-- CP_CLASSCFG (R301). Write of a class configuration register, discarded whole when invalid. -/
  | cpClasscfg (cls : BitVec 2) (v : Word)
  /-- DOME_CLS0RSV (R302). Write of the class-0 reserve shares, discarded when a field exceeds 8. -/
  | domeCls0rsv (v : Word)
  /-- DOME_SWEEP (R322). Write of the sweeper control register. -/
  | domeSweep (v : Word)
  /-- FAB_PODCFG (R343). Write of the pod configuration register, discarded whole when invalid. -/
  | fabPodcfg (v : Word)
  /-- DOME_CNTSNAP (R404). Write of GO requesting a counter snapshot at the next tick. -/
  | domeCntsnap (v : Word)
  /-- CNTSNAP_COPY (R404). At the next tick every core's leaves are copied to the snapshot area. -/
  | cntsnapCopy
  /-- DBG_TRACECTL (R405). Write of the trace control register. -/
  | dbgTracectl (v : Word)
  /-- TRACE_SAMPLE (R405). Expiry of the sampling period writes a kind-5 trace record per core. -/
  | traceSample
  /-- DBG_STOPCTL (R408). Write arming a stop at DBG.STOPTICK, discarded when invalid. -/
  | dbgStopctl (v : Word)
  /-- DBG_STOP (R408). At the stop tick every core and Dome clock is gated. -/
  | dbgStop
  /-- PWR_CLKCTL (R412). Write of the throttling limits register. -/
  | pwrClkctl (v : Word)
  /-- THROTTLE_EVAL (R413). Every 1,000th tick the clock step is re-evaluated. -/
  | throttleEval
  /-- REGISTER_WRITE (R11). Write of a control register with no behaviour of its own. -/
  | registerWrite (addr : Nat) (v : Word)
  /-- DEV_RST_N (R414). Assertion of DEV_RST_N requests a full device reset. -/
  | devRstN
  /-- PG_DEASSERT (R410). Deassertion of any power-good input requests a full device reset. -/
  | pgDeassert
  /-- PG_ALL_ASSERTED (R410). All power-good inputs asserted releases the device from held reset. -/
  | pgAllAsserted
  /-- CXL_CONVENTIONAL_RESET (R414). A CXL conventional reset on either port requests a full device reset. -/
  | cxlConventionalReset
  /-- CXL_FLR_PORT0 (R414). A function-level reset on port 0 requests a full device reset. -/
  | cxlFlrPort0
  /-- CXL_FLR_PORT1 (R414). A function-level reset on port 1 resets only that function's configuration registers. -/
  | cxlFlrPort1
  /-- THERMAL_TRIP (R414). A junction sensor above 115 C requests a full device reset and asserts THERM_TRIP_N. -/
  | thermalTrip
  /-- THERM_N_DEASSERT (R414). THERM_N deasserting allows a thermal-trip reset to proceed on the next DEV_RST_N pulse. -/
  | thermNDeassert
  /-- BEGIN (R416). DOE BEGIN message carrying an image header, checked before it is answered. -/
  | doeBegin (len : BitVec 32) (hdr : List Byte)
  /-- CHUNK (R416). DOE CHUNK message carrying up to 4,096 body bytes. -/
  | doeChunk (off : BitVec 32) (body : List Byte)
  /-- END (R416). DOE END message completing and verifying an image load. -/
  | doeEnd
  /-- ATTEST (R419). DOE ATTEST message returning a report signed by the identity key. -/
  | doeAttest (ctx : BitVec 32) (nonce : List Byte)
  /-- COMMIT (R417). DOE COMMIT message raising the fused minimum security versions. -/
  | doeCommit
  /-- FIRMWARE_READY (R415). The operations firmware completes initialisation and reports ready. -/
  | firmwareReady
  /-- LIVE_UPDATE_TIMEOUT (R418). A new operations image not ready within 1 s makes the old image restart. -/
  | liveUpdateTimeout
  /-- CONFIDENTIAL_CONTEXT_CREATE (R419). The root binds a tenant key to a new confidential context and creates its memory key. -/
  | confidentialContextCreate (ctx : Nat) (key : List Byte)
  /-- FAULT_RING_DRAIN (R431). Held fault records are written once the consumer index frees room. -/
  | faultRingDrain
  /-- SCRUB_PASS (R386). Each 24-hour period the scrubber reads and corrects every HBM granule and L2 line. -/
  | scrubPass
  /-- GLOBAL_TICK (R3). The 64-bit global tick advances by one every 1.00 ns on one edge for all towers and the Dome. -/
  | globalTick
  /-- CORE_CLOCK_CYCLE (R297). Each core-clock cycle every datapath makes its issue choice, updates starve counts and charges one slot leaf. -/
  | coreClockCycle
  /-- RESOLUTION_STEP (R33). The hardware resolves an accumulator carry counter into the next segment at a moment of its own choosing. -/
  | resolutionStep (team : Nat) (grp : Nat) (lane : Nat) (acc : Nat) (ctr : Nat)
  /-- TLBI_COMPLETE (R323). The invalidation started by DOME.TLBI completes, GO returns to 0 and waiting agents and parked canal requests walk again. -/
  | tlbiComplete
  /-- LINK_RESTORED (R360). The firmware restores a downed UALink port and re-enables its route-table entries. -/
  | linkRestored (port : Nat)
  /-- VC_CREDIT_RETURN (R341). A receiver returns virtual-channel credits for one hop, letting a stopped channel resume sending. -/
  | vcCreditReturn (port : Nat) (vc : Nat) (beats : Nat)
  /-- DRIVER_LAUNCH_END (R229). The driver ends a running launch, which completes with status 0x0000_0004. -/
  | driverLaunchEnd (launch : Nat)
  /-- CONFIDENTIAL_CONTEXT_END (R420). A confidential context ends and the root rewrites the firewall entries and discards its keys. -/
  | confidentialContextEnd (ctx : Nat)
  /-- FUNCTION_ENABLE (R414). The host enables port 1's function again after its FLR, and coherence through port 1 resumes. -/
  | functionEnable
  /-- ECC_ERROR (R385). A bit error arises in a protected store, to be corrected or poisoned when the word is next read. -/
  | eccError (u : EccUnit) (hard : Bool)
  /-- CORE_POWER_GATING (R336). The firmware gates the power of a core without teams after writing back its modified private lines and clearing its
  directory records. -/
  | corePowerGating (core : Nat)
  /-- TRACE_RING_SPACE_RETURN (R405). Space returns in a full trace ring and one kind-8 record with the lost count is written. -/
  | traceRingSpaceReturn (unit : Nat) (records : Nat)
deriving DecidableEq, Repr

/-- The events that no stream fetches: what hardware, host, driver and fabric do, each the event row of the same name. The device's agenda holds
them as this type, because Lean's runtime cannot build the constructors of a type past its 245th. -/
inductive Event where
  /-- RUN_START (R53). The group starts the next enqueued run at its target clause. -/
  | runStart (team : Nat) (grp : Nat)
  /-- CLAUSE_START (R53). A clause starts once its wait mask clears, raising FA and FB. -/
  | clauseStart (team : Nat) (grp : Nat)
  /-- LOAD_DATA_RETURN (R53). A lane load or atomic's data lands in registers; FA falls when the clause's last lands. -/
  | loadDataReturn (team : Nat) (grp : Nat) (id : Nat)
  /-- STORE_PERFORMED (R54). A lane store or commutative add is performed at its scope; FB falls when the clause's last is. -/
  | storePerformed (team : Nat) (grp : Nat) (id : Nat)
  /-- ENGINE_PIECE_LAND (R179). A piece of an engine or fabric command lands and counts toward its sync word. -/
  | enginePieceLand (team : Nat) (cmd : Nat)
  /-- CPY_COMPLETE (R183). A copy command completes, lowering its flag and releasing its range locks. -/
  | cpyComplete (team : Nat) (cmd : Nat)
  /-- GATH_COMPLETE (R184). A gather completes, writing its result word before its flag falls. -/
  | gathComplete (team : Nat) (cmd : Nat)
  /-- PART_COMPLETE (R184). A partition scatter completes, writing its dropped count. -/
  | partComplete (team : Nat) (cmd : Nat)
  /-- PUTS_COMPLETE (R186). A put is acknowledged at the target, signal included, and its flag falls. -/
  | putsComplete (team : Nat) (cmd : Nat)
  /-- GET_COMPLETE (R186). A get's bytes are performed locally and its flag falls. -/
  | getComplete (team : Nat) (cmd : Nat)
  /-- FABRIC_RADD_COMPLETE (R186). Every element of a fabric RADD is merged at the target and its flag falls. -/
  | fabricRaddComplete (team : Nat) (cmd : Nat)
  /-- ENGINE_FAULT (R185). An engine command meets a fault and reports it to the issuing group at its next boundary. -/
  | engineFault (team : Nat) (cmd : Nat) (cause : BitVec 8) (addr : Word) (detail : BitVec 32)
  /-- MMA_COMPLETE (R200). The matrix engine finishes an MMA, updating its tile and settling its batch and lock entry. -/
  | mmaComplete (team : Nat) (grp : Nat) (id : Nat)
  /-- SPIRE_COMPLETE (R211). A Spire command completes, writing its record whole and lowering FB. -/
  | spireComplete (core : Nat)
  /-- PLVAL_VIEW_WRITE (R188). A waiting PLVAL writes the tile view once E and the plane count are available. -/
  | plvalViewWrite (team : Nat) (cmd : Nat)
  /-- PARK_WAKE (R176). A parked group wakes on a wake event and re-reads or re-checks. -/
  | parkWake (team : Nat) (grp : Nat)
  /-- WAITA_TIMEOUT (R175). Expiry of a WAITA timeout wakes the parked group. -/
  | waitaTimeout (team : Nat) (grp : Nat)
  /-- HANG (R305). Watchdog expiry on a stalled group raises HANG. -/
  | hang (team : Nat) (grp : Nat)
  /-- ORDERED_OP_RELEASE (R395). Under mode 2 an ordered operation proceeds once its stamp is least. -/
  | orderedOpRelease (team : Nat) (grp : Nat)
  /-- HANDLER_ENTRY (R380). Once every group is stopped and settled the handler starts for the earliest trap. -/
  | handlerEntry (team : Nat)
  /-- HANDLER_WDOG_EXPIRY (R384). A handler exceeding its class watchdog is a double fault. -/
  | handlerWdogExpiry (team : Nat)
  /-- LAUNCH_ACCEPT (R293). The command processor accepts or refuses a submission queue entry's launch. -/
  | launchAccept (ctx : Nat) (queue : Nat)
  /-- TEAM_PLACE (R234). The command processor places a further team when room frees and dependences are met. -/
  | teamPlace (launch : Nat)
  /-- LAUNCH_END (R229). The launch ends when no team is live and none will be placed, writing its completion record. -/
  | launchEnd (launch : Nat)
  /-- SWAP_ELIGIBLE (R304). Expiry of the park threshold makes a fully parked team eligible for swap-out. -/
  | swapEligible (team : Nat)
  /-- PREEMPT (R306). Pre-emption stops a team, drains work and writes its save area. -/
  | preempt (team : Nat)
  /-- RESTORE (R316). A saved team image is restored onto a qualifying core. -/
  | restore (team : Nat) (core : Nat)
  /-- DOME_TLBI (R323). Write of DOME.TLBI with GO invalidates matching translations, lines and retries waiting accesses. -/
  | domeTlbi (v : Word)
  /-- SWEEPER_PASS (R322). Expiry of the sweep period starts a pass lowering heat in every leaf. -/
  | sweeperPass
  /-- L1_CLEAN_EXPIRY (R332). A clean line of a shared or host page leaves the L1 within 4,096 cycles of its fill. -/
  | l1CleanExpiry (core : Nat) (asid : Nat) (line : Nat)
  /-- HOST_ACCESS (R336). A host CXL access reaches the Dome and is performed at sys. -/
  | hostAccess (r : HostReq)
  /-- HOST_SNOOP (R335). A host snoop of a device-cached host line is answered by the host agent. -/
  | hostSnoop (line : Nat) (inval : Bool)
  /-- BACK_INVALIDATE_RESPONSE (R336). The host's answer to a back-invalidate snoop lets the waiting device access proceed. -/
  | backInvalidateResponse (line : Nat) (data : List Byte)
  /-- FABRIC_REQUEST (R345). A fabric request arrives at the target Dome and is translated, checked and performed or parked. -/
  | fabricRequest (r : FabricReq)
  /-- FABRIC_RESPONSE (R347). An acknowledgement, data or NACK returns to the requester. -/
  | fabricResponse (r : FabricResp)
  /-- LINK_DOWN (R360). A UALink port goes down, faulting commands and freezing collectives that cross it: a port of this device, or, for a
  collective, one that a position of its ring reports. -/
  | linkDown (x : LinkLoss)
  /-- PLANE_HEADER (R352). A collective header arrives at a canal for max-reduction and broadcast. -/
  | planeHeader (k : PlaneKey) (h : HeaderBody)
  /-- COUNT_PLANE (R354). A count plane arrives at a canal, which adds its bits and forwards it. -/
  | countPlane (k : PlaneKey) (plane : Nat) (counts : List Nat)
  /-- GATHER_PLANE (R355). A gather plane arrives at a device, advancing LANDED and completing the tile. -/
  | gatherPlane (k : PlaneKey) (plane : Nat) (vals : List Int)
  /-- CANCEL_REQUEST (R359). A tile cancel arrives at the tile's owner for arbitration. -/
  | cancelRequest (k : PlaneKey) (c : Nat) (pos : Nat) (detm : Bool)
  /-- FREEZE (R359). A freeze and its gather planes arrive, freezing the tile's view and destination. -/
  | freeze (k : PlaneKey) (f : Nat) (vals : List Int)
  /-- CANCEL_ANSWER (R359). The owner's answer to a conflicting cancel returns to the issuing device. -/
  | cancelAnswer (k : PlaneKey) (r : CancelReply)
  /-- DOME_L2QUOTA (R260). Write of the L2 way quota register, discarded whole when invalid. -/
  | domeL2quota (v : Word)
  /-- CP_CLASSCFG (R301). Write of a class configuration register, discarded whole when invalid. -/
  | cpClasscfg (cls : BitVec 2) (v : Word)
  /-- DOME_CLS0RSV (R302). Write of the class-0 reserve shares, discarded when a field exceeds 8. -/
  | domeCls0rsv (v : Word)
  /-- DOME_SWEEP (R322). Write of the sweeper control register. -/
  | domeSweep (v : Word)
  /-- FAB_PODCFG (R343). Write of the pod configuration register, discarded whole when invalid. -/
  | fabPodcfg (v : Word)
  /-- DOME_CNTSNAP (R404). Write of GO requesting a counter snapshot at the next tick. -/
  | domeCntsnap (v : Word)
  /-- CNTSNAP_COPY (R404). At the next tick every core's leaves are copied to the snapshot area. -/
  | cntsnapCopy
  /-- DBG_TRACECTL (R405). Write of the trace control register. -/
  | dbgTracectl (v : Word)
  /-- TRACE_SAMPLE (R405). Expiry of the sampling period writes a kind-5 trace record per core. -/
  | traceSample
  /-- DBG_STOPCTL (R408). Write arming a stop at DBG.STOPTICK, discarded when invalid. -/
  | dbgStopctl (v : Word)
  /-- DBG_STOP (R408). At the stop tick every core and Dome clock is gated. -/
  | dbgStop
  /-- PWR_CLKCTL (R412). Write of the throttling limits register. -/
  | pwrClkctl (v : Word)
  /-- THROTTLE_EVAL (R413). Every 1,000th tick the clock step is re-evaluated. -/
  | throttleEval
  /-- REGISTER_WRITE (R11). Write of a control register with no behaviour of its own. -/
  | registerWrite (addr : Nat) (v : Word)
  /-- DEV_RST_N (R414). Assertion of DEV_RST_N requests a full device reset. -/
  | devRstN
  /-- PG_DEASSERT (R410). Deassertion of any power-good input requests a full device reset. -/
  | pgDeassert
  /-- PG_ALL_ASSERTED (R410). All power-good inputs asserted releases the device from held reset. -/
  | pgAllAsserted
  /-- CXL_CONVENTIONAL_RESET (R414). A CXL conventional reset on either port requests a full device reset. -/
  | cxlConventionalReset
  /-- CXL_FLR_PORT0 (R414). A function-level reset on port 0 requests a full device reset. -/
  | cxlFlrPort0
  /-- CXL_FLR_PORT1 (R414). A function-level reset on port 1 resets only that function's configuration registers. -/
  | cxlFlrPort1
  /-- THERMAL_TRIP (R414). A junction sensor above 115 C requests a full device reset and asserts THERM_TRIP_N. -/
  | thermalTrip
  /-- THERM_N_DEASSERT (R414). THERM_N deasserting allows a thermal-trip reset to proceed on the next DEV_RST_N pulse. -/
  | thermNDeassert
  /-- BEGIN (R416). DOE BEGIN message carrying an image header, checked before it is answered. -/
  | doeBegin (len : BitVec 32) (hdr : List Byte)
  /-- CHUNK (R416). DOE CHUNK message carrying up to 4,096 body bytes. -/
  | doeChunk (off : BitVec 32) (body : List Byte)
  /-- END (R416). DOE END message completing and verifying an image load. -/
  | doeEnd
  /-- ATTEST (R419). DOE ATTEST message returning a report signed by the identity key. -/
  | doeAttest (ctx : BitVec 32) (nonce : List Byte)
  /-- COMMIT (R417). DOE COMMIT message raising the fused minimum security versions. -/
  | doeCommit
  /-- FIRMWARE_READY (R415). The operations firmware completes initialisation and reports ready. -/
  | firmwareReady
  /-- LIVE_UPDATE_TIMEOUT (R418). A new operations image not ready within 1 s makes the old image restart. -/
  | liveUpdateTimeout
  /-- CONFIDENTIAL_CONTEXT_CREATE (R419). The root binds a tenant key to a new confidential context and creates its memory key. -/
  | confidentialContextCreate (ctx : Nat) (key : List Byte)
  /-- FAULT_RING_DRAIN (R431). Held fault records are written once the consumer index frees room. -/
  | faultRingDrain
  /-- SCRUB_PASS (R386). Each 24-hour period the scrubber reads and corrects every HBM granule and L2 line. -/
  | scrubPass
  /-- GLOBAL_TICK (R3). The 64-bit global tick advances by one every 1.00 ns on one edge for all towers and the Dome. -/
  | globalTick
  /-- CORE_CLOCK_CYCLE (R297). Each core-clock cycle every datapath makes its issue choice, updates starve counts and charges one slot leaf. -/
  | coreClockCycle
  /-- RESOLUTION_STEP (R33). The hardware resolves an accumulator carry counter into the next segment at a moment of its own choosing. -/
  | resolutionStep (team : Nat) (grp : Nat) (lane : Nat) (acc : Nat) (ctr : Nat)
  /-- TLBI_COMPLETE (R323). The invalidation started by DOME.TLBI completes, GO returns to 0 and waiting agents and parked canal requests walk again. -/
  | tlbiComplete
  /-- LINK_RESTORED (R360). The firmware restores a downed UALink port and re-enables its route-table entries. -/
  | linkRestored (port : Nat)
  /-- VC_CREDIT_RETURN (R341). A receiver returns virtual-channel credits for one hop, letting a stopped channel resume sending. -/
  | vcCreditReturn (port : Nat) (vc : Nat) (beats : Nat)
  /-- DRIVER_LAUNCH_END (R229). The driver ends a running launch, which completes with status 0x0000_0004. -/
  | driverLaunchEnd (launch : Nat)
  /-- CONFIDENTIAL_CONTEXT_END (R420). A confidential context ends and the root rewrites the firewall entries and discards its keys. -/
  | confidentialContextEnd (ctx : Nat)
  /-- FUNCTION_ENABLE (R414). The host enables port 1's function again after its FLR, and coherence through port 1 resumes. -/
  | functionEnable
  /-- ECC_ERROR (R385). A bit error arises in a protected store, to be corrected or poisoned when the word is next read. -/
  | eccError (u : EccUnit) (hard : Bool)
  /-- CORE_POWER_GATING (R336). The firmware gates the power of a core without teams after writing back its modified private lines and clearing its
  directory records. -/
  | corePowerGating (core : Nat)
  /-- TRACE_RING_SPACE_RETURN (R405). Space returns in a full trace ring and one kind-8 record with the lost count is written. -/
  | traceRingSpaceReturn (unit : Nat) (records : Nat)
deriving DecidableEq, Repr

/-- The k-select bits of VA, VB and VC (R47). -/
def LaneWord.kA (w : LaneWord) : Bool := w.imm.toNat.testBit 31
def LaneWord.kB (w : LaneWord) : Bool := w.imm.toNat.testBit 30
def LaneWord.kC (w : LaneWord) : Bool := w.imm.toNat.testBit 29

end Sys2Proof
end

