-- ==== Sys2Proof/Decode.lean ====
section
/-! DEFINITION. The decoder of scalar words, lane words and clause headers, total on any bits, and after it the encoder, written from the
same tables (R45–R58, R160, R169, R193–R219). -/

namespace Sys2Proof

open Machine

/-- Why bits are no instruction: the checks of R46, and the reserved encodings of R57 and R58. -/
inductive Reject where
  | reservedOpcode | badFunction | nonzeroField | badQ | badSize | badFlag
  | reservedLaneOpcode | badLaneFunction
deriving DecidableEq, Repr

/-- The scope codes (R56); 6 and 7 are reserved. -/
def Scope.ofCode : Nat → Option Scope
  | 0 => some .grp
  | 1 => some .team
  | 2 => some .clu
  | 3 => some .dev
  | 4 => some .pod
  | 5 => some .sys
  | _ => none
def Scope.code : Scope → Nat
  | .grp => 0
  | .team => 1
  | .clu => 2
  | .dev => 3
  | .pod => 4
  | .sys => 5

/-- The size codes of a store (R46). -/
def Size.ofCode : Nat → Option Size
  | 0 => some .b8
  | 1 => some .b16
  | 2 => some .b32
  | 3 => some .b64
  | _ => none
def Size.code : Size → Nat
  | .b8 => 0
  | .b16 => 1
  | .b32 => 2
  | .b64 => 3

/-- The size codes of a load (R46). -/
def LoadSize.ofCode : Nat → Option LoadSize
  | 0 => some .u8
  | 1 => some .u16
  | 2 => some .u32
  | 3 => some .u64
  | 4 => some .s8
  | 5 => some .s16
  | 6 => some .s32
  | _ => none
def LoadSize.code : LoadSize → Nat
  | .u8 => 0
  | .u16 => 1
  | .u32 => 2
  | .u64 => 3
  | .s8 => 4
  | .s16 => 5
  | .s32 => 6

/-- The conditions of CMP and CMPI (R56). -/
def ScalarCond.ofCode : Nat → Option ScalarCond
  | 0 => some .eq
  | 1 => some .ne
  | 2 => some .lt
  | 3 => some .ge
  | 4 => some .ltn
  | 5 => some .gen
  | _ => none
def ScalarCond.code : ScalarCond → Nat
  | .eq => 0
  | .ne => 1
  | .lt => 2
  | .ge => 3
  | .ltn => 4
  | .gen => 5

/-- The functions of QOP (R56). -/
def QFun.ofCode : Nat → Option QFun
  | 0 => some .and
  | 1 => some .or
  | 2 => some .xor
  | 3 => some .andn
  | 4 => some .not
  | 5 => some .mov
  | _ => none
def QFun.code : QFun → Nat
  | .and => 0
  | .or => 1
  | .xor => 2
  | .andn => 3
  | .not => 4
  | .mov => 5
/-- `not` and `mov` take one source (R81). -/
def QFun.unary : QFun → Bool
  | .not => true
  | .mov => true
  | _ => false

/-- The operations of ATOM (R56, R58). -/
def AtomOp.ofCode : Nat → Option AtomOp
  | 0 => some .add
  | 1 => some .min
  | 2 => some .max
  | 3 => some .and
  | 4 => some .or
  | 5 => some .xor
  | 6 => some .xchg
  | _ => none
def AtomOp.code : AtomOp → Nat
  | .add => 0
  | .min => 1
  | .max => 2
  | .and => 3
  | .or => 4
  | .xor => 5
  | .xchg => 6

/-- The conditions of the lane CMP and BSCMP (R58). -/
def IntCond.ofCode : Nat → Option IntCond
  | 0 => some .eq
  | 1 => some .ne
  | 2 => some .lt
  | 3 => some .le
  | 4 => some .gt
  | 5 => some .ge
  | _ => none
def IntCond.code : IntCond → Nat
  | .eq => 0
  | .ne => 1
  | .lt => 2
  | .le => 3
  | .gt => 4
  | .ge => 5

/-- The conditions of FCMP (R58). -/
def FloatCond.ofCode : Nat → Option FloatCond
  | 0 => some .eq
  | 1 => some .ne
  | 2 => some .lt
  | 3 => some .le
  | 4 => some .gt
  | 5 => some .ge
  | 6 => some .un
  | 7 => some .ord
  | _ => none
def FloatCond.code : FloatCond → Nat
  | .eq => 0
  | .ne => 1
  | .lt => 2
  | .le => 3
  | .gt => 4
  | .ge => 5
  | .un => 6
  | .ord => 7

/-- The operations of GRED and GSCAN (R58). -/
def RedOp.ofCode : Nat → Option RedOp
  | 0 => some .add
  | 1 => some .min
  | 2 => some .max
  | 3 => some .and
  | 4 => some .or
  | 5 => some .xor
  | _ => none
def RedOp.code : RedOp → Nat
  | .add => 0
  | .min => 1
  | .max => 2
  | .and => 3
  | .or => 4
  | .xor => 5

/-- The fields of a scalar word, under every format of R45 at once. -/
structure ScalarFields where
  op   : BitVec 7
  sd   : SReg
  sa   : SReg
  sb   : SReg
  fn   : BitVec 7
  imm  : BitVec 13
  q    : QReg
  neg  : Bool
  soff : BitVec 20
  size : BitVec 3
  off  : BitVec 10

/-- The fields of R45. -/
def scalarFields (w : ScalarBits) : ScalarFields :=
  { op := w.extractLsb' 25 7, sd := w.extractLsb' 19 6, sa := w.extractLsb' 13 6, sb := w.extractLsb' 7 6
    fn := w.extractLsb' 0 7, imm := w.extractLsb' 0 13, q := w.extractLsb' 21 4, neg := w.extractLsb' 20 1 == 1
    soff := w.extractLsb' 0 20, size := w.extractLsb' 10 3, off := w.extractLsb' 0 10 }

/-- A field that must be zero (R46). -/
def zeroIf (b : Bool) (i : Instr) : Except Reject Instr := if b then .ok i else .error .nonzeroField
/-- The function field must be 0 (R56). -/
def fn0 (f : ScalarFields) (i : Instr) : Except Reject Instr := if f.fn == 0 then .ok i else .error .badFunction
/-- A q-register destination, 0 to 14 (R46). -/
def qDest (x : SReg) (k : QReg → Except Reject Instr) : Except Reject Instr :=
  if x.toNat < 15 then k (x.setWidth 4) else .error .badQ
/-- A flag field: 0 to 11, or 63 for none (R181). -/
def flagged (x : SReg) (i : Instr) : Except Reject Instr :=
  if x.toNat ≤ 11 || x.toNat == 63 then .ok i else .error .badFlag

/-- Whether an opcode takes a second word (the SX format of R45, R55). -/
def isWide (w : ScalarBits) : Bool :=
  [0x18, 0x19, 0x1B, 0x34, 0x39].contains (w.extractLsb' 25 7).toNat

/-- The scalar instruction of a word and the word after it (R55, R56); `v` matters to the SX format alone. -/
def decodeScalar (w v : ScalarBits) : Except Reject Instr :=
  let f := scalarFields w
  match f.op.toNat with
  | 0x01 => fn0 f (.add f.sd f.sa f.sb)
  | 0x02 => fn0 f (.sub f.sd f.sa f.sb)
  | 0x03 => fn0 f (.mul f.sd f.sa f.sb)
  | 0x04 => if f.fn.toNat ≤ 1 then .ok (.mulh (f.fn == 1) f.sd f.sa f.sb) else .error .badFunction
  | 0x05 => if f.fn.toNat ≤ 1 then .ok (.div (f.fn == 1) f.sd f.sa f.sb) else .error .badFunction
  | 0x06 => if f.fn.toNat ≤ 1 then .ok (.rem (f.fn == 1) f.sd f.sa f.sb) else .error .badFunction
  | 0x07 => fn0 f (.and f.sd f.sa f.sb)
  | 0x08 => fn0 f (.or f.sd f.sa f.sb)
  | 0x09 => fn0 f (.xor f.sd f.sa f.sb)
  | 0x0A => fn0 f (.shl f.sd f.sa f.sb)
  | 0x0B => fn0 f (.shr f.sd f.sa f.sb)
  | 0x0C => fn0 f (.sar f.sd f.sa f.sb)
  | 0x0D => if f.fn.toNat ≤ 1 then .ok (.min (f.fn == 1) f.sd f.sa f.sb) else .error .badFunction
  | 0x0E => if f.fn.toNat ≤ 1 then .ok (.max (f.fn == 1) f.sd f.sa f.sb) else .error .badFunction
  | 0x0F => fn0 f (.bfx f.sd f.sa f.sb)
  | 0x10 => fn0 f (.bfi f.sd f.sa f.sb)
  | 0x11 => .ok (.addi f.sd f.sa f.imm)
  | 0x12 => .ok (.andi f.sd f.sa f.imm)
  | 0x13 => .ok (.ori f.sd f.sa f.imm)
  | 0x14 => .ok (.xori f.sd f.sa f.imm)
  | 0x15 => if f.imm.toNat < 64 then .ok (.shli f.sd f.sa (f.imm.setWidth 6)) else .error .nonzeroField
  | 0x16 => if f.imm.toNat < 64 then .ok (.shri f.sd f.sa (f.imm.setWidth 6)) else .error .nonzeroField
  | 0x17 => if f.imm.toNat < 64 then .ok (.sari f.sd f.sa (f.imm.setWidth 6)) else .error .nonzeroField
  | 0x18 => zeroIf (f.sa == 0 && f.imm == 0) (.movi f.sd v)
  | 0x19 => zeroIf (f.sa == 0 && f.imm == 0) (.movhi f.sd v)
  | 0x1A => match ScalarCond.ofCode f.fn.toNat with
    | some c => qDest f.sd fun q => .ok (.cmp c q f.sa f.sb)
    | none => .error .badFunction
  | 0x1B => match ScalarCond.ofCode f.imm.toNat with
    | some c => qDest f.sd fun q => .ok (.cmpi c q f.sa v)
    | none => .error .badFunction
  | 0x1C => match QFun.ofCode f.fn.toNat with
    | some c => qDest f.sd fun q =>
      if f.sa.toNat < 16 && f.sb.toNat < 16 && (!c.unary || f.sb == 0) then
        .ok (.qop c q (f.sa.setWidth 4) (f.sb.setWidth 4))
      else .error .nonzeroField
    | none => .error .badFunction
  | 0x1D => if f.fn.toNat < 16 then .ok (.sel f.sd (f.fn.setWidth 4) f.sa f.sb) else .error .badFunction
  | 0x1E =>
    if f.sb != 0 then .error .nonzeroField
    else
      match f.fn.toNat with
      | 0 => .ok (.popc f.sd f.sa)
      | 1 => .ok (.clz f.sd f.sa)
      | 2 => .ok (.ctz f.sd f.sa)
      | 3 => .ok (.brev f.sd f.sa)
      | _ => .error .badFunction
  | 0x20 =>
    match LoadSize.ofCode f.size.toNat with
    | some z => .ok (.ld z f.sd f.sa f.off)
    | none => .error .badSize
  | 0x21 =>
    match Size.ofCode f.size.toNat with
    | some z => .ok (.st z f.sd f.sa f.off)
    | none => .error .badSize
  | 0x22 =>
    match LoadSize.ofCode f.size.toNat with
    | some z => .ok (.lds z f.sd f.sa f.off)
    | none => .error .badSize
  | 0x23 =>
    match Size.ofCode f.size.toNat with
    | some z => .ok (.sts z f.sd f.sa f.off)
    | none => .error .badSize
  | 0x24 =>
    if f.sb != 0 then .error .nonzeroField
    else
      match Scope.ofCode (f.fn.toNat / 16), Size.ofCode (f.fn.toNat % 16) with
      | some sc, some z => .ok (.ldaq sc z f.sd f.sa)
      | _, _ => .error .badFunction
  | 0x25 =>
    if f.sb != 0 then .error .nonzeroField
    else
      match Scope.ofCode (f.fn.toNat / 16), Size.ofCode (f.fn.toNat % 16) with
      | some sc, some z => .ok (.strl sc z f.sd f.sa)
      | _, _ => .error .badFunction
  | 0x26 =>
    match Scope.ofCode (f.fn.toNat / 16), AtomOp.ofCode (f.fn.toNat % 16) with
    | some sc, some op => .ok (.atom op sc f.sd f.sa f.sb)
    | _, _ => .error .badFunction
  | 0x27 =>
    match Scope.ofCode (f.fn.toNat / 16) with
    | some sc => if f.fn.toNat % 16 = 0 then .ok (.cas sc f.sd f.sa f.sb) else .error .badFunction
    | none => .error .badFunction
  | 0x28 =>
    match Scope.ofCode (f.fn.toNat / 16) with
    | some sc =>
      if f.fn.toNat % 16 = 0 then zeroIf (f.sd == 0 && f.sa == 0 && f.sb == 0) (.fence sc) else .error .badFunction
    | none => .error .badFunction
  | 0x30 => .ok (.br f.q f.neg f.soff)
  | 0x31 => .ok (.call f.q f.neg f.soff)
  | 0x32 => zeroIf (f.soff == 0) (.ret f.q f.neg)
  | 0x33 => zeroIf (f.fn == 0 && f.sd == 0 && f.sb == 0) (.jmpr f.sa)
  | 0x34 => zeroIf (f.sd == 0 && decide (f.imm.toNat < 16)) (.lrun f.sa (f.imm.setWidth 4) v)
  | 0x35 => zeroIf (f.fn == 0 && f.sa == 0 && f.sb == 0) (.spop f.sd)
  | 0x36 => zeroIf (f.fn == 0 && f.sb == 0) (.lnch f.sd f.sa)
  | 0x37 => zeroIf (f.sa == 0) (.sget f.sd (f.imm.extractLsb' 8 5) (f.imm.extractLsb' 0 8))
  | 0x38 => zeroIf (f.sd == 0 && decide (f.imm.toNat / 4 = 8)) (.sset (f.imm.extractLsb' 0 2) f.sa)
  | 0x39 => zeroIf (f.sd == 0 && f.sa == 0 && f.imm == 0) (.mrst v)
  | 0x3A => zeroIf (f.sd == 0 && f.sa == 0 && f.sb == 0 && f.fn == 0) .sdone
  | 0x3B => zeroIf (f.sd == 0 && f.sa == 0 && f.sb == 0 && f.fn == 0) .nop
  | 0x40 => zeroIf (f.fn == 0 && f.sb == 0) (.cpy f.sd f.sa) >>= flagged f.sd
  | 0x41 => zeroIf (f.fn == 0 && f.sb == 0) (.gath f.sd f.sa) >>= flagged f.sd
  | 0x42 => zeroIf (f.fn == 0 && f.sb == 0) (.part f.sd f.sa) >>= flagged f.sd
  | 0x50 => zeroIf (f.fn == 0 && f.sb == 0) (.puts f.sd f.sa) >>= flagged f.sd
  | 0x51 => zeroIf (f.fn == 0 && f.sb == 0) (.get f.sd f.sa) >>= flagged f.sd
  | 0x52 => zeroIf (f.fn == 0 && f.sb == 0) (.fabricRadd f.sd f.sa) >>= flagged f.sd
  | 0x53 => zeroIf (f.fn == 0 && f.sb == 0) (.plcl f.sd f.sa) >>= flagged f.sd
  | 0x54 => fn0 f (.plcn f.sd f.sa f.sb)
  | 0x55 => fn0 f (.plwt f.sd f.sa f.sb)
  | 0x57 => fn0 f (.plcx f.sd f.sa f.sb)
  | 0x56 => fn0 f (.plval f.sd f.sa f.sb) >>= flagged f.sd
  | 0x58 =>
    zeroIf (f.sd == 0 && f.sa == 0)
      (if f.imm.extractLsb' 12 1 = 1 then .wflgNow (f.imm.extractLsb' 0 12) else .wflg (f.imm.extractLsb' 0 12))
  | 0x59 => zeroIf (f.fn == 0 && f.sd == 0) (.swini f.sa f.sb)
  | 0x5A => zeroIf (f.fn == 0 && f.sd == 0) (.swait f.sa f.sb)
  | 0x5B => fn0 f (.waita f.sd f.sa f.sb)
  | 0x5C => fn0 f (.sbara f.sd f.sa f.sb)
  | 0x5D => zeroIf (f.fn == 0 && f.sd == 0) (.sbarw f.sa f.sb)
  | 0x60 => fn0 f (.obres f.sd f.sa f.sb)
  | 0x61 => zeroIf (f.fn == 0 && f.sd == 0 && f.sb == 0) (.obrel f.sa)
  | 0x62 => zeroIf (f.fn == 0 && f.sd == 0) (.ctab f.sa f.sb)
  | 0x68 => zeroIf (f.sd == 0 && f.imm.extractLsb' 12 1 == 0) (.trap (f.imm.extractLsb' 0 12) f.sa)
  | 0x69 => zeroIf (f.sd == 0 && f.sa == 0 && f.sb == 0 && f.fn == 0) .eret
  | 0x6A => fn0 f (.trd f.sd f.sa f.sb)
  | 0x6B => fn0 f (.twr f.sd f.sa f.sb)
  | 0x6C => fn0 f (.tres f.sd f.sa f.sb)
  | 0x6E => fn0 f (.dump f.sd f.sa f.sb)
  | 0x6D => zeroIf (f.fn == 0 && f.sd == 0 && f.sb == 0) (.tkil f.sa)
  | _ => .error .reservedOpcode

/-- The fields of a long lane word (R47). -/
def laneFields (w : LaneBits) : LaneWord :=
  { guard := w.extractLsb' 77 7, neg := w.extractLsb' 76 1 == 1, vd := w.extractLsb' 68 8, va := w.extractLsb' 60 8
    vb := w.extractLsb' 52 8, vc := w.extractLsb' 44 8, ty := w.extractLsb' 39 5, md := w.extractLsb' 34 5
    rm := w.extractLsb' 32 2, imm := w.extractLsb' 0 32 }

/-- The long instruction of an opcode and function (R57, R58); none where they are reserved. -/
def laneInstr (op fn : Nat) (w : LaneWord) : Option Instr :=
  match op with
  | 0x01 =>
    match fn with
    | 0 => some (if w.md == 1 then .laneAddi w else .laneAdd w)
    | 1 => some (.laneSub w)
    | 2 => some (.adds w)
    | 3 => some (.subs w)
    | 4 => some (.neg w)
    | 5 => some (.abs w)
    | _ => none
  | 0x02 =>
    match fn with
    | 0 => some (.laneMul w)
    | 1 => some (.laneMulh w)
    | 2 => some (.muls w)
    | 3 => some (.mad w)
    | 4 => some (.mads w)
    | _ => none
  | 0x03 =>
    match fn with
    | 0 => some (.laneDiv w)
    | 1 => some (.laneRem w)
    | _ => none
  | 0x04 =>
    match fn with
    | 0 => some (.laneMin w)
    | 1 => some (.laneMax w)
    | 2 => some (.clamp w)
    | _ => none
  | 0x05 =>
    match fn with
    | 0 => some (.laneAnd w)
    | 1 => some (.laneOr w)
    | 2 => some (.laneXor w)
    | 3 => some (.andn w)
    | 4 => some (.not w)
    | 5 => some (.tern w)
    | _ => none
  | 0x06 =>
    match fn with
    | 0 => some (if w.md == 1 then .laneShli w else .laneShl w)
    | 1 => some (if w.md == 1 then .laneShri w else .laneShr w)
    | 2 => some (if w.md == 1 then .laneSari w else .laneSar w)
    | 3 => some (if w.md == 1 then .roli w else .rol w)
    | 4 => some (if w.md == 1 then .rori w else .ror w)
    | _ => none
  | 0x07 =>
    match fn with
    | 0 => some (.mov w)
    | 1 => some (.laneMovi w)
    | 2 => some (.laneSel w)
    | 3 => some (.lget w)
    | _ => none
  | 0x10 =>
    match fn with
    | 0 => some (.fadd w)
    | 1 => some (.fsub w)
    | 2 => some (.fmul w)
    | 3 => some (.fdiv w)
    | 4 => some (.fsqrt w)
    | 5 => some (.fmin w)
    | 6 => some (.fmax w)
    | 7 => some (.fabs w)
    | 8 => some (.fneg w)
    | 9 => some (.cpsgn w)
    | _ => none
  | 0x11 =>
    match fn with
    | 0 => some (.fma w)
    | 1 => some (.fms w)
    | 2 => some (.fnma w)
    | _ => none
  | 0x12 =>
    match fn with
    | 0 => some (.ex2f w)
    | 1 => some (.lg2 w)
    | 2 => some (.rcp w)
    | 3 => some (.rsq w)
    | 4 => some (.sinp w)
    | 5 => some (.cosp w)
    | _ => none
  | 0x13 =>
    match fn with
    | 0 => some (.rndi w)
    | 1 => some (.expi w)
    | _ => none
  | 0x20 =>
    match fn with
    | 0 => some (.cvt w)
    | _ => none
  | 0x21 =>
    match fn with
    | 0 => some (.qnt w)
    | _ => none
  | 0x22 =>
    match fn with
    | 0 => some (.dqnt w)
    | _ => none
  | 0x28 =>
    match fn with
    | 0 => some (.bsAdd w)
    | 1 => some (.bsSub w)
    | 2 => some (.bsAdds w)
    | 3 => some (.bsSubs w)
    | _ => none
  | 0x29 =>
    match fn with
    | 0 => some (.bsMul w)
    | 1 => some (.bsMuls w)
    | _ => none
  | 0x2A =>
    match fn with
    | 0 => some (.bsMin w)
    | 1 => some (.bsMax w)
    | _ => none
  | 0x2B => (IntCond.ofCode fn).map fun x => .bscmp x w
  | 0x30 =>
    match fn with
    | 0 => some (.lanePopc w)
    | 1 => some (.laneClz w)
    | 2 => some (.laneCtz w)
    | 3 => some (.laneBrev w)
    | _ => none
  | 0x31 =>
    match fn with
    | 0 => some (if w.md == 1 then .bfxi w else .laneBfx w)
    | 1 => some (if w.md == 1 then .bfii w else .laneBfi w)
    | _ => none
  | 0x32 =>
    match fn with
    | 0 => some (.hashCrc w)
    | 1 => some (.hashMix w)
    | _ => none
  | 0x33 =>
    match fn with
    | 0 => some (.scmp w)
    | 1 => some (.sfind w)
    | 2 => some (.slen w)
    | _ => none
  | 0x34 =>
    match fn with
    | 0 => some (.rng w)
    | _ => none
  | 0x38 => (IntCond.ofCode fn).map fun x => .laneCmp x w
  | 0x39 => (FloatCond.ofCode fn).map fun x => .fcmp x w
  | 0x3A =>
    match fn with
    | 0 => some (.pand w)
    | 1 => some (.por w)
    | 2 => some (.pxor w)
    | 3 => some (.pandn w)
    | 4 => some (.pnot w)
    | 5 => some (.pmov w)
    | 6 => some (.pset w)
    | _ => none
  | 0x3B =>
    match fn with
    | 0 => some (.pget w)
    | 1 => some (.pput w)
    | _ => none
  | 0x40 =>
    match fn with
    | 0 => some (.laneIf w)
    | 1 => some (.laneElse w)
    | 2 => some (.laneEndif w)
    | _ => none
  | 0x41 =>
    match fn with
    | 0 => some (.laneLoop w)
    | 1 => some (.laneBrk w)
    | 2 => some (.laneCont w)
    | 3 => some (.laneEndloop w)
    | _ => none
  | 0x42 =>
    match fn with
    | 0 => some (.laneExit w)
    | 1 => some (.laneStop w)
    | _ => none
  | 0x43 =>
    match fn with
    | 0 => some (.rfil w)
    | _ => none
  | 0x48 =>
    match fn with
    | 0 => some (.pollThr w)
    | 1 => some (.pollMask w)
    | 2 => some (.pollRank w)
    | _ => none
  | 0x49 =>
    match fn with
    | 0 => some (.xlnGet w)
    | 1 => some (.xlnFlip w)
    | 2 => some (.xlnRot w)
    | 3 => some (.xlnSlide w)
    | _ => none
  | 0x4A =>
    match fn with
    | 0 => some (.bcst w)
    | _ => none
  | 0x4B => (RedOp.ofCode fn).map fun x => .gred x w
  | 0x4C => if fn < 8 then (RedOp.ofCode fn).map fun x => .gscan x false w
    else (RedOp.ofCode (fn - 8)).map fun x => .gscan x true w
  | 0x4D =>
    match fn with
    | 0 => some (.keyg w)
    | 1 => some (.lead w)
    | _ => none
  | 0x4E =>
    match fn with
    | 0 => some (.gsync w)
    | _ => none
  | 0x4F =>
    match fn with
    | 0 => some (.lpush w)
    | _ => none
  | 0x50 =>
    match fn with
    | 0 => some (.azero w)
    | _ => none
  | 0x51 =>
    match fn with
    | 0 => some (.aadd w)
    | 1 => some (.aadda w)
    | 2 => some (.aneg w)
    | _ => none
  | 0x52 =>
    match fn with
    | 0 => some (.amac w)
    | 1 => some (.adot w)
    | _ => none
  | 0x53 =>
    match fn with
    | 0 => some (.cres w)
    | _ => none
  | 0x54 =>
    match fn with
    | 0 => some (if w.md == 1 then .arndDiv w else .arnd w)
    | _ => none
  | 0x55 =>
    match fn with
    | 0 => some (.ald w)
    | 1 => some (.ast w)
    | _ => none
  | 0x56 =>
    match fn with
    | 0 => some (.aseg w)
    | 1 => some (.astat w)
    | 2 => some (.ageti w)
    | _ => none
  | 0x57 =>
    match fn with
    | 0 => some (.ared w)
    | _ => none
  | 0x58 =>
    match fn with
    | 0 => some (.laneLd w)
    | _ => none
  | 0x59 =>
    match fn with
    | 0 => some (.laneSt w)
    | _ => none
  | 0x5A =>
    match fn with
    | 0 => some (.laneLds w)
    | _ => none
  | 0x5B =>
    match fn with
    | 0 => some (.laneSts w)
    | _ => none
  | 0x5C => (AtomOp.ofCode fn).map fun x => .laneAtom x w
  | 0x5D =>
    match fn with
    | 0 => some (.laneCas w)
    | _ => none
  | 0x5E =>
    match fn with
    | 0 => some (.radd w)
    | 1 => some (.raddAcc w)
    | _ => none
  | 0x5F =>
    match fn with
    | 0 => some (.laneFence w)
    | _ => none
  | 0x60 =>
    match fn with
    | 0 => some (.laneWaita w)
    | _ => none
  | 0x61 =>
    match fn with
    | 0 => some (.bara w)
    | _ => none
  | 0x62 =>
    match fn with
    | 0 => some (.barw w)
    | _ => none
  | 0x63 =>
    match fn with
    | 0 => some (.laneSwait w)
    | _ => none
  | 0x64 =>
    match fn with
    | 0 => some (.cbara w)
    | _ => none
  | 0x65 =>
    match fn with
    | 0 => some (.cbarw w)
    | _ => none
  | 0x68 =>
    match fn with
    | 0 => some (if w.kA then .mmaKreg w else .mma w)
    | _ => none
  | 0x69 =>
    match fn with
    | 0 => some (.mfen w)
    | _ => none
  | 0x6A =>
    match fn with
    | 0 => some (if !w.kA then .mwaitLast w else .mwait w)
    | _ => none
  | 0x6B =>
    match fn with
    | 0 => some (.mzero w)
    | _ => none
  | 0x6C =>
    match fn with
    | 0 => some (.mstRnd w)
    | 1 => some (.mstRaw w)
    | 2 => some (.mstAdd w)
    | _ => none
  | 0x70 =>
    match fn with
    | 0 => some (.vpjs w)
    | 1 => some (.vpjr w)
    | _ => none
  | 0x71 =>
    match fn with
    | 0 => some (.vpjm w)
    | _ => none
  | 0x72 =>
    match fn with
    | 0 => some (.vpjx w)
    | _ => none
  | 0x73 =>
    match fn with
    | 0 => some (.vpjb w)
    | _ => none
  | _ => none

/-- One slot of a pair word (R48). -/
def slotFields (x : BitVec 47) : ShortOp :=
  { op := x.extractLsb' 41 6, guard := x.extractLsb' 37 4, neg := x.extractLsb' 36 1 == 1, vd := x.extractLsb' 28 8
    va := x.extractLsb' 20 8, vb := x.extractLsb' 12 8, ty := x.extractLsb' 8 4, imm := x.extractLsb' 0 8 }

/-- The opcodes of R57 that name a family. -/
def laneOpcodes : List Nat :=
  [0x01, 0x02, 0x03, 0x04, 0x05, 0x06, 0x07, 0x10, 0x11, 0x12, 0x13, 0x20, 0x21, 0x22, 0x28, 0x29, 0x2A, 0x2B, 0x30, 0x31, 0x32, 0x33
   , 0x34, 0x38, 0x39, 0x3A, 0x3B, 0x40, 0x41, 0x42, 0x43, 0x48, 0x49, 0x4A, 0x4B, 0x4C, 0x4D, 0x4E, 0x4F, 0x50, 0x51, 0x52, 0x53, 0x54
   , 0x55, 0x56, 0x57, 0x58, 0x59, 0x5A, 0x5B, 0x5C, 0x5D, 0x5E, 0x5F, 0x60, 0x61, 0x62, 0x63, 0x64, 0x65, 0x68, 0x69, 0x6A, 0x6B, 0x6C
   , 0x70, 0x71, 0x72, 0x73]

/-- The lane instruction of a 96-bit word (R47, R48): reserved opcodes and functions are rejected by name, and every other field is left to the
word's check, which is made only when a lane is active. -/
def decodeLane (w : LaneBits) : Except Reject Instr :=
  if w.extractLsb' 95 1 = 1 then
    .ok (.pairWord { slot1 := slotFields (w.extractLsb' 48 47), mid := w.extractLsb' 47 1 == 1, slot0 := slotFields (w.extractLsb' 0 47) })
  else
    match laneInstr (w.extractLsb' 88 7).toNat (w.extractLsb' 84 4).toNat (laneFields w) with
    | some i => .ok i
    | none =>
      if laneOpcodes.contains (w.extractLsb' 88 7).toNat then .error .badLaneFunction else .error .reservedLaneOpcode

/-- A legal clause header (R51): the wait mask, FA and FB, the number of words, the clause id. -/
structure Header where
  wait : BitVec 12
  fa   : Option Nat
  fb   : Option Nat
  len  : Nat
  id   : BitVec 32
deriving DecidableEq, Repr

/-- The header of a 96-bit word, if it passes the checks of R52 on its own bits. -/
def decodeHeader (w : LaneBits) : Option Header :=
  let fav := w.extractLsb' 79 1 == 1
  let fa := (w.extractLsb' 75 4).toNat
  let fbv := w.extractLsb' 74 1 == 1
  let fb := (w.extractLsb' 70 4).toNat
  if w.extractLsb' 92 4 == 0 && w.extractLsb' 64 2 == 0 && w.extractLsb' 0 32 == 0
      && (fav || fa == 0) && (fbv || fb == 0) && !(fav && fbv && fa == fb)
      && (!fav || decide (fa < 12)) && (!fbv || decide (fb < 12)) then
    some { wait := w.extractLsb' 80 12, fa := if fav then some fa else none, fb := if fbv then some fb else none
           len := (w.extractLsb' 66 4).toNat + 1, id := w.extractLsb' 32 32 }
  else none

/-- The instruction of the opcode table's numbering: `w` holds the bits in the order the words lie in memory, lowest first. Rows of up to 64
bits are scalar words, rows of 96 bits lane words. -/
def decodeTableWord (nbits w : Nat) : Option Instr :=
  if nbits ≤ 64 then
    match decodeScalar (BitVec.ofNat 32 w) (BitVec.ofNat 32 (w / 2 ^ 32)) with
    | .ok i => some i
    | .error _ => none
  else
    match decodeLane (BitVec.ofNat 96 w) with
    | .ok i => some i
    | .error _ => none

/-- The SR format (R45). -/
def srWord (op : BitVec 7) (sd sa sb : SReg) (fn : BitVec 7) : ScalarBits := op ++ sd ++ sa ++ sb ++ fn
/-- The SI format (R45). -/
def siWord (op : BitVec 7) (sd sa : SReg) (imm : BitVec 13) : ScalarBits := op ++ sd ++ sa ++ imm
/-- The SB format (R45). -/
def sbWord (op : BitVec 7) (q : QReg) (neg : Bool) (off : BitVec 20) : ScalarBits := op ++ q ++ BitVec.ofBool neg ++ off
/-- The SM format (R45). -/
def smWord (op : BitVec 7) (sd base : SReg) (size : BitVec 3) (off : BitVec 10) : ScalarBits := op ++ sd ++ base ++ size ++ off

/-- The word, and the second word of an SX instruction, of a scalar instruction (R45, R55, R56). -/
def encodeScalar : Instr → Option (ScalarBits × Option ScalarBits)
  | .add sd sa sb => some (srWord 0x01 sd sa sb 0, none)
  | .sub sd sa sb => some (srWord 0x02 sd sa sb 0, none)
  | .mul sd sa sb => some (srWord 0x03 sd sa sb 0, none)
  | .mulh u sd sa sb => some (srWord 0x04 sd sa sb (if u then 1 else 0), none)
  | .div u sd sa sb => some (srWord 0x05 sd sa sb (if u then 1 else 0), none)
  | .rem u sd sa sb => some (srWord 0x06 sd sa sb (if u then 1 else 0), none)
  | .and sd sa sb => some (srWord 0x07 sd sa sb 0, none)
  | .or sd sa sb => some (srWord 0x08 sd sa sb 0, none)
  | .xor sd sa sb => some (srWord 0x09 sd sa sb 0, none)
  | .shl sd sa sb => some (srWord 0x0A sd sa sb 0, none)
  | .shr sd sa sb => some (srWord 0x0B sd sa sb 0, none)
  | .sar sd sa sb => some (srWord 0x0C sd sa sb 0, none)
  | .min u sd sa sb => some (srWord 0x0D sd sa sb (if u then 1 else 0), none)
  | .max u sd sa sb => some (srWord 0x0E sd sa sb (if u then 1 else 0), none)
  | .bfx sd sa sb => some (srWord 0x0F sd sa sb 0, none)
  | .bfi sd sa sb => some (srWord 0x10 sd sa sb 0, none)
  | .addi sd sa imm => some (siWord 0x11 sd sa imm, none)
  | .andi sd sa imm => some (siWord 0x12 sd sa imm, none)
  | .ori sd sa imm => some (siWord 0x13 sd sa imm, none)
  | .xori sd sa imm => some (siWord 0x14 sd sa imm, none)
  | .shli sd sa cnt => some (siWord 0x15 sd sa (cnt.setWidth 13), none)
  | .shri sd sa cnt => some (siWord 0x16 sd sa (cnt.setWidth 13), none)
  | .sari sd sa cnt => some (siWord 0x17 sd sa (cnt.setWidth 13), none)
  | .movi sd v => some (siWord 0x18 sd 0 0, some v)
  | .movhi sd v => some (siWord 0x19 sd 0 0, some v)
  | .cmp c q sa sb => some (srWord 0x1A (q.setWidth 6) sa sb (BitVec.ofNat 7 c.code), none)
  | .cmpi c q sa v => some (siWord 0x1B (q.setWidth 6) sa (BitVec.ofNat 13 c.code), some v)
  | .qop c q qa qb => some (srWord 0x1C (q.setWidth 6) (qa.setWidth 6) (qb.setWidth 6) (BitVec.ofNat 7 c.code), none)
  | .sel sd q sa sb => some (srWord 0x1D sd sa sb (q.setWidth 7), none)
  | .popc sd sa => some (srWord 0x1E sd sa 0 0, none)
  | .clz sd sa => some (srWord 0x1E sd sa 0 1, none)
  | .ctz sd sa => some (srWord 0x1E sd sa 0 2, none)
  | .brev sd sa => some (srWord 0x1E sd sa 0 3, none)
  | .ld z sd base off => some (smWord 0x20 sd base (BitVec.ofNat 3 z.code) off, none)
  | .st z sd base off => some (smWord 0x21 sd base (BitVec.ofNat 3 z.code) off, none)
  | .lds z sd base off => some (smWord 0x22 sd base (BitVec.ofNat 3 z.code) off, none)
  | .sts z sd base off => some (smWord 0x23 sd base (BitVec.ofNat 3 z.code) off, none)
  | .ldaq sc z sd sa => some (srWord 0x24 sd sa 0 (BitVec.ofNat 7 (16 * sc.code + z.code)), none)
  | .strl sc z sd sa => some (srWord 0x25 sd sa 0 (BitVec.ofNat 7 (16 * sc.code + z.code)), none)
  | .atom op sc sd sa sb => some (srWord 0x26 sd sa sb (BitVec.ofNat 7 (16 * sc.code + op.code)), none)
  | .cas sc sd sa sb => some (srWord 0x27 sd sa sb (BitVec.ofNat 7 (16 * sc.code)), none)
  | .fence sc => some (srWord 0x28 0 0 0 (BitVec.ofNat 7 (16 * sc.code)), none)
  | .br q n off => some (sbWord 0x30 q n off, none)
  | .call q n off => some (sbWord 0x31 q n off, none)
  | .ret q n => some (sbWord 0x32 q n 0, none)
  | .jmpr sa => some (srWord 0x33 0 sa 0 0, none)
  | .lrun sa n t => some (siWord 0x34 0 sa (n.setWidth 13), some t)
  | .spop sd => some (srWord 0x35 sd 0 0 0, none)
  | .lnch sd sa => some (srWord 0x36 sd sa 0 0, none)
  | .sget sd ty code => some (siWord 0x37 sd 0 (ty ++ code), none)
  | .sset n sa => some (siWord 0x38 0 sa (0x8#11 ++ n), none)
  | .mrst off => some (siWord 0x39 0 0 0, some off)
  | .sdone => some (srWord 0x3A 0 0 0 0, none)
  | .nop => some (srWord 0x3B 0 0 0 0, none)
  | .cpy fl sa => some (srWord 0x40 fl sa 0 0, none)
  | .gath fl sa => some (srWord 0x41 fl sa 0 0, none)
  | .part fl sa => some (srWord 0x42 fl sa 0 0, none)
  | .puts fl sa => some (srWord 0x50 fl sa 0 0, none)
  | .get fl sa => some (srWord 0x51 fl sa 0 0, none)
  | .fabricRadd fl sa => some (srWord 0x52 fl sa 0 0, none)
  | .plcl fl sa => some (srWord 0x53 fl sa 0 0, none)
  | .plcn sd sa sb => some (srWord 0x54 sd sa sb 0, none)
  | .plwt sd sa sb => some (srWord 0x55 sd sa sb 0, none)
  | .plcx sd sa sb => some (srWord 0x57 sd sa sb 0, none)
  | .plval fl sa sb => some (srWord 0x56 fl sa sb 0, none)
  | .wflg mask => some (siWord 0x58 0 0 (0#1 ++ mask), none)
  | .wflgNow mask => some (siWord 0x58 0 0 (1#1 ++ mask), none)
  | .swini sa sb => some (srWord 0x59 0 sa sb 0, none)
  | .swait sa sb => some (srWord 0x5A 0 sa sb 0, none)
  | .waita sd sa sb => some (srWord 0x5B sd sa sb 0, none)
  | .sbara sd sa sb => some (srWord 0x5C sd sa sb 0, none)
  | .sbarw sa sb => some (srWord 0x5D 0 sa sb 0, none)
  | .obres sd sa sb => some (srWord 0x60 sd sa sb 0, none)
  | .obrel sa => some (srWord 0x61 0 sa 0 0, none)
  | .ctab sa sb => some (srWord 0x62 0 sa sb 0, none)
  | .trap imm sa => some (siWord 0x68 0 sa (0#1 ++ imm), none)
  | .eret => some (srWord 0x69 0 0 0 0, none)
  | .trd sd sa sb => some (srWord 0x6A sd sa sb 0, none)
  | .twr sd sa sb => some (srWord 0x6B sd sa sb 0, none)
  | .tres sd sa sb => some (srWord 0x6C sd sa sb 0, none)
  | .dump sd sa sb => some (srWord 0x6E sd sa sb 0, none)
  | .tkil sa => some (srWord 0x6D 0 sa 0 0, none)
  | _ => none

/-- The bits of a long lane word (R47). -/
def LaneWord.bits96 (w : LaneWord) (op fn : Nat) : LaneBits :=
  0#1 ++ BitVec.ofNat 7 op ++ BitVec.ofNat 4 fn ++ w.guard ++ BitVec.ofBool w.neg ++ w.vd ++ w.va ++ w.vb ++ w.vc ++ w.ty ++ w.md
    ++ w.rm ++ w.imm

/-- The bits of a pair slot (R48). -/
def ShortOp.bits47 (o : ShortOp) : BitVec 47 :=
  o.op ++ o.guard ++ BitVec.ofBool o.neg ++ o.vd ++ o.va ++ o.vb ++ o.ty ++ o.imm

/-- The word of a lane instruction (R47, R48, R57, R58). -/
def encodeLane : Instr → Option LaneBits
  | .pairWord p => some (1#1 ++ p.slot1.bits47 ++ BitVec.ofBool p.mid ++ p.slot0.bits47)
  | .laneAdd w => some (w.bits96 0x01 0)
  | .laneAddi w => some (w.bits96 0x01 0)
  | .laneSub w => some (w.bits96 0x01 1)
  | .adds w => some (w.bits96 0x01 2)
  | .subs w => some (w.bits96 0x01 3)
  | .neg w => some (w.bits96 0x01 4)
  | .abs w => some (w.bits96 0x01 5)
  | .laneMul w => some (w.bits96 0x02 0)
  | .laneMulh w => some (w.bits96 0x02 1)
  | .muls w => some (w.bits96 0x02 2)
  | .mad w => some (w.bits96 0x02 3)
  | .mads w => some (w.bits96 0x02 4)
  | .laneDiv w => some (w.bits96 0x03 0)
  | .laneRem w => some (w.bits96 0x03 1)
  | .laneMin w => some (w.bits96 0x04 0)
  | .laneMax w => some (w.bits96 0x04 1)
  | .clamp w => some (w.bits96 0x04 2)
  | .laneAnd w => some (w.bits96 0x05 0)
  | .laneOr w => some (w.bits96 0x05 1)
  | .laneXor w => some (w.bits96 0x05 2)
  | .andn w => some (w.bits96 0x05 3)
  | .not w => some (w.bits96 0x05 4)
  | .tern w => some (w.bits96 0x05 5)
  | .laneShl w => some (w.bits96 0x06 0)
  | .laneShr w => some (w.bits96 0x06 1)
  | .laneSar w => some (w.bits96 0x06 2)
  | .rol w => some (w.bits96 0x06 3)
  | .ror w => some (w.bits96 0x06 4)
  | .laneShli w => some (w.bits96 0x06 0)
  | .laneShri w => some (w.bits96 0x06 1)
  | .laneSari w => some (w.bits96 0x06 2)
  | .roli w => some (w.bits96 0x06 3)
  | .rori w => some (w.bits96 0x06 4)
  | .mov w => some (w.bits96 0x07 0)
  | .laneMovi w => some (w.bits96 0x07 1)
  | .laneSel w => some (w.bits96 0x07 2)
  | .lget w => some (w.bits96 0x07 3)
  | .fadd w => some (w.bits96 0x10 0)
  | .fsub w => some (w.bits96 0x10 1)
  | .fmul w => some (w.bits96 0x10 2)
  | .fdiv w => some (w.bits96 0x10 3)
  | .fsqrt w => some (w.bits96 0x10 4)
  | .fmin w => some (w.bits96 0x10 5)
  | .fmax w => some (w.bits96 0x10 6)
  | .fabs w => some (w.bits96 0x10 7)
  | .fneg w => some (w.bits96 0x10 8)
  | .cpsgn w => some (w.bits96 0x10 9)
  | .fma w => some (w.bits96 0x11 0)
  | .fms w => some (w.bits96 0x11 1)
  | .fnma w => some (w.bits96 0x11 2)
  | .ex2f w => some (w.bits96 0x12 0)
  | .lg2 w => some (w.bits96 0x12 1)
  | .rcp w => some (w.bits96 0x12 2)
  | .rsq w => some (w.bits96 0x12 3)
  | .sinp w => some (w.bits96 0x12 4)
  | .cosp w => some (w.bits96 0x12 5)
  | .rndi w => some (w.bits96 0x13 0)
  | .expi w => some (w.bits96 0x13 1)
  | .cvt w => some (w.bits96 0x20 0)
  | .qnt w => some (w.bits96 0x21 0)
  | .dqnt w => some (w.bits96 0x22 0)
  | .bsAdd w => some (w.bits96 0x28 0)
  | .bsSub w => some (w.bits96 0x28 1)
  | .bsAdds w => some (w.bits96 0x28 2)
  | .bsSubs w => some (w.bits96 0x28 3)
  | .bsMul w => some (w.bits96 0x29 0)
  | .bsMuls w => some (w.bits96 0x29 1)
  | .bsMin w => some (w.bits96 0x2A 0)
  | .bsMax w => some (w.bits96 0x2A 1)
  | .bscmp x w => some (w.bits96 0x2B x.code)
  | .lanePopc w => some (w.bits96 0x30 0)
  | .laneClz w => some (w.bits96 0x30 1)
  | .laneCtz w => some (w.bits96 0x30 2)
  | .laneBrev w => some (w.bits96 0x30 3)
  | .laneBfx w => some (w.bits96 0x31 0)
  | .laneBfi w => some (w.bits96 0x31 1)
  | .bfxi w => some (w.bits96 0x31 0)
  | .bfii w => some (w.bits96 0x31 1)
  | .hashCrc w => some (w.bits96 0x32 0)
  | .hashMix w => some (w.bits96 0x32 1)
  | .scmp w => some (w.bits96 0x33 0)
  | .sfind w => some (w.bits96 0x33 1)
  | .slen w => some (w.bits96 0x33 2)
  | .rng w => some (w.bits96 0x34 0)
  | .laneCmp x w => some (w.bits96 0x38 x.code)
  | .fcmp x w => some (w.bits96 0x39 x.code)
  | .pand w => some (w.bits96 0x3A 0)
  | .por w => some (w.bits96 0x3A 1)
  | .pxor w => some (w.bits96 0x3A 2)
  | .pandn w => some (w.bits96 0x3A 3)
  | .pnot w => some (w.bits96 0x3A 4)
  | .pmov w => some (w.bits96 0x3A 5)
  | .pset w => some (w.bits96 0x3A 6)
  | .pget w => some (w.bits96 0x3B 0)
  | .pput w => some (w.bits96 0x3B 1)
  | .laneIf w => some (w.bits96 0x40 0)
  | .laneElse w => some (w.bits96 0x40 1)
  | .laneEndif w => some (w.bits96 0x40 2)
  | .laneLoop w => some (w.bits96 0x41 0)
  | .laneBrk w => some (w.bits96 0x41 1)
  | .laneCont w => some (w.bits96 0x41 2)
  | .laneEndloop w => some (w.bits96 0x41 3)
  | .laneExit w => some (w.bits96 0x42 0)
  | .laneStop w => some (w.bits96 0x42 1)
  | .rfil w => some (w.bits96 0x43 0)
  | .pollThr w => some (w.bits96 0x48 0)
  | .pollMask w => some (w.bits96 0x48 1)
  | .pollRank w => some (w.bits96 0x48 2)
  | .keyg w => some (w.bits96 0x4D 0)
  | .lead w => some (w.bits96 0x4D 1)
  | .lpush w => some (w.bits96 0x4F 0)
  | .xlnGet w => some (w.bits96 0x49 0)
  | .xlnFlip w => some (w.bits96 0x49 1)
  | .xlnRot w => some (w.bits96 0x49 2)
  | .xlnSlide w => some (w.bits96 0x49 3)
  | .bcst w => some (w.bits96 0x4A 0)
  | .gred x w => some (w.bits96 0x4B x.code)
  | .gscan x e w => some (w.bits96 0x4C (x.code + if e then 8 else 0))
  | .gsync w => some (w.bits96 0x4E 0)
  | .azero w => some (w.bits96 0x50 0)
  | .aadd w => some (w.bits96 0x51 0)
  | .aadda w => some (w.bits96 0x51 1)
  | .aneg w => some (w.bits96 0x51 2)
  | .amac w => some (w.bits96 0x52 0)
  | .adot w => some (w.bits96 0x52 1)
  | .cres w => some (w.bits96 0x53 0)
  | .arnd w => some (w.bits96 0x54 0)
  | .arndDiv w => some (w.bits96 0x54 0)
  | .ald w => some (w.bits96 0x55 0)
  | .ast w => some (w.bits96 0x55 1)
  | .aseg w => some (w.bits96 0x56 0)
  | .astat w => some (w.bits96 0x56 1)
  | .ageti w => some (w.bits96 0x56 2)
  | .ared w => some (w.bits96 0x57 0)
  | .laneLd w => some (w.bits96 0x58 0)
  | .laneSt w => some (w.bits96 0x59 0)
  | .laneLds w => some (w.bits96 0x5A 0)
  | .laneSts w => some (w.bits96 0x5B 0)
  | .laneAtom x w => some (w.bits96 0x5C x.code)
  | .laneCas w => some (w.bits96 0x5D 0)
  | .radd w => some (w.bits96 0x5E 0)
  | .raddAcc w => some (w.bits96 0x5E 1)
  | .laneFence w => some (w.bits96 0x5F 0)
  | .laneWaita w => some (w.bits96 0x60 0)
  | .bara w => some (w.bits96 0x61 0)
  | .barw w => some (w.bits96 0x62 0)
  | .cbara w => some (w.bits96 0x64 0)
  | .cbarw w => some (w.bits96 0x65 0)
  | .laneSwait w => some (w.bits96 0x63 0)
  | .mma w => some (w.bits96 0x68 0)
  | .mmaKreg w => some (w.bits96 0x68 0)
  | .mfen w => some (w.bits96 0x69 0)
  | .mwait w => some (w.bits96 0x6A 0)
  | .mwaitLast w => some (w.bits96 0x6A 0)
  | .mzero w => some (w.bits96 0x6B 0)
  | .mstRnd w => some (w.bits96 0x6C 0)
  | .mstRaw w => some (w.bits96 0x6C 1)
  | .mstAdd w => some (w.bits96 0x6C 2)
  | .vpjs w => some (w.bits96 0x70 0)
  | .vpjr w => some (w.bits96 0x70 1)
  | .vpjm w => some (w.bits96 0x71 0)
  | .vpjx w => some (w.bits96 0x72 0)
  | .vpjb w => some (w.bits96 0x73 0)
  | _ => none

/-- The bytes of an instruction word in memory, lowest address first (R9, R51). -/
def encode (i : Instr) : Option (List Byte) :=
  match encodeScalar i with
  | some (w, none) => some (toBytes 4 w.toNat)
  | some (w, some v) => some (toBytes 4 w.toNat ++ toBytes 4 v.toNat)
  | none => (encodeLane i).map fun w => toBytes 12 w.toNat

end Sys2Proof
end

