-- ==== Sys2Proof/Config.lean ====
section
/-! DEFINITION. What the manual leaves open, as constants without a body: nothing in Lean can evaluate one or prove a
value of it (notes/assumptions: free values). -/

namespace Sys2Proof.Config

/-- A value the manual does not fix, applied to the state's counter of free values drawn. -/
opaque freeNat : Nat → Nat

/-- The undefined contents of a reservation (R192), by its draw and the byte's offset. -/
opaque freeByte : Nat → Nat → BitVec 8

/-- The correctly rounded result of a transcendental where the model's enclosure does not decide the rounding: the function, the
rounding mode and the operand. -/
opaque hardCase : Nat → Nat → Nat → Nat

/-- The public key the mask ROM compares images with (R415), uncompressed. -/
opaque romKey : List (BitVec 8)

/-- The device's secret fused value, from which its keys derive (R415). -/
opaque fusedSecret : List (BitVec 8)

/-- The memory keys that the security controller makes, in the order in which it makes them: 64 bytes each (R389, R419). -/
opaque memoryKey : Nat → List (BitVec 8)

/-- The device symbol of an HBM stack in which a bit of a 32-byte granule lies (R385). -/
opaque hbmSymbol : Nat → Nat

/-- How many launches of a context may be unfinished before its launch queue is full (R91). -/
opaque launchQueueSize : Nat

/-- The physical range of the root's code and data, base and limit (R420). -/
opaque rootRegion : Nat × Nat

/-- The physical range of the operations firmware, base and limit (R420). -/
opaque opsRegion : Nat × Nat

end Sys2Proof.Config
end

