-- ==== Sys2Proof/Machine/Crypto.lean ====
section
/-! DEFINITION. The cryptography that the manual names: SHA-384, HMAC and HKDF over it, AES-256-GCM, and ECDSA and ECDH on the 384-bit random
Brainpool curve (R390, R417, R419). Integers are big-endian octet strings, as those standards write them. -/

namespace Sys2Proof.Machine

/-! ### SHA-384 (FIPS 180-4) -/

/-- Round constants 0 to 19 of FIPS 180-4. -/
def sha512K0 : List Nat :=
  [0x428A2F98D728AE22, 0x7137449123EF65CD, 0xB5C0FBCFEC4D3B2F, 0xE9B5DBA58189DBBC, 0x3956C25BF348B538
   , 0x59F111F1B605D019, 0x923F82A4AF194F9B, 0xAB1C5ED5DA6D8118, 0xD807AA98A3030242, 0x12835B0145706FBE
   , 0x243185BE4EE4B28C, 0x550C7DC3D5FFB4E2, 0x72BE5D74F27B896F, 0x80DEB1FE3B1696B1, 0x9BDC06A725C71235
   , 0xC19BF174CF692694, 0xE49B69C19EF14AD2, 0xEFBE4786384F25E3, 0x0FC19DC68B8CD5B5, 0x240CA1CC77AC9C65]

/-- Round constants 20 to 39 of FIPS 180-4. -/
def sha512K1 : List Nat :=
  [0x2DE92C6F592B0275, 0x4A7484AA6EA6E483, 0x5CB0A9DCBD41FBD4, 0x76F988DA831153B5, 0x983E5152EE66DFAB
   , 0xA831C66D2DB43210, 0xB00327C898FB213F, 0xBF597FC7BEEF0EE4, 0xC6E00BF33DA88FC2, 0xD5A79147930AA725
   , 0x06CA6351E003826F, 0x142929670A0E6E70, 0x27B70A8546D22FFC, 0x2E1B21385C26C926, 0x4D2C6DFC5AC42AED
   , 0x53380D139D95B3DF, 0x650A73548BAF63DE, 0x766A0ABB3C77B2A8, 0x81C2C92E47EDAEE6, 0x92722C851482353B]

/-- Round constants 40 to 59 of FIPS 180-4. -/
def sha512K2 : List Nat :=
  [0xA2BFE8A14CF10364, 0xA81A664BBC423001, 0xC24B8B70D0F89791, 0xC76C51A30654BE30, 0xD192E819D6EF5218
   , 0xD69906245565A910, 0xF40E35855771202A, 0x106AA07032BBD1B8, 0x19A4C116B8D2D0C8, 0x1E376C085141AB53
   , 0x2748774CDF8EEB99, 0x34B0BCB5E19B48A8, 0x391C0CB3C5C95A63, 0x4ED8AA4AE3418ACB, 0x5B9CCA4F7763E373
   , 0x682E6FF3D6B2B8A3, 0x748F82EE5DEFB2FC, 0x78A5636F43172F60, 0x84C87814A1F0AB72, 0x8CC702081A6439EC]

/-- Round constants 60 to 79 of FIPS 180-4. -/
def sha512K3 : List Nat :=
  [0x90BEFFFA23631E28, 0xA4506CEBDE82BDE9, 0xBEF9A3F7B2C67915, 0xC67178F2E372532B, 0xCA273ECEEA26619C
   , 0xD186B8C721C0C207, 0xEADA7DD6CDE0EB1E, 0xF57D4F7FEE6ED178, 0x06F067AA72176FBA, 0x0A637DC5A2C898A6
   , 0x113F9804BEF90DAE, 0x1B710B35131C471B, 0x28DB77F523047D84, 0x32CAAB7B40C72493, 0x3C9EBE0A15C9BEBC
   , 0x431D67C49C100D4C, 0x4CC5D4BECB3E42B6, 0x597F299CFC657E2A, 0x5FCB6FAB3AD6FAEC, 0x6C44198C4A475817]

/-- The initial value of SHA-384. -/
def sha384H : List Nat :=
  [0xCBBB9D5DC1059ED8, 0x629A292A367CD507, 0x9159015A3070DD17, 0x152FECD8F70E5939, 0x67332667FFC00B31
   , 0x8EB44A8768581511, 0xDB0C2E0D64F98FA7, 0x47B5481DBEFA4FA4]

def sha512K : List Nat := sha512K0 ++ sha512K1 ++ sha512K2 ++ sha512K3

/-- A number as `n` bytes, most significant first. -/
def toBE (n x : Nat) : List Byte := (toBytes n x).reverse
/-- A number from bytes, most significant first. -/
def ofBE (b : List Byte) : Nat := b.foldl (fun v x => v * 256 + x.toNat) 0

/-- A 64-bit rotation to the right. -/
def ror64 (n x : Nat) : Nat := (x >>> n) ||| (x <<< (64 - n)) % 2 ^ 64

/-- The message schedule: the last sixteen words, extended. -/
def shaSchedule : Nat → List Nat → List Nat
  | 0, _ => []
  | n + 1, w =>
    match w with
    | w0 :: rest =>
      let w1 := rest.getD 0 0
      let w9 := rest.getD 8 0
      let w14 := rest.getD 13 0
      let s0 := ror64 1 w1 ^^^ ror64 8 w1 ^^^ (w1 >>> 7)
      let s1 := ror64 19 w14 ^^^ ror64 61 w14 ^^^ (w14 >>> 6)
      w0 :: shaSchedule n (rest ++ [(w0 + s0 + w9 + s1) % 2 ^ 64])
    | [] => []

/-- One round. -/
def shaRound (h : List Nat) (kw : Nat × Nat) : List Nat :=
  match h with
  | [a, b, c, d, e, f, g, h] =>
    let t1 := h + (ror64 14 e ^^^ ror64 18 e ^^^ ror64 41 e) + ((e &&& f) ^^^ ((2 ^ 64 - 1 - e) &&& g)) + kw.1 + kw.2
    let t2 := (ror64 28 a ^^^ ror64 34 a ^^^ ror64 39 a) + ((a &&& b) ^^^ (a &&& c) ^^^ (b &&& c))
    [(t1 + t2) % 2 ^ 64, a, b, c, (d + t1) % 2 ^ 64, e, f, g]
  | l => l

/-- One block of 128 bytes. -/
def shaBlock (h : List Nat) (block : List Byte) : List Nat :=
  let w := (List.range 16).map fun i => ofBE ((block.drop (8 * i)).take 8)
  ((h.zip ((sha512K.zip (shaSchedule 80 w)).foldl shaRound h)).map fun x => (x.1 + x.2) % 2 ^ 64)

/-- Blocks of a fixed size; a last short one is kept. -/
def chunksOf (size : Nat) : Nat → List Byte → List (List Byte)
  | 0, _ => []
  | n + 1, b => if b.isEmpty then [] else b.take size :: chunksOf size n (b.drop size)

/-- SHA-384. -/
def sha384 (m : List Byte) : List Byte :=
  let pad := m ++ [0x80] ++ List.replicate ((239 - m.length % 128) % 128) 0 ++ toBE 16 (8 * m.length)
  (((chunksOf 128 (pad.length / 128) pad).foldl shaBlock sha384H).take 6).flatMap (toBE 8)

/-- HMAC with SHA-384 (RFC 2104). -/
def hmac384 (key m : List Byte) : List Byte :=
  let k := if key.length > 128 then sha384 key else key
  let k := k ++ List.replicate (128 - k.length) 0
  sha384 (k.map (fun x => x ^^^ 0x5C) ++ sha384 (k.map (fun x => x ^^^ 0x36) ++ m))

/-- The first 32 bytes of HKDF with SHA-384 and no salt (RFC 5869). -/
def hkdf384 (secret info : List Byte) : List Byte := (hmac384 (hmac384 (List.replicate 48 0) secret) (info ++ [1])).take 32

/-! ### AES-256 and GCM (FIPS 197, SP 800-38D) -/

/-- Multiplication in GF(2^8). -/
def gmul8 : Nat → Nat → Nat → Nat
  | 0, _, _ => 0
  | n + 1, a, b =>
    (if b % 2 = 1 then a else 0) ^^^ gmul8 n (if a ≥ 128 then (2 * a) ^^^ 0x11B else 2 * a) (b / 2)

/-- A power in GF(2^8). -/
def gpow8 (a : Nat) : Nat → Nat
  | 0 => 1
  | n + 1 => gmul8 8 a (gpow8 a n)

/-- The S-box: the inverse, then the affine map. -/
def sboxOf (x : Nat) : Nat :=
  let y := gpow8 x 254
  let r (n : Nat) : Nat := (y <<< n ||| y >>> (8 - n)) % 256
  y ^^^ r 1 ^^^ r 2 ^^^ r 3 ^^^ r 4 ^^^ 0x63

def sbox : Array Nat := ((List.range 256).map sboxOf).toArray
def subByte (x : Byte) : Byte := BitVec.ofNat 8 (sbox.getD x.toNat 0)

/-- Bytes combined one by one. -/
def xorBytes (a b : List Byte) : List Byte := (a.zip b).map fun x => x.1 ^^^ x.2

/-- The key schedule of AES-256: words from the eight given on. -/
def aesExpand : Nat → Nat → List (List Byte) → List (List Byte)
  | 0, _, ws => ws
  | n + 1, i, ws =>
    let prev := ws.getD (i - 1) []
    let t :=
      if i % 8 = 0 then xorBytes ((prev.drop 1 ++ prev.take 1).map subByte) [BitVec.ofNat 8 (gpow8 2 (i / 8 - 1)), 0, 0, 0]
      else if i % 8 = 4 then prev.map subByte
      else prev
    aesExpand n (i + 1) (ws ++ [xorBytes (ws.getD (i - 8) []) t])

/-- The fifteen round keys. -/
def aesKeys (key : List Byte) : List (List Byte) :=
  let ws := aesExpand 52 8 ((List.range 8).map fun i => (key.drop (4 * i)).take 4)
  (List.range 15).map fun r => ((ws.drop (4 * r)).take 4).flatten

def shiftRows (b : List Byte) : List Byte := (List.range 16).map fun i => b.getD ((i + 4 * (i % 4)) % 16) 0
def mixColumn (c : List Byte) : List Byte :=
  let m (k i : Nat) : Byte := BitVec.ofNat 8 (gmul8 8 ((c.getD (i % 4) 0).toNat) k)
  (List.range 4).map fun i => m 2 i ^^^ m 3 (i + 1) ^^^ m 1 (i + 2) ^^^ m 1 (i + 3)
def mixColumns (b : List Byte) : List Byte := (List.range 4).flatMap fun i => mixColumn ((b.drop (4 * i)).take 4)

/-- The rounds after the first key is added. -/
def aesRounds : List (List Byte) → List Byte → List Byte
  | [], b => b
  | [k], b => xorBytes (shiftRows (b.map subByte)) k
  | k :: ks, b => aesRounds ks (xorBytes (mixColumns (shiftRows (b.map subByte))) k)

/-- AES-256 on one block. -/
def aesBlock (keys : List (List Byte)) (b : List Byte) : List Byte :=
  match keys with
  | [] => b
  | k :: ks => aesRounds ks (xorBytes b k)

/-! ### AES-256 backwards, and XTS (FIPS 197, IEEE 1619; R389) -/

def unsubByte (x : Byte) : Byte := BitVec.ofNat 8 (((List.range 256).find? fun i => sbox.getD i 0 == x.toNat).getD 0)
def unshiftRows (b : List Byte) : List Byte := (List.range 16).map fun i => b.getD ((i + 16 - 4 * (i % 4)) % 16) 0
def unmixColumn (c : List Byte) : List Byte :=
  let m (k i : Nat) : Byte := BitVec.ofNat 8 (gmul8 8 ((c.getD (i % 4) 0).toNat) k)
  (List.range 4).map fun i => m 14 i ^^^ m 11 (i + 1) ^^^ m 13 (i + 2) ^^^ m 9 (i + 3)
def unmixColumns (b : List Byte) : List Byte := (List.range 4).flatMap fun i => unmixColumn ((b.drop (4 * i)).take 4)

/-- The rounds backwards, after the last key is taken away. -/
def aesUnrounds : List (List Byte) → List Byte → List Byte
  | [], b => b
  | [k], b => xorBytes ((unshiftRows b).map unsubByte) k
  | k :: ks, b => aesUnrounds ks (unmixColumns (xorBytes ((unshiftRows b).map unsubByte) k))

/-- The inverse of AES-256 on one block. -/
def aesUnblock (keys : List (List Byte)) (b : List Byte) : List Byte :=
  match keys.reverse with
  | [] => b
  | k :: ks => aesUnrounds ks (xorBytes b k)

/-- A tweak times α in GF(2^128). -/
def xtsDouble (t : Nat) : Nat := if t ≥ 2 ^ 127 then (2 * t) % 2 ^ 128 ^^^ 0x87 else 2 * t

/-- One data unit of 32 bytes encrypted, or decrypted, under a 64-byte key: the tweak is its physical address (R389). -/
def xtsUnit (enc : Bool) (key : List Byte) (pa : Nat) (b : List Byte) : List Byte :=
  let k1 := aesKeys (key.take 32)
  let t := ofBytes (aesBlock (aesKeys (key.drop 32)) (toBytes 16 pa))
  let block (t : Nat) (b : List Byte) : List Byte :=
    let x := xorBytes b (toBytes 16 t)
    xorBytes (if enc then aesBlock k1 x else aesUnblock k1 x) (toBytes 16 t)
  block t (b.take 16) ++ block (xtsDouble t) (b.drop 16)

/-- The product in GF(2^128) of GCM: bit 127 of a block is the coefficient of 1. -/
def ghashMul : Nat → Nat → Nat → Nat → Nat
  | 0, _, _, z => z
  | n + 1, x, v, z =>
    ghashMul n x (if v % 2 = 1 then (v >>> 1) ^^^ (0xE1 <<< 120) else v >>> 1) (if natBit x n then z ^^^ v else z)

/-- A block padded with zeros. -/
def padBlock (b : List Byte) : List Byte := b ++ List.replicate (16 - b.length) 0
/-- The blocks of a string, the last padded. -/
def gcmBlocks (b : List Byte) : List (List Byte) := (chunksOf 16 (b.length / 16 + 1) b).map padBlock

def ghash (h : Nat) (bs : List (List Byte)) : Nat := bs.foldl (fun y b => ghashMul 128 (y ^^^ ofBE b) h 0) 0

/-- The ciphertext and the tag of AES-256-GCM under a 96-bit nonce. -/
def gcmSeal (key nonce aad plain : List Byte) : List Byte × List Byte :=
  let ks := aesKeys key
  let ctr (i : Nat) : List Byte := aesBlock ks (nonce ++ toBE 4 i)
  let c := ((chunksOf 16 (plain.length / 16 + 1) plain).foldl (fun (r : Nat × List Byte) b => (r.1 + 1, r.2 ++ xorBytes b (ctr r.1))) (2, [])).2
  let h := ofBE (aesBlock ks (List.replicate 16 0))
  let y := ghash h (gcmBlocks aad ++ gcmBlocks c ++ [toBE 8 (8 * aad.length) ++ toBE 8 (8 * c.length)])
  (c, xorBytes (toBE 16 y) (ctr 1))

/-! ### The curve brainpoolP384r1 (RFC 5639) -/

def ecP : Nat := 0x8CB91E82A3386D280F5D6F7E50E641DF152F7109ED5456B412B1DA197FB71123ACD3A729901D1A71874700133107EC53
def ecA : Nat := 0x7BC382C63D8C150C3C72080ACE05AFA0C2BEA28E4FB22787139165EFBA91F90F8AA5814A503AD4EB04A8C7DD22CE2826
def ecB : Nat := 0x04A8C7DD22CE28268B39B55416F0447C2FB77DE107DCD2A62E880EA53EEB62D57CB4390295DBC9943AB78696FA504C11
def ecQ : Nat := 0x8CB91E82A3386D280F5D6F7E50E641DF152F7109ED5456B31F166E6CAC0425A7CF3AB6AF6B7FC3103B883202E9046565
/-- A point; none is the point at infinity. -/
abbrev EcPoint := Option (Nat × Nat)
def ecG : EcPoint :=
  some (0x1D1C64F068CF45FFA2A63A81B7C13F6B8847A3E77EF14FE3DB7FCAFE0CBD10E8E826E03436D646AAEF87B2E247D4AF1E
    , 0x8ABE1D7520F9C2A45CB1EB8E95CFD55262B70B29FEEC5864E19C054FF99129280E4646217791811142820341263C5315)

/-- b^e modulo m, over `n` bits of e. -/
def powMod (b m : Nat) : Nat → Nat → Nat
  | 0, _ => 1 % m
  | n + 1, e =>
    let h := powMod b m n (e / 2)
    (if e % 2 = 1 then h * h % m * b else h * h) % m

/-- The inverse modulo a prime. -/
def invMod (x m : Nat) : Nat := powMod x m 384 (m - 2)

/-- Whether a pair lies on the curve. -/
def ecOn (x y : Nat) : Bool := decide (x < ecP ∧ y < ecP) && y * y % ecP == (x * x % ecP * x + ecA * x + ecB) % ecP

/-- The point on the line of slope l through the first point. -/
def ecThird (l x1 y1 x2 : Nat) : EcPoint :=
  let x3 := (l * l + 2 * ecP - x1 - x2) % ecP
  some (x3, (l * (x1 + ecP - x3) + ecP - y1) % ecP)

/-- The sum of two points. -/
def ecAdd : EcPoint → EcPoint → EcPoint
  | none, q => q
  | p, none => p
  | some (x1, y1), some (x2, y2) =>
    if x1 = x2 then
      if (y1 + y2) % ecP = 0 then none
      else ecThird ((3 * x1 * x1 + ecA) % ecP * invMod (2 * y1 % ecP) ecP % ecP) x1 y1 x2
    else ecThird ((y2 + ecP - y1) % ecP * invMod ((x2 + ecP - x1) % ecP) ecP % ecP) x1 y1 x2

/-- A multiple of a point, over `n` bits of the factor. -/
def ecMulBits (p : EcPoint) : Nat → Nat → EcPoint
  | 0, _ => none
  | n + 1, k =>
    let h := ecMulBits p n (k / 2)
    let d := ecAdd h h
    if k % 2 = 1 then ecAdd d p else d
def ecMul (k : Nat) (p : EcPoint) : EcPoint := ecMulBits p 384 k

/-- A 97-byte uncompressed point. -/
def ecEncode : EcPoint → List Byte
  | some (x, y) => 4 :: toBE 48 x ++ toBE 48 y
  | none => List.replicate 97 0
/-- The point that 97 bytes name, if it lies on the curve. -/
def ecDecode (b : List Byte) : EcPoint :=
  let x := ofBE ((b.drop 1).take 48)
  let y := ofBE ((b.drop 49).take 48)
  if b.length = 97 ∧ b.head? = some 4 ∧ ecOn x y then some (x, y) else none

/-- ECDSA: whether (r, s) signs a digest under a public key. -/
def ecdsaVerify (pub : EcPoint) (digest : List Byte) (r s : Nat) : Bool :=
  decide (1 ≤ r ∧ r < ecQ ∧ 1 ≤ s ∧ s < ecQ) && pub.isSome &&
    (let w := invMod s ecQ
     match ecAdd (ecMul (ofBE digest * w % ecQ) ecG) (ecMul (r * w % ecQ) pub) with
     | some (x, _) => x % ecQ == r
     | none => false)

/-- ECDSA: the signature of a digest under a private key and a nonce. -/
def ecdsaSign (d k : Nat) (digest : List Byte) : List Byte :=
  match ecMul k ecG with
  | some (x, _) => toBE 48 (x % ecQ) ++ toBE 48 (invMod k ecQ * (ofBE digest + x % ecQ * d) % ecQ)
  | none => List.replicate 96 0

end Sys2Proof.Machine
end

