-- ==== Sys2Proof/Machine/Float.lean ====
section
/-! DEFINITION. The floating formats, one exact rounding, and IEEE arithmetic (R17–R19, R111–R113). -/

namespace Sys2Proof.Machine

/-- The rounding modes of R19. -/
inductive Rm where
  | rne | rtz | rdn | rup
deriving DecidableEq, Repr, Inhabited

/-- The 2-bit RM field (R19). -/
def Rm.ofCode : Nat → Rm
  | 0 => .rne
  | 1 => .rtz
  | 2 => .rdn
  | _ => .rup

/-- A binary format: exponent and fraction widths (R17). -/
structure FFmt where
  eb : Nat
  fb : Nat
deriving DecidableEq, Repr

def f16 : FFmt := ⟨5, 10⟩
def bf16 : FFmt := ⟨8, 7⟩
def f32 : FFmt := ⟨8, 23⟩
def f64 : FFmt := ⟨11, 52⟩

/-- The width of a format in bits. -/
def FFmt.w (f : FFmt) : Nat := 1 + f.eb + f.fb
/-- The exponent bias (R17). -/
def FFmt.bias (f : FFmt) : Int := 2 ^ (f.eb - 1) - 1
/-- The exponent of the last place of a subnormal. -/
def FFmt.qmin (f : FFmt) : Int := 1 - f.bias - f.fb
/-- The sign bit. -/
def FFmt.signBit (f : FFmt) : Nat := 2 ^ (f.eb + f.fb)
/-- The pattern of positive infinity. -/
def FFmt.infBits (f : FFmt) : Nat := (2 ^ f.eb - 1) * 2 ^ f.fb
/-- The canonical quiet NaN (R17). -/
def FFmt.nanBits (f : FFmt) : Nat := f.infBits + 2 ^ (f.fb - 1)
/-- The overflow NaN: the canonical NaN with payload 1 (R35). -/
def FFmt.ovfNan (f : FFmt) : Nat := f.nanBits + 1
/-- An infinity of either sign. -/
def FFmt.inf (f : FFmt) (neg : Bool) : Nat := (if neg then f.signBit else 0) + f.infBits
/-- A zero of either sign. -/
def FFmt.zero (f : FFmt) (neg : Bool) : Nat := if neg then f.signBit else 0
/-- The largest finite magnitude's pattern. -/
def FFmt.maxFin (f : FFmt) (neg : Bool) : Nat := f.inf neg - 1

/-- A decoded value: NaN, an infinity, or the exact number `(−1)^neg × m × 2^e`. -/
inductive FVal where
  | nan
  | inf (neg : Bool)
  | fin (neg : Bool) (m : Nat) (e : Int)
deriving DecidableEq, Repr, Inhabited

/-- The value of a pattern (R17, R18: subnormals at their value). -/
def FFmt.decode (f : FFmt) (x : Nat) : FVal :=
  let neg := natBit x (f.eb + f.fb)
  let ex := natBits x (f.eb + f.fb - 1) f.fb
  let fr := natBits x (f.fb - 1) 0
  if ex = 2 ^ f.eb - 1 then (if fr = 0 then .inf neg else .nan)
  else if ex = 0 then .fin neg fr f.qmin
  else .fin neg (2 ^ f.fb + fr) (f.qmin + ex - 1)

/-- The integer `m × 2^e` scaled by `2^k`, where `e + k` is not negative. -/
def scaleNat (m : Nat) (e : Int) : Nat := m * 2 ^ e.toNat

/-- The floor of the base-two logarithm of the positive rational `n ÷ d`. -/
def ratLog2 (n d : Nat) : Int :=
  let g : Int := Nat.log2 n - Nat.log2 d
  let ge := if g ≥ 0 then n ≥ d * 2 ^ g.toNat else n * 2 ^ (-g).toNat ≥ d
  if ge then g else g - 1

/-- Whether the magnitude `n` rounds up, given the remainder `r` of the divisor `d` (R19). -/
def roundsUp (rm : Rm) (neg : Bool) (n r d : Nat) : Bool :=
  match rm with
  | .rne => 2 * r > d || (2 * r == d && n % 2 == 1)
  | .rtz => false
  | .rdn => neg && r != 0
  | .rup => !neg && r != 0

/-- A signed rational rounded to an integer under `rm`. -/
def roundToInt (rm : Rm) (neg : Bool) (n d : Nat) : Int :=
  let q := n / d
  let q' := if roundsUp rm neg q (n % d) d then q + 1 else q
  if neg then -(q' : Int) else q'

/-- The result of a magnitude too large for the format (R19). -/
def FFmt.overflow (f : FFmt) (rm : Rm) (neg : Bool) : Nat :=
  match rm, neg with
  | .rne, _ => f.inf neg
  | .rtz, _ => f.maxFin neg
  | .rdn, true => f.inf true
  | .rdn, false => f.maxFin false
  | .rup, true => f.maxFin true
  | .rup, false => f.inf false

/-- Round (R12): the nonzero rational `(−1)^neg × n ÷ d` rounded once into the format. -/
def FFmt.roundRat (f : FFmt) (rm : Rm) (neg : Bool) (n d : Nat) : Nat :=
  if n = 0 then f.zero neg
  else
    let q := max (ratLog2 n d - f.fb) f.qmin
    let nn := if q ≥ 0 then n else n * 2 ^ (-q).toNat
    let dd := if q ≥ 0 then d * 2 ^ q.toNat else d
    let k := nn / dd
    let k' := if roundsUp rm neg k (nn % dd) dd then k + 1 else k
    let pat := (q - f.qmin).toNat * 2 ^ f.fb + k'
    if pat ≥ f.infBits then f.overflow rm neg else f.zero neg + pat

/-- Round of `(−1)^neg × m × 2^e`. -/
def FFmt.roundScaled (f : FFmt) (rm : Rm) (neg : Bool) (m : Nat) (e : Int) : Nat :=
  if e ≥ 0 then f.roundRat rm neg (m * 2 ^ e.toNat) 1 else f.roundRat rm neg m (2 ^ (-e).toNat)

/-- Round of any decoded value; a zero keeps its sign and a NaN becomes canonical (R18). -/
def FFmt.roundVal (f : FFmt) (rm : Rm) : FVal → Nat
  | .nan => f.nanBits
  | .inf neg => f.inf neg
  | .fin neg m e => f.roundScaled rm neg m e

/-- Exchange the sign of a value. -/
def FVal.neg : FVal → FVal
  | .nan => .nan
  | .inf s => .inf (!s)
  | .fin s m e => .fin (!s) m e

/-- The signed mantissa of a finite value brought to exponent `e0 ≤ e`. -/
def mantAt (neg : Bool) (m : Nat) (e e0 : Int) : Int :=
  let k : Int := (scaleNat m (e - e0) : Nat)
  if neg then -k else k

/-- The exact sum of two values; an exact zero of unlike signs is −0 only under RDN. -/
def FVal.add (rm : Rm) : FVal → FVal → FVal
  | .nan, _ => .nan
  | _, .nan => .nan
  | .inf s, .inf t => if s == t then .inf s else .nan
  | .inf s, _ => .inf s
  | _, .inf t => .inf t
  | .fin s m e, .fin t k g =>
    let e0 := min e g
    let z := mantAt s m e e0 + mantAt t k g e0
    if z = 0 then .fin (if s == t then s else rm == .rdn) 0 0
    else .fin (z < 0) z.natAbs e0

/-- The exact product of two values (R112: ∞ × 0 is NaN). -/
def FVal.mul : FVal → FVal → FVal
  | .nan, _ => .nan
  | _, .nan => .nan
  | .inf s, .inf t => .inf (s != t)
  | .inf s, .fin t k _ => if k = 0 then .nan else .inf (s != t)
  | .fin s m _, .inf t => if m = 0 then .nan else .inf (s != t)
  | .fin s m e, .fin t k g => .fin (s != t) (m * k) (e + g)

/-- Round(a + b) (R111). -/
def FFmt.add (f : FFmt) (rm : Rm) (a b : FVal) : Nat := f.roundVal rm (a.add rm b)

/-- Round(a × b + c), once (R112). -/
def FFmt.fma (f : FFmt) (rm : Rm) (a b c : FVal) : Nat := f.roundVal rm ((a.mul b).add rm c)

/-- Round(a ÷ b) (R111). -/
def FFmt.div (f : FFmt) (rm : Rm) : FVal → FVal → Nat
  | .nan, _ => f.nanBits
  | _, .nan => f.nanBits
  | .inf _, .inf _ => f.nanBits
  | .inf s, .fin t _ _ => f.inf (s != t)
  | .fin s _ _, .inf t => f.zero (s != t)
  | .fin s m e, .fin t k g =>
    if k = 0 then (if m = 0 then f.nanBits else f.inf (s != t))
    else if e ≥ g then f.roundRat rm (s != t) (m * 2 ^ (e - g).toNat) k
    else f.roundRat rm (s != t) m (k * 2 ^ (g - e).toNat)

/-- The floor of the square root, found bit by bit from bit `k − 1` down. -/
def isqrtFrom : Nat → Nat → Nat → Nat
  | 0, _, r => r
  | k + 1, n, r => if (r + 2 ^ k) * (r + 2 ^ k) ≤ n then isqrtFrom k n (r + 2 ^ k)
      else isqrtFrom k n r

/-- The floor of the square root. -/
def isqrt (n : Nat) : Nat := isqrtFrom (Nat.log2 n / 2 + 1) n 0

/-- Round(√a) for a positive finite `m × 2^e`: an inexact root lies strictly between two integers of 160 more bits. -/
def FFmt.sqrtPos (f : FFmt) (rm : Rm) (m : Nat) (e : Int) : Nat :=
  let sh : Nat := 320 + (e % 2).toNat
  let n := m * 2 ^ sh
  let r := isqrt n
  let half := (e - sh) / 2
  if r * r = n then f.roundScaled rm false r half
  else f.roundScaled rm false (2 * r + 1) (half - 1)

/-- SQRT (R111). -/
def FFmt.sqrt (f : FFmt) (rm : Rm) : FVal → Nat
  | .nan => f.nanBits
  | .inf true => f.nanBits
  | .inf false => f.inf false
  | .fin s m e => if m = 0 then f.zero s else if s then f.nanBits else f.sqrtPos rm m e

/-- Comparison by value: −0 equals +0, and a NaN is unordered (R140). -/
def FVal.compare : FVal → FVal → Option Ordering
  | .nan, _ => none
  | _, .nan => none
  | .inf s, .inf t => some (Ord.compare (if s then 0 else 1) (if t then 0 else 1))
  | .inf s, .fin .. => some (if s then .lt else .gt)
  | .fin .., .inf t => some (if t then .gt else .lt)
  | .fin s m e, .fin t k g =>
    let e0 := min e g
    some (Ord.compare (mantAt s m e e0) (mantAt t k g e0))

def FVal.isNan : FVal → Bool
  | .nan => true
  | _ => false

def FVal.isZero : FVal → Bool
  | .fin _ m _ => m == 0
  | _ => false

def FVal.isNeg : FVal → Bool
  | .nan => false
  | .inf s => s
  | .fin s _ _ => s

def FVal.lt (a b : FVal) : Bool := a.compare b == some .lt
def FVal.le (a b : FVal) : Bool := a.compare b == some .lt || a.compare b == some .eq

/-- The order of minimumNumber, where −0 lies below +0 (R111). -/
def FVal.below (a b : FVal) : Bool :=
  a.lt b || (a.isZero && b.isZero && a.isNeg && !b.isNeg)

/-- MIN (R111): an operand's bits unchanged; one NaN yields the other, two the canonical NaN. -/
def FFmt.minNum (f : FFmt) (x y : Nat) : Nat :=
  match (f.decode x).isNan, (f.decode y).isNan with
  | true, true => f.nanBits
  | true, false => y
  | false, true => x
  | false, false => if (f.decode y).below (f.decode x) then y else x

/-- MAX (R111). -/
def FFmt.maxNum (f : FFmt) (x y : Nat) : Nat :=
  match (f.decode x).isNan, (f.decode y).isNan with
  | true, true => f.nanBits
  | true, false => y
  | false, true => x
  | false, false => if (f.decode x).below (f.decode y) then y else x

/-- ABS, NEG and CPSGN act on the sign bit alone (R111). -/
def FFmt.absBits (f : FFmt) (x : Nat) : Nat := x % f.signBit
def FFmt.negBits (f : FFmt) (x : Nat) : Nat := if natBit x (f.eb + f.fb) then x - f.signBit else x + f.signBit
def FFmt.copySign (f : FFmt) (x y : Nat) : Nat := x % f.signBit + f.zero (natBit y (f.eb + f.fb))

/-- A finite value rounded to an integer under `rm`. -/
def finToInt (rm : Rm) (s : Bool) (m : Nat) (e : Int) : Int :=
  if e ≥ 0 then roundToInt rm s (m * 2 ^ e.toNat) 1 else roundToInt rm s m (2 ^ (-e).toNat)

/-- RNDI (R113). -/
def FFmt.rndi (f : FFmt) (rm : Rm) (x : Nat) : Nat :=
  match f.decode x with
  | .nan => f.nanBits
  | .inf s => f.inf s
  | .fin s m e =>
    if m = 0 then x
    else
      let z := finToInt rm s m e
      f.roundScaled .rne s z.natAbs 0

/-- Whether a finite value is an integer. -/
def isIntegral (m : Nat) (e : Int) : Bool := e ≥ 0 || m % 2 ^ (-e).toNat == 0

/-- EXPI (R113), its cases in the order given. -/
def FFmt.expi (f : FFmt) (rm : Rm) (x y : Nat) : Nat :=
  match f.decode y with
  | .nan => f.nanBits
  | .inf false => f.inf false
  | .inf true => f.zero false
  | .fin t k g =>
    if !isIntegral k g then f.nanBits
    else
      match f.decode x with
      | .nan => f.nanBits
      | .inf _ => x
      | .fin s m e =>
        if m = 0 then x
        else
          -- an n beyond 5000 in magnitude overflows or underflows every format alike
          let n : Nat := if g > 12 then 5000
            else if g ≥ 0 then min (k * 2 ^ g.toNat) 5000 else min (k / 2 ^ (-g).toNat) 5000
          f.roundScaled rm s m (if t then e - n else e + n)

end Sys2Proof.Machine
end

