-- ==== Sys2Proof/Machine/Elem.lean ====
section
/-! DEFINITION. Element types, packing and values (R13–R16, R20, R22). -/

namespace Sys2Proof.Machine

/-- The kinds of element (R13). -/
inductive Kind where
  | sint | uint | flt | f4 | d8
deriving DecidableEq, Repr, Inhabited

/-- An element type: its kind and width, and the format of a floating one. -/
structure ETy where
  kind : Kind
  w    : Nat
  fmt  : FFmt := f32
deriving DecidableEq, Repr

/-- The TY codes of R13; a bit-serial type takes its width from PW (R15: PW 16 to 31 is illegal). -/
def ETy.ofCode (ty pw : Nat) : Option ETy :=
  match ty with
  | 0 => some ⟨.sint, 8, f32⟩
  | 1 => some ⟨.uint, 8, f32⟩
  | 2 => some ⟨.sint, 16, f32⟩
  | 3 => some ⟨.uint, 16, f32⟩
  | 4 => some ⟨.sint, 32, f32⟩
  | 5 => some ⟨.uint, 32, f32⟩
  | 6 => some ⟨.sint, 64, f32⟩
  | 7 => some ⟨.uint, 64, f32⟩
  | 8 => some ⟨.flt, 16, f16⟩
  | 9 => some ⟨.flt, 16, bf16⟩
  | 10 => some ⟨.flt, 32, f32⟩
  | 11 => some ⟨.flt, 64, f64⟩
  | 12 => some ⟨.f4, 4, f32⟩
  | 13 => some ⟨.d8, 8, f32⟩
  | 14 => some ⟨.sint, 6, f32⟩
  | 15 => some ⟨.sint, 4, f32⟩
  | 16 => if pw < 16 then some ⟨.sint, pw + 1, f32⟩ else none
  | _ => none

/-- The type of a code that a form admits; the form tables rule every other code out first. -/
def ETy.get (ty pw : Nat) : ETy := (ETy.ofCode ty pw).getD ⟨.uint, 64, f32⟩

/-- SUBN (R13): elements per 64-bit register. -/
def ETy.subn (t : ETy) : Nat := 64 / t.w

/-- Whether the type reads as a signed integer. -/
def ETy.isSigned (t : ETy) : Bool := t.kind == .sint

/-- The elements of a register, element 0 first (R14). -/
def ETy.elems (t : ETy) (x : Nat) : List Nat := (List.range t.subn).map fun i => elemAt t.w i x

/-- The integer value of an element of an integer type (R16). -/
def ETy.int (t : ETy) (x : Nat) : Int := if t.isSigned then signed t.w x else Int.ofNat (x % 2 ^ t.w)

/-- The used bits of a register as this type: unused bits are zero (R14). -/
def ETy.usedMask (t : ETy) : Nat := 2 ^ (t.w * t.subn) - 1

/-- The magnitude of an `.f4` code in quarters (R20). -/
def f4Quarters (x : Nat) : Nat :=
  match x % 8 with
  | 0 => 0
  | 1 => 1
  | 2 => 2
  | 3 => 3
  | 4 => 4
  | 5 => 6
  | 6 => 8
  | _ => 12

/-- The value of an `.f4` code in quarters; both zero codes are 0 (R20). -/
def f4Value (x : Nat) : Int := if natBit x 3 then -(f4Quarters x : Int) else f4Quarters x

/-- One term of a `.d8` element in units of 2^-6 (R22). -/
def d8Term (s : Bool) (c : Nat) : Int :=
  if c = 7 then 0 else if s then -(2 ^ (6 - c) : Int) else 2 ^ (6 - c)

/-- The value of a `.d8` code in units of 2^-6 (R22). -/
def d8Value (x : Nat) : Int :=
  d8Term (natBit x 7) (natBits x 6 4) + d8Term (natBit x 3) (natBits x 2 0)

/-- The value with the given sign, magnitude and exponent. -/
def FVal.ofInt (z : Int) (e : Int) : FVal := .fin (z < 0) z.natAbs e

/-- The value of an element under its type: integers at their value, floats at theirs, quantised formats by R20 and R22. -/
def ETy.value (t : ETy) (x : Nat) : FVal :=
  match t.kind with
  | .sint => .ofInt (signed t.w x) 0
  | .uint => .fin false (x % 2 ^ t.w) 0
  | .flt => t.fmt.decode (x % 2 ^ t.w)
  | .f4 => .ofInt (f4Value x) (-2)
  | .d8 => .ofInt (d8Value x) (-6)

/-- One result per element of two registers. -/
def ETy.map2 (t : ETy) (f : Nat → Nat → Nat) (a b : Nat) : Nat :=
  packElems t.w ((List.range t.subn).map fun i => f (elemAt t.w i a) (elemAt t.w i b))

/-- One result per element of one register. -/
def ETy.map1 (t : ETy) (f : Nat → Nat) (a : Nat) : Nat :=
  packElems t.w ((List.range t.subn).map fun i => f (elemAt t.w i a))

/-- One result per element of three registers. -/
def ETy.map3 (t : ETy) (f : Nat → Nat → Nat → Nat) (a b c : Nat) : Nat :=
  packElems t.w ((List.range t.subn).map fun i => f (elemAt t.w i a) (elemAt t.w i b) (elemAt t.w i c))

/-- The quotient of R74 and R106: truncated toward zero, never a trap. -/
def divide (sgn : Bool) (w : Nat) (a b : Nat) : Nat :=
  if b % 2 ^ w = 0 then 2 ^ w - 1
  else if sgn then wrapNat w (Int.tdiv (signed w a) (signed w b))
  else (a % 2 ^ w) / (b % 2 ^ w)

/-- The remainder of R74 and R106, with the sign of the dividend. -/
def remainder (sgn : Bool) (w : Nat) (a b : Nat) : Nat :=
  if b % 2 ^ w = 0 then a % 2 ^ w
  else if sgn then wrapNat w (Int.tmod (signed w a) (signed w b))
  else (a % 2 ^ w) % (b % 2 ^ w)

/-- SHL on `w` bits: 0 for a count of `w` or more (R75, R109). -/
def shiftLeft (w a n : Nat) : Nat := if n ≥ w then 0 else (a <<< n) % 2 ^ w
/-- SHR on `w` bits (R75, R109). -/
def shiftRight (w a n : Nat) : Nat := if n ≥ w then 0 else (a % 2 ^ w) >>> n
/-- SAR on `w` bits: copies of the top bit for a count of `w` or more (R75, R109). -/
def shiftArith (w a n : Nat) : Nat := wrapNat w (signed w a / (2 ^ (min n w) : Int))
/-- ROL on `w` bits by `n mod w` (R109). -/
def rotateLeft (w a n : Nat) : Nat :=
  ((a % 2 ^ w) <<< (n % w) + (a % 2 ^ w) >>> (w - n % w)) % 2 ^ w
/-- ROR on `w` bits by `n mod w` (R109). -/
def rotateRight (w a n : Nat) : Nat := rotateLeft w a (w - n % w)

/-- The unsigned field of R78: WID above 64 acts as 64, and bits past 63 read as zero. -/
def fieldExtract (a pos wid : Nat) : Nat := (a >>> pos) % 2 ^ (min wid 64)

/-- The insert of R78: bits that would land past 63 are dropped, and a width of 0 changes nothing. -/
def fieldInsert (d a pos wid : Nat) : Nat :=
  let w := min (min wid 64) (64 - pos)
  if w = 0 then d else d - (natBits d (pos + w - 1) pos) <<< pos + (a % 2 ^ w) <<< pos

end Sys2Proof.Machine
end

