-- ==== Sys2Proof/Machine/Quant.lean ====
section
/-! DEFINITION. Block scales, companding tables and quantisation (R20–R29, R119, R120). -/

namespace Sys2Proof.Machine

/-- A companding table of a core: 17 knots and 16 differences, f32 patterns (R26). -/
structure CTable where
  knots : List (BitVec 32)
  diffs : List (BitVec 32)
deriving DecidableEq, Repr

/-- An f32 value of a table's list. -/
def tabAt (l : List (BitVec 32)) (i : Nat) : FVal := f32.decode ((l.getD i 0).toNat)

/-- Whether a value is finite. -/
def FVal.isFinite : FVal → Bool
  | .fin .. => true
  | _ => false

/-- The table formed from 17 knots, if it is valid: finite knots, strictly increasing, with finite differences (R26). -/
def CTable.ofKnots (knots : List (BitVec 32)) : Option CTable :=
  let d := (List.range 16).map fun j =>
    BitVec.ofNat 32 (f32.add .rne (tabAt knots (j + 1)) (tabAt knots j).neg)
  if (List.range 17).all (fun j => (tabAt knots j).isFinite)
      && (List.range 16).all (fun j => (tabAt knots j).lt (tabAt knots (j + 1)))
      && (List.range 16).all (fun j => (tabAt d j).isFinite)
  then some ⟨knots, d⟩ else none

/-- A block scale (R24): E8 with code 255 invalid, or a BF16 value. -/
def scaleE8 (e : Nat) : FVal := if e = 255 then .nan else .fin false 1 (Int.ofNat e - 127)
def scaleBf16 (x : Nat) : FVal := bf16.decode x

/-- The largest quantised magnitude Q of a format by TY code (R26). -/
def maxMag (ty : Nat) : Nat :=
  match ty with
  | 12 => 3
  | 0 => 127
  | 14 => 31
  | 15 => 7
  | _ => 2

/-- The output knot y[j] = Q × (j − 8) ÷ 8 (R26). -/
def outKnot (q j : Nat) : FVal := .ofInt (q * ((j : Int) - 8)) (-3)

/-- The largest j in 0..15 whose knot is at or below the value. -/
def segmentOf (at' : Nat → FVal) (u : FVal) : Nat :=
  (List.range 16).foldl (fun best j => if (at' j).le u then j else best) 0

/-- `min(max(c, lo), hi)` by value. -/
def clampVal (c lo hi : FVal) : FVal :=
  let a := if c.lt lo then lo else c
  if hi.lt a then hi else a

/-- Compand (R27), step by step. R26 says that an identity table returns its input unchanged; the steps of R27 and R28 are what the model
follows for it too (notes/assumptions/98, DESIGN CHOICE). -/
def compand (t : CTable) (q : Nat) (u : FVal) : FVal :=
  if u.isNan then .nan
  else if u.le (tabAt t.knots 0) then .ofInt (-(q : Int)) 0
  else if (tabAt t.knots 16).le u then .ofInt q 0
  else
    let j := segmentOf (tabAt t.knots) u
    let x := tabAt t.knots j
    let y0 := outKnot q j
    if u.compare x = some .eq then y0
    else
      let s := f32.decode (f32.div .rne (.ofInt q (-3)) (tabAt t.diffs j))
      let e := f32.decode (f32.add .rne u x.neg)
      let c := f32.decode (f32.fma .rne s e y0)
      clampVal c y0 (outKnot q (j + 1))

/-- Expand (R28), step by step. -/
def expand (t : CTable) (q : Nat) (v : FVal) : FVal :=
  if v.le (.ofInt (-(q : Int)) 0) then tabAt t.knots 0
  else if (FVal.ofInt q 0).le v then tabAt t.knots 16
  else
    let j := segmentOf (outKnot q) v
    let y0 := outKnot q j
    if v.compare y0 = some .eq then tabAt t.knots j
    else
      let g := f32.decode (f32.div .rne (tabAt t.diffs j) (.ofInt q (-3)))
      let w := f32.decode (f32.fma .rne g (v.add .rne y0.neg) (tabAt t.knots j))
      clampVal w (tabAt t.knots j) (tabAt t.knots (j + 1))

/-- The `.f4` code of a magnitude index, whose zero is always 0b0000 (R21). -/
def f4Code (neg : Bool) (idx : Nat) : Nat := if idx = 0 then 0 else (if neg then 8 else 0) + idx

/-- The rational `|c| × 2^k ÷ unit` as numerator and denominator. -/
def magRat (m : Nat) (e : Int) (k : Nat) : Nat × Nat :=
  if e + k ≥ 0 then (m * 2 ^ (e + k).toNat, 1) else (m, 2 ^ (-(e + k)).toNat)

/-- Rounding to the `.f4` grid (R21): nearest magnitude in quarters, a tie to the code whose significand bit is 0. -/
def roundF4 (neg : Bool) (m : Nat) (e : Int) : Nat :=
  let (n, d) := magRat m e 2
  let idx := (List.range 8).foldl (fun best i =>
    -- distance comparison |4c − grid| in units of 1/d
    let far (k : Nat) : Nat := if f4Quarters k * d ≥ n then f4Quarters k * d - n else n - f4Quarters k * d
    if far i < far best then i else if far i = far best && i % 2 = 0 then i else best) 0
  f4Code neg idx

/-- The canonical `.d8` code of a magnitude and sign (R23, rules 1 to 3). -/
def d8Canonical (v : Int) : Nat :=
  if v = 0 then 0x77
  else
    let pairs := (List.range 7).flatMap fun a => (List.range 7).map fun b => (a, b)
    match (List.range 7).find? (fun a => (2 ^ (6 - a) : Int) = v.natAbs) with
    | some a => (if v < 0 then 128 else 0) + a * 16 + 7
    | none =>
      let code (s1 s2 : Bool) (a b : Nat) : Nat :=
        (if s1 then 128 else 0) + a * 16 + (if s2 then 8 else 0) + b
      let same := pairs.find? fun ab => d8Term (v < 0) ab.1 + d8Term (v < 0) ab.2 = v
      let opp := pairs.find? fun ab => d8Term (v < 0) ab.1 + d8Term (!decide (v < 0)) ab.2 = v
      match same with
      | some (a, b) => code (v < 0) (v < 0) a b
      | none =>
        match opp with
        | some (a, b) => code (v < 0) (!decide (v < 0)) a b
        | none => 0x77

/-- The representable magnitudes of `.d8` in units of 2^-6, ascending: 0 to 128 where some pair of terms gives them (R22). -/
def d8Mags : List Nat := (List.range 129).filter fun v => v = 0 || d8Value (d8Canonical v) = v

/-- Rounding to `.d8` (R23): nearest, a tie to the smaller magnitude. -/
def roundD8 (neg : Bool) (m : Nat) (e : Int) : Nat :=
  let (n, d) := magRat m e 6
  let best := d8Mags.foldl (fun best v =>
    let far (k : Nat) : Nat := if k * d ≥ n then k * d - n else n - k * d
    if far v < far best then v else best) 0
  d8Canonical (if neg then -(best : Int) else best)

/-- The code of the bound ±Q of a format (R29). -/
def maxCode (ty : Nat) (neg : Bool) : Nat :=
  match ty with
  | 12 => f4Code neg 7
  | 13 => d8Canonical (if neg then -128 else 128)
  | _ =>
    let w := if ty = 0 then 8 else if ty = 14 then 6 else 4
    wrapNat w (if neg then -(maxMag ty : Int) else maxMag ty)

/-- The code of zero of a format. -/
def zeroCode (ty : Nat) : Nat := if ty = 13 then 0x77 else 0

/-- Quantise (R29): scale, then curve, then rounding, then saturation. Answers the code, and whether it counts as a NaN. -/
def quantise (ty : Nat) (s : FVal) (t : Option CTable) (x : FVal) : Nat × Bool :=
  let q := maxMag ty
  let u := f32.decode (f32.div .rne x s)
  let c := match t with
    | none => u
    | some tab => compand tab q u
  match c with
  | .nan => (zeroCode ty, true)
  | .inf neg => (maxCode ty neg, false)
  | .fin neg m e =>
    if (FVal.ofInt q 0).le c then (maxCode ty false, false)
    else if c.le (.ofInt (-(q : Int)) 0) then (maxCode ty true, false)
    else
      match ty with
      | 12 => (roundF4 neg m e, false)
      | 13 => (roundD8 neg m e, false)
      | _ => (wrapNat (if ty = 0 then 8 else if ty = 14 then 6 else 4) (finToInt .rne neg m e), false)

/-- One DQNT element (R120): the decoded value times the scale, or the expanded value times the scale in f32. -/
def dequantise (dt : FFmt) (rm : Rm) (ty : Nat) (s : FVal) (t : Option CTable) (x : Nat) : Nat :=
  let v := (ETy.get ty 0).value x
  match t with
  | some tab => f32.roundVal .rne ((expand tab (maxMag ty) v).mul s)
  | none =>
    if s.isNan then dt.nanBits
    else if v.isZero then (if s.isFinite then 0 else dt.nanBits)
    else dt.roundVal rm (v.mul s)

/-- The decoded operand of R25: the element's value times its block scale, exact; a NaN scale gives NaN, and an infinite scale gives a
NaN for a zero element. -/
def scaledElem (ty : Nat) (s : FVal) (x : Nat) : FVal := ((ETy.get ty 0).value x).mul s

end Sys2Proof.Machine
end

