-- ==== Sys2Proof/Machine/AccOps.lean ====
section
/-! DEFINITION. The long accumulator (R30–R41, R157, R160, R429). -/

namespace Sys2Proof.Machine

/-- A long accumulator's register image (R31): ten segments, ten carry counters, four sticky status bits. -/
structure Acc where
  seg  : List Word
  cnt  : List (BitVec 16)
  nan  : Bool
  pinf : Bool
  ninf : Bool
  ovf  : Bool
deriving DecidableEq, Repr, Inhabited

/-- AZERO (R31, R155). -/
def Acc.zero : Acc := ⟨List.replicate 10 0, List.replicate 10 0, false, false, false, false⟩

/-- Σ seg[i] × 2^(64i), the last segment signed (R31). -/
def segValue : List Word → Int
  | [] => 0
  | [s] => s.toInt
  | s :: ss => s.toNat + 2 ^ 64 * segValue ss

/-- Σ c[i] × 2^(64i) (R31). -/
def cntValue : List (BitVec 16) → Int
  | [] => 0
  | c :: cs => c.toInt + 2 ^ 64 * cntValue cs

/-- N (R31). -/
def Acc.val (a : Acc) : Int := segValue a.seg + 2 ^ 64 * cntValue a.cnt

/-- The extended range of R30. -/
def inExtended (n : Int) : Bool := -(2 ^ 654 : Int) ≤ n && n < 2 ^ 654
/-- The ordinary range of R30. -/
def inOrdinary (n : Int) : Bool := -(2 ^ 639 : Int) ≤ n && n < 2 ^ 639

/-- The image of an integer with the given counters c[0] to c[8]: the segments take the rest, and c[9] what passes the ordinary range. -/
def Acc.imageWith (c : List (BitVec 16)) (n : Int) (a : Acc) : Acc :=
  let r := n - 2 ^ 64 * cntValue c
  { a with
    seg := (List.range 10).map fun i => BitVec.ofInt 64 (r / (2 ^ (64 * i) : Int))
    cnt := c ++ [BitVec.ofInt 16 ((r + 2 ^ 639) / (2 ^ 640 : Int))] }

/-- The canonical image of (N, status) (R37); c[9] past 16 bits wraps, as R429 states. -/
def Acc.canonicalOf (n : Int) (a : Acc) : Acc := a.imageWith (List.replicate 9 0) n

/-- CRES (R33, R155). -/
def Acc.resolve (a : Acc) : Acc := a.canonicalOf a.val

/-- seg[i+1] + c[i], and what of it carries or borrows into c[i+1] (R33). -/
def Acc.stepSum (i : Nat) (a : Acc) : Int :=
  let s := a.seg.getD (i + 1) 0
  (if i + 1 = 9 then s.toInt else s.toNat) + (a.cnt.getD i 0).toInt
def Acc.stepCarry (i : Nat) (a : Acc) : Int := if i + 1 = 9 then (a.stepSum i + 2 ^ 63) / 2 ^ 64 else a.stepSum i / 2 ^ 64

/-- c[i] moved into seg[i+1], its carry or borrow into c[i+1]; c[9] wraps (R33, R429). -/
def Acc.moveCounter (i : Nat) (a : Acc) : Acc :=
  { a with
    seg := a.seg.set (i + 1) (BitVec.ofInt 64 (a.stepSum i))
    cnt := (a.cnt.set i 0).set (i + 1) (BitVec.ofInt 16 ((a.cnt.getD (i + 1) 0).toInt + a.stepCarry i)) }

/-- Whether the carry of a step for counter `i` would take one of c[0] to c[8] outside its 16 bits. -/
def Acc.stepOverflows (i : Nat) (a : Acc) : Bool :=
  let c := (a.cnt.getD (i + 1) 0).toInt + a.stepCarry i
  decide (i < 8) && !(decide (-32768 ≤ c) && decide (c ≤ 32767))

/-- A resolution step for counter `i`, with `fuel` counters above it: one whose carry finds c[i+1] at its bound resolves c[i+1] first, which keeps
the bound of R33. -/
def Acc.resolveUp : Nat → Nat → Acc → Acc
  | 0, i, a => a.moveCounter i
  | fuel + 1, i, a => if a.stepOverflows i then (Acc.resolveUp fuel (i + 1) a).moveCounter i else a.moveCounter i

/-- One resolution step for counter `i` ≤ 8 (R33). -/
def Acc.resolveStep (i : Nat) (a : Acc) : Acc := a.resolveUp (8 - i) i

/-- Whether some counter c[0] to c[8] stands at a bound of its 16 bits (R33). -/
def Acc.atBound (a : Acc) : Bool :=
  (a.cnt.take 9).any fun c => c.toInt == 32767 || c.toInt == -32768

/-- The segment mechanics of R32 from segment `i` on, for the chunks of a magnitude. -/
def addChunks (up : Bool) : Nat → Nat → List Word → List (BitVec 16) → List Word × List (BitVec 16)
  | _, _, [], cs => ([], cs)
  | _, _, ss, [] => (ss, [])
  | i, mag, s :: ss, c :: cs =>
    let m : Nat := mag % 2 ^ 64
    let z : Int := if i = 9 then s.toInt else s.toNat
    let t : Int := if up then z + m else z - m
    let top : Int := if i = 9 then 2 ^ 63 else 2 ^ 64
    let bot : Int := if i = 9 then -(2 ^ 63) else 0
    let k : Int := if t ≥ top then 1 else if t < bot then -1 else 0
    let rest := addChunks up (i + 1) (mag >>> 64) ss cs
    (BitVec.ofInt 64 t :: rest.1, BitVec.ofInt 16 (c.toInt + k) :: rest.2)

/-- N := N + a in the image (R32), resolving first where a counter stands at its bound (R33). -/
def Acc.addInt (a : Acc) (z : Int) : Acc :=
  let b := if a.atBound then a.resolve else a
  let r := addChunks (z > 0) 0 z.natAbs b.seg b.cnt
  { b with seg := r.1, cnt := r.2 }

/-- The addend truncated toward zero to units of 2^-298 (R32). -/
def unitsOf (neg : Bool) (m : Nat) (e : Int) : Int :=
  let k : Nat := if e + 298 ≥ 0 then m * 2 ^ (e + 298).toNat else m / 2 ^ (-(e + 298)).toNat
  if neg then -(k : Int) else k

/-- AccAdd (R32). -/
def Acc.add (a : Acc) (x : FVal) : Acc :=
  match x with
  | .nan => { a with nan := true }
  | .inf false => { a with pinf := true }
  | .inf true => { a with ninf := true }
  | .fin neg m e =>
    let z := unitsOf neg m e
    if z.natAbs ≥ 2 ^ 639 || !inExtended (a.val + z) then { a with ovf := true }
    else if z = 0 then a
    else a.addInt z

/-- The status bits of the first ORed with those of the second. -/
def Acc.orStatus (a b : Acc) : Acc :=
  { a with nan := a.nan || b.nan, pinf := a.pinf || b.pinf, ninf := a.ninf || b.ninf, ovf := a.ovf || b.ovf }

/-- The exact merge of R41: N added, status ORed, and the range test of R32 on the sum; the canonical image. -/
def Acc.merge (a b : Acc) : Acc :=
  let s := a.orStatus b
  if inExtended (a.val + b.val) then s.canonicalOf (a.val + b.val) else { s with ovf := true }

/-- AADDA (R157), with the counters of the image it leaves given. A sum that is refused has joined the status (notes/assumptions/122, DESIGN CHOICE). -/
def Acc.adda (c : List (BitVec 16)) (a b : Acc) : Acc :=
  let s := a.orStatus b
  if inExtended (a.val + b.val) then s.imageWith c (a.val + b.val) else { s with ovf := true }

/-- ANEG (R157), with the counters of the image it leaves given; where N or −N lies outside the extended range, aA's image with
OVF set (R429). -/
def Acc.negate (c : List (BitVec 16)) (a : Acc) : Acc :=
  if inExtended a.val && inExtended (-a.val) then { a with pinf := a.ninf, ninf := a.pinf }.imageWith c (-a.val) else { a with ovf := true }

/-- OVF set where N lies outside the extended range (R429). -/
def Acc.checkRange (a : Acc) : Acc := if inExtended a.val then a else { a with ovf := true }

/-- The rows of R35 above "N = 0"; none where none of them applies. -/
def Acc.special (f : FFmt) (a : Acc) : Option Nat :=
  if a.nan || (a.pinf && a.ninf) then some f.nanBits
  else if a.pinf then some (f.inf false)
  else if a.ninf then some (f.inf true)
  else if a.ovf || !inOrdinary a.val then some f.ovfNan
  else none

/-- RoundAcc (R35). -/
def Acc.round (f : FFmt) (rm : Rm) (a : Acc) : Nat :=
  match a.special f with
  | some x => x
  | none =>
    let n := a.val
    if n = 0 then 0 else f.roundScaled rm (n < 0) n.natAbs (-298)

/-- ARND with a divisor (R160). -/
def Acc.roundDiv (f : FFmt) (rm : Rm) (a : Acc) (d : Nat) : Nat :=
  match a.special f with
  | some x => x
  | none =>
    let n := a.val
    if d = 0 then (if n = 0 then f.nanBits else f.inf (n < 0))
    else if n = 0 then 0
    else f.roundRat rm (n < 0) n.natAbs (d * 2 ^ 298)

/-- The integer content (R38). -/
def Acc.content (a : Acc) : Int := a.val / 2 ^ 298

/-- The status word of R36. -/
def Acc.status (a : Acc) : Nat :=
  (if a.nan then 1 else 0) + (if a.pinf then 2 else 0) + (if a.ninf then 4 else 0) + (if a.ovf then 8 else 0)

/-- The status bits taken from a status word. -/
def Acc.withStatus (a : Acc) (x : Nat) : Acc :=
  { a with nan := natBit x 0, pinf := natBit x 1, ninf := natBit x 2, ovf := natBit x 3 }

/-- The 128-byte raw image (R36). -/
def Acc.bytes (a : Acc) : List Byte :=
  ((List.range 10).flatMap fun i => toBytes 8 (a.seg.getD i 0).toNat)
    ++ ((List.range 10).flatMap fun i => toBytes 2 (a.cnt.getD i 0).toNat)
    ++ toBytes 4 a.status ++ List.replicate 24 0

/-- The accumulator an image of 128 bytes loads, with OVF set where its N lies outside the extended range (R36, R429). -/
def Acc.ofBytes (b : List Byte) : Acc :=
  let a : Acc :=
    { seg := (List.range 10).map fun i => BitVec.ofNat 64 (Machine.ofBytes ((b.drop (8 * i)).take 8))
      cnt := (List.range 10).map fun i => BitVec.ofNat 16 (Machine.ofBytes ((b.drop (80 + 2 * i)).take 2))
      nan := false, pinf := false, ninf := false, ovf := false }
  (a.withStatus (Machine.ofBytes ((b.drop 100).take 4))).checkRange

/-- The image an ordinary load of an ACC element returns (R37, R40): canonical, or as it stands where N lies outside the extended range. -/
def Acc.readImage (a : Acc) : Acc := if inExtended a.val then a.resolve else { a with ovf := true }

end Sys2Proof.Machine
end

