-- ==== Sys2Proof/Machine/State.lean ====
section
/-! DEFINITION. The state of the device: every register, store, queue and table the spec names, as plain data, and the state at
the end of device reset. -/

namespace Sys2Proof.Machine

/-- Memory: sparse cells in rising address order (Host.Cell). -/
abbrev Cells := List Host.Cell

/-- Why the machine stops: no meaning of this model stops with a fault. -/
inductive Fault where
  /-- Raised by nothing: the spec describes an effect for every instruction, and the model takes it. Safe. -/
  | impossible
deriving DecidableEq, Repr

/-- Why an instruction has no meaning in a state. -/
inductive Refusal where
  /-- An instruction that the model does not give a meaning yet; raised by a dispatch arm. Safe. -/
  | notModelled (mnemonic : String)
  /-- An instruction of a stream is executed and the state selects no stream; raised by every stream instruction. No run reaches it, because a
  step selects the stream first. Safe. -/
  | noCurrentStream
deriving DecidableEq, Repr

/-- Which stream of a team an instruction belongs to (R8, R95). -/
inductive Stream where
  | scalar | lane | handler
deriving DecidableEq, Repr, Inhabited

/-- The stream that the instruction being executed belongs to. -/
structure Cur where
  team   : Nat
  grp    : Nat
  stream : Stream
deriving DecidableEq, Repr

/-- The registers of a scalar stream (R42): s0 to s63, the bits q0 to q14 (q15 reads as 1), the program counter. -/
structure ScalarRegs where
  s  : Vector Word 64
  q  : BitVec 16
  pc : Word
deriving DecidableEq, Repr

/-- The zero scalar registers with a program counter (R235, R379). -/
def ScalarRegs.start (pc : Word) : ScalarRegs := ⟨Vector.replicate 64 0, 0, pc⟩

/-- One lane of a group (R42, R128, R132, R314): its counter, item, generator and register files. `holds` says that the lane
carries a claimed item (R133). -/
structure Lane where
  nest  : BitVec 8
  item  : Word
  holds : Bool
  rngk  : Word
  rngc  : Word
  p     : BitVec 96
  v     : List Word
  a     : List Acc
deriving DecidableEq, Repr

/-- A lane at team start (R235): vacant, everything else zero, ITEM all ones. -/
def Lane.start (V A : Nat) : Lane :=
  { nest := 255, item := -1#64, holds := false, rngk := 0, rngc := 0, p := 0
    v := List.replicate V 0, a := List.replicate A Acc.zero }

/-- A run: the header address it begins at and its clause constants (R42, R53). -/
structure Run where
  target : BitVec 32
  k      : Vector Word 8
deriving DecidableEq, Repr

/-- The clause in progress (R51, R53): its header's address, the next word, the address past its last word, and its tag. -/
structure Clause where
  header : Nat
  next   : Nat
  stop   : Nat
  tag    : Nat
deriving DecidableEq, Repr

/-- What a clause still owes its flags (R53, R54): the flags FA and FB it raised, its outstanding loads and stores, the widest scopes of them
(R264), and whether its last word has issued. -/
structure Tag where
  id     : Nat
  fa     : Option Nat
  fb     : Option Nat
  loads  : Nat
  stores : Nat
  lscope : Nat
  sscope : Nat
  ended  : Bool
deriving DecidableEq, Repr

/-- The registers of a lane that a load or atomic will write, from `reg` up, with the bytes gathered so far (R53, R327). -/
structure LoadDst where
  lane  : Nat
  acc   : Bool
  reg   : Nat
  ty    : Nat
  bytes : List Byte
deriving DecidableEq, Repr

/-- A piece of a lane access that has failed (R327, R347): its lane, the cause, the address and the detail it reports, and its word. -/
structure Nack where
  lane  : Nat
  cause : BitVec 8
  addr  : Word
  info  : Nat
  lpc   : BitVec 32
deriving DecidableEq, Repr

/-- A load or atomic in flight (R53): its clause's tag, its destinations, the pieces still logged or remote, failed ones included, and the failures.
`blocks` says that its word waits for another device's answers before it takes effect (R347). -/
structure LoadRec where
  id      : Nat
  tag     : Nat
  dsts    : List LoadDst
  waiting : Nat
  nacks   : List Nack
  blocks  : Bool
deriving DecidableEq, Repr

/-- A store or commutative add in flight (R53): its clause's tag, the pieces still logged or remote, failed ones included, and the failures. -/
structure StoreRec where
  id      : Nat
  tag     : Nat
  waiting : Nat
  nacks   : List Nack
deriving DecidableEq, Repr

/-- An eight-byte word that a parked WAITA monitors (R175): in HBM, with the memory key it is read under, in host memory, or in a team's scratchpad. -/
inductive Mon where
  | hbm (key : Option Nat) (addr : Nat)
  | host (addr : Nat)
  | scratch (team off : Nat)
deriving DecidableEq, Repr

/-- A parked wait (R176, R314), with the instruction that parked, the participants, and when the park began and ends. `stamp` is the largest stamp
among the operations that have brought a wake about, and `written` says that a write has changed a monitored word (R395); `polls` that a word of
another device, where no monitor is held, is to be read again. `words` are the monitored words of global memory, by virtual address, with what they read
as when the park began: their monitors are armed anew where the page has moved (R176, R337). -/
structure Park where
  stream   : Stream
  kind     : BitVec 8
  tcode    : Nat
  space    : Bool
  addr     : Word
  value    : Word
  mask     : Nat
  mons     : List Mon
  words    : List (Nat × Nat)
  word     : Instr
  since    : Nat
  deadline : Option Nat
  stamp    : Nat
  written  : Bool
  polls    : Bool
deriving DecidableEq, Repr

/-- What a stream is stalled on (R305, R402): `fetch` is the page of its next word, `page` that of its data, `lastRuns` and `lastFlags` are the two waits of
SDONE. -/
inductive Stall where
  | flag | runs | queueFull | pop | lock | claim | batch | page | remote | ordered | record | fence | engine | landing | handler | fetch | lastRuns
  | lastFlags
deriving DecidableEq, Repr

/-- The operand-collector latch (R199). -/
structure Latch where
  va     : Nat
  ty     : Nat
  ct     : Option Nat
  aregs  : List (List Word)
  scales : List Word
deriving DecidableEq, Repr

/-- An MMA in flight (R198, R200), with its operands as they were at issue. -/
structure Mma where
  id     : Nat
  tile   : Nat
  o      : Nat
  ta     : Nat
  cb     : Nat
  ks     : Nat
  aregs  : List (List Word)
  scales : List Word
  ctA    : Option CTable
  ctB    : Option CTable
  batch  : Nat
  fenced : Bool
  lock   : Nat
deriving DecidableEq, Repr

/-- A trap as it is raised and held (R374, R376, R383): `cmd` names the
engine command whose flag falls when the handling ends (R185), `lost` the load (false) or store (true) whose failed pieces are discarded then
(R327). -/
structure Trap where
  cause : BitVec 8
  grp   : Nat
  lane  : Bool
  tlpc  : BitVec 32
  tlane : Word
  taddr : Word
  tinfo : Word
  tick  : Nat
  async : Bool
  cmd   : Option Nat
  lost  : Option (Bool × Nat)
deriving DecidableEq, Repr

/-- A PLCX that waits (R359): the collective, the tiles it cancels and the count, and the tiles for which the owner has answered that it conflicts. -/
structure Cancel where
  num     : Nat
  coll    : Nat
  tiles   : List Nat
  count   : Nat
  refused : List Nat
deriving DecidableEq, Repr

/-- A group (R42, R314). `ready` and `sready` are one more than the cycle since which its streams have been ready, 0 where they are not (R297); `pass`
is the leaf that the second pass of its 64-lane word counts in (R402); `fscope` is, for each flag, the widest scope of the completions that have
lowered it since it last rose from zero (R264); `woken` says that a parked WAITA of it was woken and is to read once more (R175); `skipS`
and `skipL` that the next word of the scalar or lane stream is exempt from watchpoints (R374), `whole` that its next lane word found too little room in
the operand log and is performed whole (R327). -/
structure Group where
  regs     : ScalarRegs
  restart  : Word
  ric      : Word
  batch    : BitVec 32
  gitem    : Word
  f        : Vector (BitVec 8) 12
  fscope   : List Nat
  lanes    : List Lane
  tiles    : List (List Acc)
  latch    : Option Latch
  runs     : List Run
  run      : Option Run
  clause   : Option Clause
  tags     : List Tag
  nextTag  : Nat
  loads    : List LoadRec
  stores   : List StoreRec
  nextRec  : Nat
  lq       : List Word
  mmas     : List Mma
  park     : Option Park
  stallS   : Option Stall
  stallL   : Option Stall
  killed   : Bool
  retired  : Bool
  held     : List Trap
  skipS    : Bool
  skipL    : Bool
  whole    : Bool
  resumeS  : Option Word
  resumeL  : Option (BitVec 32)
  gunfin   : Bool
  dp       : Nat
  slot     : Nat
  quarter  : Nat
  ready    : Nat
  starve   : Nat
  sready   : Nat
  sstarve  : Nat
  ricSeen  : Nat
  pass     : Option Nat
  woken    : Bool
  cancel   : Option Cancel
deriving DecidableEq, Repr

/-- An entry of the range-lock table (R182): a space code of CPY, a core or o-number, an interval, a mode, the owner. -/
structure Lock where
  space  : Nat
  core   : Nat
  start  : Nat
  len    : Nat
  write  : Bool
  grp    : Nat
  cmd    : Nat
deriving DecidableEq, Repr

/-- A live reservation (R192): its record, its base, its cells, and the number of its undefined contents. -/
structure Reservation where
  record : List Byte
  base  : Nat
  free  : Nat
  cells : Cells
deriving DecidableEq, Repr

/-- A barrier slot (R177). -/
structure Barrier where
  expected : BitVec 32
  arrivals : Nat
  phase    : BitVec 32
  init     : Bool
  stamp    : Nat
deriving DecidableEq, Repr

/-- An uninitialised slot (R235). -/
def Barrier.start : Barrier := ⟨0, 0, 0, false, 0⟩

/-- The kinds of engine, fabric and plane command (R181, R211). -/
inductive CmdKind where
  | cpy | gath | part | puts | get | radd | plcl | plval | vpjs | vpjr | vpjm | vpjx | vpjb
deriving DecidableEq, Repr

/-- A command in flight (R181, R211): its issue number, descriptor, flag, clause tag, and how far it has come. Pieces below `pos` have been taken up;
those in `held` wait for a page or a line, those in `retry` are to be taken up again, `scope` is the scope of its completion (R264), `core` the core
that issued it (R342), `waiting` counts the remote answers still to come, `got` keeps those that a Spire command has had, by address; `dropped` is
what its result word reports. -/
structure Cmd where
  id      : Nat
  kind    : CmdKind
  grp     : Nat
  flag    : Option Nat
  desc    : List Byte
  arg     : Word
  srec    : Nat
  tag     : Option Nat
  lpc     : BitVec 32
  pos     : Nat
  retry   : List Nat
  held    : List Nat
  dropped : Nat
  waiting : Nat
  got     : List (Nat × List Byte)
  faulted : Bool
  stamp   : Nat
  scope   : Nat
  core    : Nat
deriving DecidableEq, Repr

/-- A tile of a collective on this device (R351–R359): its exponent and flags once the header round has fixed them, the count planes final here and
the gather planes received, the planes landed, whether it is cancelled. `want` is the count of an accepted cancel, `late` the cancels that
wait behind it (count, position, whether determinism binds), `fixed` the values of a freeze, `write` that its destination waits for a page. -/
structure Tile where
  idx     : Nat
  exp     : Option Int
  flags   : Nat
  counts  : List (List Nat)
  gathers : List (List Int)
  landed  : Nat
  canc    : Bool
  want    : Option Nat
  late    : List (Nat × Nat × Bool)
  fixed   : Option (List Int)
  write   : Bool
  done    : Bool
deriving DecidableEq, Repr

/-- A communicator entry (R349), with the number of collectives issued on it. -/
structure Comm where
  handle : Nat
  n      : Nat
  pos    : Nat
  canal  : Nat
  next   : Nat
  prev   : Nat
  tag    : BitVec 16
  issued : Nat
deriving DecidableEq, Repr

/-- A collective of a team on a communicator (R187, R350): `first` is the header of the first tile that position 0 owns, `fetched` the source tiles
that another device's heap has given, `asked` those it has been asked for, `odd` that a mismatch is known, `broken` that it has met a fault here,
`ended` that its flag has fallen. -/
structure Coll where
  cmd     : Nat
  grp     : Nat
  handle  : Nat
  seq     : Nat
  op      : Nat
  fmt     : Nat
  planes  : Nat
  count   : Nat
  scope   : Nat
  src     : Nat
  dst     : Nat
  area    : Nat
  view    : Nat
  comm    : Comm
  first   : Option HeaderBody
  tiles   : List Tile
  stamp   : Nat
  fetched : List (Nat × List Byte)
  asked   : List Nat
  odd     : Bool
  broken  : Bool
  ended   : Bool
deriving DecidableEq, Repr

/-- A communicator of a context that has left the device, with the number and operation of each collective on it: for the beats of what still comes
(R341). -/
structure Gone where
  ctx  : Nat
  comm : Comm
  ops  : List (Nat × Nat)
deriving DecidableEq, Repr

/-- The states of a team (R380). -/
inductive TeamState where
  | running | stopping | handling | dumping | ended
deriving DecidableEq, Repr

/-- The trap-handler slot (R379): its registers, HS0 to HS3, the trap being handled, when it was entered; of a DUMP in progress, its buffer and the
writes it has made (R384). -/
structure Handler where
  regs  : ScalarRegs
  hs    : Vector Word 4
  trap  : Option Trap
  since : Nat
  dump  : Option (Nat × Nat)
  stall : Option Stall
deriving DecidableEq, Repr

/-- An operand-log entry (R328), with the load or store it belongs to. -/
structure LogEntry where
  team  : Nat
  grp   : Nat
  va    : Nat
  lpc   : BitVec 32
  lane  : Nat
  flag  : Nat
  kind  : Nat
  size  : Nat
  reg   : Nat
  off   : Nat
  sub   : Nat
  scope : Nat
  op    : Word
  data  : List Byte
  id    : Nat
deriving DecidableEq, Repr

/-- What a sync word's counted commands are (R180, R395): the widest scope and the largest stamp of those counted toward its next generation, and of
those that its last advance counted. -/
structure SyncNote where
  off       : Nat
  scope     : Nat
  stamp     : Nat
  doneScope : Nat
  doneStamp : Nat
deriving DecidableEq, Repr

/-- A team (R7, R232, R235). A team that is swapped out (`away`) keeps here what its saved image holds, `saved` its operand-log entries; `stopped` is
the core-clock cycle in which a trap stopped it (R376); `image` is where the image lies; `entry` is the tick at which its DUMP started; `yields` says
that a swap (R304) gave its room to a team that waits. -/
structure Team where
  launch  : Nat
  ordinal : Nat
  cluster : Nat
  pos     : Nat
  core    : Nat
  live    : Bool
  away    : Bool
  discard : Bool
  state   : TeamState
  groups  : List Group
  scratch : Cells
  size    : Nat
  bars    : List Barrier
  syncs   : List SyncNote
  locks   : List Lock
  resv    : List (Option Reservation)
  cmds    : List Cmd
  nextCmd : Nat
  colls   : List Coll
  handler : Handler
  ordered : Nat
  claimed : Bool
  elig    : Bool
  stop    : Bool
  image   : Nat
  waited  : Bool
  yields  : Bool
  entry   : Nat
  stopped : Nat
  saved   : List LogEntry
deriving DecidableEq, Repr

/-- A launch (R227, R229). `replay` is the replay descriptor that applies to it and its mode (R399); `killed` says that its status is 4, `halted` that
the driver has ended it, `barren` that a team of it has ended without a barge while barges remained (R234). -/
structure Launch where
  ctx        : Nat
  record     : Nat
  sbase      : Nat
  lbase      : Nat
  ssize      : Nat
  lsize      : Nat
  entry      : Nat
  restart    : Nat
  refill     : Nat
  spad       : Nat
  vregs      : Nat
  width      : Nat
  grps       : Nat
  aregs      : Nat
  tiles      : Nat
  tsaved     : Bool
  cw         : Nat
  ch         : Nat
  fuse       : Bool
  grpMode    : Bool
  cls        : Nat
  detm       : Nat
  items      : List Nat
  queue      : Nat
  nitems     : Nat
  seed       : Word
  arg        : Word
  maxTeams   : Nat
  completion : Nat
  vmask      : Nat
  amask      : Nat
  claim      : Nat
  placed     : Nat
  finished   : Nat
  unfinished : Nat
  lowest     : Word
  accepted   : Nat
  firstIssue : Nat
  deps       : List Nat
  ended      : Bool
  killed     : Bool
  halted     : Bool
  barren     : Bool
  clusters   : List (List Barrier)
  replay     : Option (Nat × Nat)
deriving DecidableEq, Repr

/-- A submission queue (R293): its ring and the next entry; `waiting` counts the entries whose acceptance waits, for a page (R326) or for the
command processor (R415, R418). -/
structure Queue where
  base    : Nat
  size    : Nat
  next    : Nat
  waiting : Nat
deriving DecidableEq, Repr

/-- An entry of the buffer-handle table (R295). -/
structure Handle where
  num     : Nat
  writer  : Option Nat
  readers : List Nat
deriving DecidableEq, Repr

/-- A watchpoint of a context, and whether the administrator set it (R391, R407). -/
structure Watch where
  base   : Nat
  len    : Nat
  space  : Bool
  mode   : BitVec 8
  admin  : Bool
deriving DecidableEq, Repr

/-- A trap-handler registration (R378). -/
structure HandlerReg where
  base  : Nat
  size  : Nat
  entry : Nat
  arg   : Word
deriving DecidableEq, Repr

/-- A context; `memKey` names its memory key while it is confidential (R293, R317, R344, R378, R389, R399, R407, R312). -/
structure Context where
  id       : Nat
  asid     : Nat
  root     : Nat
  cores    : List Nat
  queues   : List Queue
  handles  : List Handle
  handler  : Option HandlerReg
  watches  : List Watch
  comms    : List Comm
  podTag   : Option (BitVec 16)
  heapLen  : Nat
  saveBase : Nat
  saveNext : Nat
  conf     : Bool
  memKey   : Option Nat
  tenant   : List Byte
  replay   : Option Nat
  sums     : List Word
deriving DecidableEq, Repr

/-- An entry of a quad TLB (R323); `page` is the size of its page, as a power of two. -/
structure TlbEntry where
  asid  : Nat
  vbase : Nat
  bits  : Nat
  page  : Nat
  pa    : Nat
  flags : Nat
  host  : Bool
  kind  : Nat
  cls   : Nat
  isAls : Bool
  share : Nat
  owner : Nat
  leaf  : Nat
deriving DecidableEq, Repr

/-- A line of an L1 (R324, R331): its tag, its translation and the size of its page, whether it is modified, and the core-clock cycle
in which it was filled. -/
structure L1Line where
  asid  : Nat
  vline : Nat
  pline : Nat
  page  : Nat
  flags : Nat
  host  : Bool
  kind  : Nat
  cls   : Nat
  share : Nat
  dirty : Bool
  fill  : Nat
deriving DecidableEq, Repr

/-- A line of the L2 (R259–R261, R333): its number, PA ÷ 128, of HBM or of host memory, its way, the class of the access whose miss filled it, and
whether it is modified. Its bytes lie in memory. -/
structure L2Line where
  line  : Nat
  host  : Bool
  way   : Nat
  cls   : Nat
  dirty : Bool
deriving DecidableEq, Repr

/-- A core (R2, R6, R26, R29, R194, R328, R402–R404). `loaders` holds, for each table, the contexts that have loaded it; `taking` is the class-0 launch that
the core is being emptied for (R303). -/
structure Core where
  tables : List (Option CTable)
  loaders : List (List Nat)
  nans   : BitVec 32
  spire  : List (Nat × Nat)
  l1     : List L1Line
  oplog  : List LogEntry
  leaves : List Word
  snap   : List Word
  rr     : List Nat
  srr    : Nat
  l2r    : Word
  l2w    : Word
  miss   : Word
  gated  : Bool
  taking : Option Nat
deriving DecidableEq, Repr

/-- A core at reset. -/
def Core.start : Core :=
  { tables := List.replicate 8 none, loaders := List.replicate 8 [], nans := 0, spire := [], l1 := [], oplog := [],
    leaves := List.replicate 16 0, snap := List.replicate 16 0, rr := List.replicate 4 0, srr := 0
    l2r := 0, l2w := 0, miss := 0, gated := false, taking := none }

/-- A quad: its TLB and its TLB_DUAL counter (R323, R325). -/
structure Quad where
  tlb  : List TlbEntry
  dual : Word
deriving DecidableEq, Repr

/-- The directory record of a line that the host holds, or that the device caches from the host modified (R333, R335). -/
structure DirLine where
  line    : Nat
  hostHas : Bool
  waiting : Bool
deriving DecidableEq, Repr

/-- A remote access in flight (R250, R347): who waits for its answer. For a command, `lane` is the piece and `rd` says that the answer brings its
data; `acq` is the scope at which a scalar access acquires once its answer is here (R264). -/
structure Remote where
  id    : Nat
  team  : Nat
  grp   : Nat
  cmd   : Option Nat
  load  : Option (Nat × Nat × Nat)
  store : Option Nat
  sreg  : Option (Stream × Nat × Nat)
  dev   : Nat
  off   : Nat
  len   : Nat
  lpc   : BitVec 32
  lane  : Nat
  port  : Nat
  rd    : Bool
  acq   : Option Nat
deriving DecidableEq, Repr

/-- A message the device sends: what it puts on a link, for its peers (R345, R352–R359); `control` answers a read of the control cores (R404, R420). -/
inductive Msg where
  | request (port dev : Nat) (tag : BitVec 16) (off : Nat) (op : FabricOp) (id : Nat) (zero : Bool)
  | answer (dev id : Nat) (nack : Option Nat) (data : List Byte)
  | credit (port vc beats : Nat)
  | header (k : PlaneKey) (h : HeaderBody)
  | count (k : PlaneKey) (plane : Nat) (counts : List Nat)
  | gather (k : PlaneKey) (plane : Nat) (frozen : Bool) (vals : List Int)
  | cancel (k : PlaneKey) (c pos : Nat) (detm : Bool)
  | freeze (k : PlaneKey) (f : Nat)
  | cancelAnswer (k : PlaneKey) (r : CancelReply)
  | ringDown (k : PlaneKey) (pos : Nat)
  | snoop (line : Nat)
  | hostReply (addr : Nat) (poisoned : Bool) (data : List Byte)
  | control (addr : Nat) (data : List Byte)
  | doe (status : Nat) (payload : List Byte)
  | skipped (ctx queue : Nat)
  | linkDown (port : Nat)
  | cxlDown (port : Nat)
  | sealed (m : Msg)
deriving DecidableEq, Repr

/-- A message of a context: a confidential context's is encrypted and authenticated by the canal, with a key that the security controller holds (R344). -/
def Msg.guard (conf : Bool) (m : Msg) : Msg := if conf then .sealed m else m

/-- A canal (R340, R341, R360): link state, credits in 64-byte beats per channel, and what waits for credits: its channel, its beats, whether it is of
class 0, and the message. -/
structure Canal where
  up      : Bool
  credits : List Nat
  waiting : List (Nat × Nat × Bool × Msg)
deriving DecidableEq, Repr

/-- The pools of R341, in beats. -/
def vcPools : List Nat := [8192, 2048, 5120, 1024]

/-- A canal at reset: every pool whole, the link up. -/
def Canal.start : Canal := ⟨true, vcPools, []⟩

/-- A firmware image (R417): its header and body as received. -/
structure Image where
  header : List Byte
  body   : List Byte
deriving DecidableEq, Repr

/-- Where the device stands between power-on and operation (R414, R415, R418). -/
inductive Phase where
  | rom | rootLoad | rootRun | opsLoad | opsStart | ready | live | draining | held
deriving DecidableEq, Repr

/-- The platform: pins, sensors, throttle, firmware (R410–R419). -/
structure Platform where
  phase     : Phase
  trip      : Bool
  tripPin   : Bool
  pulsed    : Bool
  pgOk      : Bool
  rstDone   : Bool
  thermN    : Bool
  current   : Nat
  junction  : Nat
  quiet     : Nat
  clkctl    : Word
  phaseAcc  : Nat
  cycles    : Nat
  loading   : Option Image
  root      : Option Image
  ops       : Option Image
  oldOps    : Option Image
  minRoot   : Nat
  minOps    : Nat
  serial    : List Byte
  violations : BitVec 32
  firewall  : List (Nat × Nat × BitVec 8)
  hdm       : List (Nat × Nat)
  liveDue   : Option Nat
  port1Off  : Bool
  served    : Bool
deriving DecidableEq, Repr

/-- A tag or control entry whose parity can fail (R385). -/
inductive TagUnit where
  | l1 (core asid line : Nat)
  | l2 (line : Nat) (host : Bool)
  | tlb (quad asid va : Nat)
deriving DecidableEq, Repr

/-- What the driver asks of the operations firmware, which the opcode table has no row for (R293, R317, R322, R344, R349, R378,
R399, R405, R407, R431), what the platform's sensors report (R413), what the control cores read of their control space and read and write of HBM for it
(R404, R420), what the host writes to its own memory, and the upsets of stored bits, tags and control arrays (R385). -/
inductive DriverCmd where
  | addContext (id asid root saveBase : Nat) (cores : List Nat)
  | dropContext (id : Nat)
  | addQueue (ctx base size : Nat)
  | setHandler (ctx : Nat) (h : Option HandlerReg)
  | setWatch (ctx idx : Nat) (w : Watch) (admin : Bool)
  | setComm (ctx : Nat) (c : Comm)
  | setPod (ctx : Nat) (tag : Option (BitVec 16)) (heapLen : Nat)
  | setReplay (ctx : Nat) (addr : Option Nat)
  | setRing (base size header : Nat)
  | setTrace (base size : Nat)
  | setRoute (dev : Nat) (ports : List Nat)
  | setHdm (ranges : List (Nat × Nat))
  | sensors (current junction : Nat) (thermN : Bool)
  | writeHbm (addr : Nat) (data : List Byte)
  | readHbm (addr len : Nat)
  | readControl (addr : Nat)
  | writeHost (addr : Nat) (data : List Byte)
  | upset (u : EccUnit) (bits : List Nat)
  | tagError (x : TagUnit)
deriving DecidableEq, Repr

/-- The Dome's control registers and reporting (R260, R301, R302, R322, R323, R343, R388, R404, R405, R408, R431). `parked` are the canals' fault
queues: fabric requests that wait for a page, and `pool` those that a full fault queue keeps in its VC 0 pool (R348), `writes` the command processor's
writes that wait for a page (R326): context, address, bytes, `held` fault records beside the store of each of kind 4 (R388), `later` the messages of
collectives that cannot be taken up yet and are looked at again on the next tick (R350–R359), `asks` the driver's requests that wait for a line that the
host holds (R336). `credited` are those messages of VC 3 that are looked at again, whose beats have gone back already, `orphans` the requests whose answers
nobody waits for any more, each with its port (R341), `gone` the communicators of contexts that have left. -/
structure Dome where
  l2quota   : Word
  classcfg  : List Word
  cls0rsv   : Word
  sweep     : Word
  sweepAt   : Nat
  tlbi      : Word
  podcfg    : Word
  cntsnap   : Word
  tracectl  : Word
  stoptick  : Word
  stopctl   : Word
  corrected : List Word
  ring      : Option (Nat × Nat × Nat)
  held      : List (Option Nat × List Byte)
  trace     : Option (Nat × Nat)
  tracePos  : Nat
  traceFree : Nat
  lost      : List Nat
  reported  : List (Nat × Nat × Nat)
  routes    : List (Nat × List Nat)
  canals    : List Canal
  parked    : List FabricReq
  pool      : List FabricReq
  writes    : List (Nat × Nat × List Byte)
  later     : List Event
  asks      : List DriverCmd
  credited  : List Event
  orphans   : List (Nat × Nat)
  gone      : List Gone
  dir       : List DirLine
  scrubAt   : Nat
deriving DecidableEq, Repr

/-- Where a byte range lies. `absent` is a page mapped but not resident, with its size; `held` a line that the host holds, `walk` such a line of the page
tables, which the walk waits for (R333, R336); `shut` a line for which the access finds no queue entry that its class may use (R302). -/
inductive Place where
  | hbm (pa : Nat)
  | host (pa : Nat)
  | peer (dev off : Nat)
  | absent (bits : Nat)
  | held (line : Nat)
  | walk (line : Nat)
  | shut
deriving DecidableEq, Repr

/-- A stretch of an access that lies in one place, with its page's permissions (bits R, W, X), kind, class and size as a power of two, and the memory key
it is read and written under (R389). -/
structure Part where
  va    : Nat
  len   : Nat
  place : Place
  perm  : Nat
  kind  : Nat
  bits  : Nat := 16
  key   : Option Nat := none
  cls   : Nat := 0
deriving DecidableEq, Repr

/-- Bytes that one write performs at once (R252, R253): of a team's scratchpad from an offset, or of a located part. -/
inductive Block where
  | pad (team off : Nat) (data : List Byte)
  | part (unit : Nat) (p : Part) (data : List Byte)
deriving DecidableEq, Repr

/-- What is still to come of an access performed block by block (R253): whose it is; the blocks of a write; of a read each piece's lane, its offset among
the lane's bytes and its place. What follows when all are performed: of a lane store its record, of a load its own; of a command's piece the command, the
piece's number and its length; of a scalar access its register, what it is (as in a remote access) and the bytes that are there; of a collective's tile the
command and the tile; of another device's request the request and the bytes of its answer. -/
structure Apart where
  id     : Nat
  team   : Nat
  grp    : Nat
  stream : Stream
  store  : Option Nat
  piece  : Option (Nat × Nat × Nat)
  stamp  : Nat
  blocks : List Block
  load   : Option Nat := none
  reads  : List (Nat × Nat × Block) := []
  sload  : Option (Nat × Nat × List Byte) := none
  tile   : Option (Nat × Nat) := none
  reply  : Option (FabricReq × List Byte) := none
deriving DecidableEq, Repr

/-- One turn of the device: whose move it is, as plain data; `issue` is the choice of the streams that issue in a core-clock cycle,
`apart` the rest of a write whose blocks are performed apart, `attempt` the try of a stream that is not chosen, which keeps only what its stall asks for. -/
inductive Turn where
  | event (e : Event)
  | scalar (team grp : Nat)
  | lane (team grp : Nat)
  | handler (team : Nat)
  | attempt (c : Cur)
  | driver (d : DriverCmd)
  | issue
  | apart (id : Nat)
deriving DecidableEq, Repr

/-- A partial sum of an element of a commutative page in a core's L1 (R331, R333, R334): its physical address, its page's kind and class, the memory key it
is added under. -/
structure Partial where
  core  : Nat
  host  : Bool
  pa    : Nat
  kind  : Nat
  cls   : Nat
  key   : Option Nat
  value : List Byte
deriving DecidableEq, Repr

/-- The device. `l2` holds the lines of every slice, most recently used first. `cur` names the stream whose instruction is being executed, `agenda`
the turns still to come, `free` counts the values drawn that the spec leaves open; these three and `outbox` are the model's own. `partials` are the C
lines (R333), `apart` what is still to come of writes performed block by block (R253), `upsets` the flipped bits of stores that nothing has met yet
(R385, R386). -/
structure State where
  cur      : Option Cur
  agenda   : List Turn
  free     : Nat
  tick     : Nat
  mem      : Cells
  hostMem  : Cells
  poison   : List EccUnit
  upsets   : List (EccUnit × List Nat)
  partials : List Partial
  apart    : List Apart
  contexts : List Context
  launches : List Launch
  teams    : List Team
  cores    : List Core
  quads    : List Quad
  l2       : List L2Line
  dome     : Dome
  plat     : Platform
  remotes  : List Remote
  nextId   : Nat
  outbox   : List Msg
deriving DecidableEq, Repr

/-- The Dome at reset: every register at the reset value of its table. -/
def Dome.start : Dome :=
  { l2quota := 0x1000100010001000, classcfg := List.replicate 4 0x000001F4200000C8, cls0rsv := 0x111
    sweep := 0x800186A0, sweepAt := 100000000, tlbi := 0, podcfg := 0x10000, cntsnap := 0, tracectl := 0xA000000000
    stoptick := 0, stopctl := 0, corrected := List.replicate 8 0, ring := none, held := [], trace := none, tracePos := 0
    traceFree := 0, lost := List.replicate 5 0, reported := [], routes := [], canals := List.replicate 24 Canal.start
    parked := [], pool := [], writes := [], later := [], asks := [], credited := [], orphans := [], gone := [], dir := []
    scrubAt := 86400000000000 }

/-- The platform at the end of device reset (R414, step 4; R415, step 1): the mask ROM starts, RST_DONE is asserted, no image is loaded. -/
def Platform.start : Platform :=
  { phase := .rom, trip := false, tripPin := false, pulsed := false, pgOk := true
    rstDone := true, thermN := true
    current := 0, junction := 0, quiet := 0, clkctl := 0x00000E1064000800, phaseAcc := 0, cycles := 0, loading := none
    root := none, ops := none, oldOps := none, minRoot := 0, minOps := 0, serial := List.replicate 16 0, violations := 0
    firewall := [], hdm := [], liveDue := none, port1Off := false, served := false }

/-- The device at the end of device reset (R3, R414, R415): the tick is 0, nothing is loaded and nothing runs. -/
def State.reset : State :=
  { cur := none, agenda := [], free := 0, tick := 0, mem := [], hostMem := [], poison := [], upsets := [], partials := [], apart := [], contexts := [], launches := []
    teams := [], cores := List.replicate 192 Core.start, quads := List.replicate 48 ⟨[], 0⟩, l2 := [], dome := Dome.start
    plat := Platform.start, remotes := [], nextId := 0, outbox := [] }

end Sys2Proof.Machine
end

