-- ==== Sys2Proof/Machine/Mem.lean ====
section
/-! DEFINITION. Memory as sparse cells in one canonical form, and little-endian accesses built from single bytes (R9, R248); the encryption of
confidential contexts' HBM (R389). -/

namespace Sys2Proof.Machine

/-- The byte at an address; an address that is not listed reads as zero (notes/assumptions/1). -/
def cellGet (a : Nat) : Cells → Byte
  | [] => 0
  | (k, b) :: r => if k < a then cellGet a r else if k = a then b else 0

/-- Cells with the byte at an address replaced; a zero byte is not listed. -/
def cellSet (a : Nat) (b : Byte) : Cells → Cells
  | [] => if b = 0 then [] else [(a, b)]
  | (k, x) :: r =>
    if k < a then (k, x) :: cellSet a b r
    else if k = a then (if b = 0 then r else (a, b) :: r)
    else if b = 0 then (k, x) :: r else (a, b) :: (k, x) :: r

/-- The bytes from an address up. -/
def cellsRead (m : Cells) (a : Nat) : Nat → List Byte
  | 0 => []
  | n + 1 => cellGet a m :: cellsRead m (a + 1) n

/-- Bytes written from an address up. -/
def cellsWrite (a : Nat) : List Byte → Cells → Cells
  | [], m => m
  | b :: bs, m => cellsWrite (a + 1) bs (cellSet a b m)

/-- The canonical form: addresses strictly rising, no entry that reads as an unlisted one does. -/
def Memory.wf : Cells → Bool
  | [] => true
  | [(_, b)] => b != 0
  | (k, b) :: (k', b') :: r => b != 0 && decide (k < k') && Memory.wf ((k', b') :: r)

/-- The little-endian value of `n` bytes (R9). -/
def readLE (m : Cells) (a n : Nat) : Nat := ofBytes (cellsRead m a n)

/-- `n` bytes of a value written little-endian (R9). -/
def writeLE (a n v : Nat) (m : Cells) : Cells := cellsWrite a (toBytes n v) m

/-- Cells of a store whose unwritten bytes are undefined (R192): every written byte is listed, zero or not. -/
def cellPut (a : Nat) (b : Byte) : Cells → Cells
  | [] => [(a, b)]
  | (k, x) :: r => if k < a then (k, x) :: cellPut a b r else if k = a then (a, b) :: r else (a, b) :: (k, x) :: r

/-- The listed byte of such a store. -/
def cellFind (a : Nat) : Cells → Option Byte
  | [] => none
  | (k, b) :: r => if k < a then cellFind a r else if k = a then some b else none

/-- Bytes written to such a store from an address up. -/
def cellsPut (a : Nat) : List Byte → Cells → Cells
  | [], m => m
  | b :: bs, m => cellsPut (a + 1) bs (cellPut a b m)

/-! ### Encrypted granules (R389) -/

/-- The 32-byte granules from the one that holds an address up, decrypted under a key of the security controller. -/
def unsealGranules (key : Nat) (m : Cells) : Nat → Nat → List Byte
  | 0, _ => []
  | n + 1, g => xtsUnit false (Config.memoryKey key) (32 * g) (cellsRead m (32 * g) 32) ++ unsealGranules key m n (g + 1)

/-- Granules encrypted under a key, from granule `g` up. -/
def sealGranules (key : Nat) : Nat → Nat → List Byte → List Byte
  | 0, _, _ => []
  | n + 1, g, b => xtsUnit true (Config.memoryKey key) (32 * g) (b.take 32) ++ sealGranules key n (g + 1) (b.drop 32)

/-- How many granules a range touches. -/
def granuleCount (a n : Nat) : Nat := (a + n + 31) / 32 - a / 32

/-- The bytes of a range, as an agent with a memory key, or without one, reads them. -/
def cellsOpen (key : Option Nat) (m : Cells) (a n : Nat) : List Byte :=
  match key with
  | none => cellsRead m a n
  | some k => ((unsealGranules k m (granuleCount a n) (a / 32)).drop (a % 32)).take n

/-- Bytes written by such an agent: with a key, every granule they touch is encrypted anew. -/
def cellsSeal (key : Option Nat) (a : Nat) (b : List Byte) (m : Cells) : Cells :=
  match key with
  | none => cellsWrite a b m
  | some k =>
    let n := granuleCount a b.length
    let old := unsealGranules k m n (a / 32)
    cellsWrite (a - a % 32) (sealGranules k n (a / 32) (old.take (a % 32) ++ b ++ old.drop (a % 32 + b.length))) m

@[simp] theorem cellsOpen_none (m : Cells) (a n : Nat) : cellsOpen none m a n = cellsRead m a n := rfl
@[simp] theorem cellsSeal_none (a : Nat) (b : List Byte) (m : Cells) : cellsSeal none a b m = cellsWrite a b m := rfl

end Sys2Proof.Machine
end

