-- ==== Sys2Proof/Machine/Flags.lean ====
section
/-! DEFINITION. The completion flags of a group, and what a clause owes them (R53, R54). -/

namespace Sys2Proof.Machine

def Group.flag (g : Group) (n : Nat) : Nat := if h : n < 12 then (g.f[n]).toNat else 0
def Group.setFlag (g : Group) (n : Nat) (v : BitVec 8) : Group := if h : n < 12 then { g with f := g.f.set n v h } else g
/-- A decrement at zero leaves the count at zero (R96); the completion's scope is kept for the acquire that observes it (R264). -/
def Group.lowerFlag (g : Group) (n : Nat) (scope : Nat := 0) : Group :=
  if g.flag n = 0 then g
  else { g.setFlag n (BitVec.ofNat 8 (g.flag n - 1)) with fscope := modifyAt (max scope) n g.fscope }
def Group.raiseFlag (g : Group) (n : Nat) : Group :=
  { g.setFlag n (BitVec.ofNat 8 (g.flag n + 1)) with fscope := if g.flag n = 0 then g.fscope.set n 0 else g.fscope }
def Group.lower? (g : Group) (n : Option Nat) (scope : Nat := 0) : Group :=
  match n with
  | none => g
  | some n => g.lowerFlag n scope
/-- The scope at which the completions of a mask's flags are observed (R264). -/
def Group.observed (g : Group) (mask : BitVec 12) : Nat :=
  (List.range 12).foldl (fun m n => if mask.getLsbD n then max m (g.fscope.getD n 0) else m) 0
/-- The FLAGS word of R44. -/
def Group.flagWord (g : Group) : Nat := maskOf ((List.range 12).map fun n => g.flag n != 0)

/-- What an ended clause owes falls: FA once no load is outstanding, FB once no store is (R53); neither before the clause's last word has issued
(notes/assumptions/134, DESIGN CHOICE). -/
def Group.settleTag (g : Group) (t : Tag) : Group × Option Tag :=
  if !t.ended then (g, some t)
  else
    let (g, t) := if t.loads = 0 then (g.lower? t.fa t.lscope, { t with fa := none }) else (g, t)
    let (g, t) := if t.stores = 0 then (g.lower? t.fb t.sscope, { t with fb := none }) else (g, t)
    (g, if t.loads = 0 && t.stores = 0 then none else some t)

def Group.settleTags (g : Group) : Group :=
  g.tags.foldl (fun h t =>
    let r := h.settleTag t
    { r.1 with tags := r.1.tags ++ r.2.toList }) { g with tags := [] }

def Group.modTag (g : Group) (id : Nat) (f : Tag → Tag) : Group :=
  { g with tags := g.tags.map fun t => if t.id = id then f t else t }

/-- The clause in progress ends: no further word of it executes, and its flags fall when their counts do (R53). -/
def Group.endClause (g : Group) : Group :=
  match g.clause with
  | none => g
  | some c => ({ g with clause := none }.modTag c.tag fun t => { t with ended := true }).settleTags

end Sys2Proof.Machine
end

