-- ==== Sys2Proof/Machine/Ops.lean ====
section
/-! DEFINITION. The operations that the meanings share: reading and writing the records of the state, posting turns, flags, fault
records, and taking a trap and returning from one. -/

namespace Sys2Proof.Machine

/-- Whether a stall is a wait for a page, of code or of data. -/
def Stall.isPage : Stall → Bool
  | .page => true
  | .fetch => true
  | _ => false

/-- What an instruction answers. -/
abbrev Answer := Host.Outcome State Fault Refusal

/-! ### Records of the state -/

def State.modTeam (t : Nat) (f : Team → Team) (s : State) : State := { s with teams := modifyAt f t s.teams }
def State.modGroup (t g : Nat) (f : Group → Group) (s : State) : State :=
  s.modTeam t fun T => { T with groups := modifyAt f g T.groups }
def State.modCore (c : Nat) (f : Core → Core) (s : State) : State := { s with cores := modifyAt f c s.cores }
def State.modLaunch (l : Nat) (f : Launch → Launch) (s : State) : State := { s with launches := modifyAt f l s.launches }
def State.modDome (f : Dome → Dome) (s : State) : State := { s with dome := f s.dome }
def State.modPlat (f : Platform → Platform) (s : State) : State := { s with plat := f s.plat }
def State.modContext (id : Nat) (f : Context → Context) (s : State) : State :=
  { s with contexts := s.contexts.map fun c => if c.id = id then f c else c }

def State.team? (s : State) (t : Nat) : Option Team := s.teams[t]?
def State.group? (s : State) (t g : Nat) : Option Group := (s.teams[t]?).bind fun T => T.groups[g]?
def State.launchOf? (s : State) (t : Nat) : Option Launch := (s.teams[t]?).bind fun T => s.launches[T.launch]?
def State.context? (s : State) (id : Nat) : Option Context := s.contexts.find? fun c => c.id == id
def State.contextOf? (s : State) (t : Nat) : Option Context := (s.launchOf? t).bind fun l => s.context? l.ctx

/-- The group whose instruction is being executed. -/
def State.curGroup? (s : State) : Option Group := s.cur.bind fun c => s.group? c.team c.grp

/-- Post a turn at the end of the agenda. -/
def State.post (e : Event) (s : State) : State := { s with agenda := s.agenda ++ [.event e] }

/-- An event put off to the next tick. -/
def State.later (e : Event) (s : State) : State := s.modDome fun d => { d with later := d.later ++ [e] }

/-- Send a message. -/
def State.send (m : Msg) (s : State) : State := { s with outbox := s.outbox ++ [m] }

/-- The trap-handler slot of the current team, or the current group's scalar stream (R95, R379). -/
def State.scalarRegs? (s : State) : Option ScalarRegs :=
  s.cur.bind fun c =>
    match c.stream with
    | .handler => (s.teams[c.team]?).map fun T => T.handler.regs
    | _ => (s.group? c.team c.grp).map fun g => g.regs

/-! ### Scalar registers (R42) -/

def ScalarRegs.getS (r : ScalarRegs) (x : SReg) : Word := r.s[x.toNat]'x.isLt
def ScalarRegs.setS (r : ScalarRegs) (x : SReg) (v : Word) : ScalarRegs := { r with s := r.s.set x.toNat v x.isLt }
/-- q15 reads as 1. -/
def ScalarRegs.getQ (r : ScalarRegs) (x : QReg) : Bool := x == 15 || r.q.getLsbD x.toNat
/-- A write to q15 is discarded; no instruction names it as a destination. -/
def ScalarRegs.setQ (r : ScalarRegs) (x : QReg) (b : Bool) : ScalarRegs :=
  if x = 15 then r
  else { r with q := (r.q &&& ~~~(1#16 <<< x.toNat)) ||| (if b then 1#16 <<< x.toNat else 0) }
def ScalarRegs.goto (r : ScalarRegs) (pc : Word) : ScalarRegs := { r with pc := pc }

/-- Write the scalar registers of the current stream; a group's instruction counts in RIC, a handler's does not (R394), and time since
the last retirement starts again (R305). -/
def State.retireScalar (s : State) (r : ScalarRegs) : State :=
  match s.cur with
  | none => s
  | some c =>
    match c.stream with
    | .handler => s.modTeam c.team fun T => { T with handler := { T.handler with regs := r, stall := none } }
    | _ => s.modGroup c.team c.grp fun g =>
        { g with regs := r, ric := g.ric + 1, stallS := none, ricSeen := s.tick
                 skipS := false }

/-- The same registers written without retiring: a word that parks or waits. -/
def State.putScalar (s : State) (r : ScalarRegs) : State :=
  match s.cur with
  | none => s
  | some c =>
    match c.stream with
    | .handler => s.modTeam c.team fun T => { T with handler := { T.handler with regs := r } }
    | _ => s.modGroup c.team c.grp fun g => { g with regs := r }

/-- A scalar instruction that computes on scalar registers alone: its result, then the next instruction `n` bytes on (R71). -/
def scalarStep (n : Nat) (f : ScalarRegs → ScalarRegs) (s : State) : Answer :=
  match s.scalarRegs? with
  | none => .refused .noCurrentStream
  | some r => .next (s.retireScalar ((f r).goto (r.pc + BitVec.ofNat 64 n)))

/-! ### Cause codes (R374) -/

abbrev Cause := BitVec 8
def cIllegalOp : Cause := 0x01
def cIllegalPair : Cause := 0x02
def cIllegalConvergence : Cause := 0x03
def cSyncMask : Cause := 0x04
def cRefillDepth : Cause := 0x05
def cIllegalHeader : Cause := 0x06
def cAddrFault : Cause := 0x10
def cAccessFault : Cause := 0x11
def cAtomicAlign : Cause := 0x12
def cRangeConflict : Cause := 0x13
def cScratchBounds : Cause := 0x14
def cObufBounds : Cause := 0x15
def cHeapSpill : Cause := 0x20
def cReplayDiverge : Cause := 0x30
def cDetViolation : Cause := 0x31
def cHang : Cause := 0x38
def cWatchpoint : Cause := 0x40
def cBreak : Cause := 0x41
def cDoubleFault : Cause := 0x50
def cEcc : Cause := 0x60
def cLinkFault : Cause := 0x61
def cSoftError : Cause := 0x62

/-! ### Fault records (R388, R391, R431) -/

/-- A fault record's fields (R388). -/
structure FaultRec where
  kind   : Nat
  cause  : Nat := 0
  cause2 : Nat := 0
  flags  : Nat := 0
  ctx    : Nat := 0
  core   : Nat := 0
  grp    : Nat := 0
  store  : Nat := 0
  team   : Nat := 0
  addr   : Nat := 0
  tinfo  : Nat := 0
  tspc   : Nat := 0
  tlpc   : Nat := 0
  count  : Nat := 0
  tlane  : Nat := 0
deriving DecidableEq, Repr

/-- What a record keeps for a confidential context (R391). -/
def FaultRec.redact (r : FaultRec) : FaultRec :=
  let base : FaultRec := { kind := r.kind, cause := r.cause, cause2 := r.cause2, flags := r.flags ||| 1, ctx := r.ctx }
  if r.kind = 6 then { base with store := r.store, count := r.count, addr := r.addr - r.addr % 65536 } else base

/-- The 64 bytes of a record (R388). -/
def FaultRec.bytes (r : FaultRec) (tick : Nat) : List Byte :=
  toBytes 1 r.kind ++ toBytes 1 r.cause ++ toBytes 1 r.cause2 ++ toBytes 1 r.flags ++ toBytes 4 r.ctx ++ toBytes 8 tick
    ++ toBytes 2 r.core ++ toBytes 1 r.grp ++ toBytes 1 r.store ++ toBytes 4 r.team ++ toBytes 8 r.addr ++ toBytes 8 r.tinfo
    ++ toBytes 8 r.tspc ++ toBytes 4 r.tlpc ++ toBytes 4 r.count ++ toBytes 8 r.tlane

/-- The monitored words of a state, as they read (R175). -/
def State.monRead (s : State) : Mon → Nat
  | .hbm key a => ofBytes (cellsOpen key s.mem a 8)
  | .host a => readLE s.hostMem a 8
  | .scratch t o => match s.teams[t]? with
    | some T => readLE T.scratch o 8
    | none => 0

/-- Whether a parked WAITA's word reads otherwise in another state (R176). -/
def Park.changed (p : Park) (s s' : State) : Bool := p.mons.any fun m => s.monRead m != s'.monRead m

/-- The groups parked on words that the change from `s` to `s'` alters. -/
def wakeList (s s' : State) : List (Nat × Nat) :=
  (indexed 0 s'.teams).flatMap fun tT =>
    (indexed 0 tT.2.groups).filterMap fun gG =>
      match gG.2.park with
      | some p => if p.changed s s' then some (tT.1, gG.1) else none
      | none => none

/-- The launch of a team. -/
def State.launchIx (s : State) (t : Nat) : Option Nat := (s.team? t).map (·.launch)
/-- The launch of the current stream. -/
def State.curLaunch (s : State) : Option Nat := s.cur.bind fun c => s.launchIx c.team

/-- The stamp that a team's group keeps of a wake by a launch: one of another launch carries 0 (R395). -/
def State.stampFor (s : State) (t stamp : Nat) (who : Option Nat) : Nat := if who.isSome && who == s.launchIx t then stamp else 0

/-- The state `s'` with the wakes that its change of memory brings about, and the stamp of the writing launch kept by each woken group
(R176, R395). -/
def State.wakeFrom (s' s : State) (stamp : Nat) (who : Option Nat := s'.curLaunch) : State :=
  (wakeList s s').foldl (fun x tg =>
    (x.modGroup tg.1 tg.2 fun g =>
      { g with park := g.park.map fun p => { p with stamp := max p.stamp (s'.stampFor tg.1 stamp who), written := true } }).post
      (.parkWake tg.1 tg.2)) s'

/-- The address of a byte of HBM or host memory as EccUnit gives it. -/
def unitAddr (host : Bool) (a : Nat) : Nat := if host then 2 ^ 52 + a else a

/-- Whether a write of `n` bytes at `a` covers the unit of an error whole (R387). -/
def coveredBy (host : Bool) (a n : Nat) (u : EccUnit) : Bool :=
  let covers (size x : Nat) : Bool :=
    decide (unitAddr host a ≤ x - x % size ∧ x - x % size + size ≤ unitAddr host a + n)
  match u with
  | .hbm x => !host && covers 32 x
  | .l2 x => covers 128 x
  | .l1 _ _ x => covers 128 x
  | _ => false

/-- Bytes written to HBM, under a memory key or none, or to host memory, of a write that covers `n` bytes from `pa`: the poison and the upsets of each unit
written whole are gone (R387). -/
def State.pokeAt (s : State) (host : Bool) (key : Option Nat) (pa n a : Nat) (b : List Byte) : State :=
  { s with
    mem := if host then s.mem else cellsSeal key a b s.mem
    hostMem := if host then cellsWrite a b s.hostMem else s.hostMem
    poison := s.poison.filter fun u => !coveredBy host pa n u
    upsets := s.upsets.filter fun u => !coveredBy host pa n u.1 }
def State.pokeMem (s : State) (host : Bool) (a : Nat) (b : List Byte) (key : Option Nat := none) : State := s.pokeAt host key a b.length a b

/-! ### The firewall (R420) -/

/-- The initiator classes of the firewall (R420): each has a read bit and a write bit. -/
inductive Initiator where
  | sc | cc | dev | host
deriving DecidableEq, Repr

def Initiator.shift : Initiator → Nat
  | .sc => 0
  | .cc => 2
  | .dev => 4
  | .host => 6

/-- Whether the firewall lets an initiator read or write a physical address (R420): the first entry that covers it decides. -/
def State.firewall (s : State) (who : Initiator) (pa : Nat) (write : Bool) : Bool :=
  match s.plat.firewall.find? fun e => decide (e.1 ≤ pa ∧ pa < e.2.1) with
  | some e => e.2.2.getLsbD (who.shift + if write then 1 else 0)
  | none =>
    match who with
    | .host => s.plat.hdm.any fun r => decide (r.1 ≤ pa ∧ pa < r.2)
    | _ => true

/-- The same for a range of HBM: entries cover blocks of 64 KiB. -/
def State.mayRange (s : State) (who : Initiator) (a n : Nat) (write : Bool) : Bool :=
  (List.range (n / 65536 + 2)).all fun i => s.firewall who (min (a + 65536 * i) (a + n - 1)) write

/-- A write to HBM that a unit of the device makes of itself, under a memory key or none: one that the firewall blocks is dropped (R420;
notes/assumptions/129). -/
def State.devPoke (a : Nat) (b : List Byte) (key : Option Nat) (s : State) : State := if s.mayRange .dev a b.length true then s.pokeMem false a b key else s

/-- A read of HBM by such a unit: of a range that the firewall keeps from it zeros (R420). -/
def State.devRead (s : State) (a n : Nat) (key : Option Nat := none) : List Byte :=
  if s.mayRange .dev a n false then cellsOpen key s.mem a n else List.replicate n 0

/-- A size rounded up to the 256-byte boundaries of a team image (R312). -/
def up256 (n : Nat) : Nat := (n + 255) / 256 * 256

/-- The offset of the scratchpad's section in a team's image (R312–R314). -/
def Team.padAt (T : Team) (L : Launch) : Nat :=
  let lanes := L.width * T.groups.length
  256 + up256 (2560 * T.groups.length) + up256 ((128 + 8 * L.vregs) * lanes) + up256 (128 * L.aregs * lanes)
    + (if T.discard then 0 else up256 (4096 * lanes * L.tiles))

/-- The memory key of a team's context (R389). -/
def State.keyOf (s : State) (t : Nat) : Option Nat := (s.contextOf? t).bind (·.memKey)

/-- The same with the wakes the write brings about. -/
def State.writeMem (s : State) (host : Bool) (a : Nat) (b : List Byte) (stamp : Nat := 0) : State :=
  (s.pokeMem host a b).wakeFrom s stamp

/-- Such a write, with its wakes. -/
def State.devWrite (s : State) (a : Nat) (b : List Byte) : State := (s.devPoke a b none).wakeFrom s 0

/-- Held records written to the ring while it has room (R388, R431), but not during a live update (R418). -/
def State.drainRing : Nat → State → State
  | 0, s => s
  | n + 1, s =>
    if s.plat.phase = .live then s else
    match s.dome.ring, s.dome.held with
    | some (base, size, hdr), (_, r) :: rest =>
      let p := ofBytes (s.devRead hdr 8)
      if p - ofBytes (s.devRead (hdr + 8) 8) ≥ size then s
      else
        State.drainRing n
          (((s.devWrite (base + 64 * (p % size)) r).devWrite hdr (toBytes 8 (p + 1))).modDome
            fun d => { d with held := rest })
    | _, _ => s

/-- Whether a record is redacted (R388, R391). -/
def isRedacted (r : List Byte) : Bool := ((r[3]?).getD 0).getLsbD 0

/-- A kind-4 record with its count of coalesced records raised (R388); a redacted one shows no count (R391). -/
def bumpRecord (x : Option Nat × List Byte) : Option Nat × List Byte :=
  if isRedacted x.2 then x else (x.1, x.2.take 52 ++ toBytes 4 (ofBytes ((x.2.drop 52).take 4) + 1) ++ x.2.drop 56)

/-- Whether two held records are kind-4 records of one store (R388), to be shown alike (R391). -/
def sameStore (a b : Option Nat × List Byte) : Bool := a.1.isSome && a.1 == b.1 && isRedacted a.2 == isRedacted b.2

/-- A record raised to the driver: written if the ring has room, else held, kind-4 records coalesced past 256 (R388). -/
def State.report (s : State) (r : FaultRec) : State :=
  let conf := (s.context? r.ctx).any fun c => c.conf
  let b := (if r.kind = 4 then some r.store else none, (if conf then r.redact else r).bytes s.tick)
  let held := s.dome.held
  let held' :=
    if held.length ≥ 256 && held.any (fun x => sameStore x b) then
      let i := (findIndexFrom (fun x => sameStore x b) 0 held).getD 0
      modifyAt bumpRecord i held
    else held ++ [b]
  (s.modDome fun d => { d with held := held' }).drainRing held'.length

/-! ### Trace records (R405) -/

/-- A 32-byte trace record. -/
def traceBytes (tick kind unit core grp ctx p q : Nat) : List Byte :=
  toBytes 8 tick ++ toBytes 1 kind ++ toBytes 1 unit ++ toBytes 1 core ++ toBytes 1 grp ++ toBytes 4 ctx ++ toBytes 8 p ++ toBytes 8 q

/-- A record written to the trace ring; with no room it is lost, and counted for its unit (R405). -/
def State.traceWrite (s : State) (unit : Nat) (b : List Byte) : State :=
  match s.dome.trace with
  | none => s
  | some (base, size) =>
    if s.dome.traceFree = 0 then s.modDome fun d => { d with lost := modifyAt (· + 1) unit d.lost }
    else
      (s.devWrite (base + 32 * (s.dome.tracePos % size)) b).modDome fun d =>
        { d with tracePos := d.tracePos + 1, traceFree := d.traceFree - 1 }

/-- An event traced, when its kind is enabled; nothing is written about a confidential context (R405). -/
def State.trace (s : State) (kind unit core grp ctx p q : Nat) : State :=
  if s.dome.tracectl.getLsbD 0 && s.dome.tracectl.getLsbD kind && !(s.context? ctx).any (·.conf) then
    s.traceWrite unit (traceBytes s.tick kind unit core grp ctx p q)
  else s

/-- An event of a group traced by its tower's unit. -/
def State.traceGroup (s : State) (t g kind p q : Nat) : State :=
  match s.team? t, s.launchOf? t with
  | some T, some L => s.trace kind (T.core / 48) T.core g L.ctx p q
  | _, _ => s

/-! ### Streams and lanes of a group -/

/-- The lane word address of the next word of the current run; all ones when there is none (R375). -/
def Group.lanePc (g : Group) : BitVec 32 :=
  match g.clause, g.run with
  | some c, _ => BitVec.ofNat 32 c.next
  | none, some r => r.target
  | none, none => -1#32

/-- Whether every load and atomic of a group that has issued has written its registers, but for those that wait in the operand log or whose
failed pieces a held trap reports (R327, R375). -/
def State.settled (s : State) (t g : Nat) (G : Group) (core : Nat) : Bool :=
  (G.loads.all fun l =>
    !l.blocks && ((!l.nacks.isEmpty && l.waiting == l.nacks.length) ||
      match s.cores[core]? with
      | some c => c.oplog.any fun e => e.team == t && e.grp == g && e.id == l.id
      | none => false))
    && !(s.remotes.any fun r => r.team == t && r.grp == g && r.sreg.any fun x => x.1 != .handler)

/-! ### Items, groups and teams that end (R242, R243) -/

/-- The smaller of two unsigned words. -/
def umin (a b : Word) : Word := if b.toNat < a.toNat then b else a

/-- An item is counted unfinished (R242, R243). -/
def Launch.countUnfinished (l : Launch) (idx : Word) : Launch :=
  { l with unfinished := l.unfinished + 1, lowest := umin l.lowest idx }

/-- Every item that a group still holds is counted unfinished, and its lanes hold none any more (R242, R243). -/
def State.unfinish (t g : Nat) (s : State) : State :=
  match s.group? t g, s.team? t, s.launchOf? t with
  | some G, some T, some L =>
    let L' :=
      if L.grpMode then (if G.lanes.any (·.holds) && !G.gunfin then L.countUnfinished G.gitem else L)
      else G.lanes.foldl (fun l x => if x.holds then l.countUnfinished x.item else l) L
    (s.modLaunch T.launch fun _ => L').modGroup t g fun G =>
      { G with gunfin := G.gunfin || G.lanes.any (·.holds), lanes := G.lanes.map fun x => { x with holds := false } }
  | _, _, _ => s

/-- A group that retires (R93): its slot is free, its queue discarded. -/
def State.retireGroup (t g : Nat) (s : State) : State :=
  (s.unfinish t g).modGroup t g fun G => { G with retired := true, lq := [], park := none, stallS := none, stallL := none }

/-- A killed group (R97): its runs and held traps are discarded, its items counted, its slot is free; its commands drain. -/
def State.killGroup (t g : Nat) (s : State) : State :=
  (s.unfinish t g).modGroup t g fun G =>
    { G with killed := true, runs := [], run := none, lq := [], held := [], park := none, stallS := none, stallL := none
             clause := none, resumeS := none, resumeL := none }

def Group.gone (g : Group) : Bool := g.retired || g.killed

/-- Whether pieces of a team's accesses wait in the operand log, its core's or, while it is swapped out, its own (R327). -/
def State.logsFor (s : State) (t : Nat) (T : Team) : Bool := !T.saved.isEmpty || s.cores.any fun c => c.oplog.any fun e => e.team == t

/-- Whether a team has no trap to handle, its groups are gone, its commands drained and its accesses performed, those of other devices too (R229,
R234, R242, R264). -/
def State.teamOver (s : State) (t : Nat) (T : Team) : Bool :=
  T.state != .stopping && T.state != .handling && T.state != .dumping && T.groups.all (fun g => g.gone && g.mmas.isEmpty && g.stores.isEmpty) && T.cmds.isEmpty
    && !s.logsFor t T && (!s.remotes.any fun r => r.team == t) && !s.apart.any fun x => x.team == t && x.reply.isNone

/-- The live teams of a team's cluster, itself among them (R236). -/
def State.mates (s : State) (T : Team) : List (Nat × Team) :=
  (indexed 0 s.teams).filter fun u => u.2.live && u.2.launch == T.launch && u.2.cluster == T.cluster

/-- Requests whose answers nobody waits for any more; their beats still go back (R341). -/
def State.abandon (p : Remote → Bool) (s : State) : State :=
  { s.modDome fun d => { d with orphans := d.orphans ++ (s.remotes.filter p).map fun r => (r.id, r.port) } with remotes := s.remotes.filter fun r => !p r }

/-- The end of a team (R234, R242); the teams of a cluster end their placement together (R236). -/
def State.settleTeam (t : Nat) (s : State) : State :=
  match s.team? t, s.launchOf? t with
  | some T, some L =>
    if T.live && s.teamOver t T then
      let s := (s.modTeam t fun T => { T with state := .ended, locks := [] }).modLaunch
        T.launch fun l => { l with barren := l.barren || (!T.claimed && decide (L.claim < L.nitems)) }
      if (s.mates T).all fun u => s.teamOver u.1 u.2 then
        (s.mates T).foldl (fun s u => s.modTeam u.1 fun T => { T with live := false, resv := T.resv.map fun _ => none }) s
      else s
    else s
  | _, _ => s

/-- A store of a clause that an engine command stands for is done, at the command's scope (R211). -/
def Group.endStore (g : Group) (scope : Nat) : Option Nat → Group
  | none => g
  | some tag => (Group.modTag g tag fun t => { t with stores := t.stores - 1, sscope := max t.sscope scope }).settleTags

/-- A flag count of a team that is swapped out, lowered in its image too (R310). -/
def State.noteFlag (t grp : Nat) (flag : Option Nat) (s : State) : State :=
  match s.team? t, s.group? t grp, flag with
  | some T, some G, some n =>
    if T.away then s.devPoke (T.image + 256 + 2560 * grp + 530 + n) (toBytes 1 (G.flag n)) (s.keyOf t) else s
  | _, _, _ => s

/-- A command leaves the team: its flag falls and its range-lock entries are released together (R182, R185); a Spire command counted in its
clause's FB (R211). -/
def State.dropCmd (t id : Nat) (s : State) : State :=
  match (s.team? t).bind fun T => T.cmds.find? fun c => c.id == id with
  | none => s
  | some c =>
    (((s.modTeam t fun T =>
        { T with cmds := T.cmds.filter fun x => x.id != id, locks := T.locks.filter fun x => x.cmd != id }).modGroup t c.grp
      fun g => (g.lower? c.flag c.scope).endStore c.scope c.tag).noteFlag t c.grp c.flag).settleTeam t

/-- The failed pieces of a load or store are discarded (R98, R327): a load leaves the lanes of its failed pieces as they are. -/
def Group.discard (g : Group) (store : Bool) (id : Nat) : Group :=
  if store then
    { g with stores := g.stores.map fun r => if r.id = id then { r with waiting := r.waiting - r.nacks.length, nacks := [] } else r }
  else
    { g with loads := g.loads.map fun r =>
        if r.id = id then
          { r with waiting := r.waiting - r.nacks.length, nacks := []
                   dsts := r.dsts.filter fun d => !r.nacks.any fun n => n.lane == d.lane }
        else r }

/-- The failed pieces of an access of a group are discarded, and the access goes on to its end (R98, R327). -/
def State.discardLost (t g : Nat) (lost : Option (Bool × Nat)) (s : State) : State :=
  match lost with
  | none => s
  | some (store, id) =>
    (s.modGroup t g fun g => g.discard store id).post (if store then .storePerformed t g id else .loadDataReturn t g id)

/-- The held traps of a killed group are discarded (R376), and with each what it waits for. -/
def State.discardHeld (t g : Nat) (s : State) : State :=
  match s.group? t g with
  | none => s
  | some G => G.held.foldl (fun s x => s.discardLost t g x.lost) s

/-- The faulted commands of a team's killed groups, or all of them, are done with: nothing else ends the handling of their traps (R97, R185, R376). -/
def State.dropFaulted (t : Nat) (every : Bool) (s : State) : State :=
  match s.team? t with
  | none => s
  | some T => T.cmds.foldl (fun x c => if c.faulted && (every || (x.group? t c.grp).any (·.killed)) then x.dropCmd t c.id else x) s

/-- Every group of a team is killed and the handler idle (R378, R384): with the traps that are handled or held goes what waits for their handling
(R376). -/
def State.killTeam (t : Nat) (s : State) : State :=
  match s.team? t with
  | none => s
  | some T =>
    let s := match T.handler.trap with
      | some x => s.discardLost t x.grp x.lost
      | none => s
    (((List.range T.groups.length).foldl (fun x g =>
        if (T.groups[g]?).any (·.retired) then x.discardHeld t g else (x.discardHeld t g).killGroup t g) s).modTeam t
      fun T => { T with state := .ended, handler := { T.handler with trap := none } }).dropFaulted t true |>.settleTeam t

/-! ### Taking a trap and returning from one (R95–R98, R374–R380, R384) -/

/-- The record of a trap, as the driver sees it (R388). -/
def State.trapRec (s : State) (t : Nat) (x : Trap) (kind cause cause2 : Nat) : FaultRec :=
  let pc := ((s.group? t x.grp).map fun g => g.regs.pc.toNat).getD 0
  { kind := kind, cause := cause, cause2 := cause2
    ctx := ((s.launchOf? t).map (·.ctx)).getD 0, core := ((s.team? t).map (·.core)).getD 0
    grp := x.grp, team := ((s.team? t).map (·.ordinal)).getD 0, addr := x.taddr.toNat, tinfo := x.tinfo.toNat
    tspc := pc, tlpc := x.tlpc.toNat, tlane := x.tlane.toNat }

/-- A trap of a group is raised (R306, R376, R378, R380): without a registered handler every group is killed and a kind-1 record sent, unless the team
is being pre-empted or is away; else the trap joins the group's queue, and a running team stops with the present core-clock cycle. -/
def State.holdTrap (t : Nat) (x : Trap) (s : State) : State :=
  let pc := ((s.group? t x.grp).map fun g => g.regs.pc.toNat).getD 0
  let s := s.traceGroup t x.grp 3 x.cause.toNat pc
  match s.team? t, s.contextOf? t with
  | some T, some C =>
    if T.state = .ended then s
    else if C.handler.isNone && !T.stop && !T.away then (s.report (s.trapRec t x 1 x.cause.toNat 0)).killTeam t
    else
      (s.modGroup t x.grp fun g => { g with held := g.held ++ [x] }).modTeam t fun T =>
        if T.state = .running then { T with state := .stopping, stopped := s.plat.cycles } else T
  | _, _ => s

/-- The double fault of R384, its second cause and the flags of its record given. -/
def State.doubleFault (t : Nat) (cause2 : Cause) (s : State) (flags : Nat := 0) : State :=
  match s.team? t with
  | none => s
  | some T =>
    let x := T.handler.trap.getD ⟨0, 0, false, 0, 0, 0, 0, 0, false, none, none⟩
    ((s.report { s.trapRec t x 2 cDoubleFault.toNat cause2.toNat with flags := flags }).modLaunch T.launch fun l => { l with killed := true }).killTeam t

/-- Whether a stream's next word is exempt from watchpoints: the word of a WATCHPOINT is, on the one execution after its handling (R374). -/
def Group.skips (g : Group) (st : Stream) : Bool := if st = .lane then g.skipL else g.skipS
def Group.setSkip (g : Group) (st : Stream) (b : Bool) : Group := if st = .lane then { g with skipL := b } else { g with skipS := b }

/-- What a trap says of itself: its cause and TLANE, TADDR, TINFO (R44). A trap of a lane word that no lane causes, by its encoding, the determinism mode or
HANG, has TLANE 0 (notes/assumptions/128, DESIGN CHOICE). -/
structure TrapArgs where
  cause : Cause
  tlane : Word := 0
  taddr : Word := 0
  tinfo : Word := 0
  tlpc  : Option (BitVec 32) := none
deriving DecidableEq, Repr

/-- The current stream raises a trap before its instruction has any effect (R46, R375): in the handler slot a double fault (R384), else a
trap of its group. TLPC names the faulting lane word, or for a scalar trap the next word of the current run (R375); the trap may name another
address itself (R136). -/
def State.takeTrap (a : TrapArgs) (s : State) : State :=
  match s.cur with
  | none => s
  | some c =>
    match c.stream with
    | .handler => s.doubleFault c.team a.cause
    | st =>
      let pc := ((s.group? c.team c.grp).map (·.lanePc)).getD 0
      (s.modGroup c.team c.grp fun g =>
          Group.setSkip { g with stallS := none, stallL := none, woken := false, whole := g.whole && st != Stream.lane } st
            (a.cause == cWatchpoint)).holdTrap c.team
        { cause := a.cause, grp := c.grp, lane := st == .lane, tlpc := a.tlpc.getD pc, tlane := if st == .lane then a.tlane else 0, taddr := a.taddr
          tinfo := a.tinfo, tick := s.tick, async := false, cmd := none, lost := none }

/-- The group leaves its park or stall for a fault that another unit reports (R377). -/
def Group.unpark (g : Group) : Group := { g with park := none, stallS := none, stallL := none, woken := false }

/-- The handler starts for a held trap of a group (R379): TLPC of a scalar trap is the group's next lane word. -/
def State.enterHandler (t g : Nat) (s : State) : State :=
  match s.group? t g, s.contextOf? t with
  | some G, some C =>
    match G.held, C.handler with
    | x :: rest, some h =>
      (s.modGroup t g fun G => { G with held := rest }).modTeam t fun T =>
        { T with
          state := .handling
          handler := { T.handler with
            regs := (ScalarRegs.start (BitVec.ofNat 64 (h.base + h.entry))).setS 0 h.arg
            trap := some (if x.lane || x.async then x else { x with tlpc := G.lanePc })
            since := s.tick, dump := none, stall := none } }
    | _, _ => s
  | _, _ => s

/-- The group that enters first (R376): its oldest trap raised earliest, the lowest ordinal among equals. -/
def firstHeld (gs : List Group) : Option Nat :=
  ((indexed 0 gs).foldl (fun (best : Option (Nat × Nat)) gG =>
    match gG.2.held with
    | [] => best
    | x :: _ =>
      match best with
      | none => some (x.tick, gG.1)
      | some (bt, bg) => if x.tick < bt then some (x.tick, gG.1) else some (bt, bg)) none).map (·.2)

/-- The lowest-numbered group that holds a trap (R95). -/
def nextHeld (gs : List Group) : Option Nat := findIndexFrom (fun g : Group => !g.held.isEmpty && !g.killed) 0 gs

/-- TRES takes effect (R97): the scalar stream resumes at its new address; a lane address abandons the current clause, and a run there, with the same
constants, takes the front; a stream that is sent elsewhere leaves its park and its stall, and its next word is watched again (R98). Where the group
has no current run R97 names no constants, and the run starts with all eight zero (notes/assumptions/101, DESIGN CHOICE). -/
def Group.applyTres (g : Group) : Group :=
  let leave (st : Stream) (g : Group) : Group :=
    Group.setSkip
      { g with
        park := if g.park.any (·.stream == st) then none else g.park, woken := false
        stallS := if st = .lane then g.stallS else none, stallL := if st = .lane then none else g.stallL
        whole := g.whole && st != Stream.lane } st false
  let g := match g.resumeS with
    | none => g
    | some pc => leave .scalar { g with regs := g.regs.goto pc, resumeS := none, cancel := none }
  match g.resumeL with
  | none => g
  | some a =>
    let k := match g.run with
      | some r => r.k
      | none => Vector.replicate 8 0
    leave .lane { g.endClause with run := some ⟨a, k⟩, resumeL := none, loads := g.loads.filter fun l => !l.blocks }

/-- The end of the handling of a trap, before the next: the failed command's flag falls, the discarded pieces' access is settled (R98, R185, R327). -/
def State.closeTrap (t : Nat) (s : State) : State :=
  match (s.team? t).bind fun T => T.handler.trap with
  | none => s
  | some x =>
    let s := match x.cmd with
      | none => s
      | some id => s.dropCmd t id
    s.discardLost t x.grp x.lost

/-- The parked groups of a team that goes on look again, before any of its groups issues: a WAITA whose wake came while the team was stopped, and every
other wait (R176, R309, R316). -/
def State.rouse (t : Nat) (s : State) : State :=
  match s.team? t with
  | none => s
  | some T =>
    { s with agenda :=
        ((indexed 0 T.groups).filterMap fun gG =>
          if gG.2.park.any fun p => p.written || !(p.kind == 0x5B || p.kind == 0xE0) then some (.event (.parkWake t gG.1)) else none) ++ s.agenda }

/-- ERET (R98, R380): TRES and TKIL take effect; a held trap of a live group enters the handler again; else the groups that are left resume, or
the team ends. -/
def State.returnFromTrap (t : Nat) (s : State) : State :=
  let s := s.closeTrap t
  match s.team? t with
  | none => s
  | some T =>
    let s := (List.range T.groups.length).foldl (fun x g =>
      match x.group? t g with
      | some G => if G.killed then (if G.retired then x else (x.discardHeld t g).killGroup t g) else x.modGroup t g Group.applyTres
      | none => x) s
    let s := s.dropFaulted t false
    match s.team? t with
    | none => s
    | some T =>
      match nextHeld T.groups with
      | some g => s.enterHandler t g
      | none =>
        if T.groups.all (·.gone) then
          (s.modTeam t fun T => { T with state := .ended, handler := { T.handler with trap := none } }).settleTeam t
        else
          (s.modTeam t fun T =>
            { T with state := .running, handler := { T.handler with trap := none } }).rouse t

/-! ### Meanings that may trap or stall -/

/-- How an instruction ends without its effect. -/
inductive Halt where
  | trap (a : TrapArgs)
  | stall (k : Stall)
  | refuse (r : Refusal)
deriving DecidableEq, Repr

/-- A computation on the state that may halt, keeping what it did before (walks and their heat, R321). -/
abbrev M (α : Type) := StateT State (Except (Halt × State)) α

def halt {α : Type} (h : Halt) : M α := fun s => .error (h, s)
def trap {α : Type} (cause : Cause) (tlane : Word := 0) (taddr : Word := 0) (tinfo : Word := 0) : M α :=
  halt (.trap { cause := cause, tlane := tlane, taddr := taddr, tinfo := tinfo })
def stallOn {α : Type} (k : Stall) : M α := halt (.stall k)
def noStream {α : Type} : M α := halt (.refuse .noCurrentStream)
def upd (f : State → State) : M Unit := modify f
/-- Raise a trap unless a condition holds. -/
def require (b : Bool) (cause : Cause) (tlane : Word := 0) (taddr : Word := 0) (tinfo : Word := 0) : M Unit :=
  if b then pure () else trap cause tlane taddr tinfo

/-- The current stream's stall marker (R305). -/
def State.markStall (k : Stall) (s : State) : State :=
  match s.cur with
  | none => s
  | some c =>
    match c.stream with
    | .handler => s.modTeam c.team fun T => { T with handler := { T.handler with stall := some k } }
    | .scalar => s.modGroup c.team c.grp fun g => { g with stallS := some k }
    | .lane => s.modGroup c.team c.grp fun g => { g with stallL := some k }

/-- What a stream is stalled on. -/
def State.stallOf (c : Cur) (s : State) : Option Stall :=
  match c.stream with
  | .handler => (s.team? c.team).bind (·.handler.stall)
  | .scalar => (s.group? c.team c.grp).bind (·.stallS)
  | .lane => (s.group? c.team c.grp).bind (·.stallL)

/-- A stream's stall marker cleared. -/
def State.unstall (c : Cur) (s : State) : State :=
  match c.stream with
  | .handler => s.modTeam c.team fun T => { T with handler := { T.handler with stall := none } }
  | .scalar => s.modGroup c.team c.grp fun g => { g with stallS := none }
  | .lane => s.modGroup c.team c.grp fun g => { g with stallL := none }

/-- The state that a halt leaves. -/
def Halt.answer (h : Halt) (s : State) : Answer :=
  match h with
  | .trap a => .next (s.takeTrap a)
  | .stall k => .next (s.markStall k)
  | .refuse r => .refused r

/-- A computation run as an instruction. -/
def M.answer (m : M Unit) (s : State) : Answer :=
  match m s with
  | .ok (_, s') => .next s'
  | .error (h, s') => h.answer s'

/-- The current stream, its team and its group. -/
def here : M (Cur × Team × Group) := fun s =>
  match s.cur with
  | none => .error (.refuse .noCurrentStream, s)
  | some c =>
    match s.team? c.team, s.group? c.team c.grp with
    | some T, some G => .ok ((c, T, G), s)
    | _, _ => .error (.refuse .noCurrentStream, s)

/-- The launch of the current team. -/
def hereLaunch : M Launch := fun s =>
  match s.cur.bind fun c => s.launchOf? c.team with
  | some l => .ok (l, s)
  | none => .error (.refuse .noCurrentStream, s)

/-- The context of the current team. -/
def hereContext : M Context := fun s =>
  match s.cur.bind fun c => s.contextOf? c.team with
  | some x => .ok (x, s)
  | none => .error (.refuse .noCurrentStream, s)

/-- The scalar registers of the current stream. -/
def hereScalar : M ScalarRegs := fun s =>
  match s.scalarRegs? with
  | some r => .ok (r, s)
  | none => .error (.refuse .noCurrentStream, s)

/-- Retire the scalar instruction of `n` bytes with these registers. -/
def doneScalar (n : Nat) (r : ScalarRegs) : M Unit := upd fun s => s.retireScalar (r.goto (r.pc + BitVec.ofNat 64 n))

/-- In the handler slot (R95). -/
def inHandler : M Bool := fun s => .ok (s.cur.any (fun c => c.stream == .handler), s)
/-- The words that the handler slot refuses (R95). -/
def notInHandler : M Unit := do if ← inHandler then trap cIllegalOp
/-- Handler-only words (R46). -/
def onlyInHandler : M Unit := do if !(← inHandler) then trap cIllegalOp

end Sys2Proof.Machine
end

