-- ==== Sys2Proof/Machine/Xlate.lean ====
section
/-! DEFINITION. Address translation, the TLBs, the L1 lines and where each byte of a global access lies (R249, R250, R317–R333, R420). -/

namespace Sys2Proof.Machine

/-- HBM device-physical addresses run from 0 to 768 GiB (R318). -/
def hbmSize : Nat := 768 * 2 ^ 30

/-- The size of a leaf's page by its level, as a power of two (R317). -/
def pageBits : Nat → Nat
  | 1 => 30
  | 2 => 21
  | _ => 16

/-- The index of an address in a table of a level (R317). -/
def levelIndex (level va : Nat) : Nat :=
  match level with
  | 0 => natBits va 54 39
  | 1 => natBits va 38 30
  | 2 => natBits va 29 21
  | _ => natBits va 20 16

/-- The alignment of the table that an entry of a level points to (R317). -/
def tableAlign (level : Nat) : Nat := if level = 2 then 512 else 8192

/-- Whether a valid entry of a level is malformed (R320). -/
def malformed (level w0 w1 : Nat) : Bool :=
  if natBit w0 1 then
    level == 0 || natBits w0 63 52 != 0 || natBits w1 63 10 != 0
      || (natBits w0 51 16 * 65536) % 2 ^ pageBits level != 0
      || natBits w1 1 0 == 3 || decide (natBits w1 9 2 > 191)
      || (!natBit w0 14 && decide (natBits w0 51 16 * 65536 + 2 ^ pageBits level > hbmSize))
  else
    level == 3 || w0 != 1 || natBits w1 63 52 != 0 || w1 % tableAlign level != 0 || decide (w1 ≥ hbmSize)

/-- What a walk finds (R320). -/
inductive Walked where
  | leaf (addr w0 w1 bits : Nat)
  | absent (bits : Nat)
  | fault (malformed : Bool)
  | blocked (addr : Nat)
deriving DecidableEq, Repr

/-- The walk of R320 from a table at a level, with `fuel` levels left; `may` says whether the firewall lets the walker read an entry (R420). -/
def walkFrom (mem : Cells) (may : Nat → Bool) (va : Nat) : Nat → Nat → Nat → Walked
  | 0, _, _ => .fault true
  | fuel + 1, level, t =>
    if t ≥ hbmSize then .fault true
    else if !may (t + 16 * levelIndex level va) then .blocked (t + 16 * levelIndex level va)
    else
      let a := t + 16 * levelIndex level va
      let w0 := readLE mem a 8
      let w1 := readLE mem (a + 8) 8
      if !natBit w0 0 then
        (if decide (level ≥ 1) && natBit w0 1 && natBit w0 5 then .absent (pageBits level) else .fault false)
      else if malformed level w0 w1 then .fault true
      else if natBit w0 1 then .leaf a w0 w1 (pageBits level)
      else walkFrom mem may va fuel (level + 1) w1

def walk (mem : Cells) (may : Nat → Bool) (root va : Nat) : Walked := walkFrom mem may va 4 0 root

/-! ### The L2 (R259–R261) -/

/-- The fields of DOME.L2QUOTA for a class (R260): the ways it keeps, and the most it may hold. -/
def quotaRsv (q cls : Nat) : Nat := natBits q (16 * cls + 4) (16 * cls)
def quotaLim (q cls : Nat) : Nat := natBits q (16 * cls + 12) (16 * cls + 8)

/-- Whether two lines lie in one set of one slice: the slice is the line modulo 192 (R333), the set the quotient modulo 1,024 (notes/assumptions/97). -/
def sameSet (x y : Nat) : Bool := x % 196608 == y % 196608

/-- The line whose way a miss of class `cls` takes in a full set (R261): `ways` are the set's lines, most recently used first. -/
def l2Victim (q cls : Nat) (ways : List L2Line) : Option L2Line :=
  let count (e : Nat) : Nat := (ways.filter fun x => x.cls == e).length
  let lru (p : L2Line → Bool) : Option L2Line := ways.reverse.find? p
  if count cls ≥ quotaLim q cls then lru fun x => x.cls == cls
  else
    match lru fun x => x.cls != cls && decide (count x.cls > quotaRsv q x.cls) with
    | some v => some v
    | none => lru fun x => x.cls == cls

/-- An access of class `cls` to a line at its home slice (R261): a hit becomes the most recent line and keeps its class; a miss fills the lowest free way,
or the victim's, or allocates nothing. -/
def l2Touch (q line cls : Nat) (host write : Bool) (l2 : List L2Line) : List L2Line :=
  let same (x : L2Line) : Bool := x.line == line && x.host == host
  let ways := l2.filter fun x => sameSet x.line line
  let put (way : Nat) : L2Line := { line := line, host := host, way := way, cls := cls, dirty := write }
  match l2.find? same with
  | some x => { x with dirty := x.dirty || write } :: l2.filter fun y => !same y
  | none =>
    match (List.range 16).find? fun w => !ways.any fun x => x.way == w with
    | some w => put w :: l2
    | none =>
      match l2Victim q cls ways with
      | some v => put v.way :: l2.filter fun y => !(y.line == v.line && y.host == v.host)
      | none => l2

/-- The lines of a byte range accessed at their home slices. -/
def l2Range (q pa len cls : Nat) (host write : Bool) (l2 : List L2Line) : List L2Line :=
  (List.range ((pa + len - 1) / 128 + 1 - pa / 128)).foldl (fun l2 i => l2Touch q (pa / 128 + i) cls host write l2) l2
def State.l2Access (pa len cls : Nat) (host write : Bool) (s : State) : State :=
  { s with l2 := l2Range s.dome.l2quota.toNat pa len cls host write s.l2 }

/-- The lines of the L1s that a test selects, with their cores; and those of one core. -/
def State.linesWhere (s : State) (p : L1Line → Bool) : List (Nat × L1Line) :=
  (indexed 0 s.cores).flatMap fun cC => (cC.2.l1.filter p).map fun l => (cC.1, l)
def State.linesOf (s : State) (core : Nat) (p : L1Line → Bool) : List (Nat × L1Line) :=
  (((s.cores[core]?).map (·.l1)).getD []).filterMap fun l => if p l then some (core, l) else none

/-- L1 lines that leave: those that are modified are written back to their home slices (R330, R331), each an L2 line written for its core (R404). -/
def State.writeBack (ls : List (Nat × L1Line)) (s : State) : State :=
  let out := ls.filter fun x => x.2.dirty
  { s with
    l2 := out.foldl (fun l2 x => l2Range s.dome.l2quota.toNat x.2.pline 128 x.2.cls x.2.host true l2) s.l2
    cores := out.foldl (fun cs x => modifyAt (fun (c : Core) => { c with l2w := c.l2w + 1 }) x.1 cs) s.cores }

/-! ### The host's lines (R333) -/

/-- The first line of a range of HBM that the host holds (R333). -/
def State.heldLine (pa len : Nat) (s : State) : Option Nat :=
  (s.dome.dir.find? fun d => d.hostHas && decide (pa / 128 ≤ d.line ∧ d.line ≤ (pa + len - 1) / 128)).map (·.line)

/-- A line that the host holds is asked back, once (R336). -/
def State.askBack (line : Nat) (s : State) : State :=
  if s.dome.dir.any fun d => d.line == line && d.waiting then s
  else
    { s.modDome fun x => { x with dir := x.dir.map fun d => if d.line = line then { d with waiting := true } else d } with
      outbox := s.outbox ++ [.snoop line] }

/-! ### Translation -/

/-- The entries that a walk reads, from a table at a level. -/
def walkPath (mem : Cells) (va : Nat) : Nat → Nat → Nat → List Nat
  | 0, _, _ => []
  | fuel + 1, level, t =>
    if t ≥ hbmSize then []
    else
      let a := t + 16 * levelIndex level va
      let w0 := readLE mem a 8
      a :: (if natBit w0 0 && !malformed level w0 (readLE mem (a + 8) 8) && !natBit w0 1 then walkPath mem va fuel (level + 1) (readLE mem (a + 8) 8) else [])

/-- A saturating raise of a two-bit heat field (R321). -/
def raiseHeat (w lo : Nat) : Nat := if natBits w (lo + 1) lo = 3 then w else w + 2 ^ lo
/-- A lowering of a nonzero two-bit heat field (R322). -/
def lowerHeat (w lo : Nat) : Nat := if natBits w (lo + 1) lo = 0 then w else w - 2 ^ lo

/-- Whether a leaf may become private (R329). -/
def eligible (w0 : Nat) : Bool := !natBit w0 15 && !natBit w0 14 && natBits w0 13 12 == 0

/-- Who makes an access to global memory: the context's address space, the core whose TLB it uses (none for canals, the host and the Dome), the core
that counts as the filler (R329), the cores of its fused cluster or its own (R237), whether it goes through the L1, whether it is a commutative add
(R334), and whether it is of a launch of another class than 0 (R302). -/
structure Agent where
  ctx     : Nat
  asid    : Nat
  root    : Nat
  heapLen : Nat
  core    : Option Nat
  filler  : Option Nat
  fuse    : List Nat
  l1      : Bool
  adds    : Bool := false
  other   : Bool := false
deriving DecidableEq, Repr

/-- The sharing word after a fill (R329); the Boolean says that the fill recalls the page from its owner (R330). -/
def shareAfter (w0 w1 : Nat) (filler : Option Nat) : Nat × Bool :=
  match w1 % 4 with
  | 0 =>
    match filler with
    | some c => if eligible w0 then (4 * c + 1, false) else (w1 - w1 % 4 + 2, false)
    | none => (w1 - w1 % 4 + 2, false)
  | 1 => if filler = some (natBits w1 9 2) then (w1, false) else (w1 + 1, true)
  | _ => (w1, false)

/-- The quad of a core (R323). -/
def quadOf (core : Nat) : Nat := 12 * (core / 48) + 4 * ((core % 48) / 8 / 2) + (core % 8) / 2

/-- Whether a TLB entry covers an address of an address space. -/
def TlbEntry.covers (e : TlbEntry) (asid va : Nat) : Bool := e.asid == asid && e.vbase / 2 ^ e.bits == va / 2 ^ e.bits

/-! ### Writing a located part (R40) -/

/-- The image of every ACC element of a run of bytes, canonical as a load returns it (R37, R40). -/
def canonBytes : Nat → List Byte → List Byte
  | 0, _ => []
  | n + 1, b => (Acc.ofBytes (b.take 128)).readImage.bytes ++ canonBytes n (b.drop 128)

/-- Bytes of physical memory under a page's kind: an ACC element reads as its combined, canonical image (R40). -/
def readKind (m : Cells) (pa len kind : Nat) (key : Option Nat := none) : List Byte :=
  if kind = 1 then
    let e := pa - pa % 128
    let n := (pa + len + 127) / 128 - e / 128
    ((canonBytes n (cellsOpen key m e (128 * n))).drop (pa - e)).take len
  else cellsOpen key m pa len

/-- The bytes that a store leaves from the first element it touches, under the page's kind (R40): the other bytes of a partly stored ACC element keep
their combined values. -/
def writeKind (m : Cells) (pa kind : Nat) (b : List Byte) (key : Option Nat := none) : Nat × List Byte :=
  if kind = 1 then
    let e := pa - pa % 128
    let n := (pa + b.length + 127) / 128 - e / 128
    let old := canonBytes n (cellsOpen key m e (128 * n))
    (e, old.take (pa - e) ++ b ++ old.drop (pa - e + b.length))
  else (pa, b)

/-- A part written. -/
def State.writePart (p : Part) (b : List Byte) (stamp : Nat) (s : State) : State :=
  match p.place with
  | .hbm pa => let w := writeKind s.mem pa p.kind b p.key; (s.pokeAt false p.key pa b.length w.1 w.2).wakeFrom s stamp
  | .host pa => let w := writeKind s.hostMem pa p.kind b; (s.pokeAt true none pa b.length w.1 w.2).wakeFrom s stamp
  | _ => s

/-! ### Fills and recalls -/

/-- Whether a block lies in a page of HBM. -/
def Block.inPage (pa bits : Nat) : Block → Bool
  | .part _ p _ => match p.place with
    | .hbm x => x / 2 ^ bits == pa / 2 ^ bits
    | _ => false
  | .pad _ _ _ => false

/-- A block of global memory performed. -/
def State.putPart (stamp : Nat) (s : State) : Block → State
  | .part _ p b => s.writePart p b stamp
  | .pad _ _ _ => s

/-- The stores to a page that are in flight are performed (R330, step 2). -/
def State.settlePage (pa bits : Nat) (s : State) : State :=
  let s' := s.apart.foldl (fun s x =>
    { (x.blocks.filter (Block.inPage pa bits)).foldl (State.putPart x.stamp) { s with cur := some ⟨x.team, x.grp, x.stream⟩ } with cur := s.cur }) s
  { s' with apart := s'.apart.map fun x => { x with blocks := x.blocks.filter (!Block.inPage pa bits ·) } }

/-- The recall of R330: the stores in flight to the page are performed, its modified L1 lines written back, its TLB entries become shared. -/
def State.recall (leaf pa bits : Nat) (s : State) : State :=
  let s := s.settlePage pa bits
  let s := s.writeBack (s.linesWhere fun l => !l.host && l.pline / 2 ^ bits == pa / 2 ^ bits)
  { s with
    quads := s.quads.map fun q => { q with tlb := q.tlb.map fun e => if e.leaf = leaf then { e with share := 2 } else e }
    cores := s.cores.map fun c =>
      { c with l1 := c.l1.map fun l =>
          if !l.host && l.pline / 2 ^ bits == pa / 2 ^ bits then { l with share := 2, dirty := false } else l } }

/-- The translation a leaf gives (R318, R323). -/
def entryOf (asid va addr w0 w1 bits : Nat) : TlbEntry :=
  { asid := asid, vbase := va - va % 2 ^ bits, bits := bits, page := bits, pa := natBits w0 51 16 * 65536, flags := natBits w0 4 2
    host := natBit w0 14, kind := natBits w0 13 12, cls := natBits w0 7 6, isAls := natBit w0 15
    share := w1 % 4, owner := natBits w1 9 2, leaf := addr }

/-- A quad TLB with an entry added; the oldest of 4,096 leaves (notes/assumptions/10). -/
def Quad.fill (e : TlbEntry) (q : Quad) : Quad := { q with tlb := (e :: q.tlb).take 4096 }

/-- The answer of a translation. -/
inductive Xl where
  | ok (e : TlbEntry)
  | absent (bits : Nat)
  | fault (malformed : Bool)
  | held (line : Nat)
  | blocked (addr : Nat)
deriving DecidableEq, Repr

/-- The fill of R321: heat and sharing are updated in the leaf, the recall of R330 made, and the TLB filled. A walk waits for an entry whose line the
host holds (R336), and ends at one that the firewall keeps from it (R420). -/
def State.fillFrom (a : Agent) (va : Nat) (write : Bool) (s : State) : Xl × State :=
  let path := walkPath s.mem va 4 0 a.root
  match path.findSome? fun x => s.heldLine x 16 with
  | some l => (.held l, s)
  | none =>
  let s := { s with l2 := path.foldl (fun l2 a => l2Range s.dome.l2quota.toNat a 16 0 false false l2) s.l2 }
  match walk s.mem (fun x => s.firewall .dev x false) a.root va with
  | .fault m => (.fault m, s)
  | .absent b => (.absent b, s)
  | .blocked x => (.blocked x, s)
  | .leaf addr w0 w1 bits =>
    let w0' := raiseHeat w0 (if write then 10 else 8)
    let (w1', rec) := shareAfter w0 w1 a.filler
    let s := (s.devWrite addr (toBytes 8 w0' ++ toBytes 8 w1')).l2Access addr 16 0 false true
    let e := entryOf a.asid va addr w0' w1' bits
    let s := if rec then s.recall addr e.pa bits else s
    match a.core with
    | some c => (.ok e, { s with quads := modifyAt (Quad.fill e) (quadOf c) s.quads })
    | none => (.ok e, s)

/-- A translation (R323, R325): the smaller of two matching entries, the larger dropped and counted; a private entry of another core, or none,
walks. -/
def State.translate (a : Agent) (va : Nat) (write : Bool) (s : State) : Xl × State :=
  match a.core with
  | none => s.fillFrom a va write
  | some c =>
    let q := (s.quads[quadOf c]?).getD ⟨[], 0⟩
    match (q.tlb.filter fun e => e.covers a.asid va).foldl (fun (m : Option TlbEntry) e =>
        match m with
        | none => some e
        | some x => if e.bits < x.bits then some e else some x) none with
    | none => s.fillFrom a va write
    | some e =>
      let tlb' := q.tlb.filter fun x => !(x.covers a.asid va) || decide (x.bits ≤ e.bits)
      let q' : Quad := { tlb := tlb', dual := if tlb'.length < q.tlb.length then q.dual + 1 else q.dual }
      let s := { s with quads := s.quads.set (quadOf c) q' }
      if e.share = 1 && a.filler != some e.owner then
        { s with quads := modifyAt (fun (q : Quad) => { q with tlb := q.tlb.filter fun x => !(x.covers a.asid va) }) (quadOf c) s.quads }.fillFrom
          a va write
      else (.ok e, s)

/-- Whether an access to a place waits for the host or for a queue entry. -/
def Place.isHeld : Place → Bool
  | .held _ => true
  | .walk _ => true
  | .shut => true
  | _ => false

/-- The granule of a place, the largest block performed as one (R252). -/
def Place.granule : Place → Nat
  | .host _ => 8
  | .peer _ _ => 8
  | _ => 32

/-- The granule of a scratchpad (R252). -/
def padGranule : Nat := 64

/-- The size of an element of a page kind (R40). -/
def elemBytes (kind : Nat) : Nat :=
  match kind with
  | 1 => 128
  | 2 => 8
  | 3 => 4
  | _ => 1

/-- The block within which an access of a part is performed at once: the granule of its memory, or in a commutative range the whole element where that is
the larger (R252–R254). -/
def Part.granule (p : Part) : Nat := max p.place.granule (elemBytes p.kind)

/-- A place some bytes further on. -/
def Place.move (n : Nat) : Place → Place
  | .hbm pa => .hbm (pa + n)
  | .host pa => .host (pa + n)
  | .peer d o => .peer d (o + n)
  | p => p

/-- A stretch of a part. -/
def Part.sub (p : Part) (va len : Nat) : Part := { p with va := va, len := len, place := p.place.move (va - p.va) }

/-- A range cut at granules of `z` bytes (R252). -/
def granules (z : Nat) : Nat → Nat → Nat → List (Nat × Nat)
  | 0, _, _ => []
  | fuel + 1, va, len =>
    if len = 0 then []
    else
      let n := min len (z - va % z)
      (va, n) :: granules z fuel (va + n) (len - n)

/-- The parts of an access, or its address fault. -/
inductive Located where
  | parts (ps : List Part)
  | fault (malformed : Bool)
deriving DecidableEq, Repr

/-- The core whose L1 may hold a line (R237). -/
def Agent.lineCore (a : Agent) (va : Nat) : Option Nat := a.fuse[(va / 128) % a.fuse.length]?

/-- An L1 after a miss or hit of a thread access (R331): a load of a private, shared or host page allocates, a store to a private page allocates
and modifies; commutative pages are not held. With more lines than it has `room` for, the oldest leaves (notes/assumptions/3). -/
def Core.touch (c : Core) (room : Nat) (e : TlbEntry) (asid va pa cycle : Nat) (write : Bool) : Core :=
  let hit := c.l1.any fun l => l.asid == asid && l.vline == va / 128
  let priv := e.share == 1 && !e.host && e.kind == 0
  if e.kind != 0 then { c with miss := c.miss + 1, l2r := if write then c.l2r else c.l2r + 1, l2w := if write then c.l2w + 1 else c.l2w }
  else if hit then
    if write then
      (if priv then { c with l1 := c.l1.map fun l => if l.asid == asid && l.vline == va / 128 then { l with dirty := true } else l }
       else { c with l2w := c.l2w + 1 })
    else c
  else
    let c := { c with miss := c.miss + 1 }
    if write && !priv then { c with l2w := c.l2w + 1 }
    else
      let line : L1Line :=
        { asid := asid, vline := va / 128, pline := pa - pa % 128, page := e.page, flags := e.flags, host := e.host, kind := e.kind, cls := e.cls
          share := e.share, dirty := write, fill := cycle }
      -- one physical line is held under one virtual tag (R324)
      { c with l2r := c.l2r + 1
               l1 := (line :: c.l1.filter fun l => !(l.host == e.host && l.pline == line.pline)).take room }

/-- Whether an access of a thread goes on to the home slice (R331): a miss, a store to a page that is not private, or any access of a commutative page. -/
def Core.reachesHome (c : Core) (e : TlbEntry) (asid va : Nat) (write : Bool) : Bool :=
  e.kind != 0 || !(c.l1.any fun l => l.asid == asid && l.vline == va / 128) || (write && !(e.share == 1 && !e.host))

/-- The modified lines that leave an L1 as another takes their room. -/
def Core.pushedOut (c c' : Core) : List L1Line :=
  if c'.l1.length > c.l1.length then [] else c.l1.filter fun l => l.dirty && !c'.l1.any fun x => x.asid == l.asid && x.vline == l.vline

/-- An L1 line's stored translation, for a hit (R323: never checked against the TLB). -/
def L1Line.entry (l : L1Line) : TlbEntry :=
  { asid := l.asid, vbase := l.vline * 128, bits := 7, page := l.page, pa := l.pline, flags := l.flags, host := l.host, kind := l.kind, cls := l.cls
    isAls := false, share := l.share, owner := 0, leaf := 0 }

/-- The line of an L1 that an access of a thread hits (R323): it is not translated, be it a load or a store. -/
def State.l1Hit (a : Agent) (va : Nat) (s : State) : Option TlbEntry :=
  if !a.l1 then none
  else
    ((a.lineCore va).bind fun c => s.cores[c]?).bind fun c =>
      (c.l1.find? fun l => l.asid == a.asid && l.vline == va / 128).map L1Line.entry

/-- A partial merged into its element's base value (R41, R334). -/
def Partial.mergeInto (p : Partial) (old : List Byte) : List Byte :=
  if p.kind = 1 then ((Acc.ofBytes old).merge (Acc.ofBytes p.value)).bytes else toBytes p.value.length (ofBytes old + ofBytes p.value)

/-- A partial's core, space, line and page class. -/
def Partial.home (p : Partial) : Nat × Bool × Nat × Nat := (p.core, p.host, p.pa / 128, p.cls)

/-- The home value after a partial. -/
def State.mergePartial (s : State) (p : Partial) : State :=
  s.pokeMem p.host p.pa (p.mergeInto (if p.host then cellsRead s.hostMem p.pa p.value.length else cellsOpen p.key s.mem p.pa p.value.length)) p.key

/-- The combine of some C lines (R334): their partials, in ascending core order, and none of them stays recorded. Each line that a core gives up is an L2
line written for it (R404). -/
def State.combine (sel : Partial → Bool) (s : State) : State :=
  if s.partials.any sel then
    let ps := (List.range s.cores.length).flatMap fun c => s.partials.filter fun p => sel p && p.core == c
    let lines := (ps.map Partial.home).eraseDups
    (ps.foldl State.mergePartial
      { s with
        partials := s.partials.filter fun p => !sel p
        l2 := lines.foldl (fun l2 x => l2Touch s.dome.l2quota.toNat x.2.2.1 x.2.2.2 x.2.1 true l2) s.l2
        cores := lines.foldl (fun cs x => modifyAt (fun (c : Core) => { c with l2w := c.l2w + 1 }) x.1 cs) s.cores }).wakeFrom s 0
  else s

/-- Whether a partial lies in a line that a byte range meets. -/
def Partial.meets (host : Bool) (pa len : Nat) (p : Partial) : Bool :=
  p.host == host && decide (pa / 128 * 128 < p.pa + p.value.length ∧ p.pa < (pa + len + 127) / 128 * 128)

/-- The lines of a core's L1 that hold partials, the latest first: space and line number. -/
def State.partialLines (s : State) (core : Nat) : List (Bool × Nat) :=
  ((s.partials.filter fun p => p.core == core).map fun p => (p.host, p.pa / 128)).eraseDups

/-- The lines that an L1 has room for beside its partials (R6, R333). -/
def State.lineRoom (s : State) (core : Nat) : Nat := 2560 - (s.partialLines core).length

/-- Room for one more line of partials in a core's L1: its oldest plain line leaves or, where all its lines hold partials, the oldest of these is
combined (R333, R334; notes/assumptions/96). -/
def State.makeRoom (core : Nat) (host : Bool) (line : Nat) (s : State) : State :=
  let ls := s.partialLines core
  if ls.contains (host, line) then s
  else
    match (if ls.length ≥ 2560 then ls.getLast? else none) with
    | some x => s.combine fun p => p.core == core && p.host == x.1 && p.pa / 128 == x.2
    | none =>
      let l1 := ((s.cores[core]?).map (·.l1)).getD []
      let keep := 2559 - ls.length
      (s.writeBack ((l1.drop keep).map fun l => (core, l))).modCore core fun c => { c with l1 := c.l1.take keep }

/-- An add that enters a partial of a core's L1, at first the identity (R333): where the L1 has no such line yet, it has missed
(R404; notes/assumptions/96). -/
def State.addPartial (core : Nat) (host : Bool) (pa kind cls : Nat) (key : Option Nat) (zero : List Byte) (f : List Byte → List Byte) (s : State) : State :=
  let s := if (s.partialLines core).contains (host, pa / 128) then s else s.modCore core fun c => { c with miss := c.miss + 1 }
  let s := s.makeRoom core host (pa / 128)
  let same (p : Partial) : Bool := p.core == core && p.host == host && p.pa == pa
  let old := ((s.partials.find? same).map (·.value)).getD zero
  { s with partials := { core := core, host := host, pa := pa, kind := kind, cls := cls, key := key, value := f old } :: s.partials.filter fun p => !same p }

/-- Whether an access of another class than 0 finds every entry reserved, at its home slice or, where it misses there, at the HBM (R302). -/
def State.shutOut (s : State) (a : Agent) (host : Bool) (pa len : Nat) : Bool :=
  a.other && (natBits s.dome.cls0rsv.toNat 3 0 == 8
    || (natBits s.dome.cls0rsv.toNat 7 4 == 8 && !host && (List.range ((pa + len - 1) / 128 + 1 - pa / 128)).any fun i =>
        !s.l2.any fun x => x.line == pa / 128 + i && !x.host))

/-- The L1 copies of a byte range go before it is written or the host accesses it (R332, R333, R336, R345): a modified one is written back first. -/
def State.dropRange (s : State) (host : Bool) (pa len : Nat) : State :=
  let hit (l : L1Line) : Bool := l.host == host && decide (l.pline < pa + len) && decide (pa < l.pline + 128)
  let s := s.writeBack (s.linesWhere hit)
  { s with cores := s.cores.map fun c => { c with l1 := c.l1.filter fun l => !hit l } }
def State.dropLines (s : State) (ps : List Part) : State :=
  ps.foldl (fun s p =>
    match p.place with
    | .hbm pa => s.dropRange false pa p.len
    | .host pa => s.dropRange true pa p.len
    | _ => s) s

/-- The L2 lines that an access past the L1s reads or writes for its core (R404). -/
def State.countLines (a : Agent) (pa len : Nat) (write : Bool) (s : State) : State :=
  let n : Word := BitVec.ofNat 64 ((pa + len - 1) / 128 + 1 - pa / 128)
  match a.core with
  | some c => s.modCore c fun x => if write then { x with l2w := x.l2w + n } else { x with l2r := x.l2r + n }
  | none => s

/-- One stretch of an access within a 128-byte line or a 64 KiB page. A walk that the firewall ends is an access to the entry it may not read: no agent of
the device may (R420). -/
def State.locateOne (a : Agent) (va len : Nat) (write : Bool) (s : State) : Located × State :=
  if va + len > 2 ^ 56 then (.fault false, s)
  else
    let window := va / 2 ^ 54
    let pod := s.dome.podcfg
    let dev := natBits va 53 44
    let off := va % 2 ^ 44
    let devnum := natBits pod.toNat 9 0
    if window = 2 then (.fault false, s)
    else if window = 3 && (!pod.getLsbD 31 || decide (dev ≥ natBits pod.toNat 26 16) || decide (off + len > a.heapLen)) then
      (.fault false, s)
    else if window = 3 && dev != devnum then
      (.parts [{ va := va, len := len, place := .peer dev off, perm := 7, kind := 0 }], s)
    else
      let r := match s.l1Hit a va with
        | some e => (Xl.ok e, s)
        | none => s.translate a va write
      match r.1 with
      | .fault m => (.fault m, r.2)
      | .absent b => (.parts [{ va := va, len := len, place := .absent b, perm := 0, kind := 0, bits := b }], r.2)
      | .held l => (.parts [{ va := va, len := len, place := .walk l, perm := 0, kind := 0 }], r.2)
      | .blocked x => (.parts [{ va := va, len := len, place := .hbm x, perm := 7, kind := 0 }], r.2)
      | .ok e =>
        let pa := e.pa + va % 2 ^ e.bits
        let slice := if a.l1 then !a.adds && ((a.lineCore va).bind fun c => r.2.cores[c]?).all fun x => x.reachesHome e a.asid va write else true
        let place : Place :=
          if slice && s.shutOut a e.host pa len then .shut
          else if e.host then .host pa else (s.heldLine pa len).elim (.hbm pa) .held
        let home (b : Bool) (u : State) : State :=
          { u with l2 := if b then l2Range u.dome.l2quota.toNat pa len e.cls e.host write u.l2 else u.l2 }
        let s :=
          -- a line that waits is in no L1, and an add of a thread enters its L1 (R331, R333)
          if place.isHeld || (a.l1 && a.adds) then r.2
          else if a.l1 then
            match (a.lineCore va).bind fun c => (r.2.cores[c]?).map fun x => (c, x) with
            | some (c, x) =>
              let y := x.touch (r.2.lineRoom c) e a.asid va pa r.2.plat.cycles write
              let u := r.2.modCore c fun _ => y
              (home (x.reachesHome e a.asid va write) u).writeBack ((x.pushedOut y).map fun l => (c, l))
            | none => home true r.2
          else (home true r.2).countLines a pa len write
        let s := if e.kind != 0 && !a.adds && !place.isHeld then s.combine (Partial.meets e.host pa len) else s
        (.parts [{ va := va, len := len, place := place, perm := e.flags, kind := e.kind, bits := e.page, key := (s.context? a.ctx).bind (·.memKey)
                   cls := e.cls }], s)

/-- An access of `len` bytes cut at blocks of `blk` bytes and located stretch by stretch, in ascending address; the first fault stops it. -/
def State.locateFrom (a : Agent) (blk : Nat) (write : Bool) : Nat → Nat → Nat → State → Located × State
  | 0, _, _, s => (.parts [], s)
  | fuel + 1, va, len, s =>
    if len = 0 then (.parts [], s)
    else
      let n := min len (blk - va % blk)
      match s.locateOne a va n write with
      | (.fault m, s) => (.fault m, s)
      | (.parts p, s) =>
        match State.locateFrom a blk write fuel (va + n) (len - n) s with
        | (.fault m, s) => (.fault m, s)
        | (.parts q, s) => (.parts (p ++ q), s)

/-- Where the bytes of an access lie (R249, R250, R320). A thread access is taken line by line, an engine's piece page by page; an access across
two devices' heaps has no translation (notes/assumptions/12). -/
def State.locate (a : Agent) (va len : Nat) (write : Bool) (s : State) : Located × State :=
  let blk := if a.l1 then 128 else 65536
  if va / 2 ^ 54 = 3 && va / 2 ^ 44 != (va + len - 1) / 2 ^ 44 then (.fault false, s) else
  s.locateFrom a blk write (len / blk + 2) va len

/-! ### What a located access may do (R319, R420) -/

/-- The kinds of access that R319 distinguishes. -/
inductive Access where
  | read | write | atomic | radd | fetch
deriving DecidableEq, Repr

/-- Whether an access needs W, and so makes a write fill (R319, R321). -/
def Access.writes : Access → Bool
  | .read => false
  | .fetch => false
  | _ => true

/-- Whether a part's permissions and kind admit the access (R319, R172, R173). -/
def Part.permits (p : Part) (a : Access) : Bool :=
  match p.place with
  | .peer _ _ => true
  | .absent _ => true
  | .walk _ => true
  | _ =>
    match a with
    | .read => natBit p.perm 0
    | .write => natBit p.perm 1
    | .atomic => natBit p.perm 0 && natBit p.perm 1 && p.kind == 0
    | .radd => natBit p.perm 1 && p.kind != 0
    | .fetch => natBit p.perm 2

/-- Whether the firewall admits a part (R420). -/
def Part.open (p : Part) (a : Access) (s : State) : Bool :=
  match p.place with
  | .hbm pa => s.firewall .dev pa a.writes && (a != .atomic || s.firewall .dev pa false)
  | .held l => s.firewall .dev (l * 128) a.writes
  | _ => true

/-- Whether a part's page is not resident, or not known yet because its walk waits (R320, R336). -/
def Part.isAbsent (p : Part) : Bool := match p.place with | .absent _ => true | .walk _ => true | _ => false
def Part.isHeld (p : Part) : Bool := p.place.isHeld
def Part.isPeer (p : Part) : Bool := match p.place with | .peer _ _ => true | _ => false

/-- A page fault reported once per page to the driver (R326). -/
def State.pageFault (s : State) (a : Agent) (va bits access : Nat) : State :=
  let key := (a.asid, va / 2 ^ bits * 2 ^ bits, bits)
  if s.dome.reported.contains key then s
  else
    (s.modDome fun d => { d with reported := d.reported ++ [key] }).report
      { kind := 6, ctx := a.ctx, core := a.core.getD 0, store := access, addr := va, count := a.asid }

/-- The access-kind code of a kind-6 record (R388). -/
def Access.code : Access → Nat
  | .read => 0
  | .fetch => 2
  | _ => 1

/-- The page faults of an access's absent parts reported, the host's hold on its lines asked back (R326, R336). -/
def State.reportParts (a : Agent) (acc : Access) (ps : List Part) (s : State) : State :=
  ps.foldl (fun s p =>
    match p.place with
    | .absent b => s.pageFault a p.va b acc.code
    | .held l => s.askBack l
    | .walk l => s.askBack l
    | _ => s) s

/-! ### The bytes of a located access -/

/-- What a part reads as; a part that lies elsewhere reads as nothing here. -/
def State.readPart (s : State) (p : Part) : List Byte :=
  match p.place with
  | .hbm pa => readKind s.mem pa p.len p.kind p.key
  | .host pa => readKind s.hostMem pa p.len p.kind
  | _ => []

/-- The bytes of parts that are all at hand, in address order. -/
def State.readParts (s : State) (ps : List Part) : List Byte := ps.flatMap s.readPart

/-- Bytes written to parts that are all at hand, in address order. -/
def State.writeParts : List Part → List Byte → Nat → State → State
  | [], _, _, s => s
  | p :: ps, b, stamp, s => State.writeParts ps (b.drop p.len) stamp (s.writePart p (b.take p.len) stamp)

/-- The errors that poison a part, for a reader: the unit's address and the store's code (R387). -/
def State.poisonAt (s : State) (host : Bool) (pa len : Nat) : Option (Nat × Nat) :=
  let meets (size x store : Nat) : Option (Nat × Nat) :=
    let y := x / size * size
    if y < unitAddr host pa + len && unitAddr host pa < y + size then some (y % 2 ^ 52, store) else none
  s.poison.findSome? fun u =>
    match u with
    | .hbm x => if host then none else meets 32 x 0
    | .l2 x => meets 128 x 1
    | .l1 _ _ x => meets 128 x 2
    | _ => none
def State.partPoison (s : State) (p : Part) : Option (Nat × Nat) :=
  match p.place with
  | .hbm pa => s.poisonAt false pa p.len
  | .host pa => s.poisonAt true pa p.len
  | _ => none

def State.partsPoison (s : State) (ps : List Part) : Option (Nat × Nat) := ps.findSome? s.partPoison

end Sys2Proof.Machine
end

