-- ==== Sys2Proof/Machine/Access.lean ====
section
/-! DEFINITION. The checks that every thread access runs, in the order of R167 and R83, and the range locks and watchpoints (R182, R256, R407). -/

namespace Sys2Proof.Machine

/-- The agent of a team's threads (R237, R329, R344); a team that is swapped out has the canals' (R310). -/
def State.agentOf? (s : State) (t : Nat) : Option Agent :=
  match s.team? t, s.launchOf? t, s.contextOf? t with
  | some T, some L, some C =>
    let mates := s.teams.filter fun x => x.live && x.launch == T.launch && x.cluster == T.cluster
    let cores := (List.range mates.length).filterMap fun i => (mates.find? fun x => x.pos == i).map (·.core)
    let fuse := if L.fuse && !cores.isEmpty then cores else [T.core]
    if T.away then
      some { ctx := C.id, asid := C.asid, root := C.root, heapLen := C.heapLen, core := none, filler := none, fuse := [], l1 := false
             other := L.cls != 0 }
    else
    some { ctx := C.id, asid := C.asid, root := C.root, heapLen := C.heapLen, core := some T.core, filler := some (fuse.headD T.core)
           fuse := fuse, l1 := true, other := L.cls != 0 }
  | _, _, _ => none

/-- The agent of the current stream. -/
def hereAgent : M Agent := fun s =>
  match s.cur.bind fun c => s.agentOf? c.team with
  | some a => .ok (a, s)
  | none => .error (.refuse .noCurrentStream, s)

/-- One thread's access: its lane, space, address, bytes, required alignment and kind. -/
structure Req where
  lane    : Nat
  scratch : Bool
  ea      : Int
  size    : Nat
  align   : Nat
  acc     : Access
deriving DecidableEq, Repr

/-- A located request. -/
structure Hit where
  req   : Req
  parts : List Part
deriving DecidableEq, Repr

/-- The store that a range-lock entry's space and core name, for a team on a core: a cluster scratchpad on its own core is its own (R182, R183). -/
def lockStore (own space core : Nat) : Nat × Nat := if space = 2 then (if core = own then (1, 0) else (2, core)) else (space, core)

/-- Whether an interval meets a range-lock entry that is held against the access (R182). -/
def Lock.against (l : Lock) (own space core : Nat) (start len : Int) (write : Bool) : Bool :=
  lockStore own l.space l.core == lockStore own space core
    && decide (start < l.start + l.len ∧ l.start < start + len) && (l.write || write)

/-- The mask of the lanes of some requests. -/
def laneMask (rs : List Req) : Word := BitVec.ofNat 64 (rs.foldl (fun m r => m ||| 2 ^ r.lane) 0)

/-- The trap of a check that the requests `bad` fail (R167): TLANE names them, TADDR is the lowest lane's address. -/
def trapReqs (cause : Cause) (tinfo : Word) (bad : List Req) : M Unit :=
  match bad with
  | [] => pure ()
  | r :: _ => trap cause (laneMask bad) (BitVec.ofInt 64 r.ea) tinfo

/-- One request located; an address fault is answered with its TINFO. -/
def locateReq (a : Agent) (r : Req) : M (Option Word × Hit) := do
  if r.scratch then return (none, ⟨r, []⟩)
  if r.ea < 0 || r.ea + r.size > 2 ^ 56 then return (some 0, ⟨r, []⟩)
  let s ← get
  match s.locate { a with adds := r.acc == .radd } r.ea.toNat r.size r.acc.writes with
  | (.parts ps, s) => set s; return (none, ⟨r, ps⟩)
  | (.fault m, s) => set s; return (some (if m then 0x100 else 0), ⟨r, []⟩)

/-- Whether a watchpoint fires on a request, with the lowest touched address (R407). -/
def Watch.touches (w : Watch) (r : Req) : Option Nat :=
  let dir := (w.mode.getLsbD 0 && (r.acc == .read)) || (w.mode.getLsbD 1 && r.acc.writes)
  if w.mode.getLsbD 7 && dir && w.space == r.scratch && decide ((r.ea < w.base + w.len) ∧ ((w.base : Int) < r.ea + r.size)) then
    some (max r.ea w.base).toNat
  else none

/-- Whether the current stream's word may fire watchpoints: not on the one execution after its handling (R374). -/
def watchOn : M Bool := do
  let (c, _, G) ← here
  return c.stream == .handler || !G.skips c.stream

/-- The watchpoint check (R407), which gives the lowest address touched in any lane; the trap is also traced. The administrator's do not reach a
confidential context (R391). -/
def checkWatch (C : Context) (reqs : List Req) : M Unit := do
  if ← watchOn then
    let c ← here
    for (i, w) in indexed 0 C.watches do
      let bad := reqs.filter fun r => (w.touches r).isSome && !(w.admin && C.conf)
      match bad.filterMap fun r => w.touches r with
      | [] => pure ()
      | x :: xs =>
        let low := xs.foldl min x
        upd fun s => s.traceGroup c.1.team c.1.grp 6 low w.mode.toNat
        trap cWatchpoint (laneMask bad) (BitVec.ofNat 64 low) (BitVec.ofNat 64 i)

/-- The poison of a scratchpad range (R387). -/
def State.scratchPoison (s : State) (t off len : Nat) : Option Nat :=
  s.poison.findSome? fun u =>
    match u with
    | .scratch t' o => if t' = t ∧ o / 64 * 64 < off + len ∧ off < o / 64 * 64 + 64 then some (o / 64 * 64) else none
    | _ => none

/-- The poison that a reading request meets: the unit's address and store code (R387). -/
def State.hitPoison (s : State) (t : Nat) (h : Hit) : Option (Nat × Nat) :=
  if h.req.acc = .write || h.req.acc = .radd then none
  else if h.req.scratch then (s.scratchPoison t h.req.ea.toNat h.req.size).map fun a => (a, 3)
  else s.partsPoison h.parts

/-- Whether a team has accesses that are not performed: pieces in the operand log, or stores and requests that other devices have not answered (R277). -/
def State.teamBusy (s : State) (t : Nat) : Bool :=
  (s.team? t).any (s.logsFor t) || s.remotes.any fun r => r.team == t && r.cmd.isNone && r.sreg.all fun x => x.1 != .handler

/-- The checks of R167 over the participating lanes, lowest first; then poison (R387) and watchpoints (R407). `suits` is what the word itself asks
of a located request (R173), as part of the fifth check. An access of the handler slot comes after every access of the groups it stopped (R277). -/
def checkAccess (reqs : List Req) (suits : Hit → Bool := fun _ => true) : M (List Hit) := do
  let (c, T, _) ← here
  let a ← hereAgent
  let C ← hereContext
  if c.stream == .handler && (← get).teamBusy c.team then stallOn .handler
  trapReqs cAtomicAlign 0 (reqs.filter fun r => r.ea % r.align != 0)
  let found ← reqs.mapM (locateReq a)
  let faults := found.filter fun x => x.1.isSome
  trapReqs cAddrFault ((faults.head?.bind fun x => x.1).getD 0) (faults.map fun x => x.2.req)
  trapReqs cScratchBounds 0 (reqs.filter fun r => r.scratch && (decide (r.ea < 0) || decide (r.ea + r.size > T.size)))
  trapReqs cRangeConflict 0 (reqs.filter fun r =>
    T.locks.any fun l => l.against T.core (if r.scratch then 1 else 0) 0 r.ea r.size r.acc.writes)
  let hits := found.map fun x => x.2
  let s ← get
  let deny (h : Hit) : Bool := h.parts.any (fun p => !p.permits h.req.acc) || !suits h
  let block (h : Hit) : Bool := h.parts.any fun p => !p.open h.req.acc s
  let bad := hits.filter fun h => deny h || block h
  trapReqs cAccessFault (match bad with
    | [] => 0
    | h :: _ => if deny h then 0 else 0x200) (bad.map (·.req))
  match hits.filterMap fun h => (s.hitPoison c.team h).map fun x => (h.req, x) with
  | [] => pure ()
  | (_, x) :: _ =>
    trap cEcc (laneMask ((hits.filter fun h => (s.hitPoison c.team h).isSome).map (·.req))) (BitVec.ofNat 64 x.1) (BitVec.ofNat 64 x.2)
  checkWatch C reqs
  return hits

/-- Whether a core's operand log holds live entries of a part's page (R327). -/
def State.logHolds (s : State) (ctx core : Nat) (p : Part) : Bool :=
  (s.cores[core]?).any fun c => c.oplog.any fun e =>
    e.va / 2 ^ p.bits == p.va / 2 ^ p.bits && ((s.launchOf? e.team).any fun l => l.ctx == ctx)

/-- The parts of a hit that must wait for a page or for the host. -/
def Hit.waits (h : Hit) : Bool := h.parts.any fun p => p.isAbsent || p.isHeld
/-- The same for an access that is never logged: it also waits behind a page's live entries (R277, R327). -/
def Hit.waitsHere (h : Hit) (s : State) (a : Agent) : Bool :=
  h.waits || a.core.any fun c => h.parts.any fun p => !p.isPeer && s.logHolds a.ctx c p
def Hit.remote (h : Hit) : Bool := h.parts.any fun p => p.isPeer

/-- The page faults of the waiting hits reported (R326). -/
def reportHits (hs : List Hit) : M Unit := do
  let a ← hereAgent
  for h in hs do upd fun s => s.reportParts a h.req.acc h.parts

/-! ### The scratchpad of a team -/

def State.readScratch (s : State) (t off len : Nat) : List Byte :=
  match s.team? t with
  | some T => cellsRead T.scratch off len
  | none => []

/-- A write to the scratchpad of a team that is swapped out, made in its image too (R310). -/
def State.notePad (s : State) (t off : Nat) (b : List Byte) : State :=
  match s.team? t, s.launchOf? t with
  | some T, some L => if T.away then s.devPoke (T.image + T.padAt L + off) b (s.keyOf t) else s
  | _, _ => s

/-- Bytes written to a team's scratchpad: poison of granules written whole is cleared, and parked waits are woken (R176, R387). -/
def State.writeScratch (s : State) (t off : Nat) (b : List Byte) (stamp : Nat := 0) : State :=
  let s' := (s.modTeam t fun T => { T with scratch := cellsWrite off b T.scratch }).notePad t off b
  { s' with poison := s'.poison.filter fun u =>
      match u with
      | .scratch t' o => !(t' == t && decide (off ≤ o / 64 * 64 ∧ o / 64 * 64 + 64 ≤ off + b.length))
      | _ => true }.wakeFrom s stamp (s.launchIx t)

/-- What a hit at hand reads as. -/
def State.readHit (s : State) (t : Nat) (h : Hit) : List Byte :=
  if h.req.scratch then s.readScratch t h.req.ea.toNat h.req.size else s.readParts h.parts

/-- A hit at hand written. -/
def State.writeHit (s : State) (t : Nat) (h : Hit) (b : List Byte) (stamp : Nat := 0) : State :=
  if h.req.scratch then s.writeScratch t h.req.ea.toNat b stamp else s.writeParts h.parts b stamp

/-! ### Accesses performed block by block (R252–R254) -/

/-- The blocks of bytes for a scratchpad, and for a part, in units that are performed at once. -/
def padBlocks (t off : Nat) (b : List Byte) : List Block :=
  (granules padGranule (b.length / padGranule + 2) off b.length).map fun r => .pad t r.1 ((b.drop (r.1 - off)).take r.2)
def Part.blocksOf (unit : Nat) (p : Part) (b : List Byte) : List Block :=
  (granules unit (p.len / unit + 2) p.va p.len).map fun r => .part unit (p.sub r.1 r.2) ((b.drop (r.1 - p.va)).take r.2)
def partBlocks (p : Part) (b : List Byte) : List Block := p.blocksOf p.granule b

/-- The blocks of a hit at hand. -/
def Hit.blocks (h : Hit) (t : Nat) (b : List Byte) : List Block :=
  if h.req.scratch then padBlocks t h.req.ea.toNat b
  else h.parts.flatMap fun p => partBlocks p ((b.drop (p.va - h.req.ea.toNat)).take p.len)

/-- The number of the granule that a block lies in: blocks of one access in one granule are one piece. -/
def Block.granule : Block → Nat
  | .pad _ off _ => off / padGranule
  | .part unit p _ => p.va / unit

/-- The first address of a block in its space. -/
def Block.start : Block → Nat
  | .pad _ off _ => off
  | .part _ p _ => p.va

/-- A block performed: written, or read in its place. -/
def State.putBlock (stamp : Nat) (s : State) : Block → State
  | .pad t off b => s.writeScratch t off b stamp
  | .part _ p b => s.writePart p b stamp
def State.readBlock (s : State) : Block → List Byte
  | .pad t off b => s.readScratch t off b.length
  | .part _ p _ => s.readPart p

/-- Whether the blocks of every access lie in one granule: each access is then one piece. -/
def onePiece (accs : List (List Block)) : Bool := accs.all fun ks => ks.all fun k => ks.all fun j => j.granule == k.granule

/-- Whether a block of an access is performed apart. Of an access with several pieces each is performed when it will: the choice is free
(notes/assumptions/4). -/
def Block.late (free : Nat) (ks : List Block) (k : Block) : Bool :=
  ks.any (fun j => j.granule != k.granule) && natBit (Config.freeNat free) k.granule

/-- The blocks of accesses that are performed at once, and those that are performed apart. -/
def splitBlocks (free : Nat) (accs : List (List Block)) : List Block × List Block :=
  (indexed 0 accs).foldl (fun r ia =>
    (r.1 ++ ia.2.filter (!Block.late (free + ia.1) ia.2 ·), r.2 ++ ia.2.filter (Block.late (free + ia.1) ia.2))) ([], [])

/-- An access of the current stream. -/
def Apart.of (c : Cur) (stamp : Nat) : Apart :=
  { id := 0, team := c.team, grp := c.grp, stream := c.stream, store := none, piece := none, stamp := stamp, blocks := [] }

/-- What is still to come of an access, with a turn of its own. -/
def State.enterApart (x : Apart) (s : State) : State :=
  { s with apart := s.apart ++ [{ x with id := s.nextId }], nextId := s.nextId + 1, agenda := s.agenda ++ [.apart s.nextId] }

/-- The blocks of some accesses performed (R253), all at once where each access is one piece, or where the write is to be `whole`; else some of them now,
and the others in a turn of their own. The Boolean says that some are still to come. -/
def State.putApart (whole : Bool) (x : Apart) (accs : List (List Block)) (s : State) : State × Bool :=
  if whole || onePiece accs then (accs.flatten.foldl (State.putBlock x.stamp) s, false)
  else
    let r := splitBlocks s.free accs
    let s := r.1.foldl (State.putBlock x.stamp) { s with free := s.free + accs.length }
    if r.2.isEmpty then (s, false)
    else (s.enterApart { x with blocks := r.2 }, true)

/-- A read of one access: its lane, its first address and its blocks, whose bytes only tell their lengths. -/
structure ReadAt where
  lane   : Nat
  ea     : Nat
  blocks : List Block

/-- The pieces of reads that are performed apart, each with its lane and its offset (R253). -/
def lateReads (free : Nat) (accs : List ReadAt) : List (Nat × Nat × Block) :=
  (indexed 0 accs).flatMap fun ia =>
    (ia.2.blocks.filter (Block.late (free + ia.1) ia.2.blocks)).map fun k => (ia.2.lane, k.start - ia.2.ea, k)

/-- The reads of some accesses whose pieces are performed apart (R253): none where each access is one piece, or where the read is to be `whole`. The number
of pieces still to come. -/
def State.readsApart (whole : Bool) (x : Apart) (accs : List ReadAt) (s : State) : State × Nat :=
  if whole || onePiece (accs.map (·.blocks)) then (s, 0)
  else
    let late := lateReads s.free accs
    let s := { s with free := s.free + accs.length }
    if late.isEmpty then (s, 0) else (s.enterApart { x with reads := late }, late.length)

/-- The read of a hit. -/
def Hit.readAt (h : Hit) (t : Nat) : ReadAt := { lane := h.req.lane, ea := h.req.ea.toNat, blocks := h.blocks t (List.replicate h.req.size 0) }

/-! ### Accesses by virtual address outside the threads' checks -/

/-- The agent of the Dome for a team's context: no L1, no core's TLB, and a non-owner of every page (R329). -/
def Agent.dome (a : Agent) : Agent := { a with core := none, filler := none, l1 := false }
/-- The agent of a team's engines (R329): the core's own, translated by its quad. -/
def Agent.engine (a : Agent) : Agent := { a with l1 := false }

/-- Bytes at a virtual address, if every one is at hand and readable. -/
def State.vread (a : Agent) (va len : Nat) (s : State) : Option (List Byte) × State :=
  match s.locate a va len false with
  | (.parts ps, s) =>
    if ps.all fun p => p.permits .read && p.open .read s && !p.isAbsent && !p.isHeld && !p.isPeer then (some (s.readParts ps), s)
    else (none, s)
  | (.fault _, s) => (none, s)

/-- Bytes written at a virtual address, if every one is at hand and writable. -/
def State.vwrite (a : Agent) (va : Nat) (b : List Byte) (stamp : Nat) (s : State) : Option State :=
  match s.locate a va b.length true with
  | (.parts ps, s) =>
    if ps.all fun p => p.permits .write && p.open .write s && !p.isAbsent && !p.isHeld && !p.isPeer then some (s.writeParts ps b stamp)
    else none
  | (.fault _, _) => none

/-- The agent of a context's accesses that no team makes: the command processor's, and the canals' (R329). -/
def Context.agent (C : Context) : Agent :=
  { ctx := C.id, asid := C.asid, root := C.root, heapLen := C.heapLen, core := none, filler := none, fuse := [], l1 := false }

/-- A write by the Dome that may have to wait for a page or for the host: true says so (R326, R336). -/
def State.tryWrite (a : Agent) (va : Nat) (b : List Byte) (s : State) : Bool × State :=
  match s.locate a va b.length true with
  | (.fault _, s) => (false, s)
  | (.parts ps, s) =>
    if ps.any fun p => p.isAbsent || p.isHeld then (true, s.reportParts a .write ps)
    else (false, if ps.all fun p => p.permits .write && p.open .write s && !p.isPeer then (s.dropLines ps).writeParts ps b 0 else s)

/-- Writes of the command processor taken up in order: behind one that waits, the later ones of its context wait too (R229, R326). -/
def domeWrites : List (Nat × Nat × List Byte) → List (Nat × Nat × List Byte) → State → List (Nat × Nat × List Byte) × State
  | [], stuck, s => (stuck, s)
  | w :: ws, stuck, s =>
    match s.context? w.1 with
    | none => domeWrites ws stuck s
    | some C =>
      if stuck.any fun x => x.1 == w.1 then domeWrites ws (stuck ++ [w]) s
      else
        match s.tryWrite C.agent w.2.1 w.2.2 with
        | (true, s) => domeWrites ws (stuck ++ [w]) s
        | (false, s) => domeWrites ws stuck s

/-- The writes that wait, taken up again. -/
def State.flushWrites (s : State) : State :=
  let r := domeWrites s.dome.writes [] s
  r.2.modDome fun d => { d with writes := r.1 }

/-- A write of the command processor for a context. -/
def State.domeWrite (C : Context) (va : Nat) (b : List Byte) (s : State) : State :=
  (s.modDome fun d => { d with writes := d.writes ++ [(C.id, va, b)] }).flushWrites

/-- Bytes of global memory read by a word other than by a lane's or scalar load, with the checks of R319 and R387: no permission and no translation
trap, a page that is not resident stalls the stream. -/
def readGlobal (a : Agent) (va len : Nat) (k : Stall) : M (List Byte) := do
  let ad : Word := BitVec.ofNat 64 va
  match (← get).locate a va len false with
  | (.fault m, s) => set s; trap cAddrFault 0 ad (if m then 0x100 else 0)
  | (.parts ps, s) =>
    set s
    require (ps.all fun p => p.permits .read && !p.isPeer) cAccessFault 0 ad
    require (ps.all fun p => p.open .read s) cAccessFault 0 ad 0x200
    if ps.any fun p => p.isAbsent || p.isHeld then
      upd fun s => s.reportParts a .read ps
      stallOn k
    match s.partsPoison ps with
    | some x => trap cEcc 0 (BitVec.ofNat 64 x.1) (BitVec.ofNat 64 x.2)
    | none => return s.readParts ps

/-- An L1 without the lines of shared and host pages (R332). -/
def Core.dropShared (c : Core) : Core := { c with l1 := c.l1.filter fun l => l.share == 1 && !l.host }

/-- An acquire's effect on the L1 lines of shared and host pages (R332): at dev or wider in every slice of the core's L1, at clu when the
cluster is not fused. -/
def State.acquire (s : State) (a : Agent) (scope : Nat) : State :=
  if scope ≥ 3 then a.fuse.foldl (fun s c => s.modCore c Core.dropShared) s
  else if scope = 2 && a.fuse.length ≤ 1 then a.fuse.foldl (fun s c => s.modCore c Core.dropShared) s
  else s

/-- An acquire by a stream of a team (R264). -/
def State.acquireFor (s : State) (t scope : Nat) : State :=
  match s.agentOf? t with
  | some a => s.acquire a scope
  | none => s

/-- An acquire by the current stream. -/
def acquireHere (scope : Nat) : M Unit := upd fun s =>
  match s.cur with
  | some c => s.acquireFor c.team scope
  | none => s

/-- Whether a stream's group has stores on their way to other devices that are not acknowledged yet (R250, R264). -/
def State.unacked (s : State) (t g : Nat) : Bool :=
  s.remotes.any fun r => r.team == t && r.grp == g && r.cmd.isNone && r.load.isNone && r.store.isNone && r.sreg.isNone

/-- The same of any scalar stream of a team. -/
def State.teamUnacked (s : State) (t : Nat) : Bool :=
  s.remotes.any fun r => r.team == t && r.cmd.isNone && r.load.isNone && r.store.isNone && r.sreg.isNone

/-- A release by a scalar stream (R264): it waits until the stream's earlier accesses are performed. -/
def releaseHere : M Unit := do
  let (c, _, _) ← here
  if (← get).unacked c.team c.grp then stallOn .fence

/-- Whether lanes of a group have accesses that are not performed yet: pieces that are logged, or that other devices have not answered. The requests of a
word that blocks for its answers are its own. -/
def State.laneBusy (s : State) (t g core : Nat) (lanes : List Nat) : Bool :=
  let own (id : Nat) : Bool := (s.group? t g).any fun G => G.loads.any fun l => l.id == id && l.blocks
  ((s.cores[core]?).any fun c => c.oplog.any fun e => e.team == t && e.grp == g && lanes.contains e.lane)
    || s.remotes.any fun r =>
      r.team == t && r.grp == g && r.cmd.isNone && r.sreg.isNone && lanes.contains r.lane && (r.store.isSome || r.load.any fun x => !own x.1)

/-- The scope at which an ordered access acts: one that reaches another device acts at pod or wider (R250). -/
def effScope (hits : List Hit) (scope : Nat) : Nat := if hits.any Hit.remote then max scope 4 else scope

/-! ### Remote requests (R250, R341, R342) -/

/-- The port that an agent's traffic to a device leaves by (R342): a port that is down takes no part (R360). -/
def State.portTo? (s : State) (core dev : Nat) : Option Nat :=
  ((s.dome.routes.find? fun r => r.1 == dev).map fun r => r.2.filter fun p => (s.dome.canals[p]?).any (·.up)).bind fun ps =>
    if ps.isEmpty then none else ps[(core + dev) % ps.length]?

/-- The 64-byte beats of a message with a payload (R341). -/
def beats (n : Nat) : Nat := 1 + (n + 63) / 64

/-- The beats of a channel's pool that only class 0 may use (R302, R341). -/
def State.reserved (s : State) (vc : Nat) : Nat := (vcPools.getD vc 0) * natBits s.dome.cls0rsv.toNat 11 8 / 8

/-- What waits in a canal sent in order, as far as the credits of its channel reach; nothing passes an earlier message of its channel, but for class 0,
which passes other classes as far as the beats reserved for it go (R302, R341). `stopped` are the channels, and the classes, of what could not go. -/
def sendWaiting (reserve : Nat → Nat) : List Nat → List (Nat × Bool) → List (Nat × Nat × Bool × Msg) →
    List Nat × List (Nat × Nat × Bool × Msg) × List Msg
  | cr, _, [] => (cr, [], [])
  | cr, stopped, (vc, n, zero, m) :: rest =>
    if stopped.any (fun x => x.1 == vc && (x.2 || !zero)) || decide (cr.getD vc 0 < n + if zero then 0 else reserve vc) then
      let r := sendWaiting reserve cr ((vc, zero) :: stopped) rest
      (r.1, (vc, n, zero, m) :: r.2.1, r.2.2)
    else
      let r := sendWaiting reserve (cr.set vc (cr.getD vc 0 - n)) stopped rest
      (r.1, r.2.1, m :: r.2.2)

/-- A canal sends what its credits let it. -/
def State.flush (port : Nat) (s : State) : State :=
  match s.dome.canals[port]? with
  | some c =>
    if !c.up then s
    else
      let r := sendWaiting s.reserved c.credits [] c.waiting
      { s.modDome fun d => { d with canals := d.canals.set port { c with credits := r.1, waiting := r.2.1 } } with outbox := s.outbox ++ r.2.2 }
  | none => s

/-- A message given to a canal's channel. -/
def State.sendOn (s : State) (port vc bytes : Nat) (zero : Bool) (m : Msg) : State :=
  (s.modDome fun d => { d with canals := modifyAt (fun c => { c with waiting := c.waiting ++ [(vc, beats bytes, zero, m)] }) port d.canals }).flush
    port

/-- The bytes a request carries (R341). -/
def requestBytes : FabricOp → Nat
  | .read _ => 0
  | .write b => b.length
  | .atom _ _ _ _ => 16
  | .cas _ _ _ => 16
  | .radd adds _ => (adds.map List.length).foldl (· + ·) 0
  | .add _ b => b.length
  | .signal _ => 8

/-- A request of a team sent to a device of the pod: it takes the route of R342 and its response is awaited; with no route up, it meets a link
fault (R360). -/
def State.sendRemote (s : State) (r : Remote) (op : FabricOp) : State :=
  let tag := ((s.contextOf? r.team).bind (·.podTag)).getD 0
  let cmd := r.cmd.bind fun id => (s.team? r.team).bind fun T => T.cmds.find? fun c => c.id == id
  let core := (cmd.map (·.core)).getD (((s.team? r.team).map (·.core)).getD 0)
  let zero := ((s.launchOf? r.team).map (·.cls)) == some 0
  let id := s.nextId
  let s' (port : Nat) : State := { s with remotes := s.remotes ++ [{ r with id := id, port := port }], nextId := id + 1 }
  match s.portTo? core r.dev with
  | some port => (s' port).sendOn port 0 (requestBytes op) zero (Msg.guard ((s.contextOf? r.team).any (·.conf)) (.request port r.dev tag r.off op id zero))
  | none => (s' 24).post (.fabricResponse { id := id, nack := some 4, data := [] })

/-- An empty record of a remote access. -/
def Remote.of (t g dev off len : Nat) (lpc : BitVec 32) : Remote :=
  { id := 0, team := t, grp := g, cmd := none, load := none, store := none, sreg := none, dev := dev, off := off, len := len, lpc := lpc
    lane := 0, port := 0, rd := false, acq := none }

end Sys2Proof.Machine
end

