-- ==== Sys2Proof/Machine/Fetch.lean ====
section
/-! DEFINITION. Fetching the instruction words of the scalar and lane streams (R51, R319, R430). -/

namespace Sys2Proof.Machine

/-- The scalar section that the current stream runs in: its base and size (R227, R378). -/
def scalarSection : M (Nat × Nat) := do
  if ← inHandler then
    let C ← hereContext
    match C.handler with
    | some h => return (h.base, h.size)
    | none => noStream
  else
    let L ← hereLaunch
    return (L.sbase, L.ssize)

/-- Bytes of code (R319): translated, with X required, and not through the L1. -/
def fetchBytes (va len : Nat) : M (List Byte) := do
  let a := { ← hereAgent with l1 := false }
  match (← get).locate a va len false with
  | (.fault m, s) => set s; trap cAddrFault 0 (BitVec.ofNat 64 va) (if m then 0x100 else 0)
  | (.parts ps, s) =>
    set s
    require (ps.all fun p => p.permits .fetch && !p.isPeer) cAccessFault 0 (BitVec.ofNat 64 va)
    require (ps.all fun p => p.open .fetch s) cAccessFault 0 (BitVec.ofNat 64 va) 0x200
    if ps.any fun p => p.isAbsent || p.isHeld then
      upd fun s => s.reportParts a .fetch ps
      stallOn .fetch
    match s.partsPoison ps with
    | some x => trap cEcc 0 (BitVec.ofNat 64 x.1) (BitVec.ofNat 64 x.2)
    | none => return s.readParts ps

/-- The next scalar instruction (R46, R430): a word outside the section traps with its address, and the second word of an SX instruction is read only
inside it. A word that decodes to nothing is the reserved word, which raises ILLEGAL_OP. -/
def fetchScalar : M Instr := do
  let r ← hereScalar
  let (base, size) ← scalarSection
  let pc := r.pc.toNat
  require (pc % 4 == 0 && decide (base ≤ pc) && decide (pc + 4 ≤ base + size)) cAddrFault 0 r.pc
  let w := BitVec.ofNat 32 (ofBytes (← fetchBytes pc 4))
  if isWide w then
    require (decide (pc + 8 ≤ base + size)) cAddrFault 0 (r.pc + 4)
    let v := BitVec.ofNat 32 (ofBytes (← fetchBytes (pc + 4) 4))
    return (decodeScalar w v).toOption.getD .reservedScalarWord
  else
    return (decodeScalar w 0).toOption.getD .reservedScalarWord

/-- The clause header at a lane word address, where it holds a legal one and the clause lies inside the lane section (R52). -/
def headerAt (addr : Nat) : M (Option Header) := do
  let L ← hereLaunch
  if addr ≥ L.lsize then return none
  match decodeHeader (BitVec.ofNat 96 (ofBytes (← fetchBytes (L.lbase + 12 * addr) 12))) with
  | some h => return if addr + h.len < L.lsize then some h else none
  | none => return none

/-- The next lane word of the clause in progress (R51, R53, R57). -/
def fetchLane : M Instr := do
  let (_, _, G) ← here
  let L ← hereLaunch
  match G.clause with
  | none => noStream
  | some c =>
    let w := BitVec.ofNat 96 (ofBytes (← fetchBytes (L.lbase + 12 * c.next) 12))
    return (decodeLane w).toOption.getD (.reservedLaneWord w)

end Sys2Proof.Machine
end

