-- ==== Sys2Proof/Machine/Forms.lean ====
section
/-! DEFINITION. The admitted fields of every lane word, as data (R47, R50, R102, R148, R153, R169, R197–R203, R211). -/

namespace Sys2Proof

open Machine

/-- What a register field of a lane word names (R47). -/
inductive Use where
  | zero | vreg | src | pred | acc | tile | onum
deriving DecidableEq, Repr

/-- What a form admits in each field: types, registers (with how many consecutive ones VD, VA and VB name), modifier values, rounding modes, and
the immediate bits that may be set; `full` immediates have no k-select. -/
structure Form where
  tys   : List Nat
  vd    : Use := .zero
  va    : Use := .zero
  vb    : Use := .zero
  vc    : Use := .zero
  mds   : List Nat := [0]
  pw    : Bool := false
  rms   : List Nat := [0]
  imm   : Nat := 0
  full  : Bool := false
  spanD : Nat := 1
  spanA : Nat := 1
  spanB : Nat := 1
  extra : Bool := true
deriving DecidableEq, Repr

/-- The integer types (R102). -/
def tysI : List Nat := [0, 1, 2, 3, 4, 5, 6, 7, 14, 15]
/-- The floating types (R102). -/
def tysF : List Nat := [8, 9, 10, 11]
/-- Every rounding mode. -/
def rmsAll : List Nat := [0, 1, 2, 3]

/-- The k-select bit of a source field (R47): bits 31, 30 and 29 for VA, VB and VC. -/
def kbit (u : Use) (bit : Nat) : Nat := if u = .src then 2 ^ bit else 0

/-- Whether a register field holds an admitted value (R42, R47, R152, R195). -/
def fieldOk (V A T : Nat) (u : Use) (span x : Nat) (ksel : Bool) : Bool :=
  match u with
  | .zero => x == 0
  | .vreg => decide (x + span ≤ V)
  | .src => if ksel then decide (x < 8) else decide (x + span ≤ V)
  | .pred => decide (x < 96)
  | .acc => decide (x < A)
  | .tile => decide (x < T)
  | .onum => decide (x < 16)

/-- The immediate bits that the form lets be set. -/
def Form.immMask (f : Form) : Nat :=
  if f.full then 2 ^ 32 - 1 else f.imm + kbit f.va 31 + kbit f.vb 30 + kbit f.vc 29

/-- Whether every field holds an admitted value (R47): the check that raises ILLEGAL_OP. -/
def Form.legal (f : Form) (w : LaneWord) (V A T : Nat) : Bool :=
  f.tys.contains w.ty.toNat
    && (if f.pw && w.ty.toNat == 16 then decide (w.md.toNat < 16) else f.mds.contains w.md.toNat)
    && f.rms.contains w.rm.toNat
    && fieldOk V A T f.vd f.spanD w.vd.toNat false
    && fieldOk V A T f.va f.spanA w.va.toNat (!f.full && w.kA)
    && fieldOk V A T f.vb f.spanB w.vb.toNat (!f.full && w.kB)
    && fieldOk V A T f.vc 1 w.vc.toNat (!f.full && w.kC)
    && (w.imm.toNat &&& f.immMask == w.imm.toNat)
    && f.extra

/-- The guard field names p0 to p95 or "always" with negate 0 (R47). -/
def LaneWord.guardOk (w : LaneWord) : Bool :=
  decide (w.guard.toNat < 96) || (w.guard.toNat == 127 && !w.neg)

/-- Bits of the immediate. -/
def LaneWord.bits (w : LaneWord) (hi lo : Nat) : Nat := natBits w.imm.toNat hi lo

/-- The element type of TY and PW. -/
def LaneWord.ety (w : LaneWord) : ETy := ETy.get w.ty.toNat w.md.toNat

/-- The types of CVT on either side (R118). -/
def tysCvt : List Nat := [0, 1, 2, 3, 4, 5, 6, 7, 8, 9, 10, 11, 14, 15, 16]

/-- The part rule of R118: the index `p` selects a part of the longer register. -/
def partOk (s d : ETy) (p : Nat) : Bool := decide (p * min s.subn d.subn < max s.subn d.subn)

/-- The modifier values that hold a scope in [36:34] alone (R169). -/
def mdsScope : List Nat := [0, 1, 2, 3, 4, 5]
/-- The modifier values of LD and ST: N in [38:37], and a scope only with an ordering (R169). -/
def mdsLd (ordered : Bool) : List Nat :=
  [0, 8, 16, 24].flatMap fun n => if ordered then mdsScope.map (n + ·) else [n]

/-- How many registers an LD or ST moves (R166): `.xN` requires a 64-bit type. -/
def LaneWord.count (w : LaneWord) : Nat := 2 ^ (w.md.toNat / 8)

def fIadd2 : Form := { tys := tysI, vd := .vreg, va := .src, vb := .src }
def fIaddi : Form := { tys := tysI, vd := .vreg, va := .src, mds := [1], imm := 0xFFFF }
def fI1 : Form := { tys := tysI, vd := .vreg, va := .src }
def fI3 : Form := { tys := tysI, vd := .vreg, va := .src, vb := .src, vc := .src }
def fTern : Form := { fI3 with imm := 0xFF }
def fShiftI : Form := { tys := tysI, vd := .vreg, va := .src, mds := [1], imm := 0x3F }
def fMov : Form := { tys := List.range 16, vd := .vreg, va := .src }
def fMovi : Form := { tys := List.range 16, vd := .vreg, full := true }
def fSel : Form := { tys := List.range 16, vd := .vreg, va := .src, vb := .src, vc := .pred }

/-- The special-register codes LGET reads (R44). -/
def lgetCodes : List Nat := List.range 20

/-- LGET (R44, R110): TY and PW belong to SUBN; every other code has TY 7 and a zero modifier. -/
def fLget (w : LaneWord) : Form :=
  if w.bits 7 0 = 1 then { tys := List.range 17, vd := .vreg, pw := true, imm := 0xFF }
  else { tys := [7], vd := .vreg, imm := 0xFF, extra := lgetCodes.contains (w.bits 7 0) }

def fF2r : Form := { tys := tysF, vd := .vreg, va := .src, vb := .src, rms := rmsAll }
def fF2 : Form := { tys := tysF, vd := .vreg, va := .src, vb := .src }
def fF1r : Form := { tys := tysF, vd := .vreg, va := .src, rms := rmsAll }
def fF1 : Form := { tys := tysF, vd := .vreg, va := .src }
def fF3r : Form := { fF2r with vc := .src }
def fTrans : Form := { tys := [10], vd := .vreg, va := .src }
def fTransR : Form := { fTrans with rms := rmsAll }

/-- CVT (R118). -/
def fCvt (w : LaneWord) : Form :=
  let st := w.bits 12 8
  let sw := w.bits 20 16
  { tys := tysCvt, vd := .vreg, va := .src, pw := true, rms := rmsAll, imm := 0x1F1F1F
    extra := tysCvt.contains st && (if st = 16 then decide (sw < 16) else sw == 0)
      && partOk (ETy.get st sw) w.ety (w.bits 4 0) }

/-- QNT (R119); a table with .d8 is refused. -/
def fQnt (w : LaneWord) : Form :=
  let st := w.bits 12 8
  { tys := [0, 12, 13, 14, 15], vd := .vreg, va := .src, vb := .src, imm := 0x3FF1F
    extra := [8, 9, 10].contains st && partOk (ETy.get st 0) w.ety (w.bits 4 0)
      && (w.bits 16 16 == 1 || w.bits 15 13 == 0) && !(w.bits 16 16 == 1 && w.ty.toNat == 13) }

/-- DQNT (R120); a table requires .f32 and RM 0, and R26 fixes none for .d8. -/
def fDqnt (w : LaneWord) : Form :=
  let st := w.bits 12 8
  { tys := [8, 9, 10], vd := .vreg, va := .src, vb := .src, rms := rmsAll, imm := 0x3FF1F
    extra := [0, 12, 13, 14, 15].contains st && partOk (ETy.get st 0) w.ety (w.bits 4 0)
      && (if w.bits 16 16 = 1 then w.ty.toNat == 10 && w.rm == 0 && st != 13 else w.bits 15 13 == 0) }

def fBs : Form := { tys := [16], vd := .vreg, va := .src, vb := .src, pw := true, imm := 1 }
def fBfx : Form := { tys := [6, 7], vd := .vreg, va := .src, vb := .src }
def fBfxi : Form := { tys := [6, 7], vd := .vreg, va := .src, mds := [1], imm := 0x7F3F }
def fCrc : Form := { tys := [1, 3, 5, 7], vd := .vreg, va := .src, vb := .src }
def fMix : Form := { tys := [5, 7], vd := .vreg, va := .src, vb := .src }
def fStr2 : Form := { tys := [1], vd := .vreg, va := .src, vb := .src }
def fStr1 : Form := { tys := [1], vd := .vreg, va := .src }
def fRng : Form := { tys := [5, 10], vd := .vreg }

/-- CMP and FCMP (R140): an element index below SUBN. -/
def fCmp (tys : List Nat) (w : LaneWord) : Form :=
  { tys := tys, vd := .pred, va := .src, vb := .src, imm := 0x3F
    extra := decide (w.bits 5 0 < w.ety.subn) }

def fPlog2 : Form := { tys := [0], vd := .pred, va := .pred, vb := .pred }
def fPlog1 : Form := { tys := [0], vd := .pred, va := .pred }
def fPset : Form := { tys := [0], vd := .pred, imm := 1 }
def fPget : Form := { tys := [7], vd := .vreg, imm := 1 }
def fPput : Form := { tys := [7], va := .src, imm := 1 }
def fIf : Form := { tys := [0], va := .pred, imm := 0x100 }
def fNone : Form := { tys := [0] }
/-- BRK and CONT (R136): d at most 252. -/
def fBrk (w : LaneWord) : Form := { tys := [0], va := .pred, imm := 0x1FF, extra := decide (w.bits 7 0 ≤ 252) }
def fEndloop : Form := { tys := [0], full := true }
def fPollThr (w : LaneWord) : Form :=
  { tys := [0], vd := .pred, va := .pred, mds := [0, 1], imm := 0x7F, extra := decide (w.bits 6 0 ≤ 64) }
def fPollV : Form := { tys := [7], vd := .vreg, va := .pred, mds := [0, 1] }
def fKeyg : Form := { tys := [7], vd := .vreg, va := .src, mds := [0, 1] }
def fLead : Form := { tys := [0], vd := .pred, mds := [0, 1] }
def fLpush : Form := { tys := [7], va := .src }
def fXlnGet : Form := { tys := List.range 17, vd := .vreg, va := .src, vb := .src, pw := true }
def fXlnM : Form := { tys := List.range 17, vd := .vreg, va := .src, pw := true, imm := 0xFFFF }
/-- BCST (R145): a lane below W. -/
def fBcst (W : Nat) (w : LaneWord) : Form :=
  { tys := [7], vd := .vreg, va := .src, imm := 0x3F, extra := decide (w.bits 5 0 < W) }
/-- GRED and GSCAN (R146, R148): RM with float types only, and no bitwise operation on them. -/
def fGred (mds : List Nat) (bitwise : Bool) (w : LaneWord) : Form :=
  if tysF.contains w.ty.toNat then
    { tys := tysF, vd := .vreg, va := .src, mds := mds, rms := rmsAll, extra := !bitwise }
  else { tys := tysI, vd := .vreg, va := .src, mds := mds }
def fGsync : Form := { tys := [0], va := .src }

def fAcc1 : Form := { tys := [0], vd := .acc }
def fAcc2 : Form := { tys := [0], vd := .acc, va := .acc }
def fAadd : Form := { tys := [0, 1, 2, 3, 4, 5, 6, 7, 8, 9, 10, 11, 14, 15], vd := .acc, va := .src }
def fAmac : Form := { tys := [0, 1, 2, 3, 4, 5, 6, 7, 8, 9, 10, 14, 15], vd := .acc, va := .src, vb := .src }
/-- ADOT (R159). -/
def fAdot (w : LaneWord) : Form :=
  { tys := [0, 1, 12, 13, 14, 15], vd := .acc, va := .src, vb := .src, vc := .src, imm := 0x21F1F
    extra := [0, 1, 12, 13, 14, 15].contains (w.bits 12 8)
      && partOk w.ety (ETy.get (w.bits 12 8) 0) (w.bits 4 0) }
/-- ARND (R160): an element below SUBN. -/
def fArnd (w : LaneWord) : Form :=
  { tys := tysF, vd := .vreg, va := .acc, rms := rmsAll, imm := 0x1F, extra := decide (w.bits 4 0 < w.ety.subn) }
def fArndDiv (w : LaneWord) : Form := { fArnd w with vb := .src, mds := [1] }
def fAmem : Form := { tys := [0], vd := .acc, va := .src, mds := [0, 1], imm := 0xFFFF }
/-- ASEG (R162): indices 0 to 10. -/
def fAseg (w : LaneWord) : Form := { tys := [7], vd := .vreg, va := .acc, imm := 0xF, extra := decide (w.bits 3 0 ≤ 10) }
def fAstat : Form := { tys := [7], vd := .vreg, va := .acc }
def fAgeti (w : LaneWord) : Form :=
  { tys := [6, 7], vd := .vreg, va := .acc, vc := if w.bits 0 0 = 1 then .pred else .zero, imm := 1 }

/-- Whether LD or ST with N > 1 has a 64-bit type (R166). -/
def wideOk (w : LaneWord) : Bool := w.count == 1 || [6, 7, 11].contains w.ty.toNat
/-- LD and LDS (R169). -/
def fLd (w : LaneWord) : Form :=
  { tys := List.range 12, vd := .vreg, va := .src, mds := mdsLd (w.rm == 1), rms := [0, 1], imm := 0xFFFFFF
    spanD := w.count, extra := wideOk w }
/-- ST and STS (R169): VB may be a clause constant only with N = 1. -/
def fSt (w : LaneWord) : Form :=
  { tys := List.range 12, va := .src, vb := if w.count = 1 then .src else .vreg, mds := mdsLd (w.rm == 2), rms := [0, 2]
    imm := 0xFFFFFF, spanB := w.count, extra := wideOk w }
/-- A scratchpad atomic requires scope grp, team or clu (R171). -/
def atomSpaceOk (w : LaneWord) : Bool := w.bits 24 24 == 0 || decide (w.md.toNat ≤ 2)
def fAtom (w : LaneWord) : Form :=
  { tys := [4, 5, 6, 7], vd := .vreg, va := .src, vb := .src, mds := mdsScope, rms := rmsAll, imm := 0x1FFFFFF, extra := atomSpaceOk w }
def fCas (w : LaneWord) : Form := { fAtom w with vc := .src }
def fRadd : Form :=
  { tys := [0, 1, 2, 3, 4, 5, 6, 7, 8, 9, 10, 11, 14, 15], va := .src, vb := .src, mds := mdsScope, rms := [0, 2], imm := 0xFFFFFF }
def fRaddAcc : Form := { tys := [0], va := .src, vb := .acc, mds := mdsScope, rms := [0, 2], imm := 0xFFFFFF }
def fFence : Form := { tys := [0], mds := mdsScope }
def fWaita : Form := { tys := [7], vd := .vreg, va := .src, vb := .src, mds := mdsScope, imm := 0x1000007 }
def fBara : Form := { tys := [5], vd := .vreg, va := .src, imm := 0xF }
def fCbara : Form := { tys := [5], vd := .vreg, va := .src, imm := 0x3 }
def fBarw : Form := { tys := [5], va := .src, imm := 0xF }
def fCbarw : Form := { tys := [5], va := .src, imm := 0x3 }
def fSwait : Form := { tys := [0], va := .src, vb := .src }

/-- The K of the pairs MMA admits (R196). -/
def mmaK (ta tb : Nat) : Option Nat :=
  match ta, tb with
  | 10, 10 => some 16
  | 9, 9 => some 32
  | 9, 13 => some 32
  | 0, 0 => some 64
  | 0, 13 => some 64
  | 12, 13 => some 128
  | 12, 12 => some 128
  | _, _ => none

/-- Whether the A operand of a type is quantised (R197). -/
def quantA (ta : Nat) : Bool := ta == 0 || ta == 12

/-- MMA (R197): companding fields only with a quantised A; VC names its scales. -/
def fMmaBase (w : LaneWord) : Form :=
  { tys := [0, 9, 10, 12], vd := .tile, va := .vreg, spanA := 8, vb := .onum, vc := if quantA w.ty.toNat then .vreg else .zero
    mds := if quantA w.ty.toNat then (List.range 32).filter (fun m => natBit m 1 || m < 4) else [0, 1]
    extra := (mmaK w.ty.toNat (w.bits 28 24)).isSome }
def fMma (w : LaneWord) : Form := { fMmaBase w with imm := 0x1FFFFFFF }
def fMmaK (w : LaneWord) : Form := { fMmaBase w with imm := 0x9F000007 }
def fMwaitK : Form := { tys := [0], va := .src, imm := 0, extra := true }
def fMzero : Form := { tys := [0], vd := .tile }
/-- MST (R203): [36:34] scope, nonzero without `.rel` only for the add form. -/
def fMst (fn : Nat) (w : LaneWord) : Form :=
  { tys := if fn = 0 then tysF else [0], va := .src, vb := .tile
    mds := if fn = 2 || w.rm == 2 then mdsScope else [0], rms := [0, 2]
    imm := if fn = 0 then 0x7FFFFFF else 0x1FFFFFF, extra := fn != 2 || w.bits 24 24 == 0 }
def fVpj : Form := { tys := [0], va := .src, vb := .src }

/-- The fields and the form of a lane word; none for what is no long word. `W` is the group's width (R145). -/
def laneForm (W : Nat) : Instr → Option (Form × LaneWord)
  | .laneAdd w => some (fIadd2, w)
  | .laneAddi w => some (fIaddi, w)
  | .laneSub w => some (fIadd2, w)
  | .adds w => some (fIadd2, w)
  | .subs w => some (fIadd2, w)
  | .neg w => some (fI1, w)
  | .abs w => some (fI1, w)
  | .laneMul w => some (fIadd2, w)
  | .laneMulh w => some (fIadd2, w)
  | .muls w => some (fIadd2, w)
  | .mad w => some (fI3, w)
  | .mads w => some (fI3, w)
  | .laneDiv w => some (fIadd2, w)
  | .laneRem w => some (fIadd2, w)
  | .laneMin w => some (fIadd2, w)
  | .laneMax w => some (fIadd2, w)
  | .clamp w => some (fI3, w)
  | .laneAnd w => some (fIadd2, w)
  | .laneOr w => some (fIadd2, w)
  | .laneXor w => some (fIadd2, w)
  | .andn w => some (fIadd2, w)
  | .not w => some (fI1, w)
  | .tern w => some (fTern, w)
  | .laneShl w => some (fIadd2, w)
  | .laneShr w => some (fIadd2, w)
  | .laneSar w => some (fIadd2, w)
  | .rol w => some (fIadd2, w)
  | .ror w => some (fIadd2, w)
  | .laneShli w => some (fShiftI, w)
  | .laneShri w => some (fShiftI, w)
  | .laneSari w => some (fShiftI, w)
  | .roli w => some (fShiftI, w)
  | .rori w => some (fShiftI, w)
  | .mov w => some (fMov, w)
  | .laneMovi w => some (fMovi, w)
  | .laneSel w => some (fSel, w)
  | .lget w => some (fLget w, w)
  | .fadd w => some (fF2r, w)
  | .fsub w => some (fF2r, w)
  | .fmul w => some (fF2r, w)
  | .fdiv w => some (fF2r, w)
  | .fsqrt w => some (fF1r, w)
  | .fmin w => some (fF2, w)
  | .fmax w => some (fF2, w)
  | .fabs w => some (fF1, w)
  | .fneg w => some (fF1, w)
  | .cpsgn w => some (fF2, w)
  | .fma w => some (fF3r, w)
  | .fms w => some (fF3r, w)
  | .fnma w => some (fF3r, w)
  | .ex2f w => some (fTrans, w)
  | .lg2 w => some (fTransR, w)
  | .rcp w => some (fTransR, w)
  | .rsq w => some (fTransR, w)
  | .sinp w => some (fTrans, w)
  | .cosp w => some (fTrans, w)
  | .rndi w => some (fF1r, w)
  | .expi w => some (fF2r, w)
  | .cvt w => some (fCvt w, w)
  | .qnt w => some (fQnt w, w)
  | .dqnt w => some (fDqnt w, w)
  | .bsAdd w => some (fBs, w)
  | .bsSub w => some (fBs, w)
  | .bsAdds w => some (fBs, w)
  | .bsSubs w => some (fBs, w)
  | .bsMul w => some (fBs, w)
  | .bsMuls w => some (fBs, w)
  | .bsMin w => some (fBs, w)
  | .bsMax w => some (fBs, w)
  | .bscmp _ w => some (fBs, w)
  | .lanePopc w => some (fI1, w)
  | .laneClz w => some (fI1, w)
  | .laneCtz w => some (fI1, w)
  | .laneBrev w => some (fI1, w)
  | .laneBfx w => some (fBfx, w)
  | .laneBfi w => some (fBfx, w)
  | .bfxi w => some (fBfxi, w)
  | .bfii w => some (fBfxi, w)
  | .hashCrc w => some (fCrc, w)
  | .hashMix w => some (fMix, w)
  | .scmp w => some (fStr2, w)
  | .sfind w => some (fStr2, w)
  | .slen w => some (fStr1, w)
  | .rng w => some (fRng, w)
  | .laneCmp _ w => some (fCmp tysI w, w)
  | .fcmp _ w => some (fCmp tysF w, w)
  | .pand w => some (fPlog2, w)
  | .por w => some (fPlog2, w)
  | .pxor w => some (fPlog2, w)
  | .pandn w => some (fPlog2, w)
  | .pnot w => some (fPlog1, w)
  | .pmov w => some (fPlog1, w)
  | .pset w => some (fPset, w)
  | .pget w => some (fPget, w)
  | .pput w => some (fPput, w)
  | .laneIf w => some (fIf, w)
  | .laneElse w => some (fNone, w)
  | .laneEndif w => some (fNone, w)
  | .laneLoop w => some (fNone, w)
  | .laneBrk w => some (fBrk w, w)
  | .laneCont w => some (fBrk w, w)
  | .laneEndloop w => some (fEndloop, w)
  | .laneExit w => some (fNone, w)
  | .laneStop w => some (fNone, w)
  | .rfil w => some (fNone, w)
  | .pollThr w => some (fPollThr w, w)
  | .pollMask w => some (fPollV, w)
  | .pollRank w => some (fPollV, w)
  | .keyg w => some (fKeyg, w)
  | .lead w => some (fLead, w)
  | .lpush w => some (fLpush, w)
  | .xlnGet w => some (fXlnGet, w)
  | .xlnFlip w => some (fXlnM, w)
  | .xlnRot w => some (fXlnM, w)
  | .xlnSlide w => some (fXlnM, w)
  | .bcst w => some (fBcst W w, w)
  | .gred op w => some (fGred [0, 1] (op == .and || op == .or || op == .xor) w, w)
  | .gscan op _ w => some (fGred [0] (op == .and || op == .or || op == .xor) w, w)
  | .gsync w => some (fGsync, w)
  | .azero w => some (fAcc1, w)
  | .aadd w => some (fAadd, w)
  | .aadda w => some (fAcc2, w)
  | .aneg w => some (fAcc2, w)
  | .amac w => some (fAmac, w)
  | .adot w => some (fAdot w, w)
  | .cres w => some (fAcc1, w)
  | .arnd w => some (fArnd w, w)
  | .arndDiv w => some (fArndDiv w, w)
  | .ald w => some (fAmem, w)
  | .ast w => some (fAmem, w)
  | .aseg w => some (fAseg w, w)
  | .astat w => some (fAstat, w)
  | .ageti w => some (fAgeti w, w)
  | .ared w => some (fAcc2, w)
  | .laneLd w => some (fLd w, w)
  | .laneSt w => some (fSt w, w)
  | .laneLds w => some (fLd w, w)
  | .laneSts w => some (fSt w, w)
  | .laneAtom _ w => some (fAtom w, w)
  | .laneCas w => some (fCas w, w)
  | .radd w => some (fRadd, w)
  | .raddAcc w => some (fRaddAcc, w)
  | .laneFence w => some (fFence, w)
  | .laneWaita w => some (fWaita, w)
  | .bara w => some (fBara, w)
  | .barw w => some (fBarw, w)
  | .cbara w => some (fCbara, w)
  | .cbarw w => some (fCbarw, w)
  | .laneSwait w => some (fSwait, w)
  | .mma w => some (fMma w, w)
  | .mmaKreg w => some (fMmaK w, w)
  | .mfen w => some (fNone, w)
  | .mwait w => some (fMwaitK, w)
  | .mwaitLast w => some (fNone, w)
  | .mzero w => some (fMzero, w)
  | .mstRnd w => some (fMst 0 w, w)
  | .mstRaw w => some (fMst 1 w, w)
  | .mstAdd w => some (fMst 2 w, w)
  | .vpjs w => some (fVpj, w)
  | .vpjr w => some (fVpj, w)
  | .vpjm w => some (fVpj, w)
  | .vpjx w => some (fVpj, w)
  | .vpjb w => some (fVpj, w)
  | _ => none

/-- The long form a short operation stands for (R50): guard, registers and immediate rewritten, RNE. -/
def ShortOp.word (o : ShortOp) (vd va vb vc : BitVec 8) (md : BitVec 5) (imm : BitVec 32) : LaneWord :=
  { guard := if o.guard = 15 then 127 else o.guard.setWidth 7, neg := o.neg, vd := vd, va := va, vb := vb, vc := vc
    ty := o.ty.setWidth 5, md := md, rm := 0, imm := imm }

/-- A short memory offset: imm elements (R169). -/
def ShortOp.memOff (o : ShortOp) : BitVec 32 :=
  BitVec.ofNat 32 (o.imm.toNat * ((ETy.get o.ty.toNat 0).w / 8))

/-- The long instruction a short operation stands for; none for NOP and for a reserved opcode (R50). -/
def ShortOp.long (o : ShortOp) : Option Instr :=
  let w2 := o.word o.vd o.va o.vb 0 0 0
  let w1 := o.word o.vd o.va 0 0 0 0
  match o.op.toNat with
  | 0x01 => some (.laneAdd w2)
  | 0x02 => some (.laneSub w2)
  | 0x03 => some (.laneMul w2)
  | 0x04 => some (.laneMin w2)
  | 0x05 => some (.laneMax w2)
  | 0x06 => some (.laneAnd w2)
  | 0x07 => some (.laneOr w2)
  | 0x08 => some (.laneXor w2)
  | 0x09 => some (.laneShl w2)
  | 0x0A => some (.laneShr w2)
  | 0x0B => some (.laneSar w2)
  | 0x0C => some (.laneAddi (o.word o.vd o.va 0 0 1 ((o.imm.signExtend 16).setWidth 32)))
  | 0x0D => some (.laneShli (o.word o.vd o.va 0 0 1 (o.imm.setWidth 32)))
  | 0x0E => some (.laneShri (o.word o.vd o.va 0 0 1 (o.imm.setWidth 32)))
  | 0x0F => some (.mov w1)
  | 0x10 => some (.fadd w2)
  | 0x11 => some (.fsub w2)
  | 0x12 => some (.fmul w2)
  | 0x13 => some (.fmin w2)
  | 0x14 => some (.fmax w2)
  | 0x15 => some (.fabs w1)
  | 0x16 => some (.fneg w1)
  | 0x17 => some (.fma (o.word o.vd o.va o.vb o.vd 0 0))
  | 0x18 => some (.laneCmp .eq w2)
  | 0x19 => some (.laneCmp .lt w2)
  | 0x1A => some (.laneCmp .le w2)
  | 0x1B => some (.fcmp .eq w2)
  | 0x1C => some (.fcmp .lt w2)
  | 0x1D => some (.fcmp .le w2)
  | 0x1E => some (.laneSel (o.word o.vd o.va o.vb o.imm 0 0))
  | 0x1F => some (.lanePopc w1)
  | 0x20 => some (.laneLd (o.word o.vd o.va 0 0 0 o.memOff))
  | 0x21 => some (.laneSt (o.word 0 o.va o.vb 0 0 o.memOff))
  | 0x22 => some (.laneLds (o.word o.vd o.va 0 0 0 o.memOff))
  | 0x23 => some (.laneSts (o.word 0 o.va o.vb 0 0 o.memOff))
  | 0x24 => some (.ex2f w1)
  | 0x25 => some (.rcp w1)
  | 0x26 => some (.rsq w1)
  | 0x27 => some (.lg2 w1)
  | 0x28 => some (.aadd w1)
  | 0x29 => some (.amac w2)
  | 0x2A => some (.laneMovi (o.word o.vd 0 0 0 0 (o.imm.signExtend 32)))
  | _ => none

/-- Which fields of a slot its opcode leaves unused and therefore zero (R50): VD, VA, VB, immediate. -/
def ShortOp.unusedZero (o : ShortOp) : Bool :=
  let op := o.op.toNat
  let noB := [0x0C, 0x0D, 0x0E, 0x0F, 0x15, 0x16, 0x1F, 0x20, 0x22, 0x24, 0x25, 0x26, 0x27, 0x28, 0x2A].contains op
  let hasImm := [0x0C, 0x0D, 0x0E, 0x1E, 0x20, 0x21, 0x22, 0x23, 0x2A].contains op
  (op != 0 || (o.guard == 0 && !o.neg && o.vd == 0 && o.va == 0 && o.vb == 0 && o.ty == 0 && o.imm == 0))
    && (!noB || o.vb == 0) && (op != 0x2A || o.va == 0) && (op != 0x21 || o.vd == 0) && (op != 0x23 || o.vd == 0)
    && (hasImm || o.imm == 0) && (!(op == 0x0D || op == 0x0E) || decide (o.imm.toNat < 64))

/-- The classes of R50 that a pair admits once. -/
def ShortOp.isMem (o : ShortOp) : Bool := [0x20, 0x21, 0x22, 0x23].contains o.op.toNat
def ShortOp.isTrans (o : ShortOp) : Bool := [0x24, 0x25, 0x26, 0x27].contains o.op.toNat
/-- The v-registers a slot reads, as R49 counts them. -/
def ShortOp.readsV (o : ShortOp) : List Nat :=
  let op := o.op.toNat
  let a := if op = 0 || op = 0x2A then [] else [o.va.toNat]
  let b := if (1 ≤ op && op ≤ 0x0B) || (0x10 ≤ op && op ≤ 0x14) || (0x17 ≤ op && op ≤ 0x1E) || op = 0x21 || op = 0x23 || op = 0x29
    then [o.vb.toNat] else []
  a ++ b ++ (if op = 0x17 then [o.vd.toNat] else [])
/-- Whether a slot's destination is a v-register, a predicate or an accumulator (R50). -/
def ShortOp.destP (o : ShortOp) : Option Nat := if 0x18 ≤ o.op.toNat && o.op.toNat ≤ 0x1D then some o.vd.toNat else none
def ShortOp.destA (o : ShortOp) : Option Nat := if o.op.toNat = 0x28 || o.op.toNat = 0x29 then some o.vd.toNat else none
def ShortOp.destV (o : ShortOp) : Option Nat :=
  if o.op.toNat = 0 || o.destP.isSome || o.destA.isSome || o.op.toNat = 0x21 || o.op.toNat = 0x23 then none else some o.vd.toNat
/-- The predicate a SEL slot reads. -/
def ShortOp.readP (o : ShortOp) : Option Nat := if o.op.toNat = 0x1E then some o.imm.toNat else none
/-- The accumulator an AADD or AMAC slot reads: its own destination. -/
def ShortOp.readA (o : ShortOp) : Option Nat := o.destA

/-- Two destinations of one kind that collide. -/
def sameDest (a b : Option Nat) : Bool := a.isSome && a == b

/-- The pairing rules of R49; a NOP slot has no reads and no destination. -/
def PairWord.pairable (p : PairWord) : Bool :=
  let a := p.slot0
  let b := p.slot1
  let banks := (a.readsV ++ b.readsV).map (· % 4)
  (match a.destV, b.destV with
    | some x, some y => x % 4 != y % 4
    | _, _ => true)
      && !sameDest a.destP b.destP && !sameDest a.destA b.destA
      && ([0, 1, 2, 3].all fun k => decide ((banks.filter (· == k)).length ≤ 2))
      && !(a.isMem && b.isMem) && !(a.isTrans && b.isTrans)
      && (match a.destV with
          | some x => !b.readsV.contains x
          | none => true)
      && !(sameDest a.destP b.readP) && !(sameDest a.destA b.readA)

/-- A pair guard names p0 to p14 or "always" with negate 0 (R48). -/
def ShortOp.guardOk (o : ShortOp) : Bool := o.guard != 15 || !o.neg

/-- Whether a slot is legal as its long form is (R50). -/
def ShortOp.legal (o : ShortOp) (V A : Nat) : Bool :=
  o.unusedZero &&
    (o.op == 0 ||
      match o.long with
      | none => false
      | some i =>
        match laneForm 64 i with
        | none => false
        | some (f, w) => f.legal w V A 0)

end Sys2Proof
end

