-- ==== Sys2Proof/Machine/Operands.lean ====
section
/-! DEFINITION. The operand forms of the scalar stream: conditions, sizes, addresses, sections and flags fields (R46, R56, R80–R85). -/

namespace Sys2Proof.Machine

/-- The conditions of CMP and CMPI (R80). -/
def condHolds (c : ScalarCond) (a b : Word) : Bool :=
  match c with
  | .eq => a == b
  | .ne => a != b
  | .lt => a.slt b
  | .ge => !a.slt b
  | .ltn => a.ult b
  | .gen => !a.ult b

/-- The functions of QOP (R81). -/
def qopValue (f : QFun) (a b : Bool) : Bool :=
  match f with
  | .and => a && b
  | .or => a || b
  | .xor => a != b
  | .andn => a && !b
  | .not => !a
  | .mov => a

/-- Bytes of a store's size code (R46). -/
def sizeBytes : Size → Nat
  | .b8 => 1
  | .b16 => 2
  | .b32 => 4
  | .b64 => 8

/-- Bytes of a load's size code (R46). -/
def loadBytes : LoadSize → Nat
  | .u8 => 1
  | .u16 => 2
  | .u32 => 4
  | .u64 => 8
  | .s8 => 1
  | .s16 => 2
  | .s32 => 4

/-- Loaded bytes extended as the size code says (R46, R83). -/
def loadValue (z : LoadSize) (b : List Byte) : Word :=
  match z with
  | .s8 => BitVec.ofInt 64 (signed 8 (ofBytes b))
  | .s16 => BitVec.ofInt 64 (signed 16 (ofBytes b))
  | .s32 => BitVec.ofInt 64 (signed 32 (ofBytes b))
  | _ => BitVec.ofNat 64 (ofBytes b)

/-- ea of R83: the base's unsigned value plus the unsigned offset in units of the access (R45). -/
def scalarEa (base : Word) (off : BitVec 10) (bytes : Nat) : Int := Int.ofNat (base.toNat + off.toNat * bytes)

/-- The operations of ATOM on `w` bits (R85, R171): min and max by signedness. -/
def atomValue (op : AtomOp) (sgn : Bool) (w old b : Nat) : Nat :=
  match op with
  | .add => (old + b) % 2 ^ w
  | .min => if sgn then (if signed w b < signed w old then b else old) else min old b
  | .max => if sgn then (if signed w old < signed w b then b else old) else max old b
  | .and => old &&& b
  | .or => old ||| b
  | .xor => old ^^^ b
  | .xchg => b

/-- The guard of the SB format (R87). -/
def ScalarRegs.guard (r : ScalarRegs) (q : QReg) (neg : Bool) : Bool := r.getQ q != neg

/-- A branch target in words of four bytes (R87). -/
def branchTarget (pc : Word) (off : BitVec 20) : Word := pc + BitVec.ofInt 64 (off.toInt * 4)

/-- The flag that a flag field names: 0 to 11; 63 names none (R181). -/
def flagField (x : SReg) : Option Nat := if x.toNat < 12 then some x.toNat else none

end Sys2Proof.Machine
end

