-- ==== Sys2Proof/Machine/ScalarFlow.lean ====
section
/-! DEFINITION. Branches and calls, feeding and draining the lane stream (R87–R90, R430). -/

namespace Sys2Proof.Machine

/-- The scalar section of the current stream, as its base and size (R227, R378, R430). -/
def hereSection : M (Nat × Nat) := do
  if ← inHandler then
    match (← hereContext).handler with
    | some h => return (h.base, h.size)
    | none => noStream
  else
    let L ← hereLaunch
    return (L.sbase, L.ssize)

/-- Whether an address may be branched to (R87). -/
def branchable (base size : Nat) (t : Word) : Bool :=
  t.toNat % 4 == 0 && decide (base ≤ t.toNat) && decide (t.toNat < base + size)

/-- A taken branch with the registers it leaves, its target checked first (R87). -/
def branchTo (target : Word) (r : ScalarRegs) : M Unit := do
  let (base, size) ← hereSection
  require (branchable base size target) cAddrFault 0 target
  upd fun s => s.retireScalar (r.goto target)

def execBr (q : QReg) (neg : Bool) (off : BitVec 20) (s : State) : Answer :=
  M.answer (do
    let r ← hereScalar
    if r.guard q neg then branchTo (branchTarget r.pc off) r else doneScalar 4 r) s
def execCall (q : QReg) (neg : Bool) (off : BitVec 20) (s : State) : Answer :=
  M.answer (do
    let r ← hereScalar
    if r.guard q neg then branchTo (branchTarget r.pc off) (r.setS 63 (r.pc + 4)) else doneScalar 4 r) s
def execRet (q : QReg) (neg : Bool) (s : State) : Answer :=
  M.answer (do
    let r ← hereScalar
    if r.guard q neg then branchTo (r.getS 63) r else doneScalar 4 r) s
def execJmpr (sa : SReg) (s : State) : Answer :=
  M.answer (do
    let r ← hereScalar
    branchTo (r.getS sa) r) s

/-- Runs enqueued and not finished (R88). -/
def Group.pending (g : Group) : Nat := g.runs.length + (if g.run.isSome then 1 else 0)

/-- The clause constants that LRUN captures (R88). -/
def capture (r : ScalarRegs) (sa : SReg) (n : Nat) : Vector Word 8 :=
  Vector.ofFn fun i => if i.val < n then r.getS (BitVec.ofNat 6 (sa.toNat + i.val)) else 0

/-- LRUN (R88): a release toward the run (R72, R264). -/
def execLrun (sa : SReg) (n : BitVec 4) (target : BitVec 32) (s : State) : Answer :=
  M.answer (do
    notInHandler
    let (c, _, G) ← here
    let r ← hereScalar
    require (decide (n.toNat ≤ 8) && decide (sa.toNat + n.toNat ≤ 64) && !(n == 0 && sa != 0)) cIllegalOp
    if G.pending ≥ 16 then stallOn .queueFull
    releaseHere
    upd fun s => s.modGroup c.team c.grp fun g => { g with runs := g.runs ++ [⟨target, capture r sa n.toNat⟩] }
    doneScalar 8 r) s

/-- SPOP (R89). -/
def execSpop (sd : SReg) (s : State) : Answer :=
  M.answer (do
    notInHandler
    let (c, _, G) ← here
    match G.lq with
    | v :: rest =>
      upd fun s => s.modGroup c.team c.grp fun g => { g with lq := rest }
      doneScalar 4 ((← hereScalar).setS sd v)
    | [] => if G.pending = 0 then trap cHang 0 0 1 else stallOn .pop) s

/-- Whether every flag of a mask is clear (R90). -/
def Group.flagsClear (g : Group) (mask : BitVec 12) : Bool := (List.range 12).all fun n => !mask.getLsbD n || g.flag n == 0

/-- WFLG (R90): first the earlier runs, then the flags; an acquire at the scope of the completions it observes (R54, R264). -/
def execWflg (mask : BitVec 12) (s : State) : Answer :=
  M.answer (do
    notInHandler
    let (_, _, G) ← here
    if G.pending ≠ 0 then stallOn .runs
    if !G.flagsClear mask then stallOn .flag
    acquireHere (G.observed mask)
    doneScalar 4 (← hereScalar)) s
/-- WFLG.now (R90). -/
def execWflgNow (mask : BitVec 12) (s : State) : Answer :=
  M.answer (do
    notInHandler
    let (_, _, G) ← here
    if !G.flagsClear mask then stallOn .flag
    acquireHere (G.observed mask)
    doneScalar 4 (← hereScalar)) s

end Sys2Proof.Machine
end

