-- ==== Sys2Proof/Machine/ScalarSys.lean ====
section
/-! DEFINITION. Special registers, the end of a stream, TRAP, MRST and the reserved scalar words (R44, R55, R92–R94, R189, R204). -/

namespace Sys2Proof.Machine

/-- DEVCAP (R189): DEVNUM comes from FAB.PODCFG (R343). -/
def State.devcap (s : State) : Word :=
  BitVec.ofNat 64 (0x01 * 2 ^ 40 + 0xF * 2 ^ 36 + natBits s.dome.podcfg.toNat 9 0 * 2 ^ 26 + 32 * 2 ^ 20 + 12 * 2 ^ 12 + 3 * 2 ^ 8 + 5 * 2 ^ 4 + 6)

/-- A special register that belongs to a group, by its code (R44): GROUP, GITEM, RIC, BATCH, FLAGS. -/
def Group.special (g : Group) (ord code : Nat) : Option Word :=
  match code with
  | 0x02 => some (BitVec.ofNat 64 ord)
  | 0x08 => some g.gitem
  | 0x0B => some g.ric
  | 0x11 => some (g.batch.setWidth 64)
  | 0x13 => some (BitVec.ofNat 64 g.flagWord)
  | _ => none

/-- A special register that both streams read and that is no group's, by its code (R44): each is cut to its width there. -/
def State.special (s : State) (T : Team) (L : Launch) (code : Nat) : Option Word :=
  match code with
  | 0x03 => some (BitVec.ofNat 64 (T.ordinal % 2 ^ 32))
  | 0x04 => some (BitVec.ofNat 64 T.core)
  | 0x05 => some (BitVec.ofNat 64 (T.cluster % 2 ^ 16))
  | 0x06 => some (BitVec.ofNat 64 (T.core / 48))
  | 0x09 => some (BitVec.ofNat 64 L.nitems)
  | 0x0A => some (BitVec.ofNat 64 s.tick)
  | 0x0E => some (BitVec.ofNat 64 L.cls)
  | 0x0F => some (BitVec.ofNat 64 L.ctx)
  | 0x10 => some (BitVec.ofNat 64 L.detm)
  | 0x12 => some s.devcap
  | _ => none

/-- A handler register, by its code (R44, R375): TSPC is the next scalar address of the group being handled. -/
def State.handlerReg (s : State) (t : Nat) (h : Handler) (code : Nat) : Option Word :=
  let x := h.trap.getD ⟨0, 0, false, 0, 0, 0, 0, 0, false, none, none⟩
  match code with
  | 0x18 => some (x.cause.setWidth 64)
  | 0x19 => some (BitVec.ofNat 64 x.grp)
  | 0x1A => some (((s.group? t x.grp).map fun g => g.regs.pc).getD 0)
  | 0x1B => some (x.tlpc.setWidth 64)
  | 0x1C => some x.tlane
  | 0x1D => some x.taddr
  | 0x1E => some x.tinfo
  | 0x20 => some h.hs[0]
  | 0x21 => some h.hs[1]
  | 0x22 => some h.hs[2]
  | 0x23 => some h.hs[3]
  | _ => none

/-- A value that the manual does not fix, drawn (notes/assumptions/5). -/
def drawFree : M Nat := do
  let n := (← get).free
  upd fun s => { s with free := n + 1 }
  return Config.freeNat n

/-- SGET (R44, R92). The handler slot is no group: there the group codes read a free value (notes/assumptions/13). -/
def execSget (sd : SReg) (ty : BitVec 5) (code : BitVec 8) (s : State) : Answer :=
  M.answer (do
    let (c, T, G) ← here
    let L ← hereLaunch
    let r ← hereScalar
    let n := code.toNat
    if n = 1 then
      require (decide (ty.toNat < 16)) cIllegalOp
      doneScalar 4 (r.setS sd (BitVec.ofNat 64 (ETy.get ty.toNat 0).subn))
    else
      require (ty == 0) cIllegalOp
      let s ← get
      match G.special c.grp n, s.special T L n, s.handlerReg c.team T.handler n with
      | some v, _, _ =>
        if c.stream = .handler then
          let x ← drawFree
          doneScalar 4 (r.setS sd (BitVec.ofNat 64 x))
        else doneScalar 4 (r.setS sd v)
      | none, some v, _ => doneScalar 4 (r.setS sd v)
      | none, none, some v =>
        require (c.stream == .handler) cIllegalOp
        doneScalar 4 (r.setS sd v)
      | none, none, none => trap cIllegalOp) s

/-- SSET (R44, R92): HS0 to HS3, in the handler slot alone. -/
def execSset (hs : BitVec 2) (sa : SReg) (s : State) : Answer :=
  M.answer (do
    onlyInHandler
    let (c, _, _) ← here
    let r ← hereScalar
    upd fun s => s.modTeam c.team fun T => { T with handler := { T.handler with hs := T.handler.hs.set hs.toNat (r.getS sa) hs.isLt } }
    doneScalar 4 r) s

/-- SDONE (R93): it waits for the runs and the flags, then the group retires from its slot. -/
def execSdone (s : State) : Answer :=
  M.answer (do
    notInHandler
    let (c, _, G) ← here
    if G.pending ≠ 0 then stallOn .lastRuns
    if !G.flagsClear (-1#12) then stallOn .lastFlags
    doneScalar 4 (← hereScalar)
    upd fun s => (s.retireGroup c.team c.grp).settleTeam c.team) s

/-- NOP (R93). -/
def execNop (s : State) : Answer := scalarStep 4 (fun r => r) s

/-- A reserved scalar word (R46, R55). -/
def execReservedScalarWord (s : State) : Answer := M.answer (trap cIllegalOp) s

/-- TRAP (R94): it retires, then raises BREAK; TSPC is the following word. -/
def execTrap (imm : BitVec 12) (sa : SReg) (s : State) : Answer :=
  M.answer (do
    let (c, _, _) ← here
    let r ← hereScalar
    doneScalar 4 r
    upd fun s => s.traceGroup c.team c.grp 7 imm.toNat (r.pc + 4).toNat
    trap cBreak 0 (r.getS sa) (imm.setWidth 64)) s

/-- The restart address that an offset of the scalar section names: absolute, all ones where there is none (R204, R235). -/
def Launch.restartAt (L : Launch) (off : Nat) : Word := if off = 0xFFFFFFFF then -1#64 else BitVec.ofNat 64 (L.sbase + off)

/-- MRST (R204): the registered restart address; without an operand the launch's own. -/
def execMrst (off : BitVec 32) (s : State) : Answer :=
  M.answer (do
    let (c, _, _) ← here
    let L ← hereLaunch
    let o := if off = -1#32 then L.restart else off.toNat
    if off ≠ -1#32 then require (decide (off.toNat % 4 = 0 ∧ off.toNat < L.ssize)) cAddrFault 0 (off.setWidth 64)
    upd fun s => s.modGroup c.team c.grp fun g => { g with restart := L.restartAt o }
    doneScalar 8 (← hereScalar)) s

end Sys2Proof.Machine
end

