-- ==== Sys2Proof/Machine/TrapUnit.lean ====
section
/-! DEFINITION. The handler's words over the stopped groups (R96–R98). -/

namespace Sys2Proof.Machine

/-- A register selector (R96). -/
structure Selector where
  part  : Nat
  lane  : Nat
  index : Nat
  file  : Nat
deriving DecidableEq, Repr

/-- The fields of a selector; none where [63:23] is nonzero (R96). -/
def selectorOf (x : Word) : Option Selector :=
  let n := x.toNat
  if n ≥ 2 ^ 23 then none
  else some { part := natBits n 22 18, lane := natBits n 17 12, index := natBits n 11 4, file := natBits n 3 0 }

/-- Part of an accumulator's image (R96, FILE 7). -/
def Acc.part (a : Acc) (p : Nat) : Option Word :=
  let c (i : Nat) : Nat := ((a.cnt[i]?).map BitVec.toNat).getD 0
  if p < 10 then a.seg[p]?
  else
    match p with
    | 10 => some (BitVec.ofNat 64 (packElems 16 [c 0, c 1, c 2, c 3]))
    | 11 => some (BitVec.ofNat 64 (packElems 16 [c 4, c 5, c 6, c 7]))
    | 12 => some (BitVec.ofNat 64 (packElems 16 [c 8, c 9]))
    | 13 => some (BitVec.ofNat 64 a.status)
    | _ => none

/-- Part of an accumulator's image replaced; an N outside the extended range sets OVF (R96, R429). Part 13 writes the status bits as R96 says, and so clears
those that are zero in it, which R34 does not list (notes/assumptions/99, DESIGN CHOICE). -/
def Acc.setPart (a : Acc) (p : Nat) (x : Word) : Option Acc :=
  let counters (i n : Nat) : Acc :=
    { a with cnt := (List.range n).foldl (fun l j => l.set (i + j) (BitVec.ofNat 16 (elemAt 16 j x.toNat))) a.cnt }
  (if p < 10 then some { a with seg := a.seg.set p x }
   else
    match p with
    | 10 => some (counters 0 4)
    | 11 => some (counters 4 4)
    | 12 => some (counters 8 2)
    | 13 => some (a.withStatus x.toNat)
    | _ => none).map Acc.checkRange

/-- TRD's value; none where it raises ILLEGAL_OP (R96). -/
def Group.readSel (g : Group) (x : Selector) : Option Word :=
  match x.file with
  | 0 => g.regs.s[x.index]?
  | 1 => if x.index < 16 then some (if g.regs.getQ (BitVec.ofNat 4 x.index) then 1 else 0) else none
  | 2 => (g.lanes[x.lane]?).bind fun l => l.v[x.index]?
  | 3 => (g.lanes[x.lane]?).bind fun l => if x.index < 96 then some (if l.p.getLsbD x.index then 1 else 0) else none
  | 4 => (g.lanes[x.lane]?).bind fun l => if x.index = 0 then some (l.nest.setWidth 64) else none
  | 5 => if x.index < 12 then some (BitVec.ofNat 64 (g.flag x.index)) else none
  | 6 => if x.index < 8 then some ((g.run.bind fun r => r.k[x.index]?).getD 0) else none
  | 7 => (g.lanes[x.lane]?).bind fun l => (l.a[x.index]?).bind fun a => a.part x.part
  | 8 =>
    match x.index with
    | 0 => some g.regs.pc
    | 1 => some (g.lanePc.setWidth 64)
    | 2 => some (BitVec.ofNat 64 g.lq.length)
    | 3 => some (BitVec.ofNat 64 (g.runs.length + if g.run.isSome then 1 else 0))
    | _ => none
  | _ => none

/-- A lane's counter written by a handler (R133): 255 vacates it. -/
def Lane.setNest (l : Lane) (n : BitVec 8) : Lane :=
  if n = 255 then { l with nest := 255, holds := false, item := -1#64 } else { l with nest := n }

def Group.modLane (g : Group) (L : Nat) (f : Lane → Lane) : Group := { g with lanes := modifyAt f L g.lanes }

/-- TWR's effect on the group; none where it raises ILLEGAL_OP (R96). -/
def Group.writeSel (g : Group) (x : Selector) (v : Word) : Option Group :=
  match x.file with
  | 0 => if h : x.index < 64 then some { g with regs := { g.regs with s := g.regs.s.set x.index v h } } else none
  | 1 => if x.index < 15 then some { g with regs := g.regs.setQ (BitVec.ofNat 4 x.index) (v.getLsbD 0) } else none
  | 2 =>
    (g.lanes[x.lane]?).bind fun l =>
      if x.index < l.v.length then some (g.modLane x.lane fun l => { l with v := l.v.set x.index v }) else none
  | 3 =>
    (g.lanes[x.lane]?).bind fun _ =>
      if x.index < 96 then
        some (g.modLane x.lane fun l =>
          { l with p := (l.p &&& ~~~(1#96 <<< x.index)) ||| (if v.getLsbD 0 then 1#96 <<< x.index else 0) })
      else none
  | 4 => (g.lanes[x.lane]?).bind fun _ => if x.index = 0 then some (g.modLane x.lane fun l => l.setNest (v.setWidth 8)) else none
  | 5 => if x.index < 12 then some (g.setFlag x.index (v.setWidth 8)) else none
  | 6 => if h : x.index < 8 then g.run.map fun r => { g with run := some { r with k := r.k.set x.index v h } } else none
  | 7 =>
    (g.lanes[x.lane]?).bind fun l => (l.a[x.index]?).bind fun a => (a.setPart x.part v).map fun a' =>
      g.modLane x.lane fun l => { l with a := l.a.set x.index a' }
  | _ => none

/-- The item of a lane that a handler vacates is counted unfinished (R133, R242, R243). -/
def State.vacate (t g L : Nat) (s : State) : State :=
  match s.group? t g, s.team? t, s.launchOf? t with
  | some G, some T, some Ln =>
    match G.lanes[L]? with
    | some l =>
      if !l.holds then s
      else if Ln.grpMode then
        if G.gunfin then s
        else (s.modLaunch T.launch fun x => x.countUnfinished G.gitem).modGroup t g fun G => { G with gunfin := true }
      else s.modLaunch T.launch fun x => x.countUnfinished l.item
    | none => s
  | _, _, _ => s

/-- The live group that a handler word names by its ordinal (R96, R97). -/
def namedGroup (x : Word) : M (Nat × Group) := do
  let (_, T, _) ← here
  match T.groups[x.toNat]? with
  | some G =>
    require (!G.killed) cIllegalOp
    return (x.toNat, G)
  | none => trap cIllegalOp

/-- What a TRD acquires: a flag that reads 0 is observed as WFLG observes it (R264, R277). -/
def Group.trdScope (g : Group) (x : Selector) : Nat :=
  if x.file = 5 && x.index < 12 && g.flag x.index == 0 then g.fscope.getD x.index 0 else 0

/-- The store that a selector's register lies in, as the unit of an error (R96, R387). -/
def Selector.unit? (x : Selector) (t g : Nat) : Option EccUnit :=
  if x.file = 2 then some (.vreg t g x.lane x.index) else if x.file = 7 then some (.acc t g x.lane x.index) else none

/-- TRD (R96): of a poisoned register it traps as any read does (R387). -/
def execTrd (sd sa sb : SReg) (s : State) : Answer :=
  M.answer (do
    onlyInHandler
    let (c, _, _) ← here
    let r ← hereScalar
    let (g, G) ← namedGroup (r.getS sa)
    match selectorOf (r.getS sb) with
    | none => trap cIllegalOp
    | some x =>
      match G.readSel x with
      | some v =>
        if (x.unit? c.team g).any (← get).poison.contains then trap cEcc 0 (r.getS sb) (if x.file = 2 then 4 else 5)
        acquireHere (G.trdScope x)
        doneScalar 4 (r.setS sd v)
      | none => trap cIllegalOp) s

/-- TWR (R96). -/
def execTwr (ss sa sb : SReg) (s : State) : Answer :=
  M.answer (do
    onlyInHandler
    let (c, _, _) ← here
    let r ← hereScalar
    let (g, G) ← namedGroup (r.getS sa)
    let v := r.getS ss
    match selectorOf (r.getS sb) with
    | none => trap cIllegalOp
    | some x =>
      match G.writeSel x v with
      | none => trap cIllegalOp
      | some _ =>
        if x.file = 4 && v.setWidth 8 == (255 : BitVec 8) then upd (State.vacate c.team g x.lane)
        upd fun s => s.modGroup c.team g fun G => (G.writeSel x v).getD G
        -- a v-register is written whole, an accumulator part by part (R387)
        if x.file = 2 then upd fun s => { s with poison := s.poison.filter fun u => some u != x.unit? c.team g }
        doneScalar 4 r) s

/-- TRES (R97): it takes effect at ERET; a lane address past 32 bits is the last one, which no section holds. -/
def execTres (sl sa sb : SReg) (s : State) : Answer :=
  M.answer (do
    onlyInHandler
    let (c, _, _) ← here
    let r ← hereScalar
    let (g, _) ← namedGroup (r.getS sa)
    let pc := r.getS sb
    let a := r.getS sl
    upd fun s => s.modGroup c.team g fun G =>
      { G with resumeS := if pc = -1#64 then none else some pc
               resumeL := if a = -1#64 then none else some (if a.toNat < 2 ^ 32 then a.setWidth 32 else -1#32) }
    doneScalar 4 r) s

/-- TKIL (R97): the mark; the killing is done at ERET. -/
def execTkil (sa : SReg) (s : State) : Answer :=
  M.answer (do
    onlyInHandler
    let (c, T, _) ← here
    let r ← hereScalar
    let g := (r.getS sa).toNat
    require (decide (g < T.groups.length)) cIllegalOp
    upd fun s => s.modGroup c.team g fun G => { G with killed := true }
    doneScalar 4 r) s

/-- ERET (R98): it waits until the handler's stores to other devices are acknowledged, which come before every access after it (R277). -/
def execEret (s : State) : Answer :=
  M.answer (do
    onlyInHandler
    let (c, _, _) ← here
    if (← get).teamUnacked c.team then stallOn .handler
    upd (State.returnFromTrap c.team)) s

end Sys2Proof.Machine
end

