-- ==== Sys2Proof/Machine/Lane.lean ====
section
/-! DEFINITION. What every lane word shares: the lanes that take part, the checks, operands, results, the lane-to-scalar queue and
retiring (R42, R47, R53–R55, R132, R135, R142, R387, R394). -/

namespace Sys2Proof.Machine

/-- What a lane word acts on: its stream, team, group and launch as they stand before it, and its participants P in ascending order
(R142). -/
structure LaneCtx where
  c     : Cur
  T     : Team
  G     : Group
  L     : Launch
  parts : List Nat

/-! ### Lanes (R132) -/

def Lane.occupied (l : Lane) : Bool := l.nest != 255
def Lane.active (l : Lane) : Bool := l.nest == 0
def Lane.getV (l : Lane) (i : Nat) : Nat := ((l.v[i]?).map BitVec.toNat).getD 0
def Lane.setV (l : Lane) (i x : Nat) : Lane := { l with v := l.v.set i (BitVec.ofNat 64 x) }
def Lane.getA (l : Lane) (i : Nat) : Acc := (l.a[i]?).getD Acc.zero
def Lane.setA (l : Lane) (i : Nat) (a : Acc) : Lane := { l with a := l.a.set i a }
def Lane.getP (l : Lane) (i : Nat) : Bool := l.p.getLsbD i
def Lane.setP (l : Lane) (i : Nat) (b : Bool) : Lane :=
  { l with p := (l.p &&& ~~~(1#96 <<< i)) ||| (if b then 1#96 <<< i else 0) }

/-- Active(g) (R12). -/
def Group.active (g : Group) : List Nat := (indexed 0 g.lanes).filterMap fun x => if x.2.active then some x.1 else none
/-- The occupied lanes. -/
def Group.occupied (g : Group) : List Nat := (indexed 0 g.lanes).filterMap fun x => if x.2.occupied then some x.1 else none
def Group.lane (g : Group) (i : Nat) : Lane := (g.lanes[i]?).getD (Lane.start 0 0)
/-- A mask of lane numbers. -/
def maskLanes (ls : List Nat) : Nat := ls.foldl (fun m i => m ||| 2 ^ i) 0

/-- The guard of a lane word in a lane (R47). -/
def Lane.passes (l : Lane) (guard : Nat) (neg : Bool) : Bool := if guard = 127 then true else l.getP guard != neg

/-- The clause constant `i` of the current run (R47). -/
def Group.kreg (g : Group) (i : Nat) : Word := (g.run.bind fun r => r.k[i]?).getD 0

/-- A source field: a clause constant when its k-select is set, else a v-register (R47). -/
def LaneCtx.src (x : LaneCtx) (k : Bool) (f : BitVec 8) (l : Lane) : Nat :=
  if k then (x.G.kreg f.toNat).toNat else l.getV f.toNat
def LaneCtx.a (x : LaneCtx) (w : LaneWord) (l : Lane) : Nat := x.src w.kA w.va l
def LaneCtx.b (x : LaneCtx) (w : LaneWord) (l : Lane) : Nat := x.src w.kB w.vb l
def LaneCtx.cc (x : LaneCtx) (w : LaneWord) (l : Lane) : Nat := x.src w.kC w.vc l

/-- The participants changed by a function of each lane alone. -/
def Group.mapLanes (g : Group) (parts : List Nat) (f : Lane → Lane) : Group :=
  { g with lanes := (indexed 0 g.lanes).map fun x => if parts.contains x.1 then f x.2 else x.2 }

/-- The same with each lane's number. -/
def Group.mapLanesI (g : Group) (parts : List Nat) (f : Nat → Lane → Lane) : Group :=
  { g with lanes := (indexed 0 g.lanes).map fun x => if parts.contains x.1 then f x.1 x.2 else x.2 }

/-- The effect of a word that computes in each participating lane by itself. -/
def computes (f : LaneCtx → LaneWord → Lane → Lane) (x : LaneCtx) (w : LaneWord) : M Unit :=
  upd fun s => s.modGroup x.c.team x.c.grp fun g => g.mapLanes x.parts (f x w)

/-- VD of every participant written with a function of the lane's number. -/
def writesV (x : LaneCtx) (vd : Nat) (f : Nat → Lane → Nat) : M Unit :=
  upd fun s => s.modGroup x.c.team x.c.grp fun g => g.mapLanesI x.parts fun i l => l.setV vd (f i l)

/-! ### Registers a word reads and writes (R53, R387) -/

/-- The registers of a field, by use: v-registers or accumulators. -/
def regsOf (u : Use) (k : Bool) (span x : Nat) : List (Bool × Nat) :=
  match u with
  | .vreg => (List.range span).map fun i => (false, x + i)
  | .src => if k then [] else (List.range span).map fun i => (false, x + i)
  | .acc => [(true, x)]
  | _ => []

/-- Whether a word also reads its destination VD: the words that keep part of a register and those that accumulate. -/
def readsDest : Instr → Bool
  | .cvt _ => true
  | .qnt _ => true
  | .dqnt _ => true
  | .laneBfi _ => true
  | .bfii _ => true
  | .aadd _ => true
  | .aadda _ => true
  | .amac _ => true
  | .adot _ => true
  | .cres _ => true
  | .arnd _ => true
  | .arndDiv _ => true
  | .ast _ => true
  | _ => false

/-- The registers that a lane reads for a word: accumulators are marked true. -/
def readRegs (i : Instr) (f : Form) (w : LaneWord) : List (Bool × Nat) :=
  let k (b : Bool) : Bool := !f.full && b
  regsOf f.va (k w.kA) f.spanA w.va.toNat ++ regsOf f.vb (k w.kB) f.spanB w.vb.toNat ++ regsOf f.vc (k w.kC) 1 w.vc.toNat
    ++ (if readsDest i then regsOf f.vd false f.spanD w.vd.toNat else [])

/-- The registers that a lane's word writes. -/
def destRegs (f : Form) (w : LaneWord) : List (Bool × Nat) := regsOf f.vd false f.spanD w.vd.toNat

/-- Whether a register of a lane is poisoned (R387). -/
def State.regPoison (s : State) (t g lane : Nat) (r : Bool × Nat) : Bool :=
  s.poison.contains (if r.1 then .acc t g lane r.2 else .vreg t g lane r.2)

/-- The selector of R96 that names a register, and the code of its store (R387). -/
def regSelector (lane : Nat) (r : Bool × Nat) : Word := BitVec.ofNat 64 (lane * 2 ^ 12 + r.2 * 2 ^ 4 + if r.1 then 7 else 2)
def regStore (r : Bool × Nat) : Word := if r.1 then 5 else 4

/-- The number that accumulator `c` of a lane's row of a tile has among the lane's accumulators, as the unit of an error (R42, R387;
notes/assumptions/133). -/
def tileUnit (tile c : Nat) : Nat := 16 + 32 * tile + c

/-- Whether a unit is an accumulator of one of a group's tiles that a test selects. -/
def inTile (t g : Nat) (p : Nat → Bool) : EccUnit → Bool
  | .acc t' g' _ i => t' == t && g' == g && decide (16 ≤ i) && p ((i - 16) / 32)
  | _ => false

/-- A word that reads poisoned registers traps (R387): TLANE names the lanes that read one, TADDR the register of the lowest. -/
def checkRegs (t g : Nat) (reads : List (Nat × Nat × (Bool × Nat))) : M Unit := do
  let s ← get
  if s.poison.isEmpty then return ()
  match reads.filter fun r => s.regPoison t g r.2.1 r.2.2 with
  | [] => pure ()
  | r :: rest =>
    trap cEcc (BitVec.ofNat 64 (maskLanes ((r :: rest).map (·.1)))) (regSelector r.2.1 r.2.2) (regStore r.2.2)

/-- A write of a whole register clears its poison (R387). -/
def clearRegs (x : LaneCtx) (regs : List (Bool × Nat)) : M Unit :=
  upd fun s =>
    if s.poison.isEmpty then s
    else { s with poison := s.poison.filter fun u =>
      match u with
      | .vreg t g l i => !(t == x.c.team && g == x.c.grp && x.parts.contains l && regs.contains (false, i))
      | .acc t g l i => !(t == x.c.team && g == x.c.grp && x.parts.contains l && regs.contains (true, i))
      | _ => true }

/-- Whether some register of the list is the destination of an outstanding load of the group (R53). -/
def Group.outstanding (g : Group) (regs : List (Bool × Nat)) : Bool :=
  g.loads.any fun r => !r.blocks && r.dsts.any fun d =>
    (List.range (if d.acc then 1 else max 1 (d.bytes.length / 8))).any fun i => regs.contains (d.acc, d.reg + i)

/-! ### The lane-to-scalar queue (R54, R90, R143, R394) -/

/-- A push waits while the queue is full; behind a scalar stream that waits for this run it can never proceed, and raises HANG. -/
def roomToPush (x : LaneCtx) : M Unit := do
  if x.G.lq.length ≥ 64 then
    if x.L.detm = 2 || x.G.stallS == some .runs then trap cHang 0 0 3
    stallOn .queueFull

/-- One entry pushed. -/
def pushEntry (x : LaneCtx) (v : Nat) : M Unit :=
  upd fun s => s.modGroup x.c.team x.c.grp fun g => { g with lq := g.lq ++ [BitVec.ofNat 64 v] }

/-! ### Retiring (R53, R394) -/

/-- The next word of the run after a word of the clause in progress: past the clause's last word, the header that follows (R53). -/
def Group.stepClause (g : Group) : Group :=
  match g.clause, g.run with
  | some c, some r =>
    if c.next + 1 ≥ c.stop then { g.endClause with run := some { r with target := BitVec.ofNat 32 c.stop } }
    else { g with clause := some { c with next := c.next + 1 } }
  | _, _ => g

/-- A lane word retires: it counts in RIC, and the watchdog starts again. -/
def Group.countLane (g : Group) (tick : Nat) : Group :=
  { g with ric := g.ric + 1, stallL := none, ricSeen := tick, skipL := false, whole := false }

/-- Retire the word and go on to the next. -/
def retireLane (c : Cur) : M Unit :=
  upd fun s => s.modGroup c.team c.grp fun g => (g.countLane s.tick).stepClause

/-! ### One lane word -/

/-- The context of a word whose participants are given. -/
def laneCtx (parts : List Nat) : M LaneCtx := do
  let (c, T, G) ← here
  return { c := c, T := T, G := G, L := ← hereLaunch, parts := parts }

/-- The participants of a guard; none stands for a word that every lane skips (R47, R55). -/
def laneEnter (guard : Nat) (neg ok : Bool) : M (Option LaneCtx) := do
  let (_, _, G) ← here
  let act := G.active
  if act.isEmpty then return none
  require ok cIllegalOp
  let parts := act.filter fun i => (G.lane i).passes guard neg
  if parts.isEmpty then return none
  return some (← laneCtx parts)

/-- The legality, poison and outstanding-load checks of a word in lanes that execute it (R47, R53, R387). -/
def laneChecks (x : LaneCtx) (i : Instr) : M Unit := do
  match laneForm x.G.lanes.length i with
  | none => trap cIllegalOp
  | some (f, w) =>
    require (f.legal w x.L.vregs x.L.aregs x.L.tiles) cIllegalOp
    let rs := readRegs i f w
    checkRegs x.c.team x.c.grp (x.parts.flatMap fun l => rs.map fun r => (l, l, r))
    if x.G.outstanding (rs ++ destRegs f w) then stallOn .landing

/-- A lane word with its effect (R47, R55): skipped where no lane takes part, checked where one does, then retired. -/
def laneRun (i : Instr) (eff : LaneCtx → LaneWord → M Unit) (s : State) : Answer :=
  M.answer (do
    match laneForm 64 i with
    | none => trap cIllegalOp
    | some (_, w) =>
      match ← laneEnter w.guard.toNat w.neg w.guardOk with
      | none => retireLane (← here).1
      | some x =>
        laneChecks x i
        eff x w
        match laneForm 64 i with
        | some (f, w) => if !readsDest i then clearRegs x (destRegs f w)
        | none => pure ()
        retireLane x.c) s

end Sys2Proof.Machine
end

