-- ==== Sys2Proof/Machine/LaneArith.lean ====
section
/-! DEFINITION. Lane integer arithmetic, logic, shifts and moves (R104–R110). -/

namespace Sys2Proof.Machine

/-! ### Shapes -/

/-- VD := the per-element function of VA and VB. -/
def elem2 (f : ETy → Nat → Nat → Nat) : LaneCtx → LaneWord → Lane → Lane :=
  fun x w l => l.setV w.vd.toNat (w.ety.map2 (f w.ety) (x.a w l) (x.b w l))
/-- VD := the per-element function of VA. -/
def elem1 (f : ETy → Nat → Nat) : LaneCtx → LaneWord → Lane → Lane :=
  fun x w l => l.setV w.vd.toNat (w.ety.map1 (f w.ety) (x.a w l))
/-- VD := the per-element function of VA, VB and VC. -/
def elem3 (f : ETy → Nat → Nat → Nat → Nat) : LaneCtx → LaneWord → Lane → Lane :=
  fun x w l => l.setV w.vd.toNat (w.ety.map3 (f w.ety) (x.a w l) (x.b w l) (x.cc w l))
/-- VD := a function of the whole registers VA and VB, the type's unused bits zero (R108). -/
def whole2 (f : Nat → Nat → Nat) : LaneCtx → LaneWord → Lane → Lane :=
  fun x w l => l.setV w.vd.toNat (f (x.a w l) (x.b w l) &&& w.ety.usedMask)

/-! ### Elements (R104–R109) -/

def eAdd (t : ETy) (a b : Nat) : Nat := wrapNat t.w (t.int a + t.int b)
def eSub (t : ETy) (a b : Nat) : Nat := wrapNat t.w (t.int a - t.int b)
def eAdds (t : ETy) (a b : Nat) : Nat := saturate t.isSigned t.w (t.int a + t.int b)
def eSubs (t : ETy) (a b : Nat) : Nat := saturate t.isSigned t.w (t.int a - t.int b)
def eNeg (t : ETy) (a : Nat) : Nat := wrapNat t.w (-t.int a)
def eAbs (t : ETy) (a : Nat) : Nat := wrapNat t.w (t.int a).natAbs
def eMul (t : ETy) (a b : Nat) : Nat := wrapNat t.w (t.int a * t.int b)
def eMulh (t : ETy) (a b : Nat) : Nat := wrapNat t.w (t.int a * t.int b / 2 ^ t.w)
def eMuls (t : ETy) (a b : Nat) : Nat := saturate t.isSigned t.w (t.int a * t.int b)
def eMad (t : ETy) (a b c : Nat) : Nat := wrapNat t.w (t.int a * t.int b + t.int c)
def eMads (t : ETy) (a b c : Nat) : Nat := saturate t.isSigned t.w (t.int a * t.int b + t.int c)
def eMin (t : ETy) (a b : Nat) : Nat := if t.int b < t.int a then b else a
def eMax (t : ETy) (a b : Nat) : Nat := if t.int a < t.int b then b else a
/-- min(max(a, b), c) (R107). -/
def eClamp (t : ETy) (a b c : Nat) : Nat := eMin t (eMax t a b) c
/-- One bit of TERN: the table entry that the three bits index (R108). -/
def ternBit (tbl a b c j : Nat) : Nat :=
  (if natBit tbl ((a >>> j) % 2 + 2 * ((b >>> j) % 2) + 4 * ((c >>> j) % 2)) then 1 else 0) <<< j
/-- TERN (R108). -/
def ternary (tbl a b c : Nat) : Nat := (List.range 64).foldl (fun r j => r + ternBit tbl a b c j) 0
/-- The 64-bit complement. -/
def complement (a : Nat) : Nat := 2 ^ 64 - 1 - a % 2 ^ 64

/-- The addend of ADDI, in every element (R104). -/
def addImm (w : LaneWord) : Int := signed 16 (w.bits 15 0)
/-- The count of an immediate shift (R109). -/
def shiftImm (w : LaneWord) : Nat := w.bits 5 0

/-- The effect of each word on a lane, by name, for the long words and the pair slots alike. -/
def fxAdd := elem2 eAdd
def fxAddi : LaneCtx → LaneWord → Lane → Lane := fun x w l =>
  elem1 (fun t a => wrapNat t.w (t.int a + addImm w)) x w l
def fxSub := elem2 eSub
def fxMul := elem2 eMul
def fxMin := elem2 eMin
def fxMax := elem2 eMax
def fxAnd := whole2 (fun a b => a &&& b)
def fxOr := whole2 (fun a b => a ||| b)
def fxXor := whole2 (fun a b => a ^^^ b)
def fxShl := elem2 (fun t a n => shiftLeft t.w a n)
def fxShr := elem2 (fun t a n => shiftRight t.w a n)
def fxSar := elem2 (fun t a n => shiftArith t.w a n)
def fxShli : LaneCtx → LaneWord → Lane → Lane := fun x w l => elem1 (fun t a => shiftLeft t.w a (shiftImm w)) x w l
def fxShri : LaneCtx → LaneWord → Lane → Lane := fun x w l => elem1 (fun t a => shiftRight t.w a (shiftImm w)) x w l
/-- MOV: bit for bit, unused bits zero (R110). -/
def fxMov : LaneCtx → LaneWord → Lane → Lane := fun x w l => l.setV w.vd.toNat (x.a w l &&& w.ety.usedMask)
/-- MOVI: every element the low bits of the sign-extended immediate (R110). -/
def fxMovi : LaneCtx → LaneWord → Lane → Lane := fun _ w l =>
  l.setV w.vd.toNat (packElems w.ety.w (List.replicate w.ety.subn (w.imm.signExtend 64).toNat))
/-- SEL by the predicate that VC names (R110). -/
def fxSel : LaneCtx → LaneWord → Lane → Lane := fun x w l =>
  l.setV w.vd.toNat ((if l.getP w.vc.toNat then x.a w l else x.b w l) &&& w.ety.usedMask)

/-! ### The words -/

def execLaneAdd (w : LaneWord) (s : State) : Answer := laneRun (.laneAdd w) (computes fxAdd) s
def execLaneAddi (w : LaneWord) (s : State) : Answer := laneRun (.laneAddi w) (computes fxAddi) s
def execLaneSub (w : LaneWord) (s : State) : Answer := laneRun (.laneSub w) (computes fxSub) s
def execAdds (w : LaneWord) (s : State) : Answer := laneRun (.adds w) (computes (elem2 eAdds)) s
def execSubs (w : LaneWord) (s : State) : Answer := laneRun (.subs w) (computes (elem2 eSubs)) s
def execNeg (w : LaneWord) (s : State) : Answer := laneRun (.neg w) (computes (elem1 eNeg)) s
def execAbs (w : LaneWord) (s : State) : Answer := laneRun (.abs w) (computes (elem1 eAbs)) s
def execLaneMul (w : LaneWord) (s : State) : Answer := laneRun (.laneMul w) (computes fxMul) s
def execLaneMulh (w : LaneWord) (s : State) : Answer := laneRun (.laneMulh w) (computes (elem2 eMulh)) s
def execMuls (w : LaneWord) (s : State) : Answer := laneRun (.muls w) (computes (elem2 eMuls)) s
def execMad (w : LaneWord) (s : State) : Answer := laneRun (.mad w) (computes (elem3 eMad)) s
def execMads (w : LaneWord) (s : State) : Answer := laneRun (.mads w) (computes (elem3 eMads)) s
/-- DIV never traps (R106). -/
def execLaneDiv (w : LaneWord) (s : State) : Answer :=
  laneRun (.laneDiv w) (computes (elem2 fun t a b => divide t.isSigned t.w a b)) s
def execLaneRem (w : LaneWord) (s : State) : Answer :=
  laneRun (.laneRem w) (computes (elem2 fun t a b => remainder t.isSigned t.w a b)) s
def execLaneMin (w : LaneWord) (s : State) : Answer := laneRun (.laneMin w) (computes fxMin) s
def execLaneMax (w : LaneWord) (s : State) : Answer := laneRun (.laneMax w) (computes fxMax) s
def execClamp (w : LaneWord) (s : State) : Answer := laneRun (.clamp w) (computes (elem3 eClamp)) s
def execLaneAnd (w : LaneWord) (s : State) : Answer := laneRun (.laneAnd w) (computes fxAnd) s
def execLaneOr (w : LaneWord) (s : State) : Answer := laneRun (.laneOr w) (computes fxOr) s
def execLaneXor (w : LaneWord) (s : State) : Answer := laneRun (.laneXor w) (computes fxXor) s
def execAndn (w : LaneWord) (s : State) : Answer := laneRun (.andn w) (computes (whole2 fun a b => a &&& complement b)) s
def execNot (w : LaneWord) (s : State) : Answer :=
  laneRun (.not w) (computes fun x w l => l.setV w.vd.toNat (complement (x.a w l) &&& w.ety.usedMask)) s
def execTern (w : LaneWord) (s : State) : Answer :=
  laneRun (.tern w) (computes fun x w l =>
    l.setV w.vd.toNat (ternary (w.bits 7 0) (x.a w l) (x.b w l) (x.cc w l) &&& w.ety.usedMask)) s
def execLaneShl (w : LaneWord) (s : State) : Answer := laneRun (.laneShl w) (computes fxShl) s
def execLaneShr (w : LaneWord) (s : State) : Answer := laneRun (.laneShr w) (computes fxShr) s
def execLaneSar (w : LaneWord) (s : State) : Answer := laneRun (.laneSar w) (computes fxSar) s
def execRol (w : LaneWord) (s : State) : Answer := laneRun (.rol w) (computes (elem2 fun t a n => rotateLeft t.w a n)) s
def execRor (w : LaneWord) (s : State) : Answer := laneRun (.ror w) (computes (elem2 fun t a n => rotateRight t.w a n)) s
def execLaneShli (w : LaneWord) (s : State) : Answer := laneRun (.laneShli w) (computes fxShli) s
def execLaneShri (w : LaneWord) (s : State) : Answer := laneRun (.laneShri w) (computes fxShri) s
def execLaneSari (w : LaneWord) (s : State) : Answer :=
  laneRun (.laneSari w) (computes fun x w l => elem1 (fun t a => shiftArith t.w a (shiftImm w)) x w l) s
def execRoli (w : LaneWord) (s : State) : Answer :=
  laneRun (.roli w) (computes fun x w l => elem1 (fun t a => rotateLeft t.w a (shiftImm w)) x w l) s
def execRori (w : LaneWord) (s : State) : Answer :=
  laneRun (.rori w) (computes fun x w l => elem1 (fun t a => rotateRight t.w a (shiftImm w)) x w l) s
def execMov (w : LaneWord) (s : State) : Answer := laneRun (.mov w) (computes fxMov) s
def execLaneMovi (w : LaneWord) (s : State) : Answer := laneRun (.laneMovi w) (computes fxMovi) s
def execLaneSel (w : LaneWord) (s : State) : Answer := laneRun (.laneSel w) (computes fxSel) s

/-- A special register as LGET reads it in a lane (R44, R110). -/
def LaneCtx.special (x : LaneCtx) (s : State) (w : LaneWord) (i : Nat) (l : Lane) : Nat :=
  match w.bits 7 0 with
  | 0x00 => i
  | 0x01 => w.ety.subn
  | 0x07 => l.item.toNat
  | 0x0C => l.rngk.toNat
  | 0x0D => l.rngc.toNat
  | n =>
    match x.G.special x.c.grp n, s.special x.T x.L n with
    | some v, _ => v.toNat
    | none, some v => v.toNat
    | none, none => 0

/-- LGET (R110): every lane reads one value of a register that is not the lane's own. -/
def execLget (w : LaneWord) (s : State) : Answer :=
  laneRun (.lget w) (fun x w => do
    let s ← get
    writesV x w.vd.toNat fun i l => x.special s w i l) s

end Sys2Proof.Machine
end

