-- ==== Sys2Proof/Machine/LaneBits.lean ====
section
/-! DEFINITION. Bit-serial arithmetic, bits, fields, hashes, strings and the lane generator (R122–R129). -/

namespace Sys2Proof.Machine

/-! ### Bit-serial arithmetic (R122) -/

/-- The element type as a bit-serial word reads it: signed unless imm[0] is set. -/
def bsTy (w : LaneWord) : ETy := if w.bits 0 0 = 1 then { w.ety with kind := .uint } else w.ety

/-- VD := a per-element function under the signedness of imm[0]. -/
def serial2 (f : ETy → Nat → Nat → Nat) : LaneCtx → LaneWord → Lane → Lane :=
  fun x w l => l.setV w.vd.toNat ((bsTy w).map2 (f (bsTy w)) (x.a w l) (x.b w l))

def execBsAdd (w : LaneWord) (s : State) : Answer := laneRun (.bsAdd w) (computes (serial2 eAdd)) s
def execBsSub (w : LaneWord) (s : State) : Answer := laneRun (.bsSub w) (computes (serial2 eSub)) s
def execBsAdds (w : LaneWord) (s : State) : Answer := laneRun (.bsAdds w) (computes (serial2 eAdds)) s
def execBsSubs (w : LaneWord) (s : State) : Answer := laneRun (.bsSubs w) (computes (serial2 eSubs)) s
def execBsMul (w : LaneWord) (s : State) : Answer := laneRun (.bsMul w) (computes (serial2 eMul)) s
def execBsMuls (w : LaneWord) (s : State) : Answer := laneRun (.bsMuls w) (computes (serial2 eMuls)) s
def execBsMin (w : LaneWord) (s : State) : Answer := laneRun (.bsMin w) (computes (serial2 eMin)) s
def execBsMax (w : LaneWord) (s : State) : Answer := laneRun (.bsMax w) (computes (serial2 eMax)) s

/-- The integer conditions (R140). -/
def intHolds (c : IntCond) (a b : Int) : Bool :=
  match c with
  | .eq => a == b
  | .ne => a != b
  | .lt => decide (a < b)
  | .le => decide (a ≤ b)
  | .gt => decide (b < a)
  | .ge => decide (b ≤ a)

/-- BSCMP: all N bits set where the condition holds (R122). -/
def execBscmp (c : IntCond) (w : LaneWord) (s : State) : Answer :=
  laneRun (.bscmp c w) (computes (serial2 fun t a b => if intHolds c (t.int a) (t.int b) then 2 ^ t.w - 1 else 0)) s

/-! ### Bits and fields (R123, R124) -/

def fxPopc := elem1 fun t a => popCount t.w a

def execLanePopc (w : LaneWord) (s : State) : Answer := laneRun (.lanePopc w) (computes fxPopc) s
def execLaneClz (w : LaneWord) (s : State) : Answer := laneRun (.laneClz w) (computes (elem1 fun t a => clz t.w a)) s
def execLaneCtz (w : LaneWord) (s : State) : Answer := laneRun (.laneCtz w) (computes (elem1 fun t a => ctz t.w a)) s
def execLaneBrev (w : LaneWord) (s : State) : Answer := laneRun (.laneBrev w) (computes (elem1 fun t a => bitReverse t.w a)) s

/-- BFX: `.s64` sign-extends from the field's top bit (R124). -/
def laneExtract (ty a pos wid : Nat) : Nat :=
  let n := min wid 64
  let f := fieldExtract a pos wid
  if ty = 6 && n > 0 && natBit f (n - 1) then wrapNat 64 ((f : Int) - 2 ^ n) else f

def execLaneBfx (w : LaneWord) (s : State) : Answer :=
  laneRun (.laneBfx w) (computes fun x w l =>
    let d := x.b w l
    l.setV w.vd.toNat (laneExtract w.ty.toNat (x.a w l) (natBits d 5 0) (natBits d 14 8))) s
def execBfxi (w : LaneWord) (s : State) : Answer :=
  laneRun (.bfxi w) (computes fun x w l =>
    l.setV w.vd.toNat (laneExtract w.ty.toNat (x.a w l) (w.bits 5 0) (w.bits 14 8))) s
def execLaneBfi (w : LaneWord) (s : State) : Answer :=
  laneRun (.laneBfi w) (computes fun x w l =>
    let d := x.b w l
    l.setV w.vd.toNat (fieldInsert (l.getV w.vd.toNat) (x.a w l) (natBits d 5 0) (natBits d 14 8))) s
def execBfii (w : LaneWord) (s : State) : Answer :=
  laneRun (.bfii w) (computes fun x w l =>
    l.setV w.vd.toNat (fieldInsert (l.getV w.vd.toNat) (x.a w l) (w.bits 5 0) (w.bits 14 8))) s

/-! ### Hashes (R125, R126) -/

/-- Eight steps of the reflected CRC32C (R125). -/
def crcBits : Nat → Nat → Nat
  | 0, c => c
  | n + 1, c => crcBits n (c / 2 ^^^ (if c % 2 = 1 then 0x82F63B78 else 0))

/-- The CRC state after `n` bytes of data, lowest first. -/
def crcBytes : Nat → Nat → Nat → Nat
  | 0, _, c => c
  | n + 1, x, c => crcBytes n (x >>> 8) (crcBits 8 (c ^^^ (x % 256)))

def execHashCrc (w : LaneWord) (s : State) : Answer :=
  laneRun (.hashCrc w) (computes fun x w l =>
    l.setV w.vd.toNat (crcBytes (w.ety.w / 8) (x.a w l) (x.b w l % 2 ^ 32))) s

/-- The generator's round, three times (R126, R129). -/
def round32 (x : Nat) : Nat := (x ^^^ (x >>> 16)) * 0x045D9F3B % 2 ^ 32
/-- Mix32 (R126). -/
def mix32 (a b : Nat) : Nat := round32 (round32 (round32 ((a ^^^ b) % 2 ^ 32)))
/-- Mix64 (R126). -/
def mix64 (a b : Nat) : Nat :=
  let x := (a ^^^ b) % 2 ^ 64
  let x := (x ^^^ (x >>> 32)) * 0xB7E35A914C2D6F0B % 2 ^ 64
  let x := (x ^^^ (x >>> 29)) * 0x8F1CD37A29E5B461 % 2 ^ 64
  x ^^^ (x >>> 32)

def execHashMix (w : LaneWord) (s : State) : Answer :=
  laneRun (.hashMix w) (computes (elem2 fun t a b => if t.w = 64 then mix64 a b else mix32 a b)) s

/-! ### Strings (R127) -/

/-- The first of eight byte indices that satisfies the test, or 8. -/
def firstByte (p : Nat → Bool) : Nat := ((List.range 8).find? p).getD 8

/-- SCMP (R127). -/
def stringCompare (a b : Nat) : Nat :=
  let i := firstByte fun i => elemAt 8 i a != elemAt 8 i b || elemAt 8 i a == 0
  let rel := if i = 8 then 0 else if elemAt 8 i a = elemAt 8 i b then 1 else if elemAt 8 i a < elemAt 8 i b then 2 else 3
  i + rel * 256

def execScmp (w : LaneWord) (s : State) : Answer :=
  laneRun (.scmp w) (computes fun x w l => l.setV w.vd.toNat (stringCompare (x.a w l) (x.b w l))) s
def execSfind (w : LaneWord) (s : State) : Answer :=
  laneRun (.sfind w) (computes fun x w l =>
    l.setV w.vd.toNat
      (firstByte (fun i => elemAt 8 i (x.a w l) == x.b w l % 256) + 16 * firstByte (fun i => elemAt 8 i (x.a w l) == 0))) s
def execSlen (w : LaneWord) (s : State) : Answer :=
  laneRun (.slen w) (computes fun x w l => l.setV w.vd.toNat (firstByte fun i => elemAt 8 i (x.a w l) == 0)) s

/-! ### The lane generator (R128, R129) -/

/-- One output of the generator. -/
def Lane.draw (l : Lane) : Nat := mix32 l.rngk.toNat l.rngc.toNat
/-- The outputs of a word, element 0 first, and the lane with its counter advanced. -/
def Lane.draws : Nat → Lane → List Nat × Lane
  | 0, l => ([], l)
  | n + 1, l =>
    let r := Lane.draws n { l with rngc := l.rngc + 1 }
    (l.draw :: r.1, r.2)

/-- An output as an element of the word's type: a uniform value in [0, 1) for `.f32` (R129). -/
def drawElem (t : ETy) (x : Nat) : Nat := if t.kind == .flt then f32.roundScaled .rne false (x >>> 8) (-24) else x

def execRng (w : LaneWord) (s : State) : Answer :=
  laneRun (.rng w) (computes fun _ w l =>
    let r := Lane.draws w.ety.subn l
    r.2.setV w.vd.toNat (packElems w.ety.w (r.1.map (drawElem w.ety)))) s

end Sys2Proof.Machine
end

