-- ==== Sys2Proof/Machine/Ordered.lean ====
section
/-! DEFINITION. The ordered operations of determinism mode 2, their log, and the trap of mode 1 (R85, R171, R393–R400). -/

namespace Sys2Proof.Machine

/-- A group's ordinal in its launch (R395). -/
def ordinalOf (T : Team) (L : Launch) (g : Nat) : Nat := T.ordinal * L.grps + g

/-- Whether (c, o) comes before (c', o') (R395). -/
def stampLess (c o c' o' : Nat) : Bool := decide (c < c') || (c == c' && decide (o < o'))

/-- Whether a stamp is least over the launch's live groups that are not parked (R395). -/
def State.isLeast (s : State) (launch : Nat) (L : Launch) (t g c : Nat) : Bool :=
  match s.team? t with
  | none => true
  | some T =>
    let o := ordinalOf T L g
    (indexed 0 s.teams).all fun u =>
      u.2.launch != launch || !u.2.live ||
        (indexed 0 u.2.groups).all fun h =>
          (u.1 == t && h.1 == g) || h.2.gone || h.2.park.isSome ||
            stampLess c o h.2.ric.toNat (ordinalOf u.2 L h.1)

/-- Under mode 2 an ordered operation waits until its stamp is least (R395); the answer is the stamp, 0 outside mode 2. The handler slot's
accesses are not of the logical clock. -/
def orderedWait : M Nat := do
  let (c, T, G) ← here
  let L ← hereLaunch
  if L.detm != 2 || c.stream == .handler then return 0
  if (← get).isLeast T.launch L c.team c.grp G.ric.toNat then return G.ric.toNat
  stallOn .ordered

/-- A 16-byte log entry (R399). -/
def logEntry (stamp ord kind : Nat) : List Byte := toBytes 8 stamp ++ toBytes 4 ord ++ toBytes 4 kind

/-- A status bit of the replay descriptor set (R399). -/
def setReplayStatus (a : Agent) (d bit : Nat) : M Unit := do
  match (← get).vread a (d + 1) 1 with
  | (some b, s) => set ((s.vwrite a (d + 1) [BitVec.ofNat 8 (ofBytes b ||| 2 ^ bit)] 0).getD s)
  | (none, s) => set s

/-- The operation stalls until a range that it is to write for the replay is at hand (R326). -/
def awaitPage (a : Agent) (va len : Nat) : M Unit := do
  match (← get).locate a va len true with
  | (.fault _, s) => set s
  | (.parts ps, s) =>
    set s
    if ps.any fun p => p.isAbsent || p.isHeld then
      upd fun s => s.reportParts a .write ps
      stallOn .page

/-- The entry of an ordered operation recorded or compared at its turn (R399, R400). The operation whose entry brings the cursor to the end of the log
sets its status bit (R400, R401). -/
def orderedReplay (a : Agent) (d mode stamp ord kind : Nat) : M Unit := do
  awaitPage a d 32
  match (← get).vread a d 32 with
  | (none, s) => set s
  | (some b, s) =>
    set s
    let base := ofBytes ((b.drop 8).take 8)
    let count := ofBytes ((b.drop 16).take 8)
    let cursor := ofBytes ((b.drop 24).take 8)
    if (mode = 1 || mode = 2) && cursor < count then awaitPage a (base + 16 * cursor) 16
    let advance : M Unit := do
      upd fun s => (s.vwrite a (d + 24) (toBytes 8 (cursor + 1)) 0).getD s
      if cursor + 1 ≥ count then setReplayStatus a d (if mode = 1 then 0 else 1)
    if mode = 1 then
      if cursor ≥ count then setReplayStatus a d 0
      else
        upd fun s => (s.vwrite a (base + 16 * cursor) (logEntry stamp ord kind) 0).getD s
        advance
    else if mode = 2 then
      if cursor ≥ count then setReplayStatus a d 1
      else
        match (← get).vread a (base + 16 * cursor) 16 with
        | (some e, s) =>
          set s
          if e.take 13 = (logEntry stamp ord kind).take 13 then advance
          else
            setReplayStatus a d 2
            trap cReplayDiverge 0 0 (BitVec.ofNat 64 cursor)
        | (none, s) =>
          set s
          setReplayStatus a d 2
          trap cReplayDiverge 0 0 (BitVec.ofNat 64 cursor)

/-- An ordered operation about to be performed (R395, R398–R400, R405): logged or compared, counted and traced. -/
def orderedLog (kind stamp : Nat) : M Unit := do
  let (c, T, _) ← here
  let L ← hereLaunch
  if L.detm != 2 || c.stream == .handler then return ()
  let ord := ordinalOf T L c.grp
  match L.replay with
  | some (d, mode) => orderedReplay (← hereAgent).dome d mode stamp ord kind
  | none => pure ()
  upd fun s => (s.modTeam c.team fun T => { T with ordered := T.ordered + 1 }).traceGroup c.team c.grp 4 stamp (ord + kind * 2 ^ 32)

/-- ATOM and CAS under mode 1 (R85, R171): the instruction and the mode alone decide, before every check. -/
def atomicAllowed : M Unit := do
  let L ← hereLaunch
  require (L.detm != 1) cDetViolation

end Sys2Proof.Machine
end

