-- ==== Sys2Proof/Machine/LaneCtl.lean ====
section
/-! DEFINITION. Predicates, structured control, EXIT, STOP and refill (R132–R141, R230, R231, R242, R243). -/

namespace Sys2Proof.Machine

/-! ### Predicates (R140, R141) -/

/-- The predicate VD := a comparison of one element of VA and VB. -/
def compares (f : ETy → Nat → Nat → Bool) : LaneCtx → LaneWord → Lane → Lane :=
  fun x w l =>
    let e := w.bits 5 0
    l.setP w.vd.toNat (f w.ety (elemAt w.ety.w e (x.a w l)) (elemAt w.ety.w e (x.b w l)))

def fxCmp (c : IntCond) := compares fun t a b => intHolds c (t.int a) (t.int b)

/-- The floating conditions: a NaN is unordered (R140). -/
def floatHolds (c : FloatCond) (a b : FVal) : Bool :=
  let o := a.compare b
  match c with
  | .eq => o == some .eq
  | .ne => o != some .eq
  | .lt => o == some .lt
  | .le => o == some .lt || o == some .eq
  | .gt => o == some .gt
  | .ge => o == some .gt || o == some .eq
  | .un => o == none
  | .ord => o != none

def fxFcmp (c : FloatCond) := compares fun t a b => floatHolds c (t.fmt.decode a) (t.fmt.decode b)

def execLaneCmp (c : IntCond) (w : LaneWord) (s : State) : Answer := laneRun (.laneCmp c w) (computes (fxCmp c)) s
def execFcmp (c : FloatCond) (w : LaneWord) (s : State) : Answer := laneRun (.fcmp c w) (computes (fxFcmp c)) s

/-- The predicate VD := a function of the predicates VA and VB. -/
def preds2 (f : Bool → Bool → Bool) : LaneCtx → LaneWord → Lane → Lane :=
  fun _ w l => l.setP w.vd.toNat (f (l.getP w.va.toNat) (l.getP w.vb.toNat))

def execPand (w : LaneWord) (s : State) : Answer := laneRun (.pand w) (computes (preds2 fun a b => a && b)) s
def execPor (w : LaneWord) (s : State) : Answer := laneRun (.por w) (computes (preds2 fun a b => a || b)) s
def execPxor (w : LaneWord) (s : State) : Answer := laneRun (.pxor w) (computes (preds2 fun a b => a != b)) s
def execPandn (w : LaneWord) (s : State) : Answer := laneRun (.pandn w) (computes (preds2 fun a b => a && !b)) s
def execPnot (w : LaneWord) (s : State) : Answer := laneRun (.pnot w) (computes fun _ w l => l.setP w.vd.toNat (!l.getP w.va.toNat)) s
def execPmov (w : LaneWord) (s : State) : Answer := laneRun (.pmov w) (computes fun _ w l => l.setP w.vd.toNat (l.getP w.va.toNat)) s
def execPset (w : LaneWord) (s : State) : Answer := laneRun (.pset w) (computes fun _ w l => l.setP w.vd.toNat (w.bits 0 0 == 1)) s
def execPget (w : LaneWord) (s : State) : Answer :=
  laneRun (.pget w) (computes fun _ w l =>
    l.setV w.vd.toNat (if w.bits 0 0 = 0 then l.p.toNat % 2 ^ 64 else l.p.toNat / 2 ^ 64)) s
def execPput (w : LaneWord) (s : State) : Answer :=
  laneRun (.pput w) (computes fun x w l =>
    let v := x.a w l
    { l with p := BitVec.ofNat 96 (if w.bits 0 0 = 0 then l.p.toNat / 2 ^ 64 * 2 ^ 64 + v % 2 ^ 64
        else v % 2 ^ 32 * 2 ^ 64 + l.p.toNat % 2 ^ 64) }) s

/-! ### Structured control (R134–R136) -/

/-- A word of R135: it acts whether or not a lane is active, and its fields are checked only when one is (R136). -/
def controlRun (i : Instr) (eff : LaneCtx → LaneWord → M Unit) (s : State) : Answer :=
  M.answer (do
    match laneForm 64 i with
    | none => trap cIllegalOp
    | some (f, w) =>
      let (_, _, G) ← here
      let x ← laneCtx G.active
      if !G.active.isEmpty then
        require (w.guard == 127 && !w.neg && f.legal w x.L.vregs x.L.aregs x.L.tiles) cIllegalOp
      eff x w) s

/-- The counters of every occupied lane changed; the word retires. -/
def setCounters (x : LaneCtx) (f : Lane → Nat) : M Unit := do
  upd fun s => s.modGroup x.c.team x.c.grp fun g =>
    { g with lanes := g.lanes.map fun l => if l.occupied then { l with nest := BitVec.ofNat 8 (f l) } else l }
  retireLane x.c

/-- The condition of IF, BRK and CONT in a lane (R134). -/
def condOf (w : LaneWord) (l : Lane) : Bool := l.getP w.va.toNat != (w.bits 8 8 == 1)

/-- The occupied lanes whose counter is at least `n`. -/
def LaneCtx.deep (x : LaneCtx) (n : Nat) : List Nat := x.G.occupied.filter fun i => decide (n ≤ (x.G.lane i).nest.toNat)

/-- A counter that would pass 254 traps (R136). -/
def depthCheck (x : LaneCtx) (n : Nat) : M Unit :=
  require (x.deep n).isEmpty cIllegalConvergence (BitVec.ofNat 64 (maskLanes (x.deep n))) 0 2

/-- The counter after IF, ELSE, ENDIF, LOOP in an occupied lane (R134). -/
def afterIf (w : LaneWord) (l : Lane) : Nat :=
  if l.nest = 0 then (if condOf w l then 0 else 1) else l.nest.toNat + 1
def afterElse (l : Lane) : Nat := if l.nest = 0 then 1 else if l.nest = 1 then 0 else l.nest.toNat
def afterEndif (l : Lane) : Nat := l.nest.toNat - 1
def afterLoop (l : Lane) : Nat := if l.nest = 0 then 0 else l.nest.toNat + 2

def execLaneIf (w : LaneWord) (s : State) : Answer :=
  controlRun (.laneIf w) (fun x w => do
    depthCheck x 254
    setCounters x (afterIf w)) s
def execLaneElse (w : LaneWord) (s : State) : Answer := controlRun (.laneElse w) (fun x _ => setCounters x afterElse) s
def execLaneEndif (w : LaneWord) (s : State) : Answer := controlRun (.laneEndif w) (fun x _ => setCounters x afterEndif) s
def execLaneLoop (w : LaneWord) (s : State) : Answer :=
  controlRun (.laneLoop w) (fun x _ => do
    depthCheck x 253
    setCounters x afterLoop) s
def execLaneBrk (w : LaneWord) (s : State) : Answer :=
  controlRun (.laneBrk w) (fun x w =>
    setCounters x fun l => if l.active && condOf w l then w.bits 7 0 + 2 else l.nest.toNat) s
def execLaneCont (w : LaneWord) (s : State) : Answer :=
  controlRun (.laneCont w) (fun x w =>
    setCounters x fun l => if l.active && condOf w l then w.bits 7 0 + 1 else l.nest.toNat) s

/-- The lanes that a loop's end brings back. -/
def Group.joinLanes (g : Group) : Group :=
  { g with lanes := g.lanes.map fun (l : Lane) => if l.nest = 1 then { l with nest := 0 } else l }
/-- The current run goes on at a header. -/
def Group.aimRun (target : BitVec 32) (g : Group) : Group := { g with run := g.run.map fun r => { r with target := target } }

/-- ENDLOOP (R134): where a lane remains the clause ends and the run goes on at the target, whose header must be legal (R136). -/
def execLaneEndloop (w : LaneWord) (s : State) : Answer :=
  controlRun (.laneEndloop w) (fun x w => do
    if (x.G.occupied.filter fun i => (x.G.lane i).nest.toNat ≤ 1).isEmpty then
      setCounters x fun l => l.nest.toNat - 2
    else
      match ← headerAt w.imm.toNat with
      | none => halt (.trap { cause := cIllegalHeader, tlpc := some w.imm })
      | some _ =>
        upd fun s => s.modGroup x.c.team x.c.grp fun g =>
          (((g.joinLanes).countLane s.tick).endClause).aimRun w.imm) s

/-! ### EXIT and STOP (R133, R134, R242, R243) -/

/-- The items that EXIT finishes in the participants (R242, R243). -/
def LaneCtx.finishing (x : LaneCtx) : Nat :=
  let holding := x.parts.filter fun i => (x.G.lane i).holds
  if x.L.grpMode then
    (if !holding.isEmpty && !x.G.gunfin && ((indexed 0 x.G.lanes).all fun l => x.parts.contains l.1 || !l.2.holds) then 1 else 0)
  else holding.length

def execLaneExit (w : LaneWord) (s : State) : Answer :=
  laneRun (.laneExit w) (fun x _ => do
    upd fun s => s.modLaunch x.T.launch fun l => { l with finished := l.finished + x.finishing }
    upd fun s => s.modGroup x.c.team x.c.grp fun g => g.mapLanes x.parts fun l => l.setNest 255) s

/-- STOP (R53, R136): the run is finished. -/
def execLaneStop (w : LaneWord) (s : State) : Answer :=
  controlRun (.laneStop w) (fun x _ => do
    let bad := x.deep 1
    require bad.isEmpty cIllegalConvergence (BitVec.ofNat 64 (maskLanes bad)) 0 3
    upd fun s => s.modGroup x.c.team x.c.grp fun g => { (g.countLane s.tick).endClause with run := none }) s

/-! ### Refill (R138, R139) -/

/-- A barge: its index and its initial values (R230). -/
structure Barge where
  index : Word
  vals  : List Word
deriving DecidableEq, Repr

/-- The barge at a position of the queue, read as RFIL's claim reads it (R231). -/
def readBarge (a : Agent) (L : Launch) (n : Nat) : M Barge := do
  let size := 8 + 8 * L.items.length
  let b ← readGlobal a (L.queue + size * n) size .claim
  return { index := BitVec.ofNat 64 (ofBytes (b.take 8))
           vals := (List.range L.items.length).map fun j => BitVec.ofNat 64 (ofBytes ((b.drop (8 + 8 * j)).take 8)) }

/-- Fill (R138): the masked registers cleared, the item registers written, the generator started. -/
def Launch.fill (L : Launch) (item : Word) (b : Barge) (l : Lane) : Lane :=
  let v := (indexed 0 l.v).map fun iv => if natBit L.vmask iv.1 then 0 else iv.2
  let a := (indexed 0 l.a).map fun ia => if natBit L.amask ia.1 then Acc.zero else ia.2
  { nest := 0, item := item, holds := true, rngk := BitVec.ofNat 64 (mix64 L.seed.toNat item.toNat), rngc := 0, p := 0
    v := (L.items.zip b.vals).foldl (fun v rx => v.set rx.1 rx.2) v, a := a }

/-- The registers that a fill writes have no poison left (R387). -/
def clearFilled (x : LaneCtx) (lanes : List Nat) : M Unit :=
  clearRegs { x with parts := lanes }
    ((((List.range 256).filter fun i => natBit x.L.vmask i || x.L.items.contains i).map fun i => (false, i))
      ++ (((List.range 16).filter fun i => natBit x.L.amask i).map fun i => (true, i)))

/-- The barges that RFIL claims, with the lanes they fill: in LANE mode the vacant lanes in ascending order while barges last, in GROUP mode one
barge for an empty group. -/
def refillPlan (x : LaneCtx) : M (List (Nat × Barge)) := do
  let a := (← hereAgent).dome
  let left := x.L.nitems - x.L.claim
  if x.L.grpMode then
    if !x.G.occupied.isEmpty || left = 0 then return []
    return [(0, ← readBarge a x.L x.L.claim)]
  let vacant := (List.range x.G.lanes.length).filter fun i => !(x.G.lane i).occupied
  (indexed 0 (vacant.take left)).mapM fun ni => return (ni.2, ← readBarge a x.L (x.L.claim + ni.1))

/-- The lanes filled in LANE mode. -/
def Launch.fillLanes (L : Launch) (plan : List (Nat × Barge)) (g : Group) : Group :=
  plan.foldl (fun g ib => { g with lanes := modifyAt (L.fill ib.2.index ib.2) ib.1 g.lanes }) g

/-- Every lane filled from one barge in GROUP mode. -/
def Launch.fillGroup (L : Launch) (b : Barge) (g : Group) : Group :=
  let W := BitVec.ofNat 64 g.lanes.length
  { g with gitem := b.index, gunfin := false
           lanes := (indexed 0 g.lanes).map fun il => L.fill (b.index * W + BitVec.ofNat 64 il.1) b il.2 }

/-- The fills of a plan. -/
def applyRefill (x : LaneCtx) (plan : List (Nat × Barge)) : M Unit := do
  clearFilled x (if x.L.grpMode && !plan.isEmpty then List.range x.G.lanes.length else plan.map (·.1))
  upd fun s => s.modGroup x.c.team x.c.grp fun g =>
    match x.L.grpMode, plan with
    | true, [] => g
    | true, ib :: _ => x.L.fillGroup ib.2 g
    | false, _ => x.L.fillLanes plan g

/-- The entry that RFIL pushes (R138). -/
def refillEntry (occupied : Nat) (empty : Bool) : Nat := occupied + if empty then 256 else 0

/-- RFIL: its placement and the depth are checked always (R135, R138); then the claims, all or none (R139). -/
def execRfil (w : LaneWord) (s : State) : Answer :=
  M.answer (do
    let (_, _, G) ← here
    let L ← hereLaunch
    require (L.refill != 0xFFFFFFFF && G.clause.any fun c => c.header == L.refill) cIllegalOp
    let x ← laneCtx G.active
    if !G.active.isEmpty then
      require (w.guard == 127 && !w.neg && fNone.legal w L.vregs L.aregs L.tiles) cIllegalOp
    let bad := x.deep 1
    require bad.isEmpty cRefillDepth (BitVec.ofNat 64 (maskLanes bad))
    roomToPush x
    if G.outstanding (((List.range L.vregs).map fun i => (false, i)) ++ ((List.range L.aregs).map fun i => (true, i))) then
      stallOn .landing
    let stamp ← orderedWait
    let plan ← refillPlan x
    orderedLog 7 stamp
    applyRefill x plan
    let n := plan.length
    upd fun s => (s.modLaunch x.T.launch fun l => { l with claim := l.claim + n }).modTeam x.c.team fun T =>
      { T with claimed := T.claimed || decide (n > 0) }
    match (← get).group? x.c.team x.c.grp with
    | some g => pushEntry x (refillEntry g.occupied.length (decide (L.claim + n ≥ L.nitems)))
    | none => pure ()
    retireLane x.c) s

/-- A long word of opcode 0x00 traps wherever a run reaches it; one of another reserved opcode or function traps where an active lane's guard is true,
and is skipped elsewhere, as any illegal word is (R47, R57, R58, R135). -/
def execReservedLaneWord (b : BitVec 96) (s : State) : Answer :=
  M.answer (do
    let (c, _, _) ← here
    require (b.extractLsb' 88 7 != 0) cIllegalOp
    let w := laneFields b
    match ← laneEnter w.guard.toNat w.neg w.guardOk with
    | none => retireLane c
    | some _ => trap cIllegalOp) s

end Sys2Proof.Machine
end

