-- ==== Sys2Proof/Machine/Trans.lean ====
section
/-! DEFINITION. The correctly rounded f32 functions of TRANS (R114–R116). Each is enclosed between two fixed-point
numbers; where both ends round alike that is the correctly rounded result, which the rules fix. -/

namespace Sys2Proof.Machine

/-- Fractional bits of the enclosures. -/
def fixBits : Nat := 400

/-- A function value between two positive fixed-point numbers of `fixBits` fractional bits and exponent `e`, rounded; none where
the two ends round apart. -/
def roundBetween (rm : Rm) (neg : Bool) (lo hi : Nat) : Option Nat :=
  let a := f32.roundScaled rm neg lo (-(fixBits : Int))
  let b := f32.roundScaled rm neg hi (-(fixBits : Int))
  if a = b then some a else none

/-- 2^(n ÷ 2^k) for a k-bit numerator, bit by bit from the least significant: `r` encloses the product so far, and each
step takes the square root of it, times 2 where the bit is set. -/
def exp2Fix : Nat → Nat → Nat × Nat → Nat × Nat
  | 0, _, r => r
  | k + 1, n, (lo, hi) =>
    let b := if n % 2 = 1 then 2 else 1
    exp2Fix k (n / 2) (isqrt (lo * b * 2 ^ fixBits), isqrt (hi * b * 2 ^ fixBits) + 1)

/-- EX2F (R114); none stands for an enclosure too wide to decide the rounding. -/
def ex2f (x : Nat) : Option Nat :=
  match f32.decode x with
  | .nan => some f32.nanBits
  | .inf true => some 0
  | .inf false => some (f32.inf false)
  | .fin s m e =>
    if m = 0 then some 0x3F800000
    else if s then some f32.nanBits
    else if x = 0x3F800000 then some 0x40000000
    else if x > 0x3F800000 then some f32.nanBits
    -- below 2^-30 the result lies between 1 and 1 + 2^-30, nearest to 1
    else if e < -60 then some 0x3F800000
    else
      let k := (-e).toNat
      let r := exp2Fix k m (2 ^ fixBits, 2 ^ fixBits)
      roundBetween .rne false r.1 r.2

/-- The first `k` bits of the base-two logarithm of `y ÷ 2^fixBits`, 1 ≤ that value ≤ 2, by repeated squaring; `up` rounds each
square up. -/
def log2Bits (up : Bool) : Nat → Nat → Nat → Nat
  | 0, _, acc => acc
  | k + 1, y, acc =>
    let sq := if up then (y * y + 2 ^ fixBits - 1) / 2 ^ fixBits else y * y / 2 ^ fixBits
    if sq ≥ 2 * 2 ^ fixBits then
      log2Bits up k (if up then (sq + 1) / 2 else sq / 2) (2 * acc + 1)
    else log2Bits up k sq (2 * acc)

/-- The fractional bits of the logarithm's enclosure. -/
def logBits : Nat := 160

/-- LG2 (R115). -/
def lg2 (rm : Rm) (x : Nat) : Option Nat :=
  match f32.decode x with
  | .nan => some f32.nanBits
  | .inf true => some f32.nanBits
  | .inf false => some (f32.inf false)
  | .fin s m e =>
    if m = 0 then some (f32.inf true)
    else if s then some f32.nanBits
    else
      let g : Int := e + Nat.log2 m
      if m = 2 ^ Nat.log2 m then some (f32.roundScaled rm (g < 0) g.natAbs 0)
      else
        let y := m * 2 ^ (fixBits - Nat.log2 m)
        let lo : Int := g * 2 ^ logBits + log2Bits false logBits y 0
        let hi : Int := g * 2 ^ logBits + log2Bits true logBits y 0 + 1
        let a := f32.roundScaled rm (lo < 0) lo.natAbs (-(logBits : Int))
        let b := f32.roundScaled rm (hi < 0) hi.natAbs (-(logBits : Int))
        if a = b then some a else none

/-- RCP (R115). -/
def rcp (rm : Rm) (x : Nat) : Nat := f32.div rm (.fin false 1 0) (f32.decode x)

/-- RSQ (R115): an inexact root lies strictly between two integers of many more bits than f32 holds. -/
def rsq (rm : Rm) (x : Nat) : Nat :=
  match f32.decode x with
  | .nan => f32.nanBits
  | .inf s => if s then f32.nanBits else 0
  | .fin s m e =>
    if m = 0 then f32.inf s
    else if s then f32.nanBits
    else
      let sh : Nat := 400 + (e % 2).toNat
      let r := isqrt (2 ^ sh / m)
      let half := (-e - sh) / 2
      if r * r * m = 2 ^ sh then f32.roundScaled rm false r half
      else f32.roundScaled rm false (2 * r + 1) (half - 1)

/-- π × 2^400, rounded down. -/
def piFix : Nat :=
  0x3243f6a8885a308d313198a2e03707344a4093822299f31d0082efa98ec4e6c89452821e638d01377be5466cf34e90c6cc0ac

/-- The Taylor terms of sine from `term` on, alternately added and subtracted; each is `term × y² ÷ ((k+1)(k+2))`. -/
def sinTerms : Nat → Nat → Nat → Nat → Bool → Int → Int
  | 0, _, _, _, _, acc => acc
  | fuel + 1, y2, term, k, minus, acc =>
    let acc' := if minus then acc - term else acc + term
    sinTerms fuel y2 (term * y2 / 2 ^ fixBits / ((k + 1) * (k + 2))) (k + 2) (!minus) acc'

/-- sin(π n ÷ d) for 0 < n ÷ d ≤ 1/2, in units of 2^-400: the truncations amount to less than 2^20 units. -/
def sinPiFix (n d : Nat) : Nat :=
  let y := n * piFix / d
  (sinTerms 60 (y * y / 2 ^ fixBits) y 1 false 0).toNat

/-- sin(π n ÷ d) for any n ÷ d ≥ 0, reduced by the symmetries of sine, with its sign. -/
def sinPiRound (neg : Bool) (n d : Nat) : Option Nat :=
  let r := n % (2 * d)
  let flip := r ≥ d
  let r' := if flip then r - d else r
  let r'' := if 2 * r' > d then d - r' else r'
  let sgn := neg != flip
  if 2 * r'' = d then some (f32.roundScaled .rne sgn 1 0)
  else
    let v := sinPiFix r'' d
    roundBetween .rne sgn (v - 2 ^ 20) (v + 2 ^ 20)

/-- SINP (R116). -/
def sinp (x : Nat) : Option Nat :=
  match f32.decode x with
  | .nan => some f32.nanBits
  | .inf _ => some f32.nanBits
  | .fin s m e =>
    if isIntegral m e then some (f32.zero s)
    else sinPiRound s m (2 ^ (-e).toNat)

/-- COSP (R116): cos(πx) = sin(π(x + 1/2)), even in x. -/
def cosp (x : Nat) : Option Nat :=
  match f32.decode x with
  | .nan => some f32.nanBits
  | .inf _ => some f32.nanBits
  | .fin _ m e =>
    if isIntegral m e then
      some (if (scaleNat m e) % 2 = 0 && e ≥ 0 || (e < 0 && (m / 2 ^ (-e).toNat) % 2 = 0)
        then 0x3F800000 else 0xBF800000)
    else if isIntegral m (e + 1) then some 0
    else sinPiRound false (2 * m + 2 ^ (-e).toNat) (2 * 2 ^ (-e).toNat)

end Sys2Proof.Machine
end

