-- ==== Sys2Proof/Machine/LaneFloat.lean ====
section
/-! DEFINITION. Lane floating-point arithmetic, the transcendentals, conversion and quantisation (R111–R121). -/

namespace Sys2Proof.Machine

/-- The exact sum of values: NaN and infinities as R146 and R159 state them. -/
def sumExact (vs : List FVal) : FVal :=
  if vs.any FVal.isNan || (vs.any (· == .inf true) && vs.any (· == .inf false)) then .nan
  else if vs.any (· == .inf false) then .inf false
  else if vs.any (· == .inf true) then .inf true
  else
    let e0 := vs.foldl (fun m v => match v with | .fin _ _ e => min m e | _ => m) 0
    .ofInt (vs.foldl (fun z v => match v with | .fin s m e => z + mantAt s m e e0 | _ => z) 0) e0

/-- The rounding mode of a word (R19). -/
def rmode (w : LaneWord) : Rm := Rm.ofCode w.rm.toNat

/-- VD := a function of the decoded elements of VA and VB, rounded under RM. -/
def float2 (f : FFmt → Rm → FVal → FVal → Nat) : LaneCtx → LaneWord → Lane → Lane :=
  fun x w l => elem2 (fun t a b => f t.fmt (rmode w) (t.fmt.decode a) (t.fmt.decode b)) x w l
/-- VD := a function of the patterns of VA and VB. -/
def bits2 (f : FFmt → Nat → Nat → Nat) : LaneCtx → LaneWord → Lane → Lane := elem2 fun t a b => f t.fmt a b
/-- VD := a function of the patterns of VA. -/
def bits1 (f : FFmt → Nat → Nat) : LaneCtx → LaneWord → Lane → Lane := elem1 fun t a => f t.fmt a
/-- VD := a function of the decoded elements of VA, VB and VC. -/
def float3 (f : FVal → FVal → FVal → FVal × FVal × FVal) : LaneCtx → LaneWord → Lane → Lane :=
  fun x w l => elem3 (fun t a b c =>
    let r := f (t.fmt.decode a) (t.fmt.decode b) (t.fmt.decode c)
    t.fmt.fma (rmode w) r.1 r.2.1 r.2.2) x w l

def fxFadd := float2 fun f r a b => f.add r a b
def fxFsub := float2 fun f r a b => f.add r a b.neg
def fxFmul := float2 fun f r a b => f.roundVal r (a.mul b)
def fxFmin := bits2 FFmt.minNum
def fxFmax := bits2 FFmt.maxNum
def fxFabs := bits1 FFmt.absBits
def fxFneg := bits1 FFmt.negBits
def fxFma := float3 fun a b c => (a, b, c)

def execFadd (w : LaneWord) (s : State) : Answer := laneRun (.fadd w) (computes fxFadd) s
def execFsub (w : LaneWord) (s : State) : Answer := laneRun (.fsub w) (computes fxFsub) s
def execFmul (w : LaneWord) (s : State) : Answer := laneRun (.fmul w) (computes fxFmul) s
def execFdiv (w : LaneWord) (s : State) : Answer := laneRun (.fdiv w) (computes (float2 fun f r a b => f.div r a b)) s
def execFsqrt (w : LaneWord) (s : State) : Answer :=
  laneRun (.fsqrt w) (computes fun x w l => elem1 (fun t a => t.fmt.sqrt (rmode w) (t.fmt.decode a)) x w l) s
def execFmin (w : LaneWord) (s : State) : Answer := laneRun (.fmin w) (computes fxFmin) s
def execFmax (w : LaneWord) (s : State) : Answer := laneRun (.fmax w) (computes fxFmax) s
def execFabs (w : LaneWord) (s : State) : Answer := laneRun (.fabs w) (computes fxFabs) s
def execFneg (w : LaneWord) (s : State) : Answer := laneRun (.fneg w) (computes fxFneg) s
def execCpsgn (w : LaneWord) (s : State) : Answer := laneRun (.cpsgn w) (computes (bits2 FFmt.copySign)) s
def execFma (w : LaneWord) (s : State) : Answer := laneRun (.fma w) (computes fxFma) s
def execFms (w : LaneWord) (s : State) : Answer := laneRun (.fms w) (computes (float3 fun a b c => (a, b, c.neg))) s
def execFnma (w : LaneWord) (s : State) : Answer := laneRun (.fnma w) (computes (float3 fun a b c => (a.neg, b, c))) s

/-- A transcendental's result, with the constant of Config where the enclosure leaves the rounding undecided. -/
def transResult (fn : Nat) (w : LaneWord) (f : Nat → Option Nat) (a : Nat) : Nat :=
  (f a).getD (Config.hardCase fn w.rm.toNat a % 2 ^ 32)

def fxEx2f : LaneCtx → LaneWord → Lane → Lane := fun x w l => elem1 (fun _ a => transResult 0 w ex2f a) x w l
def fxLg2 : LaneCtx → LaneWord → Lane → Lane := fun x w l => elem1 (fun _ a => transResult 1 w (lg2 (rmode w)) a) x w l
def fxRcp : LaneCtx → LaneWord → Lane → Lane := fun x w l => elem1 (fun _ a => rcp (rmode w) a) x w l
def fxRsq : LaneCtx → LaneWord → Lane → Lane := fun x w l => elem1 (fun _ a => rsq (rmode w) a) x w l

def execEx2f (w : LaneWord) (s : State) : Answer := laneRun (.ex2f w) (computes fxEx2f) s
def execLg2 (w : LaneWord) (s : State) : Answer := laneRun (.lg2 w) (computes fxLg2) s
def execRcp (w : LaneWord) (s : State) : Answer := laneRun (.rcp w) (computes fxRcp) s
def execRsq (w : LaneWord) (s : State) : Answer := laneRun (.rsq w) (computes fxRsq) s
def execSinp (w : LaneWord) (s : State) : Answer :=
  laneRun (.sinp w) (computes fun x w l => elem1 (fun _ a => transResult 4 w sinp a) x w l) s
def execCosp (w : LaneWord) (s : State) : Answer :=
  laneRun (.cosp w) (computes fun x w l => elem1 (fun _ a => transResult 5 w cosp a) x w l) s
def execRndi (w : LaneWord) (s : State) : Answer :=
  laneRun (.rndi w) (computes fun x w l => elem1 (fun t a => t.fmt.rndi (rmode w) a) x w l) s
def execExpi (w : LaneWord) (s : State) : Answer :=
  laneRun (.expi w) (computes fun x w l => elem2 (fun t a b => t.fmt.expi (rmode w) a b) x w l) s

/-! ### Conversion (R118) -/

/-- The part rule: element i of the source goes to element j of the destination (R118). -/
def partPairs (s d : ETy) (p : Nat) : List (Nat × Nat) :=
  let m := min s.subn d.subn
  let sb := if s.subn ≥ d.subn then p * m else 0
  let db := if s.subn ≥ d.subn then 0 else p * m
  (List.range m).filterMap fun i => if sb + i < s.subn && db + i < d.subn then some (sb + i, db + i) else none

/-- A register with the elements of a part replaced by a function of the source elements; the others keep their bits (R118). -/
def convertPart (s d : ETy) (p : Nat) (f : Nat → Nat) (src dst : Nat) : Nat :=
  (partPairs s d p).foldl (fun r ij => setElem d.w ij.2 r (f (elemAt s.w ij.1 src))) (dst &&& d.usedMask)

/-- Conv (R118). -/
def convert (s d : ETy) (rm : Rm) (x : Nat) : Nat :=
  match d.kind with
  | .flt => d.fmt.roundVal rm (s.value x)
  | _ =>
    match s.value x with
    | .nan => 0
    | .inf neg => if neg then saturate d.isSigned d.w (-(2 ^ 64)) else saturate d.isSigned d.w (2 ^ 64)
    | .fin neg m e => saturate d.isSigned d.w (finToInt rm neg m e)

/-- The source type of CVT, QNT and DQNT (R118–R120). -/
def sty (w : LaneWord) : ETy := ETy.get (w.bits 12 8) (w.bits 20 16)

def execCvt (w : LaneWord) (s : State) : Answer :=
  laneRun (.cvt w) (computes fun x w l =>
    l.setV w.vd.toNat (convertPart (sty w) w.ety (w.bits 4 0) (convert (sty w) w.ety (rmode w)) (x.a w l) (l.getV w.vd.toNat))) s

/-! ### Quantisation (R119–R121) -/

/-- The block scale in VB (R119). -/
def scaleOf (w : LaneWord) (b : Nat) : FVal := if w.bits 17 17 = 1 then scaleE8 (b % 256) else f32.decode (b % 2 ^ 32)

/-- The table that a word names: none without `.ctN`; a table that holds nothing valid is illegal (R119). -/
def wordTable (x : LaneCtx) (w : LaneWord) : M (Option CTable) := do
  if w.bits 16 16 = 0 then return none
  match ((← get).cores[x.T.core]?).bind fun c => (c.tables[w.bits 15 13]?).join with
  | some t => return some t
  | none => trap cIllegalOp

/-- The NaN elements of a word in a lane (R121). -/
def nanElems (w : LaneWord) (t : Option CTable) (a b : Nat) : Nat :=
  ((partPairs (ETy.get (w.bits 12 8) 0) w.ety (w.bits 4 0)).filter fun ij =>
    (quantise w.ty.toNat (scaleOf w b) t ((ETy.get (w.bits 12 8) 0).value (elemAt (ETy.get (w.bits 12 8) 0).w ij.1 a))).2).length

/-- A saturating rise of the core's NaN counter (R29, R121). -/
def Core.addNans (n : Nat) (c : Core) : Core := { c with nans := BitVec.ofNat 32 (min (c.nans.toNat + n) (2 ^ 32 - 1)) }

def execQnt (w : LaneWord) (s : State) : Answer :=
  laneRun (.qnt w) (fun x w => do
    let t ← wordTable x w
    let st := ETy.get (w.bits 12 8) 0
    let n := (x.parts.map fun i => nanElems w t (x.a w (x.G.lane i)) (x.b w (x.G.lane i))).foldl (· + ·) 0
    computes (fun x w l =>
      l.setV w.vd.toNat
        (convertPart st w.ety (w.bits 4 0) (fun e => (quantise w.ty.toNat (scaleOf w (x.b w l)) t (st.value e)).1) (x.a w l)
          (l.getV w.vd.toNat))) x w
    upd fun s => s.modCore x.T.core (Core.addNans n)) s

def execDqnt (w : LaneWord) (s : State) : Answer :=
  laneRun (.dqnt w) (fun x w => do
    let t ← wordTable x w
    let st := ETy.get (w.bits 12 8) 0
    computes (fun x w l =>
      l.setV w.vd.toNat
        (convertPart st w.ety (w.bits 4 0) (dequantise w.ety.fmt (rmode w) (w.bits 12 8) (scaleOf w (x.b w l)) t) (x.a w l)
          (l.getV w.vd.toNat))) x w) s

end Sys2Proof.Machine
end

