-- ==== Sys2Proof/Machine/LaneAcc.lean ====
section
/-! DEFINITION. Long-accumulator instructions but for ALD and AST (R152–R163). -/

namespace Sys2Proof.Machine

/-- The accumulator VD of a lane changed. -/
def accs (f : LaneCtx → LaneWord → Lane → Acc → Acc) : LaneCtx → LaneWord → Lane → Lane :=
  fun x w l => l.setA w.vd.toNat (f x w l (l.getA w.vd.toNat))

/-- Every element added, in ascending order (R156). -/
def addElems (t : ETy) (a : Acc) (x : Nat) : Acc := (t.elems x).foldl (fun a e => a.add (t.value e)) a
/-- Every element product added, in ascending order (R158). -/
def addProducts (t : ETy) (a : Acc) (x y : Nat) : Acc :=
  ((t.elems x).zip (t.elems y)).foldl (fun a e => a.add ((t.value e.1).mul (t.value e.2))) a

def fxAadd := accs fun x w l a => addElems w.ety a (x.a w l)
def fxAmac := accs fun x w l a => addProducts w.ety a (x.a w l) (x.b w l)

def execAzero (w : LaneWord) (s : State) : Answer := laneRun (.azero w) (computes (accs fun _ _ _ _ => Acc.zero)) s
def execAadd (w : LaneWord) (s : State) : Answer := laneRun (.aadd w) (computes fxAadd) s
def execAmac (w : LaneWord) (s : State) : Answer := laneRun (.amac w) (computes fxAmac) s
def execCres (w : LaneWord) (s : State) : Answer := laneRun (.cres w) (computes (accs fun _ _ _ a => a.resolve)) s

/-- Counters of an image that the manual leaves open (R157), from a free value. -/
def freeCounters (n : Nat) : List (BitVec 16) := (List.range 9).map fun i => BitVec.ofNat 16 (Config.freeNat n >>> (16 * i))

/-- A word whose result's raw image is open (R157): each participant's counters are free values of its own. -/
def freeImages (f : List (BitVec 16) → LaneWord → Lane → Acc) (x : LaneCtx) (w : LaneWord) : M Unit := do
  let n := (← get).free
  upd fun s => { s with free := n + x.G.lanes.length }
  upd fun s => s.modGroup x.c.team x.c.grp fun g =>
    g.mapLanesI x.parts fun i l => l.setA w.vd.toNat (f (freeCounters (n + i)) w l)

def execAadda (w : LaneWord) (s : State) : Answer :=
  laneRun (.aadda w) (freeImages fun c w l => (l.getA w.vd.toNat).adda c (l.getA w.va.toNat)) s
def execAneg (w : LaneWord) (s : State) : Answer :=
  laneRun (.aneg w) (freeImages fun c w l => (l.getA w.va.toNat).negate c) s

/-- The scales of ADOT (R159). -/
def dotScales (w : LaneWord) (c : Nat) : FVal × FVal :=
  if w.bits 17 17 = 1 then (scaleE8 (c % 256), scaleE8 (c / 256 % 256)) else (scaleBf16 (c % 2 ^ 16), scaleBf16 (c / 2 ^ 16 % 2 ^ 16))

/-- The pairs of element indices that the part rule joins; elements past the end of the larger register make no pair (R118, R159). -/
def dotPairs (a b : ETy) (p : Nat) : List (Nat × Nat) :=
  let m := min a.subn b.subn
  ((List.range m).map fun j => (if a.subn > b.subn then p * m + j else j, if b.subn > a.subn then p * m + j else j)).filter fun ij =>
    decide (ij.1 < a.subn) && decide (ij.2 < b.subn)

/-- ADOT's addend (R159). -/
def dotProduct (w : LaneWord) (a b c : Nat) : FVal :=
  let ta := w.ety
  let tb := ETy.get (w.bits 12 8) 0
  let s := dotScales w c
  sumExact ((dotPairs ta tb (w.bits 4 0)).map fun ij =>
    (scaledElem w.ty.toNat s.1 (elemAt ta.w ij.1 a)).mul (scaledElem (w.bits 12 8) s.2 (elemAt tb.w ij.2 b)))

def execAdot (w : LaneWord) (s : State) : Answer :=
  laneRun (.adot w) (computes (accs fun x w l a => a.add (dotProduct w (x.a w l) (x.b w l) (x.cc w l)))) s

/-- VD with one element replaced (R160). -/
def roundInto (w : LaneWord) (f : Lane → Nat) : Lane → Lane :=
  fun l => l.setV w.vd.toNat (setElem w.ety.w (w.bits 4 0) (l.getV w.vd.toNat &&& w.ety.usedMask) (f l))

def execArnd (w : LaneWord) (s : State) : Answer :=
  laneRun (.arnd w) (computes fun _ w l => roundInto w (fun l => (l.getA w.va.toNat).round w.ety.fmt (rmode w)) l) s
def execArndDiv (w : LaneWord) (s : State) : Answer :=
  laneRun (.arndDiv w) (computes fun x w l =>
    roundInto w (fun l => (l.getA w.va.toNat).roundDiv w.ety.fmt (rmode w) (x.b w l)) l) s

/-- A segment of the canonical image, or its c[9] (R162). -/
def Acc.view (a : Acc) (i : Nat) : Nat :=
  let c := a.resolve
  if i < 10 then ((c.seg[i]?).map BitVec.toNat).getD 0 else (((c.cnt[9]?).map fun x => (x.signExtend 64).toNat).getD 0)

def execAseg (w : LaneWord) (s : State) : Answer :=
  laneRun (.aseg w) (computes fun _ w l => l.setV w.vd.toNat ((l.getA w.va.toNat).view (w.bits 3 0))) s

/-- ASTAT's word (R162). -/
def Acc.statWord (a : Acc) : Nat :=
  a.status + (if inOrdinary a.val then 0 else 16) + (if a.val = 0 then 32 else 0) + (if a.val < 0 then 64 else 0)

def execAstat (w : LaneWord) (s : State) : Answer :=
  laneRun (.astat w) (computes fun _ w l => l.setV w.vd.toNat (l.getA w.va.toNat).statWord) s

/-- Whether the integer content fits the type of AGETI with no status bit set (R162). -/
def Acc.fits (a : Acc) (signed : Bool) : Bool :=
  let z := a.content
  a.status == 0 && (if signed then -(2 ^ 63 : Int) ≤ z && z < 2 ^ 63 else 0 ≤ z && z < 2 ^ 64)

def execAgeti (w : LaneWord) (s : State) : Answer :=
  laneRun (.ageti w) (computes fun _ w l =>
    let a := l.getA w.va.toNat
    let l := l.setV w.vd.toNat (wrapNat 64 a.content)
    if w.bits 0 0 = 1 then l.setP w.vc.toNat (!a.fits (w.ty == 6)) else l) s

/-- The exact sum and the status of the participants' accumulators (R163). -/
def LaneCtx.reduce (x : LaneCtx) (w : LaneWord) : Int × Acc :=
  x.parts.foldl (fun r i =>
    let a := (x.G.lane i).getA w.va.toNat
    (r.1 + a.val, r.2.orStatus a)) (0, Acc.zero)

def execAred (w : LaneWord) (s : State) : Answer :=
  laneRun (.ared w) (computes fun x w l =>
    let r := x.reduce w
    l.setA w.vd.toNat
      (if inExtended r.1 then r.2.canonicalOf r.1
       else { (l.getA w.vd.toNat).withStatus r.2.status with ovf := true })) s

end Sys2Proof.Machine
end

