-- ==== Sys2Proof/Machine/LaneMem.lean ====
section
/-! DEFINITION. Lane memory access: loads, stores, accumulator images, atomics, commutative adds and the fence (R161, R166–R174, R327, R328,
R347). -/

namespace Sys2Proof.Machine

/-! ### Addresses -/

/-- ea of R166: a global address wraps at 2^64, a scratchpad offset is unbounded. -/
def laneEa (scratch : Bool) (base : Nat) (off : Int) : Int :=
  if scratch then Int.ofNat (base % 2 ^ 32) + off else (Int.ofNat (base % 2 ^ 64) + off) % (2 ^ 64 : Int)

/-- The signed byte offset imm[23:0] (R169). -/
def offOf (w : LaneWord) : Int := signed 24 (w.bits 23 0)
/-- The scope code of [36:34] (R169). -/
def scopeOf (w : LaneWord) : Nat := w.md.toNat % 8

/-- The requests of a word in its participants. -/
def LaneCtx.reqs (x : LaneCtx) (scratch : Bool) (size align : Nat) (acc : Access) (ea : Lane → Int) : List Req :=
  x.parts.map fun i => { lane := i, scratch := scratch, ea := ea (x.G.lane i), size := size, align := align, acc := acc }

/-! ### The operand log (R327, R328) -/

/-- Whether a part waits in the operand log: its page is absent, or has live entries of the core already (R327). -/
def State.mustLog (s : State) (ctx core : Nat) (p : Part) : Bool := p.isAbsent || (!p.isPeer && s.logHolds ctx core p)

/-- The pieces of a hit that are logged (R252, R328). -/
def State.logged (s : State) (ctx core : Nat) (h : Hit) : List (Nat × Nat) :=
  (h.parts.filter (s.mustLog ctx core)).flatMap fun p => granules p.place.granule (p.len / p.place.granule + 2) p.va p.len

/-- Whether a part can be accessed now. -/
def State.atHand (s : State) (ctx core : Nat) (p : Part) : Bool := !s.mustLog ctx core p && !p.isPeer && !p.isHeld

/-- A word about to access its located addresses (R327, R333): it stalls for a line the host holds, for room in the operand log, and, ordered, for
every page and for every earlier access of its lanes that is not performed. A word that finds too little room is from then on performed whole, once its
pages are at hand. An operation of the logical clock is not logged either: it is performed before its group's clock moves on (R395). -/
def prepare (x : LaneCtx) (hits : List Hit) (ordered : Bool) (clocked : Bool := false) : M Unit := do
  let s ← get
  let n := (hits.map fun h => (s.logged x.L.ctx x.T.core h).length).foldl (· + ·) 0
  let room := 64 - ((s.cores[x.T.core]?).map fun c => c.oplog.length).getD 0
  reportHits hits
  if n > room then upd fun s => s.modGroup x.c.team x.c.grp fun g => { g with whole := true }
  if (hits.any fun h => h.parts.any (·.isHeld)) || ((ordered || clocked || x.G.whole) && n > 0) || n > room then stallOn .page
  if ordered && s.laneBusy x.c.team x.c.grp x.T.core x.parts then stallOn .fence

/-- The flag that an entry's completion lowers (R328). -/
def Group.tagFlag (g : Group) (store : Bool) : Nat :=
  match g.clause with
  | none => 255
  | some c => (((g.tags.find? fun t => t.id == c.tag).bind fun t => if store then t.fb else t.fa)).getD 255

/-- The operand-log entries of a hit. -/
def logEntries (x : LaneCtx) (s : State) (h : Hit) (kind reg sub scope id : Nat) (op : Word) (data : List Byte) : List LogEntry :=
  (s.logged x.L.ctx x.T.core h).map fun p =>
    { team := x.c.team, grp := x.c.grp, va := p.1, lpc := x.G.lanePc, lane := h.req.lane
      flag := x.G.tagFlag (kind == 1 || kind ≥ 5), kind := kind, size := p.2, reg := reg
      off := if kind == 1 || kind ≥ 5 then 0 else p.1 - h.req.ea.toNat, sub := sub
      scope := scope, op := op, data := (data.drop (p.1 - h.req.ea.toNat)).take p.2, id := id }

/-- An entry of a load or store. -/
def LogEntry.withId (id : Nat) (e : LogEntry) : LogEntry := { e with id := id }

/-- Entries appended to the core's log. -/
def State.logAll (s : State) (core : Nat) (es : List LogEntry) : State := s.modCore core fun c => { c with oplog := c.oplog ++ es }

/-! ### Loads -/

/-- A list of bytes with a stretch replaced. -/
def patch (b : List Byte) (off : Nat) (d : List Byte) : List Byte := b.take off ++ d ++ b.drop (off + d.length)

/-- The bytes of a hit that are at hand, zeros standing where they are still to come. -/
def State.bytesAtHand (s : State) (ctx core t : Nat) (h : Hit) : List Byte :=
  if h.req.scratch then s.readHit t h
  else h.parts.flatMap fun p => if s.atHand ctx core p then s.readPart p else List.replicate p.len 0

/-- A request that a word makes of another device: the access it stands for, its first address, its heap place, its length and what it asks. -/
structure PeerReq where
  hit : Hit
  va  : Nat
  dev : Nat
  off : Nat
  len : Nat
  op  : FabricOp
deriving DecidableEq, Repr

/-- The requests of the parts of the hits that lie in other devices' heaps. -/
def peerReqs (hits : List Hit) (op : Hit → Part → FabricOp) : List PeerReq :=
  hits.flatMap fun h => h.parts.filterMap fun p =>
    match p.place with
    | .peer dev off => some { hit := h, va := p.va, dev := dev, off := off, len := p.len, op := op h p }
    | _ => none

/-- The rank of a failure among the checks of R167: an address comes before a permission, and a link last. -/
def Nack.rank (n : Nack) : Nat := if n.cause = cAddrFault then 0 else if n.cause = cAccessFault then 1 else 2

/-- What a trap reports of the failed pieces of a word (R167, R347): the earliest check's failures, the lanes that fail it, the lowest of them. -/
def worstNack (ns : List Nack) : Option (Nack × Nat) :=
  let r := ns.foldl (fun r n => min r n.rank) 2
  let bad := ns.filter fun n => n.rank == r
  (bad.foldl (fun (b : Option Nack) n =>
      match b with
      | none => some n
      | some m => if n.lane < m.lane then some n else some m) none).map fun n => (n, maskLanes (bad.map (·.lane)))

/-- The answers that a word waits for before it takes effect (R347): requested once, then taken when all have come. The answer is the record of the
bytes received; none where the word needs none. `late` counts what the word itself has still to perform here (R253). -/
def awaitPeers (x : LaneCtx) (hits : List Hit) (rs : List PeerReq) (size : Nat) (late : Nat := 0) : M (Option LoadRec) := do
  match x.G.loads.find? (·.blocks), rs with
  | some r, _ =>
    if r.waiting ≠ 0 then stallOn .remote
    upd fun s => s.modGroup x.c.team x.c.grp fun g => { g with loads := g.loads.filter fun l => l.id != r.id }
    match worstNack r.nacks with
    | some (n, m) =>
      let ea := (hits.find? fun h => h.req.lane == n.lane).map fun h => h.req.ea
      trap n.cause (BitVec.ofNat 64 m) (BitVec.ofInt 64 (ea.getD 0)) (BitVec.ofNat 64 n.info)
    | none => return some r
  | none, rs =>
    if rs.length + late = 0 then return none
    let id := x.G.nextRec
    let rec' : LoadRec :=
      { id := id, tag := 0, waiting := rs.length + late, nacks := [], blocks := true
        dsts := hits.map fun h => { lane := h.req.lane, acc := false, reg := 0, ty := 0, bytes := List.replicate size 0 } }
    upd fun s => s.modGroup x.c.team x.c.grp fun g => { g with loads := g.loads ++ [rec'], nextRec := id + 1 }
    for q in rs do
      upd fun s => s.sendRemote
        { Remote.of x.c.team x.c.grp q.dev q.off q.len x.G.lanePc with
            load := some (id, q.hit.req.lane, q.va - q.hit.req.ea.toNat), lane := q.hit.req.lane } q.op
    stallOn .remote

/-- Whether the word's answers have been asked for already, so that it is not logged twice. -/
def LaneCtx.asked (x : LaneCtx) : Bool := x.G.loads.any (·.blocks)

/-- The bytes of a lane in a record of answers. -/
def LoadRec.laneBytes (r : LoadRec) (lane : Nat) : List Byte := ((r.dsts.find? fun d => d.lane == lane).map (·.bytes)).getD []

/-- The bytes of a hit with the peers' answers in their places. -/
def withAnswers (r : Option LoadRec) (h : Hit) (b : List Byte) : List Byte :=
  match r with
  | none => b
  | some r =>
    (h.parts.filter (·.isPeer)).foldl (fun b p =>
      let o := p.va - h.req.ea.toNat
      patch b o (((r.laneBytes h.req.lane).drop o).take p.len)) b

/-- A load or atomic of a scope enters the group's list of accesses in flight, with `late` pieces to be read yet; with nothing outstanding its data returns
at once (R53, R264). -/
def enterLoad (x : LaneCtx) (dsts : List LoadDst) (es : List LogEntry) (late scope : Nat) : M Unit := do
  let id := ((← get).group? x.c.team x.c.grp).elim 0 (·.nextRec)
  let tag := (x.G.clause.map (·.tag)).getD 0
  upd fun s => s.modGroup x.c.team x.c.grp fun g =>
    Group.modTag
      { g with loads := g.loads ++ [{ id := id, tag := tag, dsts := dsts, waiting := es.length + late, nacks := [], blocks := false }], nextRec := id + 1 } tag
      fun t => { t with loads := t.loads + 1, lscope := max t.lscope scope }
  upd fun s => s.logAll x.T.core (es.map (LogEntry.withId id))
  if es.length + late = 0 then upd fun s => s.post (.loadDataReturn x.c.team x.c.grp id)

/-- The reads of a hit's parts at hand. -/
def State.readsAtHand (s : State) (ctx core t : Nat) (h : Hit) : ReadAt := { h with parts := h.parts.filter (s.atHand ctx core) }.readAt t

/-- A lane load (R166–R168, R253): the kind names it in the operand log. One of the logical clock is performed before its group's clock moves on (R395). -/
def laneLoad (x : LaneCtx) (reqs : List Req) (acc : Bool) (reg ty kind scope : Nat) (acq : Bool) : M Unit := do
  let stamp ← if acq then orderedWait else pure 0
  let hits ← checkAccess reqs
  prepare x hits acq
  if acq && !x.asked then orderedLog 3 stamp
  let size := (reqs.head?.map (·.size)).getD 0
  let r ← awaitPeers x hits (peerReqs hits fun _ p => .read p.len) size
  if acq then
    let a ← hereAgent
    upd fun s => s.acquire a (effScope hits scope)
  let s ← get
  let dsts := hits.map fun h =>
    { lane := h.req.lane, acc := acc, reg := reg, ty := ty
      bytes := withAnswers r h (s.bytesAtHand x.L.ctx x.T.core x.c.team h) }
  let (s', late) := s.readsApart (acq && x.L.detm == 2) { Apart.of x.c 0 with load := some x.G.nextRec }
    (hits.map (s.readsAtHand x.L.ctx x.T.core x.c.team))
  set s'
  enterLoad x dsts (hits.flatMap fun h => logEntries x s h kind reg ty scope 0 0 []) late (if acq then effScope hits scope else 0)

/-- LD in either space. -/
def laneLdFx (scratch : Bool) (x : LaneCtx) (w : LaneWord) : M Unit :=
  let size := w.ety.w / 8 * w.count
  laneLoad x
    (x.reqs scratch size (if w.rm = 1 then (if w.count > 1 then 8 else size) else 1) .read fun l => laneEa scratch (x.a w l) (offOf w))
    false w.vd.toNat w.ty.toNat 0 (scopeOf w) (w.rm == 1)

def execLaneLd (w : LaneWord) (s : State) : Answer := laneRun (.laneLd w) (laneLdFx false) s
def execLaneLds (w : LaneWord) (s : State) : Answer := laneRun (.laneLds w) (laneLdFx true) s

/-! ### Stores -/

/-- The data of each lane with every byte that a higher lane also stores replaced by that lane's: the lower lanes' stores to it are not
performed (R168). -/
def topData (ds : List (Hit × List Byte)) : List (Hit × List Byte) :=
  let top (a : Int) (own : Byte) : Byte :=
    (ds.foldl (fun (v : Option Byte) hd =>
      let o := a - hd.1.req.ea
      if 0 ≤ o && o < hd.1.req.size then hd.2[o.toNat]? else v) none).getD own
  ds.map fun hd => (hd.1, (indexed 0 hd.2).map fun ib => top (hd.1.req.ea + ib.1) ib.2)

/-- The parts of a hit at hand written as one. -/
def State.writeAtHand (s : State) (ctx core t : Nat) (h : Hit) (b : List Byte) (stamp : Nat) : State :=
  if h.req.scratch then s.writeHit t h b stamp
  else
    h.parts.foldl (fun s' p =>
      if s.atHand ctx core p then s'.writePart p ((b.drop (p.va - h.req.ea.toNat)).take p.len) stamp else s') s

/-- A store or commutative add of a scope enters the group's list; with nothing outstanding it is performed at once (R53, R264). -/
def enterStore (x : LaneCtx) (es : List LogEntry) (remote scope : Nat) : M Nat := do
  let id := ((← get).group? x.c.team x.c.grp).elim 0 (·.nextRec)
  let tag := (x.G.clause.map (·.tag)).getD 0
  upd fun s => s.modGroup x.c.team x.c.grp fun g =>
    Group.modTag { g with stores := g.stores ++ [{ id := id, tag := tag, waiting := es.length + remote, nacks := [] }], nextRec := id + 1 } tag
      fun t => { t with stores := t.stores + 1, sscope := max t.sscope scope }
  upd fun s => s.logAll x.T.core (es.map (LogEntry.withId id))
  if es.length + remote = 0 then upd fun s => s.post (.storePerformed x.c.team x.c.grp id)
  return id

/-- The requests of a store or commutative add sent to other devices (R250, R345). -/
def sendStores (x : LaneCtx) (id : Nat) (rs : List PeerReq) : M Unit := do
  for q in rs do
    upd fun s => s.sendRemote
      { Remote.of x.c.team x.c.grp q.dev q.off q.len x.G.lanePc with store := some id, lane := q.hit.req.lane } q.op

/-- The stretches of a range that no later access stores to. -/
def freeRuns (later : List Hit) (va len : Nat) : List (Nat × Nat) :=
  if later.all fun h => decide (h.req.ea + h.req.size ≤ (va : Int) ∨ (va + len : Int) ≤ h.req.ea) then [(va, len)]
  else
  (((List.range len).map (va + ·)).filter fun a : Nat => !later.any fun h => decide (h.req.ea ≤ (a : Int) ∧ (a : Int) < h.req.ea + h.req.size)).foldr
    (fun a rs => match rs with
      | (b, n) :: rest => if a + 1 = b then (a, n + 1) :: rest else (a, 1) :: (b, n) :: rest
      | [] => [(a, 1)]) []

/-- What a store asks of other devices: of each byte, the write of the highest lane alone (R168). -/
def peerStores : List (Hit × List Byte) → List PeerReq
  | [] => []
  | (h, b) :: rest =>
    (h.parts.flatMap fun p =>
      match p.place with
      | .peer dev off => (freeRuns (rest.map (·.1)) p.va p.len).map fun r =>
          { hit := h, va := r.1, dev := dev, off := off + (r.1 - p.va), len := r.2, op := .write ((b.drop (r.1 - h.req.ea.toNat)).take r.2) }
      | _ => []) ++ peerStores rest

/-- The blocks of each lane's store (R253): its parts that are at hand, without the bytes that a higher lane stores (R168). -/
def storeBlocks (t : Nat) (atHand : Part → Bool) : List (Hit × List Byte) → List (List Block)
  | [] => []
  | (h, b) :: rest =>
    let later := rest.map (·.1)
    let bytes (r : Nat × Nat) : List Byte := (b.drop (r.1 - h.req.ea.toNat)).take r.2
    (if h.req.scratch then (freeRuns later h.req.ea.toNat h.req.size).flatMap fun r => padBlocks t r.1 (bytes r)
     else h.parts.flatMap fun p =>
       if atHand p then (freeRuns later p.va p.len).flatMap fun r => partBlocks (p.sub r.1 r.2) (bytes r) else []) :: storeBlocks t atHand rest

/-- A lane store (R166–R168, R253). Under mode 2 a releasing store retires once each of its pieces is performed, at another device's answer too (R395). -/
def laneStore (x : LaneCtx) (reqs : List Req) (data : List (List Byte)) (kind sub scope : Nat) (rel : Bool) : M Unit := do
  let stamp ← if rel then orderedWait else pure 0
  let hits ← checkAccess reqs
  prepare x hits rel
  if rel && !x.asked then orderedLog 4 stamp
  let ds := topData (hits.zip data)
  let clocked := rel && x.L.detm == 2
  let rs := peerStores ds
  let s ← get
  let blocks := if clocked && x.asked then [] else storeBlocks x.c.team (s.atHand x.L.ctx x.T.core) (hits.zip data)
  let own := some x.G.nextRec
  let (s', late) := s.putApart false { Apart.of x.c stamp with store := if clocked then none else own, load := if clocked then own else none } blocks
  set s'
  if clocked then
    let _ ← awaitPeers x hits rs 0 late.toNat
  let id ← enterStore x (ds.flatMap fun hd => logEntries x s hd.1 kind 0 sub scope 0 0 hd.2) (if clocked then 0 else rs.length + late.toNat)
    (if rel then effScope hits scope else 0)
  if !clocked then sendStores x id rs

/-- The data of ST in a lane: the low bytes of each register (R166). -/
def storeData (x : LaneCtx) (w : LaneWord) (l : Lane) : List Byte :=
  (List.range w.count).flatMap fun n =>
    toBytes (w.ety.w / 8) (if n = 0 then x.b w l else l.getV (w.vb.toNat + n))

/-- ST in either space. -/
def laneStFx (scratch : Bool) (x : LaneCtx) (w : LaneWord) : M Unit :=
  let size := w.ety.w / 8 * w.count
  laneStore x
    (x.reqs scratch size (if w.rm = 2 then (if w.count > 1 then 8 else size) else 1) .write fun l => laneEa scratch (x.a w l) (offOf w))
    (x.parts.map fun i => storeData x w (x.G.lane i)) 1 0 (scopeOf w) (w.rm == 2)

def execLaneSt (w : LaneWord) (s : State) : Answer := laneRun (.laneSt w) (laneStFx false) s
def execLaneSts (w : LaneWord) (s : State) : Answer := laneRun (.laneSts w) (laneStFx true) s

/-! ### Accumulator images (R161) -/

/-- The requests of ALD and AST. -/
def imageReqs (x : LaneCtx) (w : LaneWord) (acc : Access) : List Req :=
  x.reqs (w.md == 1) 128 128 acc fun l => Int.ofNat (x.a w l + 128 * w.bits 15 0)

def execAld (w : LaneWord) (s : State) : Answer :=
  laneRun (.ald w) (fun x w => laneLoad x (imageReqs x w .read) true w.vd.toNat 0 4 0 false) s
def execAst (w : LaneWord) (s : State) : Answer :=
  laneRun (.ast w) (fun x w =>
    laneStore x (imageReqs x w .write) (x.parts.map fun i => ((x.G.lane i).getA w.vd.toNat).bytes) 5 0 0 false) s

/-! ### Atomics (R171) -/

/-- The element's requests of ATOM and CAS. -/
def atomReqs (x : LaneCtx) (w : LaneWord) : List Req :=
  let size := w.ety.w / 8
  let sp := w.bits 24 24 == 1
  x.reqs sp size size .atomic fun l => laneEa sp (x.a w l) (offOf w)

/-- A read-modify-write in each lane, in ascending order, each seeing the lanes before it: the old bytes are what VD receives. `f` computes the new
value in a lane, `op` the request to another device, `entry` the operands that an operand-log entry keeps. -/
def laneAtomic (x : LaneCtx) (w : LaneWord) (kind logKind sub : Nat) (f : Lane → Nat → Nat) (op : Lane → FabricOp)
    (entry : Lane → Word × List Byte) : M Unit := do
  atomicAllowed
  let ordered := w.rm != 0
  let stamp ← orderedWait
  let hits ← checkAccess (atomReqs x w)
  prepare x hits ordered (x.L.detm == 2)
  if !x.asked then orderedLog logKind stamp
  let size := w.ety.w / 8
  let r ← awaitPeers x hits (peerReqs hits fun h _ => op (x.G.lane h.req.lane)) size
  if w.rm = 1 || w.rm = 3 then
    let a ← hereAgent
    upd fun s => s.acquire a (effScope hits (scopeOf w))
  let s ← get
  let (dsts, s') := hits.foldl (fun (acc : List LoadDst × State) h =>
    let old := withAnswers r h (acc.2.bytesAtHand x.L.ctx x.T.core x.c.team h)
    let new := toBytes size (f (x.G.lane h.req.lane) (ofBytes old))
    (acc.1 ++ [{ lane := h.req.lane, acc := false, reg := w.vd.toNat, ty := w.ty.toNat, bytes := old }],
      acc.2.writeAtHand x.L.ctx x.T.core x.c.team h new stamp)) ([], s)
  set s'
  enterLoad x dsts (hits.flatMap fun h =>
    let e := entry (x.G.lane h.req.lane)
    (logEntries x s h kind w.vd.toNat sub (scopeOf w) 0 e.1 e.2)) 0 (if ordered then effScope hits (scopeOf w) else 0)

def execLaneAtom (op : AtomOp) (w : LaneWord) (s : State) : Answer :=
  laneRun (.laneAtom op w) (fun x w =>
    let b (l : Lane) : Nat := x.b w l % 2 ^ w.ety.w
    laneAtomic x w 2 1 op.code (fun l old => atomValue op w.ety.isSigned w.ety.w old (b l))
      (fun l => .atom op w.ety.isSigned (w.ety.w / 8) (BitVec.ofNat 64 (b l))) (fun l => (BitVec.ofNat 64 (b l), []))) s

def execLaneCas (w : LaneWord) (s : State) : Answer :=
  laneRun (.laneCas w) (fun x w =>
    let b (l : Lane) : Nat := x.b w l % 2 ^ w.ety.w
    let c (l : Lane) : Nat := x.cc w l % 2 ^ w.ety.w
    laneAtomic x w 3 2 0 (fun l old => if old = c l then b l else old)
      (fun l => .cas (w.ety.w / 8) (BitVec.ofNat 64 (b l)) (BitVec.ofNat 64 (c l)))
      (fun l => (BitVec.ofNat 64 (b l), toBytes 8 (c l)))) s

/-! ### Commutative adds (R40, R41, R173) -/

/-- The type code that stands for a whole accumulator image as an addend. -/
def tyAcc : Nat := 31

/-- An element after its addends; none where the element's kind does not admit their type (R173). -/
def addInto (kind ty : Nat) (addends : List (List Byte)) (old : List Byte) : Option (List Byte) :=
  if kind = 1 then
    some (if ty = tyAcc then (addends.foldl (fun a b => a.merge (Acc.ofBytes b)) (Acc.ofBytes old)).bytes
      else (addends.foldl (fun a b => a.add ((ETy.get ty 0).value (ofBytes b))) (Acc.ofBytes old)).bytes)
  else if ty = tyAcc || tysF.contains ty then none
  else
    let z := addends.foldl (fun (z : Int) b => z + (ETy.get ty 0).int (ofBytes b)) (ofBytes old)
    some (toBytes (elemBytes kind) (wrapNat (8 * elemBytes kind) z))

/-- The kind of the page at an address; none where it cannot be told on this device (R173). -/
def kindAt (a : Agent) (ea : Int) : M (Option Part) := do
  if ea < 0 || ea ≥ 2 ^ 56 then return none
  match (← get).locate { a with adds := true } ea.toNat 1 true with
  | (.parts (p :: _), s) => set s; return some p
  | (_, s) => set s; return none

/-- The request of a RADD in a lane: its natural size is that of the element its page holds (R173). -/
def raddReq (a : Agent) (lane : Nat) (ea : Int) : M Req := do
  match ← kindAt a ea with
  | some p =>
    let n := if p.isPeer || p.isAbsent then 1 else elemBytes p.kind
    return { lane := lane, scratch := false, ea := ea, size := n, align := n, acc := .radd }
  | none => return { lane := lane, scratch := false, ea := ea, size := 1, align := 1, acc := .radd }

/-- A located element after its addends. -/
def State.mergeAt (s : State) (p : Part) (ty : Nat) (addends : List (List Byte)) : Option State :=
  let n := elemBytes p.kind
  match p.place with
  | .hbm pa => (addInto p.kind ty addends (cellsOpen p.key s.mem pa n)).map fun b => (s.pokeMem false pa b p.key).wakeFrom s 0
  | .host pa => (addInto p.kind ty addends (cellsRead s.hostMem pa n)).map (s.writeMem true pa)
  | _ => some s

/-- An add of a thread (R333, R334): it enters a partial of its core's L1. A word that a parked WAITA monitors is combined at once, so that the wait
sees it. -/
def State.enterAdd (s : State) (a : Agent) (p : Part) (ty : Nat) (addends : List (List Byte)) : State :=
  let core := ((a.lineCore p.va).orElse fun _ => a.core).getD 0
  let add (host : Bool) (pa : Nat) : State :=
    let zero := if p.kind = 1 then Acc.zero.bytes else List.replicate (elemBytes p.kind) 0
    let s' := s.addPartial core host pa p.kind p.cls p.key zero fun old => (addInto p.kind ty addends old).getD old
    let seen (m : Mon) : Bool := match m with
      | .hbm _ x => !host && decide (pa < x + 8 ∧ x < pa + elemBytes p.kind)
      | .host x => host && decide (pa < x + 8 ∧ x < pa + elemBytes p.kind)
      | .scratch _ _ => false
    if s'.teams.any fun T => T.groups.any fun g => g.park.any fun k => k.mons.any seen then s'.combine (Partial.meets host pa (elemBytes p.kind)) else s'
  match p.place with
  | .hbm pa => add false pa
  | .host pa => add true pa
  | _ => s

/-- Whether a located element takes addends of a type; the kind of a page that is not resident shows once it is. -/
def takesType (ty : Nat) (h : Hit) : Bool := h.parts.all fun p => p.isPeer || p.isAbsent || p.kind == 1 || !(ty == tyAcc || tysF.contains ty)

/-- A release by the lanes of a word (R264): it waits until their earlier accesses are performed. -/
def releaseLanes (x : LaneCtx) : M Unit := do
  if (← get).laneBusy x.c.team x.c.grp x.T.core x.parts then stallOn .fence

/-- Commutative adds of addends at addresses, in lane order; those that release do so at a scope, once the lanes' earlier accesses are performed (R173,
R264, MST.add of R203). -/
def laneAdds (x : LaneCtx) (adds : List (Nat × Int × List (List Byte))) (ty : Nat) (rel : Option Nat) : M Unit := do
  if rel.isSome then releaseLanes x
  let a ← hereAgent
  let reqs ← adds.mapM fun ad => raddReq a ad.1 ad.2.1
  let hits ← checkAccess reqs (takesType ty)
  reportHits hits
  let s ← get
  if hits.any (·.waitsHere s a) then stallOn .page
  let pairs := hits.zip adds
  upd fun s => pairs.foldl (fun s hd => hd.1.parts.foldl (fun s p => s.enterAdd a p ty hd.2.2.2) s) s
  let rs := pairs.flatMap fun hd => peerReqs [hd.1] fun _ _ => .radd hd.2.2.2 ty
  let id ← enterStore x [] rs.length (rel.elim 0 (effScope hits))
  sendStores x id rs

/-- The scope of a word's release; none where it does not release. -/
def relScope (w : LaneWord) : Option Nat := if w.rm = 2 then some (scopeOf w) else none

def execRadd (w : LaneWord) (s : State) : Answer :=
  laneRun (.radd w) (fun x w =>
    laneAdds x (x.parts.map fun i =>
      let l := x.G.lane i
      (i, laneEa false (x.a w l) (offOf w), (w.ety.elems (x.b w l)).map fun e => toBytes ((w.ety.w + 7) / 8) e)) w.ty.toNat (relScope w)) s

def execRaddAcc (w : LaneWord) (s : State) : Answer :=
  laneRun (.raddAcc w) (fun x w =>
    laneAdds x (x.parts.map fun i =>
      let l := x.G.lane i
      (i, laneEa false (x.a w l) (offOf w), [(l.getA w.vb.toNat).bytes])) tyAcc (relScope w)) s

/-! ### The fence (R174) -/

def execLaneFence (w : LaneWord) (s : State) : Answer :=
  laneRun (.laneFence w) (fun x w => do
    releaseLanes x
    acquireHere (scopeOf w)) s

end Sys2Proof.Machine
end

