-- ==== Sys2Proof/Machine/ClauseEvents.lean ====
section
/-! DEFINITION. Runs, clauses and the completion of lane accesses: RUN_START, CLAUSE_START, LOAD_DATA_RETURN, STORE_PERFORMED (R52–R54). -/

namespace Sys2Proof.Machine

/-- A computation of a stream that an event sets off. -/
def asStream (t g : Nat) (st : Stream) (m : M Unit) (s : State) : Answer := m.answer { s with cur := some ⟨t, g, st⟩ }

/-- The group starts its next enqueued run (R53). -/
def Group.nextRun (g : Group) : Group :=
  match g.run, g.runs with
  | none, r :: rest => { g with run := some r, runs := rest }
  | _, _ => g

/-- RUN_START (R53). -/
def execRunStart (t g : Nat) (s : State) : Answer :=
  match s.group? t g with
  | some G => if G.gone then .next s else .next (s.modGroup t g Group.nextRun)
  | none => .next s

/-- A clause begins: its flags rise, and its accesses will be counted (R53). -/
def Group.beginClause (g : Group) (addr : Nat) (h : Header) : Group :=
  let raise (o : Option Nat) (g : Group) : Group := match o with
    | some n => g.raiseFlag n
    | none => g
  let tag : Tag := { id := g.nextTag, fa := h.fa, fb := h.fb, loads := 0, stores := 0, lscope := 0, sscope := 0, ended := false }
  { raise h.fb (raise h.fa g) with
      clause := some { header := addr, next := addr + 1, stop := addr + 1 + h.len, tag := g.nextTag }
      tags := g.tags ++ [tag], nextTag := g.nextTag + 1, stallL := none }

/-- Whether a flag can be raised: a count of 255 stalls (R54). -/
def Group.canRaise (g : Group) (o : Option Nat) : Bool := o.all fun n => decide (g.flag n < 255)

/-- CLAUSE_START (R52, R53): an illegal header traps before any flag changes; an unmet wait mask stalls. The start after the wait is an acquire at the
scope of the completions it observes (R54, R264). -/
def execClauseStart (t g : Nat) (s : State) : Answer :=
  match s.group? t g with
  | none => .next s
  | some G =>
    match G.gone, G.clause, G.run with
    | false, none, some r =>
      asStream t g .lane (do
        match ← headerAt r.target.toNat with
        | none => trap cIllegalHeader
        | some h =>
          if !((List.range 12).all fun n => !h.wait.getLsbD n || G.flag n == 0) then stallOn .flag
          if !(G.canRaise h.fa && G.canRaise h.fb) then stallOn .flag
          acquireHere (G.observed h.wait)
          upd fun s => (s.modGroup t g fun g => g.beginClause r.target.toNat h).traceGroup t g 2 h.id.toNat G.ric.toNat) s
    | _, _, _ => .next s

/-- Loaded bytes as a register of a type (R166): signed integers sign-extended, all others zero-extended. -/
def loadedWord (ty : Nat) (b : List Byte) : Nat :=
  let t := ETy.get ty 0
  if t.kind == .sint then wrapNat 64 (signed (8 * b.length) (ofBytes b)) else ofBytes b

/-- The registers that a destination's bytes fill (R166). -/
def Lane.land (l : Lane) (d : LoadDst) : Lane :=
  if d.acc then l.setA d.reg (Acc.ofBytes d.bytes)
  else if d.bytes.length ≤ 8 then l.setV d.reg (loadedWord d.ty d.bytes)
  else (List.range (d.bytes.length / 8)).foldl (fun l n => l.setV (d.reg + n) (ofBytes ((d.bytes.drop (8 * n)).take 8))) l

/-- The destinations of a load written, and its clause's count lowered (R53). -/
def Group.landLoad (g : Group) (r : LoadRec) : Group :=
  let lanes := r.dsts.foldl (fun ls d => modifyAt (fun l => Lane.land l d) d.lane ls) g.lanes
  (Group.modTag { g with lanes := lanes, loads := g.loads.filter fun l => l.id != r.id } r.tag
    fun t => { t with loads := t.loads - 1 }).settleTags

/-- The poison of the registers that a load writes whole is cleared (R387). -/
def State.cleanLoad (s : State) (t g : Nat) (r : LoadRec) : State :=
  if s.poison.isEmpty then s
  else { s with poison := s.poison.filter fun u =>
    match u with
    | .vreg t' g' l i => !(t' == t && g' == g && r.dsts.any fun d =>
        !d.acc && d.lane == l && decide (d.reg ≤ i ∧ i < d.reg + max 1 (d.bytes.length / 8)))
    | .acc t' g' l i => !(t' == t && g' == g && r.dsts.any fun d => d.acc && d.lane == l && d.reg == i)
    | _ => true }

/-- LOAD_DATA_RETURN (R53). -/
def execLoadDataReturn (t g id : Nat) (s : State) : Answer :=
  match (s.group? t g).bind fun G => G.loads.find? fun l => l.id == id && !l.blocks && l.waiting == 0 with
  | some r => .next (((s.modGroup t g fun G => G.landLoad r).cleanLoad t g r).settleTeam t)
  | none => .next s

/-- A store performed: its clause's count is lowered (R53, R54). -/
def Group.landStore (g : Group) (r : StoreRec) : Group :=
  (Group.modTag { g with stores := g.stores.filter fun x => x.id != r.id } r.tag fun t => { t with stores := t.stores - 1 }).settleTags

/-- STORE_PERFORMED (R54). -/
def execStorePerformed (t g id : Nat) (s : State) : Answer :=
  match (s.group? t g).bind fun G => G.stores.find? fun x => x.id == id && x.waiting == 0 with
  | some r => .next ((s.modGroup t g fun G => G.landStore r).settleTeam t)
  | none => .next s

/-- The failed pieces of an access reported once every other piece of it is performed (R327, R347): a deferred trap, with the word in TLPC and
TINFO[62] set; those of a killed group, or of a team that has ended, are discarded (R376, R384). -/
def State.raiseLost (t g : Nat) (store : Bool) (id : Nat) (ns : List Nack) (s : State) : State :=
  match worstNack ns, s.group? t g with
  | some (n, m), some G =>
    if G.killed || (s.team? t).any (·.state == .ended) then s.discardLost t g (some (store, id))
    else
      let low := ns.foldl (fun (a : Nat) k => if k.rank = n.rank then min a k.addr.toNat else a) n.addr.toNat
      (s.modGroup t g Group.unpark).holdTrap t
        { cause := n.cause, grp := g, lane := true, tlpc := n.lpc, tlane := BitVec.ofNat 64 m, taddr := BitVec.ofNat 64 low
          tinfo := BitVec.ofNat 64 (2 ^ 62 + n.info), tick := s.tick, async := true, cmd := none, lost := some (store, id) }
  | _, _ => s

/-- What follows when a late piece of a load is settled. -/
def State.checkLoad (t g id : Nat) (s : State) : State :=
  match (s.group? t g).bind fun G => G.loads.find? fun r => r.id == id with
  | some r =>
    if r.blocks || r.waiting ≠ r.nacks.length then s
    else if r.nacks.isEmpty then s.post (.loadDataReturn t g id)
    else s.raiseLost t g false id r.nacks
  | none => s

/-- What follows when a late piece of a store is settled. -/
def State.checkStore (t g id : Nat) (s : State) : State :=
  match (s.group? t g).bind fun G => G.stores.find? fun r => r.id == id with
  | some r =>
    if r.waiting ≠ r.nacks.length then s
    else if r.nacks.isEmpty then s.post (.storePerformed t g id)
    else s.raiseLost t g true id r.nacks
  | none => s

/-- A piece of a load that arrives late (R327, R347): its bytes join the destination, and with the last the data returns. -/
def State.pieceLoaded (s : State) (t g id lane off : Nat) (b : List Byte) : State :=
  (s.modGroup t g fun G =>
    { G with loads := G.loads.map fun r =>
        if r.id = id then
          { r with waiting := r.waiting - 1
                   dsts := r.dsts.map fun d => if d.lane = lane then { d with bytes := patch d.bytes off b } else d }
        else r }).checkLoad t g id

/-- A piece of a load that fails: a word that blocks for it takes the trap itself. -/
def State.pieceLost (s : State) (t g id : Nat) (n : Nack) : State :=
  (s.modGroup t g fun G =>
    { G with loads := G.loads.map fun r =>
        if r.id = id then { r with waiting := if r.blocks then r.waiting - 1 else r.waiting, nacks := r.nacks ++ [n] } else r }).checkLoad
    t g id

/-- A piece of a store that is performed late. -/
def State.pieceStored (s : State) (t g id : Nat) : State :=
  (s.modGroup t g fun G =>
    { G with stores := G.stores.map fun r => if r.id = id then { r with waiting := r.waiting - 1 } else r }).checkStore t g id

/-- A piece of a store that fails. -/
def State.storeLost (s : State) (t g id : Nat) (n : Nack) : State :=
  (s.modGroup t g fun G =>
    { G with stores := G.stores.map fun r => if r.id = id then { r with nacks := r.nacks ++ [n] } else r }).checkStore t g id

end Sys2Proof.Machine
end

