-- ==== Sys2Proof/Machine/ScalarMem.lean ====
section
/-! DEFINITION. Scalar memory access (R83–R86). -/

namespace Sys2Proof.Machine

/-- Whether the current stream waits for another device's answer to this instruction (R250). -/
def waitingRemote : M Bool := do
  let (c, _, _) ← here
  return (← get).remotes.any fun r => r.team == c.team && r.grp == c.grp && r.sreg.any fun x => x.1 == c.stream

/-- A scalar access of another device that blocks: the request is sent once, and the stream goes on with the answer, which one that acquires does
then (R71, R250, R264). -/
def remoteScalar (h : Hit) (sd : SReg) (ext : Nat) (op : FabricOp) (acq : Option Nat := none) : M Unit := do
  let (c, _, G) ← here
  match h.parts with
  | { place := .peer dev off, .. } :: _ =>
    upd fun s => s.sendRemote { Remote.of c.team c.grp dev off h.req.size G.lanePc with sreg := some (c.stream, sd.toNat, ext), acq := acq } op
    stallOn .remote
  | _ => noStream

/-- A scalar read whose pieces are not all performed now (R253): the stream goes on with the last of them (notes/assumptions/4). -/
def readsLate (h : Hit) (sd : SReg) (ext : Nat) : M Bool := do
  let (c, _, _) ← here
  let s ← get
  let (s', n) := s.readsApart false { Apart.of c 0 with sload := some (sd.toNat, ext, s.readHit c.team h) } [h.readAt c.team]
  set s'
  return n ≠ 0

/-- A scalar load (R83, R84): checked, then blocked while its page or its remote answer is awaited, then the whole register written. -/
def scalarLoad (scratch : Bool) (ea : Int) (z : LoadSize) (align : Nat) (sd : SReg) (acq : Option Nat) : M Unit := do
  if ← waitingRemote then stallOn .remote
  let stamp ← match acq with
    | some _ => orderedWait
    | none => pure 0
  let hits ← checkAccess [{ lane := 0, scratch := scratch, ea := ea, size := loadBytes z, align := align, acc := .read }]
  let (c, _, _) ← here
  let a ← hereAgent
  for h in hits do
    if h.waitsHere (← get) a then
      reportHits hits
      stallOn .page
    if acq.isSome then orderedLog 3 stamp
    if h.remote then remoteScalar h sd z.code (.read (loadBytes z)) (acq.map (effScope hits))
    match acq with
    | some sc => upd fun s => s.acquire a (effScope hits sc)
    | none => pure ()
    let v := loadValue z ((← get).readHit c.team h)
    if ← readsLate h sd z.code then return
    doneScalar 4 ((← hereScalar).setS sd v)

/-- A scalar store's hit written, piece by piece (R253). -/
def State.storeHit (s : State) (c : Cur) (h : Hit) (b : List Byte) (stamp : Nat) : State :=
  (s.putApart false (Apart.of c stamp) [h.blocks c.team b]).1

/-- The code of a store among the remote scalar accesses. -/
def storeCode : Nat := 16

/-- A scalar store (R83, R84): checked, then performed in its place, or sent to another device. Under mode 2 a release to another device retires once it
is performed there, at its answer (R395). -/
def scalarStore (scratch : Bool) (ea : Int) (z : Size) (align : Nat) (v : Word) (rel : Bool) : M Unit := do
  if ← waitingRemote then stallOn .remote
  if rel then releaseHere
  let stamp ← if rel then orderedWait else pure 0
  let hits ← checkAccess [{ lane := 0, scratch := scratch, ea := ea, size := sizeBytes z, align := align, acc := .write }]
  let (c, _, G) ← here
  let b := toBytes (sizeBytes z) v.toNat
  let a ← hereAgent
  for h in hits do
    if h.waitsHere (← get) a then
      reportHits hits
      stallOn .page
    if rel then orderedLog 4 stamp
    if h.remote && rel && (← hereLaunch).detm == 2 && c.stream != .handler then remoteScalar h 0 storeCode (.write b)
    match h.parts with
    | { place := .peer dev off, .. } :: _ =>
      upd fun s => s.sendRemote (Remote.of c.team c.grp dev off h.req.size G.lanePc) (.write b)
    | _ => upd fun s => s.storeHit c h b stamp
    doneScalar 4 (← hereScalar)

/-- A scalar read-modify-write of a 64-bit word (R85). -/
def scalarAtomic (ea : Word) (sd : SReg) (kind : Nat) (f : Nat → Nat) (remote : FabricOp) : M Unit := do
  atomicAllowed
  if ← waitingRemote then stallOn .remote
  let stamp ← orderedWait
  let hits ← checkAccess [{ lane := 0, scratch := false, ea := ea.toNat, size := 8, align := 8, acc := .atomic }]
  let (c, _, _) ← here
  let a ← hereAgent
  for h in hits do
    if h.waitsHere (← get) a then
      reportHits hits
      stallOn .page
    orderedLog kind stamp
    if h.remote then remoteScalar h sd 3 remote
    let old := ofBytes ((← get).readHit c.team h)
    upd fun s => s.writeHit c.team h (toBytes 8 (f old)) stamp
    doneScalar 4 ((← hereScalar).setS sd (BitVec.ofNat 64 old))

def execLd (sz : LoadSize) (sd base : SReg) (off : BitVec 10) (s : State) : Answer :=
  M.answer (do scalarLoad false (scalarEa ((← hereScalar).getS base) off (loadBytes sz)) sz 1 sd none) s
def execLds (sz : LoadSize) (sd base : SReg) (off : BitVec 10) (s : State) : Answer :=
  M.answer (do scalarLoad true (scalarEa ((← hereScalar).getS base) off (loadBytes sz)) sz 1 sd none) s
def execSt (sz : Size) (ss base : SReg) (off : BitVec 10) (s : State) : Answer :=
  M.answer (do
    let r ← hereScalar
    scalarStore false (scalarEa (r.getS base) off (sizeBytes sz)) sz 1 (r.getS ss) false) s
def execSts (sz : Size) (ss base : SReg) (off : BitVec 10) (s : State) : Answer :=
  M.answer (do
    let r ← hereScalar
    scalarStore true (scalarEa (r.getS base) off (sizeBytes sz)) sz 1 (r.getS ss) false) s

/-- The zero-extending load of a store's size (R84). -/
def Size.load : Size → LoadSize
  | .b8 => .u8
  | .b16 => .u16
  | .b32 => .u32
  | .b64 => .u64

/-- LDAQ (R84). -/
def execLdaq (sc : Scope) (sz : Size) (sd sa : SReg) (s : State) : Answer :=
  M.answer (do scalarLoad false ((← hereScalar).getS sa).toNat (Size.load sz) (sizeBytes sz) sd (some sc.code)) s
/-- STRL (R84): a release, at every scope once the stream's stores to other devices are acknowledged; every other earlier access is performed
already (notes/assumptions/4). -/
def execStrl (_sc : Scope) (sz : Size) (ss sa : SReg) (s : State) : Answer :=
  M.answer (do
    let r ← hereScalar
    scalarStore false (r.getS sa).toNat sz (sizeBytes sz) (r.getS ss) true) s

/-- ATOM (R85): min and max are signed. -/
def execAtom (op : AtomOp) (_sc : Scope) (sd sa sb : SReg) (s : State) : Answer :=
  M.answer (do
    let r ← hereScalar
    scalarAtomic (r.getS sa) sd 1 (fun old => atomValue op true 64 old (r.getS sb).toNat) (.atom op true 8 (r.getS sb))) s
/-- CAS (R85): sd holds the expected value. -/
def execCas (_sc : Scope) (sd sa sb : SReg) (s : State) : Answer :=
  M.answer (do
    let r ← hereScalar
    scalarAtomic (r.getS sa) sd 2 (fun old => if old = (r.getS sd).toNat then (r.getS sb).toNat else old)
      (.cas 8 (r.getS sb) (r.getS sd))) s

/-- FENCE (R86, R271): it waits until the stream's stores to other devices are acknowledged, every other access being performed when it executes;
and it is an acquire at its scope. -/
def execFence (sc : Scope) (s : State) : Answer :=
  M.answer (do
    releaseHere
    acquireHere sc.code
    doneScalar 4 (← hereScalar)) s

end Sys2Proof.Machine
end

