-- ==== Sys2Proof/Machine/Sync.lean ====
section
/-! DEFINITION. Waiting on an address, barriers and sync words (R175–R180). -/

namespace Sys2Proof.Machine

/-! ### Parking (R176, R314) -/

/-- What a word waits for, as a park records it. -/
structure Wait where
  kind  : BitVec 8
  tcode : Nat := 0
  space : Bool := false
  addr  : Word := 0
  value : Word := 0
  mons  : List Mon := []
  words : List (Nat × Nat) := []
  polls : Bool := false
  word  : Instr

/-- The current group parks at this word (R176); in the handler slot, which is no group, the word waits and is executed again. -/
def parkOn (mask : Nat) (w : Wait) : M Unit := do
  let (c, _, _) ← here
  if c.stream = .handler then stallOn .handler
  upd fun s => s.modGroup c.team c.grp fun g =>
    { g with
      stallS := none, stallL := none
      park := some { stream := c.stream, kind := w.kind, tcode := w.tcode, space := w.space, addr := w.addr, value := w.value, mask := mask
                     mons := w.mons, words := w.words, word := w.word, since := s.tick
                     deadline := if w.tcode = 0 then none else some (s.tick + 4 ^ (w.tcode + 4)), stamp := 0, written := false
                     polls := w.polls } }

/-! ### WAITA (R175) -/

/-- The monitored word of a located request. -/
def Hit.mon (t : Nat) (h : Hit) : Option Mon :=
  if h.req.scratch then some (.scratch t h.req.ea.toNat)
  else
    match h.parts with
    | { place := .hbm a, key := k, .. } :: _ => some (.hbm k a)
    | { place := .host a, .. } :: _ => some (.host a)
    | _ => none

/-- The monitored word of a located request of global memory, by its virtual address, with what it reads as. -/
def Hit.monWord (s : State) (t : Nat) (h : Hit) : Option (Nat × Nat) :=
  if h.req.scratch then none else (h.mon t).map fun m => (h.req.ea.toNat, s.monRead m)

/-- Whether the group was woken from this word's park, so that it reads once more and completes; the mark is taken away. -/
def wasWoken : M Bool := do
  let (c, _, G) ← here
  upd fun s => s.modGroup c.team c.grp fun g => { g with woken := false }
  return G.woken

/-- The timeout of a WAITA under mode 2 (R395). -/
def noTimeout (tcode : Nat) : M Unit := do
  let L ← hereLaunch
  require (L.detm != 2 || tcode == 0) cDetViolation

/-- The code of a scalar WAITA's request among the remote scalar accesses: the registers of its compare value and of its address. -/
def waitaCode (sa sb : SReg) : Nat := 32 + sb.toNat + 64 * sa.toNat

/-- The scalar WAITA. Woken, it reads at its turn once more, as the same ordered operation: it is not logged again (R395; notes/assumptions/108, DESIGN
CHOICE). A word of another device is read by a remote acquire load, and compared when its answer comes (R250). -/
def execWaita (sd sa sb : SReg) (s : State) : Answer :=
  M.answer (do
    let r ← hereScalar
    let a := (r.getS sa).toNat
    let sp := natBit a 63
    let scope := natBits a 62 60
    let tcode := natBits a 59 57
    require (!natBit a 56 && !(sp && natBits a 55 32 != 0) && decide (scope < 6)) cIllegalOp
    noTimeout tcode
    if ← waitingRemote then stallOn .remote
    let stamp ← orderedWait
    let ea := if sp then natBits a 31 0 else natBits a 55 0
    let hits ← checkAccess [{ lane := 0, scratch := sp, ea := ea, size := 8, align := 8, acc := .read }]
    let (c, _, G) ← here
    let ag ← hereAgent
    for h in hits do
      if h.waitsHere (← get) ag then
        reportHits hits
        stallOn .page
      if !G.woken then orderedLog 5 stamp
      match h.parts with
      | { place := .peer dev off, .. } :: _ =>
        upd fun s => s.sendRemote { Remote.of c.team c.grp dev off 8 G.lanePc with sreg := some (c.stream, sd.toNat, waitaCode sa sb), acq := some (max scope 4) } (.read 8)
        stallOn .remote
      | _ => pure ()
      upd fun s => s.acquire ag (effScope hits scope)
      let v : Word := BitVec.ofNat 64 (ofBytes ((← get).readHit c.team h))
      let woken ← wasWoken
      if v = r.getS sb && !woken then
        parkOn 0 { kind := 0x5B, tcode := tcode, space := sp, addr := BitVec.ofNat 64 ea, value := r.getS sb
                   mons := (h.mon c.team).toList, words := (h.monWord (← get) c.team).toList, word := .waita sd sa sb }
      else doneScalar 4 (r.setS sd v)) s

/-- The lane WAITA: it completes at once where no lane reads its compare value. Woken, it is not logged again (R395; notes/assumptions/108). -/
def execLaneWaita (w : LaneWord) (s : State) : Answer :=
  M.answer (do
    match ← laneEnter w.guard.toNat w.neg w.guardOk with
    | none => retireLane (← here).1
    | some x =>
      laneChecks x (.laneWaita w)
      let tcode := w.bits 2 0
      noTimeout tcode
      let sp := w.bits 24 24 == 1
      let stamp ← orderedWait
      let hits ← checkAccess (x.reqs sp 8 8 .read fun l => laneEa sp (x.a w l) 0)
      prepare x hits true
      if !x.G.woken && !x.asked then orderedLog 5 stamp
      let r ← awaitPeers x hits (peerReqs hits fun _ p => .read p.len) 8
      let ag ← hereAgent
      upd fun s => s.acquire ag (effScope hits (scopeOf w))
      let s ← get
      let vs := hits.map fun h => (h.req.lane, ofBytes (withAnswers r h (s.bytesAtHand x.L.ctx x.T.core x.c.team h)))
      let woken ← wasWoken
      let low := x.G.lane (x.parts.headD 0)
      if vs.any (fun iv => iv.2 == x.b w (x.G.lane iv.1)) && (!woken || (x.L.detm == 2 && r.isSome)) then
        -- no monitor is held at another device: a park on one of its words reads again (R176; notes/assumptions/14)
        if r.isSome then upd fun s => s.post (.parkWake x.c.team x.c.grp)
        parkOn (maskLanes x.parts)
          { kind := 0xE0, tcode := tcode, space := sp, addr := BitVec.ofNat 64 (x.a w low), value := BitVec.ofNat 64 (x.b w low)
            mons := hits.filterMap (Hit.mon x.c.team), words := hits.filterMap (Hit.monWord s x.c.team), polls := r.isSome, word := .laneWaita w }
      else
        clearRegs x [(false, w.vd.toNat)]
        writesV x w.vd.toNat fun i _ => ((vs.find? fun iv => iv.1 == i).map (·.2)).getD 0
        retireLane x.c) s

/-! ### Barriers (R177, R178) -/

/-- A slot by its number: 0 to 15 a team's, 16 to 19 a cluster's. -/
def State.slot? (s : State) (t n : Nat) : Option Barrier :=
  (s.team? t).bind fun T =>
    if n < 16 then T.bars[n]? else ((s.launchOf? t).bind fun L => L.clusters[T.cluster]?).bind fun b => b[n - 16]?

def State.setSlot (s : State) (t n : Nat) (b : Barrier) : State :=
  match s.team? t with
  | none => s
  | some T =>
    if n < 16 then s.modTeam t fun T => { T with bars := T.bars.set n b }
    else s.modLaunch T.launch fun L => { L with clusters := modifyAt (fun l => l.set (n - 16) b) T.cluster L.clusters }

/-- The opcodes of the parks on a barrier slot (R314). -/
def barrierKinds : List (BitVec 8) := [0x5D, 0xE2, 0xE5]

/-- The groups parked on a slot. -/
def State.waiters (s : State) (t n : Nat) : List (Nat × Nat) :=
  match s.team? t with
  | none => []
  | some T =>
    (indexed 0 s.teams).flatMap fun u =>
      if u.2.live && (u.1 == t || (16 ≤ n && u.2.launch == T.launch && u.2.cluster == T.cluster)) then
        (indexed 0 u.2.groups).filterMap fun g =>
          if g.2.park.any fun p => barrierKinds.contains p.kind && p.addr.toNat == n then some (u.1, g.1) else none
      else []

/-- The waiters of a slot whose phase changed are woken, with the stamp of the phase's arrivals (R176, R395). -/
def State.wakeSlot (s : State) (t n stamp : Nat) : State :=
  (s.waiters t n).foldl (fun s tg =>
    (s.modGroup tg.1 tg.2 fun g => { g with park := g.park.map fun p => { p with stamp := max p.stamp stamp } }).post (.parkWake tg.1 tg.2)) s

/-- Arrive (R177). -/
def Barrier.arrive (b : Barrier) (count stamp : Nat) : Barrier :=
  let n := b.arrivals + count
  { b with arrivals := n % b.expected.toNat, phase := b.phase + BitVec.ofNat 32 (n / b.expected.toNat)
           stamp := if n / b.expected.toNat = 0 then max b.stamp stamp else 0 }

/-- Arrivals of a word at a slot. -/
def State.arriveAll (s : State) (t n : Nat) (counts : List Nat) (stamp : Nat) : State :=
  counts.foldl (fun s c =>
    match s.slot? t n with
    | some b =>
      let b' := b.arrive c stamp
      let s := s.setSlot t n b'
      if b'.phase = b.phase then s else s.wakeSlot t n (max b.stamp stamp)
    | none => s) s

/-- An initialised slot; an uninitialised one raises ILLEGAL_OP with its number in TINFO (R177). -/
def readySlot (t n : Nat) : M Barrier := do
  match (← get).slot? t n with
  | some b =>
    require b.init cIllegalOp 0 0 (BitVec.ofNat 64 n)
    return b
  | none => trap cIllegalOp 0 0 (BitVec.ofNat 64 n)

/-- The scope of an arrival and of a wait's return (R178): team, or clu for a cluster slot. -/
def slotScope (n : Nat) : Nat := if n < 16 then 1 else 2

/-- The slot of a scalar selector (R177). -/
def slotOf (a : Nat) : M Nat := do
  let clu := natBit a 63
  require (natBits a 61 4 == 0 && !(clu && natBits a 3 0 ≥ 4)) cIllegalOp
  return natBits a 3 0 + if clu then 16 else 0

/-- SBARA (R177): a count out of range comes before a slot that is not initialised (notes/assumptions/123, DESIGN CHOICE). -/
def execSbara (sd sa sb : SReg) (s : State) : Answer :=
  M.answer (do
    let (c, _, _) ← here
    let r ← hereScalar
    let a := (r.getS sa).toNat
    let v := (r.getS sb).toNat
    let n ← slotOf a
    require (decide (v < 2 ^ 32)) cIllegalOp
    if natBit a 62 then
      require (v != 0) cIllegalOp
      upd fun s => (s.setSlot c.team n ⟨BitVec.ofNat 32 v, 0, 0, true, 0⟩).wakeSlot c.team n 0
      doneScalar 4 (r.setS sd 0)
    else
      let b ← readySlot c.team n
      releaseHere
      let stamp ← orderedWait
      orderedLog 6 stamp
      upd fun s => s.arriveAll c.team n [v] stamp
      doneScalar 4 (r.setS sd (b.phase.setWidth 64))) s

/-- SBARW (R178). -/
def execSbarw (sa sb : SReg) (s : State) : Answer :=
  M.answer (do
    let (c, _, _) ← here
    let r ← hereScalar
    let a := (r.getS sa).toNat
    require (!natBit a 62) cIllegalOp
    let n ← slotOf a
    let b ← readySlot c.team n
    let phase := (r.getS sb).setWidth 32
    if b.phase = phase then
      parkOn 0 { kind := 0x5D, addr := BitVec.ofNat 64 n, value := phase.setWidth 64, word := .sbarw sa sb }
    else
      acquireHere (slotScope n)
      doneScalar 4 r) s

/-- BARA and CBARA: an arrival in each lane, a release, in ascending lane order; VD receives the phase before the word (R178). -/
def laneArrive (base : Nat) (x : LaneCtx) (w : LaneWord) : M Unit := do
  let n := base + w.bits 3 0
  let b ← readySlot x.c.team n
  releaseLanes x
  let stamp ← orderedWait
  orderedLog 6 stamp
  let counts := x.parts.map fun i => x.a w (x.G.lane i) % 2 ^ 32
  upd fun s => s.arriveAll x.c.team n counts stamp
  writesV x w.vd.toNat fun _ _ => b.phase.toNat

/-- BARW and CBARW: the group parks until the phase differs from every lane's (R178). -/
def laneWait (base : Nat) (kind : BitVec 8) (i : Instr) (w : LaneWord) : M Unit := do
  match ← laneEnter w.guard.toNat w.neg w.guardOk with
  | none => retireLane (← here).1
  | some x =>
    laneChecks x i
    let n := base + w.bits 3 0
    let b ← readySlot x.c.team n
    let phases := x.parts.map fun j => x.a w (x.G.lane j) % 2 ^ 32
    if phases.contains b.phase.toNat then
      parkOn (maskLanes x.parts) { kind := kind, addr := BitVec.ofNat 64 n, value := b.phase.setWidth 64, word := i }
    else
      acquireHere (slotScope n)
      retireLane x.c

def execBara (w : LaneWord) (s : State) : Answer := laneRun (.bara w) (laneArrive 0) s
def execCbara (w : LaneWord) (s : State) : Answer := laneRun (.cbara w) (laneArrive 16) s
def execBarw (w : LaneWord) (s : State) : Answer := M.answer (laneWait 0 0xE2 (.barw w) w) s
def execCbarw (w : LaneWord) (s : State) : Answer := M.answer (laneWait 16 0xE5 (.cbarw w) w) s

/-! ### Sync words (R179, R180) -/

/-- SWINI (R179): the generation stays. -/
def execSwini (sa sb : SReg) (s : State) : Answer :=
  M.answer (do
    let r ← hereScalar
    let off : Nat := (r.getS sa).toNat % 2 ^ 32
    let _ ← checkAccess [{ lane := 0, scratch := true, ea := off, size := 16, align := 16, acc := .write }]
    let (c, _, _) ← here
    upd fun s => s.modTeam c.team fun T => { T with syncs := T.syncs.map fun n => if n.off = off then { n with scope := 0, stamp := 0 } else n }
    upd fun s => (s.writeScratch c.team off (toBytes 8 ((r.getS sb).toNat % 2 ^ 32))).writeScratch c.team (off + 12) (toBytes 4 0)
    doneScalar 4 r) s

/-- The checks of a SWAIT: alignment, bounds, poison, watchpoints; the table of range locks is not asked (R180). -/
def checkSync (reqs : List Req) : M Unit := do
  let (c, T, _) ← here
  trapReqs cAtomicAlign 0 (reqs.filter fun r => r.ea % r.align != 0)
  trapReqs cScratchBounds 0 (reqs.filter fun r => decide (r.ea < 0) || decide (r.ea + r.size > T.size))
  let s ← get
  let bad := reqs.filter fun r => (s.scratchPoison c.team r.ea.toNat r.size).isSome
  match bad.filterMap fun r => s.scratchPoison c.team r.ea.toNat r.size with
  | [] => pure ()
  | a :: _ => trap cEcc (laneMask bad) (BitVec.ofNat 64 a) 3

/-- The generation of a sync word. -/
def State.generation (s : State) (t off : Nat) : Nat := ofBytes (s.readScratch t (off + 8) 4)

/-- What the last advance of a sync word's generation counted (R180, R395). -/
def State.syncNote (s : State) (t off : Nat) : SyncNote :=
  (((s.team? t).bind fun T => T.syncs.find? fun n => n.off == off)).getD ⟨off, 0, 0, 0, 0⟩

/-- The scalar SWAIT (R180): its return acquires at the scope of the counted commands. -/
def execSwait (sa sb : SReg) (s : State) : Answer :=
  M.answer (do
    let (c, _, _) ← here
    let r ← hereScalar
    let off : Nat := (r.getS sa).toNat % 2 ^ 32
    checkSync [{ lane := 0, scratch := true, ea := off, size := 16, align := 16, acc := .read }]
    let g := (r.getS sb).toNat % 2 ^ 32
    if (← get).generation c.team off = g then
      parkOn 0 { kind := 0x5A, addr := BitVec.ofNat 64 off, value := BitVec.ofNat 64 g, mons := [.scratch c.team (off + 8)]
                 word := .swait sa sb }
    else
      acquireHere ((← get).syncNote c.team off).doneScope
      doneScalar 4 r) s

/-- The lane SWAIT: the group parks until every lane's generation has moved (R180). -/
def execLaneSwait (w : LaneWord) (s : State) : Answer :=
  M.answer (do
    match ← laneEnter w.guard.toNat w.neg w.guardOk with
    | none => retireLane (← here).1
    | some x =>
      laneChecks x (.laneSwait w)
      let off (i : Nat) : Nat := x.a w (x.G.lane i) % 2 ^ 32
      let gen (i : Nat) : Nat := x.b w (x.G.lane i) % 2 ^ 32
      checkSync (x.parts.map fun i => { lane := i, scratch := true, ea := off i, size := 16, align := 16, acc := .read })
      let s ← get
      match x.parts.filter fun i => s.generation x.c.team (off i) == gen i with
      | [] =>
        acquireHere ((x.parts.map fun i => (s.syncNote x.c.team (off i)).doneScope).foldl max 0)
        retireLane x.c
      | i :: _ =>
        parkOn (maskLanes x.parts)
          { kind := 0xE3, addr := BitVec.ofNat 64 (off i), value := BitVec.ofNat 64 (gen i)
            mons := x.parts.map fun j => .scratch x.c.team (off j + 8), word := .laneSwait w }) s

/-- A sync word's note after a command counted toward it; an advance begins the next count (R180, R395). -/
def SyncNote.count (n : SyncNote) (scope stamp : Nat) (advance : Bool) : SyncNote :=
  let sc := max n.scope scope
  let st := max n.stamp stamp
  if advance then { n with scope := 0, stamp := 0, doneScope := sc, doneStamp := st } else { n with scope := sc, stamp := st }

/-- A piece of `n` bytes of a command counted toward a sync word of a team (R179): an advance is a release at the widest scope of the commands
counted, and its wakes carry the largest of their stamps (R180, R395). -/
def State.countSync (s : State) (t off n stamp scope : Nat) : State :=
  let target := ofBytes (s.readScratch t off 4)
  if target = 0 then s
  else
    let c := ofBytes (s.readScratch t (off + 4) 4) + n
    let g := s.generation t off + c / target
    let note := (s.syncNote t off).count scope stamp (decide (c / target ≠ 0))
    (s.modTeam t fun T => { T with syncs := note :: T.syncs.filter fun x => x.off != off }).writeScratch t (off + 4)
      (toBytes 4 (c % target) ++ toBytes 4 g) note.doneStamp

end Sys2Proof.Machine
end

