-- ==== Sys2Proof/Machine/Engine.lean ====
section
/-! DEFINITION. The copy engine: the issue of engine, fabric and plane commands, range locks, CPY, GATH and PART with their pieces, results and
faults (R181–R185, R236, R251, R255). -/

namespace Sys2Proof.Machine

/-- A little-endian field of a descriptor. -/
def fld (d : List Byte) (off n : Nat) : Nat := ofBytes ((d.drop off).take n)
/-- A signed field. -/
def sfld (d : List Byte) (off n : Nat) : Int := signed (8 * n) (fld d off n)

/-! ### Issue (R181, R182) -/

/-- A descriptor read whole at issue: its alignment, its bounds, then poison. -/
def readDesc (off : Word) (size align : Nat) : M (List Byte) := do
  let (c, T, _) ← here
  require (off.toNat % align == 0) cAtomicAlign 0 off
  require (decide (off.toNat + size ≤ T.size)) cScratchBounds 0 off
  let s ← get
  match s.scratchPoison c.team off.toNat size with
  | some a => trap cEcc 0 (BitVec.ofNat 64 a) 3
  | none => return s.readScratch c.team off.toNat size

/-- The first field that breaks a condition raises ILLEGAL_OP with its offset. -/
def checkFields (fs : List (Nat × Bool)) : M Unit :=
  match fs.find? fun f => !f.2 with
  | some f => trap cIllegalOp 0 0 (BitVec.ofNat 64 f.1)
  | none => pure ()

/-- Bytes that must be zero, each its own field (R183). -/
def zeroFields (d : List Byte) (off n : Nat) : List (Nat × Bool) := (List.range n).map fun i => (off + i, fld d (off + i) 1 == 0)

/-- The flag of a command: 12 to 62 are illegal, 63 is none, and the handler slot has no flags (R95, R181). -/
def commandFlag (x : SReg) : M (Option Nat) := do
  require (decide (x.toNat < 12) || x == 63) cIllegalOp
  return if ← inHandler then none else flagField x

/-- An interval that a command registers: its space, the core or o-number, its bounds and its mode. -/
structure Span where
  space : Nat
  core  : Nat
  start : Int
  len   : Int
  write : Bool
deriving DecidableEq, Repr

/-- The Spire's commands, which have a queue of their own (R211). -/
def CmdKind.isSpire : CmdKind → Bool
  | .vpjs => true
  | .vpjr => true
  | .vpjm => true
  | .vpjx => true
  | .vpjb => true
  | _ => false

/-- The commands in flight of a core's resident teams, the Spire's or the others. -/
def State.queued (s : State) (core : Nat) (spire : Bool) : Nat :=
  (s.teams.map fun T =>
    if T.live && !T.away && T.core == core then (T.cmds.filter fun c => !c.faulted && c.kind.isSpire == spire).length else 0).foldl (· + ·) 0

/-- The spans that an entry of the table can hold: those that are not empty (R313). -/
def solid (xs : List Span) : List Span := xs.filter fun x => decide (x.len > 0)

/-- Whether the range-lock table admits the entries of a command (R182). -/
def Team.admits (T : Team) (spans : List Span) : Bool :=
  let xs := solid spans
  decide (T.locks.length + xs.length ≤ 32)
    && xs.all fun x => !T.locks.any fun l => l.against T.core x.space x.core x.start x.len x.write

/-- The entries of a command: of an interval that begins below address 0, what lies from there on. -/
def spanLocks (grp cmd : Nat) (xs : List Span) : List Lock :=
  (solid xs).map fun x =>
    { space := x.space, core := x.core, start := x.start.toNat, len := (x.start + x.len).toNat - x.start.toNat, write := x.write, grp := grp
      cmd := cmd }

/-- A command about to be issued: everything but its number, group and stamp. -/
structure Issue where
  kind : CmdKind
  flag : Option Nat
  desc : List Byte
  arg  : Word := 0
  srec : Nat := 0
  scope : Nat := 0
  locks : List Span

/-- The stalls of issue, the last for the stream's stores to other devices (R272), then the ordered operation of mode 2, then the command enters
flight with its locks and its flag raised (R181, R182, R395). -/
def issueCommand (x : Issue) : M Nat := do
  let (c, T, G) ← here
  if (← get).queued T.core false ≥ 32 then stallOn .queueFull
  if x.flag.any fun n => decide (G.flag n ≥ 255) then stallOn .flag
  if !T.admits x.locks then stallOn .lock
  releaseHere
  let stamp ← orderedWait
  orderedLog 8 stamp
  let id := T.nextCmd
  let cmd : Cmd :=
    { id := id, kind := x.kind, grp := c.grp, flag := x.flag, desc := x.desc, arg := x.arg, srec := x.srec, tag := none, lpc := -1#32, pos := 0
      retry := [], held := [], dropped := 0, waiting := 0, got := [], faulted := false, stamp := stamp
      scope := x.scope, core := T.core }
  upd fun s =>
    ((s.modTeam c.team fun T => { T with cmds := T.cmds ++ [cmd], locks := T.locks ++ spanLocks c.grp id x.locks, nextCmd := id + 1 }).modGroup
      c.team c.grp fun g => match x.flag with
        | some n => g.raiseFlag n
        | none => g)
  return id

/-! ### Clusters (R236) -/

/-- The team of the same cluster on a core. -/
def State.mateOn (s : State) (t core : Nat) : Option Nat :=
  (s.team? t).bind fun T =>
    findIndexFrom (fun u : Team => u.live && u.launch == T.launch && u.cluster == T.cluster && u.core == core) 0 s.teams

/-- The size of the allocation that a scratchpad space names. -/
def State.padSize (s : State) (t : Nat) : Nat := ((s.team? t).map (·.size)).getD 0

/-! ### Pieces -/

/-- Where the bytes of a piece lie: at a global address, in a team's scratchpad, or in a reservation. -/
inductive Loc where
  | global (va : Int)
  | scratch (team : Nat) (off : Int)
  | obuf (o : Nat) (off : Int)
deriving DecidableEq, Repr

/-- A piece of a copy: its source (none for zeros), its destination, its length. -/
structure Piece where
  src : Option Loc
  dst : Loc
  len : Nat
deriving DecidableEq, Repr

/-- The pieces of a row of `n` bytes. -/
def rowPieces (n : Nat) : Nat := (n + 511) / 512

/-- The location that a space code, a core or o-number and an address name. The team of a cluster's core is there as long as the cluster is (R236). -/
def locOf (s : State) (t space core : Nat) (a : Int) : Loc :=
  match space with
  | 0 => .global a
  | 1 => .scratch t a
  | 2 => .scratch ((s.mateOn t core).getD s.teams.length) a
  | _ => .obuf core a

/-- Piece `n` of a CPY (R183). -/
def cpyPiece (s : State) (t : Nat) (d : List Byte) (n : Nat) : Piece :=
  let row := 2 ^ fld d 21 1 * fld d 24 4
  let r := n / rowPieces row
  let o := 512 * (n % rowPieces row)
  let j := r % fld d 28 4
  let k := r / fld d 28 4
  { src := some (locOf s t (fld d 16 1) (fld d 18 1) (fld d 0 8 + o + sfld d 36 4 * j + sfld d 40 4 * k))
    dst := locOf s t (fld d 17 1) (fld d 19 1) (fld d 8 8 + o + sfld d 44 4 * j + sfld d 48 4 * k)
    len := min 512 (row - o) }

/-- The bytes of an index of GATH, and whether its row lies outside the window (R184). -/
def gathIndex (s : State) (t : Nat) (d : List Byte) (q : Nat) : Nat :=
  ofBytes (s.readScratch t (fld d 40 4 + 2 ^ fld d 21 1 * q) (2 ^ fld d 21 1))
def gathOut (s : State) (t : Nat) (d : List Byte) (q : Nat) : Bool :=
  decide (gathIndex s t d q * fld d 28 4 + fld d 28 4 > fld d 32 8)

/-- Piece `n` of a GATH (R184); the stride of its destination rows is signed (notes/assumptions/125, DEDUCED). -/
def gathPiece (s : State) (t : Nat) (d : List Byte) (n : Nat) : Piece :=
  let r := fld d 28 4
  let q := n / rowPieces r
  let o := 512 * (n % rowPieces r)
  { src := if gathOut s t d q then none else some (.global (fld d 0 8 + gathIndex s t d q * r + o))
    dst := locOf s t (fld d 17 1) (fld d 19 1) (fld d 8 8 + sfld d 44 4 * q + o)
    len := min 512 (r - o) }

/-- The cursor of a partition (R184). -/
def partCursor (s : State) (t : Nat) (d : List Byte) (j : Nat) : Nat := ofBytes (s.readScratch t (fld d 44 4 + 8 * j) 8)

/-- The partition of record `n` of a PART (R184). -/
def partIndex (s : State) (t : Nat) (d : List Byte) (n : Nat) : Nat :=
  let h := fld d 21 1
  let key := s.readScratch t (fld d 40 4 + fld d 28 4 * n + fld d 32 4) (if h % 2 = 0 then 4 else 8)
  (match h with
   | 0 => mix32 (ofBytes key) (fld d 48 4)
   | 1 => mix64 (ofBytes key) (fld d 48 4)
   | _ => crcBytes key.length (ofBytes key) (fld d 48 4)) % fld d 36 4

/-- Record `n` of a PART as a piece (R184). -/
def partPiece (s : State) (t : Nat) (d : List Byte) (n : Nat) : Piece :=
  let j := partIndex s t d n
  { src := some (.scratch t (fld d 40 4 + fld d 28 4 * n)), dst := .global (fld d 0 8 + j * fld d 8 8 + partCursor s t d j), len := fld d 28 4 }

/-- Whether record `n` finds room in its partition. -/
def partRoom (s : State) (t : Nat) (d : List Byte) (n : Nat) : Bool :=
  decide (partCursor s t d (partIndex s t d n) + fld d 28 4 ≤ fld d 8 8)

/-- The global address of a byte of another device's heap, or of this one's (R250). -/
def heapVa (dev off : Nat) : Nat := 3 * 2 ^ 54 + dev * 2 ^ 44 + off

/-- Whether a device number names a device of the pod, on a device that is in one (R186, R250, R343). -/
def State.inPod (s : State) (dev : Nat) : Bool := s.dome.podcfg.getLsbD 31 && decide (dev < natBits s.dome.podcfg.toNat 26 16)

/-- This device's number in its pod (R343). -/
def State.devnum (s : State) : Nat := natBits s.dome.podcfg.toNat 9 0

/-- The address of a heap offset on a device: past the window, an address that has no translation. -/
def heapAt (dev off : Nat) : Nat := if off < 2 ^ 44 then heapVa dev off else 2 ^ 56 + off

/-- The bytes of an element kind of a fabric RADD (R186). -/
def raddSize (d : List Byte) : Nat :=
  match fld d 17 1 with
  | 0 => 128
  | 1 => 8
  | _ => 4

/-- The size of the pieces of a one-sided command: a fabric write lands in pieces of at most 256 bytes (R345). -/
def fabricStep (kind : CmdKind) (d : List Byte) : Nat :=
  match kind with
  | .radd => raddSize d
  | .puts => 256
  | _ => 512

/-- How many pieces the data of a one-sided command has. -/
def fabricPieces (kind : CmdKind) (d : List Byte) : Nat := (fld d 24 4 + fabricStep kind d - 1) / fabricStep kind d

/-- Piece `n` of a PUTS, GET or RADD (R186). -/
def fabricPiece (t : Nat) (kind : CmdKind) (d : List Byte) (n : Nat) : Piece :=
  let step := fabricStep kind d
  let o := step * n
  let near : Loc := if fld d 16 1 = 0 then .global (fld d 0 8 + o) else .scratch t (fld d 0 8 + o)
  let far : Loc := .global (heapAt (fld d 18 2) (fld d 8 8 + o))
  { src := some (if kind = .get then far else near), dst := if kind = .get then near else far, len := min step (fld d 24 4 - o) }

/-- How many pieces a command has; a PUTS with a signal has it for its last one. -/
def Cmd.pieces (c : Cmd) : Nat :=
  let d := c.desc
  match c.kind with
  | .cpy => rowPieces (2 ^ fld d 21 1 * fld d 24 4) * fld d 28 4 * fld d 32 4
  | .gath => rowPieces (fld d 28 4) * fld d 24 4
  | .part => fld d 24 4
  | .puts => fabricPieces .puts d + if natBit (fld d 23 1) 1 then 1 else 0
  | .get => fabricPieces .get d
  | .radd => fabricPieces .radd d
  | _ => 0

/-- Whether a piece is the signal of a PUTS (R186). -/
def Cmd.isSignal (c : Cmd) (n : Nat) : Bool := c.kind == .puts && decide (n ≥ fabricPieces .puts c.desc)

/-- A piece of a command. -/
def Cmd.piece (c : Cmd) (s : State) (t n : Nat) : Piece :=
  match c.kind with
  | .cpy => cpyPiece s t c.desc n
  | .gath => gathPiece s t c.desc n
  | .part => partPiece s t c.desc n
  | k =>
    if c.isSignal n then { src := none, len := 8, dst := .global (heapAt (fld c.desc 18 2) (fld c.desc 32 8)) }
    else fabricPiece t k c.desc n

/-! ### Reading and writing where a piece lies -/

/-- What an engine finds at a location: its bytes or the state after its write, a wait, another device, or a fault with its address and detail. -/
inductive Found (α : Type) where
  | ok (x : α)
  | wait
  | peer (dev off : Nat)
  | fault (cause : Cause) (addr : Word) (detail : Nat)

/-- The address at which a global range has no translation: the first of its pages that has none. -/
def State.faultAt (a : Agent) (va len : Nat) (s : State) : Nat :=
  if va ≥ 2 ^ 56 then va
  else
    let n := min len (65536 - va % 65536)
    match (s.locate a va n false).1 with
    | .fault _ => va
    | _ => va + n

/-- A global range located for an engine, with the checks of R319, R326, R387 and R420; it waits behind the logged accesses of its core to a page (R287,
R327). -/
def State.engineLocate (a : Agent) (va : Int) (len : Nat) (acc : Access) (s : State) : Found (List Part) × State :=
  if va < 0 || va ≥ 2 ^ 56 then (.fault cAddrFault (BitVec.ofInt 64 va) 0, s)
  else
    match s.locate { a with adds := acc == .radd } va.toNat len acc.writes with
    | (.fault m, s) => (.fault cAddrFault (BitVec.ofNat 64 (s.faultAt a va.toNat len)) (if m then 1 else 0), s)
    | (.parts ps, s) =>
      match ps.find? fun p => !p.permits acc, ps.find? fun p => !p.open acc s with
      | some p, _ => (.fault cAccessFault (BitVec.ofNat 64 p.va) 0, s)
      | none, some p => (.fault cAccessFault (BitVec.ofNat 64 p.va) 2, s)
      | none, none =>
        if ps.any fun p => p.isAbsent || p.isHeld || (!p.isPeer && a.core.any fun c => s.logHolds a.ctx c p) then (.wait, s.reportParts a acc ps)
        else
          match ps with
          | { place := .peer dev off, .. } :: _ => (.peer dev off, s)
          | _ =>
            match if acc.writes then none else s.partsPoison ps with
            | some x => (.fault cEcc (BitVec.ofNat 64 x.1) 0, s)
            | none => (.ok ps, s)

/-- The poison of a reservation's entries (R387). -/
def State.obufPoison (s : State) (t o off len : Nat) : Option Nat :=
  s.poison.findSome? fun u =>
    match u with
    | .obuf t' o' x => if t' = t ∧ o' = o ∧ x < off + len ∧ off ≤ x then some x else none
    | _ => none

/-- The bytes at a location. -/
def State.readLoc (a : Agent) (l : Loc) (len : Nat) (s : State) : Found (List Byte) × State :=
  match l with
  | .global va =>
    match s.engineLocate a va len .read with
    | (.ok ps, s) => (.ok (s.readParts ps), s)
    | (.wait, s) => (.wait, s)
    | (.peer d o, s) => (.peer d o, s)
    | (.fault c x n, s) => (.fault c x n, s)
  | .scratch t off =>
    match s.scratchPoison t off.toNat len with
    | some x => (.fault cEcc (BitVec.ofNat 64 x) 0, s)
    | none => (.ok (s.readScratch t off.toNat len), s)
  | .obuf _ _ => (.ok (List.replicate len 0), s)

/-- Bytes written into a reservation; entries written whole lose their poison (R192, R387). -/
def State.writeObuf (s : State) (t o off : Nat) (b : List Byte) : State :=
  { s.modTeam t fun T =>
      { T with resv := modifyAt (fun r => r.map fun x => { x with cells := cellsPut off b x.cells }) o T.resv } with
    poison := s.poison.filter fun u =>
      match u with
      | .obuf t' o' x => !(t' == t && o' == o && decide (off ≤ x ∧ x < off + b.length))
      | _ => true }

/-- Bytes written at a location of a team's command. -/
def State.writeLoc (a : Agent) (t : Nat) (l : Loc) (b : List Byte) (stamp : Nat) (s : State) : Found State × State :=
  match l with
  | .global va =>
    match s.engineLocate a va b.length .write with
    -- the L1 copies go first (R332, R333); the writer is the team's launch (R395)
    | (.ok ps, s) => (.ok { { s.dropLines ps with cur := some ⟨t, 0, .scalar⟩ }.writeParts ps b stamp with cur := s.cur }, s)
    | (.wait, s) => (.wait, s)
    | (.peer d o, s) => (.peer d o, s)
    | (.fault c x n, s) => (.fault c x n, s)
  | .scratch u off => (.ok (s.writeScratch u off.toNat b stamp), s)
  | .obuf o off => (.ok (s.writeObuf t o off.toNat b), s)

/-- The same for a command's piece as it lands (R253): whether blocks of it are still to come. -/
def State.landLoc (a : Agent) (x : Apart) (l : Loc) (b : List Byte) (s : State) : Found (State × Bool) × State :=
  match l with
  | .global va =>
    match s.engineLocate a va b.length .write with
    | (.ok ps, s) =>
      let r := { s.dropLines ps with cur := some ⟨x.team, 0, .scalar⟩ }.putApart false x
        [ps.flatMap fun p => partBlocks p ((b.drop (p.va - va.toNat)).take p.len)]
      (.ok ({ r.1 with cur := s.cur }, r.2), s)
    | (.wait, s) => (.wait, s)
    | (.peer d o, s) => (.peer d o, s)
    | (.fault c x n, s) => (.fault c x n, s)
  | .scratch u off => (.ok (s.putApart false x [padBlocks u off.toNat b]), s)
  | .obuf o off => (.ok (s.writeObuf x.team o off.toNat b, false), s)

/-! ### Faults (R185, R344, R377) -/

/-- The opcode that TINFO[7:0] names. -/
def CmdKind.opcode : CmdKind → Nat
  | .cpy => 0x40
  | .gath => 0x41
  | .part => 0x42
  | .puts => 0x50
  | .get => 0x51
  | .radd => 0x52
  | .plcl => 0x53
  | .plval => 0x56
  | .vpjs => 0x70
  | .vpjr => 0x70
  | .vpjm => 0x71
  | .vpjx => 0x72
  | .vpjb => 0x73

/-- Whether TINFO[15:8] is the fabric's detail code, 0 for a fault of this device (R344). -/
def CmdKind.isFabric : CmdKind → Bool
  | .puts => true
  | .get => true
  | .radd => true
  | .plcl => true
  | .plval => true
  | _ => false

/-- The device that a fault of a fabric command names (R344): a one-sided command's target; of a collective's command, whose fault this device meets
itself, this device (notes/assumptions/105, DESIGN CHOICE). -/
def Cmd.target (c : Cmd) (s : State) : Nat :=
  match c.kind with
  | .puts => fld c.desc 18 2
  | .get => fld c.desc 18 2
  | .radd => fld c.desc 18 2
  | _ => s.devnum

/-- TINFO[25:8] of a fabric fault (R344). -/
def nackInfo (dev code : Nat) : Nat := dev % 1024 * 2 ^ 16 + code * 2 ^ 8

def State.cmd? (s : State) (t id : Nat) : Option Cmd := (s.team? t).bind fun T => T.cmds.find? fun c => c.id == id
def State.modCmd (t id : Nat) (f : Cmd → Cmd) (s : State) : State :=
  s.modTeam t fun T => { T with cmds := T.cmds.map fun c => if c.id = id then f c else c }

/-- ENGINE_FAULT (R185, R376, R377): the command stops, and the issuing group takes the trap at its next boundary, with TINFO[31:0] given; a command
of a killed group, or of a team that has ended, is done with. -/
def execEngineFault (t id : Nat) (cause : BitVec 8) (addr : Word) (detail : BitVec 32) (s : State) : Answer :=
  match s.cmd? t id with
  | none => .next s
  | some c =>
    if c.faulted then .next s
    else
      match s.group? t c.grp with
      | none => .next s
      | some G =>
        let s := s.modCmd t id fun c => { c with faulted := true, retry := [], held := [], waiting := 0 }
        if G.killed || (s.team? t).any (·.state == .ended) then .next (s.dropCmd t id)
        else
          .next ((s.modGroup t c.grp Group.unpark).holdTrap t
            { cause := cause, grp := c.grp, lane := false, tlpc := G.lanePc, tlane := 0, taddr := addr
              tinfo := BitVec.ofNat 64 (2 ^ 63 + detail.toNat), tick := s.tick, async := true, cmd := some id, lost := none })

/-- The detail code of a fault that this device finds itself in a fabric command: the firewall's, and 0 for every other (R344, R420;
notes/assumptions/45). -/
def fabricCode (code : Nat) : Nat := if code = 2 then 2 else 0

/-- A fault that a command of this device meets, posted to its group (R185, R344). -/
def State.failCmd (t : Nat) (c : Cmd) (cause : Cause) (addr : Word) (code : Nat) (s : State) : State :=
  s.post (.engineFault t c.id cause addr
    (BitVec.ofNat 32 ((if c.kind.isFabric then nackInfo (c.target s) (fabricCode code) else code * 256) + c.kind.opcode)))

/-! ### Landing (R179, R183, R184, R255) -/

/-- The sync word that a command's descriptor names, with the team whose scratchpad holds it (R255). -/
def Cmd.sync? (c : Cmd) (s : State) (t : Nat) : Option (Nat × Nat) :=
  let d := c.desc
  match c.kind with
  | .puts => none
  | .radd => none
  | .plcl => none
  | .plval => none
  | .get => if natBit (fld d 23 1) 0 then some (t, fld d 52 4) else none
  | _ =>
    if !natBit (fld d 23 1) 0 then none
    else if (c.kind = .cpy || c.kind = .gath) && fld d 17 1 = 2 then (s.mateOn t (fld d 19 1)).map fun u => (u, fld d 52 4)
    else some (t, fld d 52 4)

/-- The event of a command's completion. -/
def Cmd.completion (t : Nat) (c : Cmd) : Event :=
  match c.kind with
  | .gath => .gathComplete t c.id
  | .part => .partComplete t c.id
  | .puts => .putsComplete t c.id
  | .get => .getComplete t c.id
  | .radd => .fabricRaddComplete t c.id
  | .plval => .plvalViewWrite t c.id
  | _ => .cpyComplete t c.id

/-- Whether a command may take up a piece now: a PART keeps the order of its records, and a signal waits for all the data (R184, R346). -/
def Cmd.canTake (c : Cmd) : Bool :=
  if c.kind = .part then c.held.isEmpty && c.waiting == 0
  else if c.isSignal c.pos then c.held.isEmpty && c.retry.isEmpty && c.waiting == 0
  else true

/-- What a command does next: another piece, its completion, or a wait. -/
def State.advanceCmd (t id : Nat) (s : State) : State :=
  match s.cmd? t id with
  | none => s
  | some c =>
    if c.faulted then s
    else if !c.retry.isEmpty || (decide (c.pos < c.pieces) && c.canTake) then s.post (.enginePieceLand t id)
    else if decide (c.pos ≥ c.pieces) && c.held.isEmpty && c.waiting = 0 then s.post (c.completion t)
    else s

/-- A piece is performed: its bytes count toward the sync word. -/
def State.landed (t : Nat) (c : Cmd) (n : Nat) (s : State) : State :=
  match c.sync? s t with
  | some x => s.countSync x.1 x.2 n c.stamp c.scope
  | none => s

/-- A record of a PART is written: its cursor advances (R184). -/
def State.advanceCursor (t : Nat) (c : Cmd) (j : Nat) (s : State) : State :=
  if c.kind = .part then s.writeScratch t (fld c.desc 44 4 + 8 * j) (toBytes 8 (partCursor s t c.desc j + fld c.desc 28 4)) c.stamp else s

/-- A request for a piece sent to another device. -/
def State.askPiece (t : Nat) (c : Cmd) (n dev off len : Nat) (rd : Bool) (op : FabricOp) (s : State) : State :=
  (s.modCmd t c.id fun c => { c with waiting := c.waiting + 1 }).sendRemote
    { Remote.of t c.grp dev off len (-1#32) with cmd := some c.id, lane := n, rd := rd } op

/-- The type of an element kind of R186 as an addend, and that of a command's. -/
def elemTy (kind : Nat) : Nat :=
  match kind with
  | 0 => tyAcc
  | 1 => 6
  | _ => 4
def raddTy (d : List Byte) : Nat := elemTy (fld d 17 1)

/-- A piece that waits for its page. -/
def State.holdPiece (t : Nat) (c : Cmd) (n : Nat) (s : State) : State := s.modCmd t c.id fun c => { c with held := c.held ++ [n] }

/-- An element merged where the target is this device: its page must hold elements, at their alignment, of the kind `wants` (R40, R167, R319, R344). -/
def State.mergePiece (t : Nat) (c : Cmd) (va : Int) (wants ty len : Nat) (data : List Byte) (ps : List Part) (fail : Cause → State → State)
    (s : State) : State :=
  match ps with
  | q :: _ =>
    if q.kind ≠ 0 && va.toNat % elemBytes q.kind ≠ 0 then fail cAtomicAlign s
    else if q.kind ≠ wants then fail cAccessFault s
    else
      match s.mergeAt { q with len := elemBytes wants } ty [data] with
      | some s => s.landed t c len
      | none => fail cAccessFault s
  | [] => fail cAccessFault s

/-- The signal of a PUTS (R186, R346): added at its target; an address that is no aligned word of an S64 page of the target's heap is refused there. -/
def State.deliverSignal (a : Agent) (t : Nat) (c : Cmd) (n : Nat) (s : State) : State :=
  let dev := fld c.desc 18 2
  let off := fld c.desc 32 8
  let value := BitVec.ofNat 64 (fld c.desc 40 8)
  let refuse (s : State) : State :=
    s.post (.engineFault t c.id cAccessFault (BitVec.ofNat 64 (heapVa dev off)) (BitVec.ofNat 32 (nackInfo dev 3 + c.kind.opcode)))
  if dev ≠ s.devnum then s.askPiece t c n dev off 8 false (.signal value)
  else
    match s.engineLocate a (heapAt dev off) 1 .radd with
    | (.wait, s) => s.holdPiece t c n
    | (.ok ps, s) => s.mergePiece t c (heapAt dev off) 2 6 8 (toBytes 8 value.toNat) ps fun _ => refuse
    | (_, s) => refuse s

/-- The element of a fabric RADD (R186). -/
def State.deliverAdd (a : Agent) (t : Nat) (c : Cmd) (n : Nat) (va : Int) (b : List Byte) (s : State) : State :=
  match s.engineLocate a va 1 .radd with
  | (.peer dev off, s) => s.askPiece t c n dev off b.length false (.add (fld c.desc 17 1) b)
  | (.wait, s) => s.holdPiece t c n
  | (.fault cause x code, s) => s.failCmd t c cause x code
  | (.ok ps, s) =>
    s.mergePiece t c va (fld c.desc 17 1 + 1) (raddTy c.desc) b.length b ps fun cause s => s.failCmd t c cause (BitVec.ofInt 64 va) 0

/-- Piece `n` of a command, of `len` bytes, is performed at its destination: a record of a PART advances its cursor, and the bytes count (R184, R179). -/
def State.pieceDone (t : Nat) (c : Cmd) (n len : Nat) (s : State) : State :=
  (if c.kind = .part then s.advanceCursor t c (partIndex s t c.desc n) else s).landed t c len

/-- The bytes of piece `n` brought to its destination: merged there by a RADD, or added as a signal; otherwise written. -/
def State.deliver (a : Agent) (t : Nat) (c : Cmd) (n : Nat) (p : Piece) (b : List Byte) (s : State) : State :=
  if c.isSignal n then s.deliverSignal a t c n
  else
    match c.kind, p.dst with
    | .radd, .global va => s.deliverAdd a t c n va b
    | _, _ =>
      match s.landLoc a { Apart.of ⟨t, c.grp, .scalar⟩ c.stamp with piece := some (c.id, n, p.len) } p.dst b with
      | (.ok (s', true), _) => s'.modCmd t c.id fun c => { c with waiting := c.waiting + 1 }
      | (.ok (s', false), _) => s'.pieceDone t c n p.len
      | (.peer dev off, s) => s.askPiece t c n dev off p.len false (.write b)
      | (.wait, s) => s.holdPiece t c n
      | (.fault cause x code, s) => s.failCmd t c cause x code

/-- The poison that a piece meets in the words that say where it goes: a GATH's index, a PART's key and cursor (R185, R387). -/
def Cmd.indexPoison (c : Cmd) (s : State) (t n : Nat) : Option Nat :=
  let d := c.desc
  match c.kind with
  | .gath =>
    let e := 2 ^ fld d 21 1
    s.scratchPoison t (fld d 40 4 + e * (n / rowPieces (fld d 28 4))) e
  | .part =>
    (s.scratchPoison t (fld d 40 4 + fld d 28 4 * n + fld d 32 4) (if fld d 21 1 % 2 = 0 then 4 else 8)).orElse fun _ =>
      s.scratchPoison t (fld d 44 4 + 8 * partIndex s t d n) 8
  | _ => none

/-- Piece `n` taken up: its source read here, or asked of another device, then delivered. -/
def State.takePiece (a : Agent) (t : Nat) (c : Cmd) (n : Nat) (s : State) : State :=
  match c.indexPoison s t n with
  | some x => s.failCmd t c cEcc (BitVec.ofNat 64 x) 0
  | none =>
    if c.kind = .part && !partRoom s t c.desc n then s.modCmd t c.id fun c => { c with dropped := c.dropped + 1 }
    else
      let p := c.piece s t n
      match p.src with
      | none => s.deliver a t c n p (List.replicate p.len 0)
      | some l =>
        match s.readLoc a l p.len with
        | (.ok b, s) => s.deliver a t c n p b
        | (.peer dev off, s) => s.askPiece t c n dev off p.len true (.read p.len)
        | (.wait, s) => s.holdPiece t c n
        | (.fault cause x code, s) => s.failCmd t c cause x code

/-- ENGINE_PIECE_LAND (R179, R183, R326): the next piece of a command is taken up; pieces that wait do not hold the others back. -/
def execEnginePieceLand (t id : Nat) (s : State) : Answer :=
  match s.cmd? t id, s.agentOf? t with
  | some c, some a =>
    if c.faulted then .next s
    else
      match c.retry with
      | n :: rest => .next (((s.modCmd t id fun c => { c with retry := rest }).takePiece a.engine t c n).advanceCmd t id)
      | [] =>
        if c.pos < c.pieces && c.canTake then
          .next (((s.modCmd t id fun c => { c with pos := c.pos + 1 }).takePiece a.engine t c c.pos).advanceCmd t id)
        else .next s
  | _, _ => .next s

/-- Whether every piece of a command has landed. -/
def Cmd.done (c : Cmd) : Bool := !c.faulted && decide (c.pos ≥ c.pieces) && c.held.isEmpty && c.retry.isEmpty && c.waiting == 0

/-- A command is done: its last act, then its flag falls and its locks are released. -/
def finishCommand (k : List CmdKind) (t id : Nat) (s : State) (last : Cmd → State → State := fun _ s => s) : Answer :=
  match s.cmd? t id with
  | some c => if k.contains c.kind && c.done then .next ((last c s).dropCmd t id) else .next s
  | none => .next s

/-- CPY_COMPLETE (R183). -/
def execCpyComplete (t id : Nat) (s : State) : Answer := finishCommand [.cpy] t id s

/-- The rows of a GATH outside its window (R184). -/
def gathMissed (s : State) (t : Nat) (c : Cmd) : Nat := ((List.range (fld c.desc 24 4)).filter fun q => gathOut s t c.desc q).length

/-- The result word, at offset 56 of the descriptor, written before the flag falls (R184). -/
def State.writeResult (t : Nat) (c : Cmd) (n : Nat) (s : State) : State := s.writeScratch t (c.srec + 56) (toBytes 8 n) c.stamp

/-- GATH_COMPLETE (R184): a command that a fault has stopped writes no result (R185). -/
def execGathComplete (t id : Nat) (s : State) : Answer := finishCommand [.gath] t id s fun c s => s.writeResult t c (gathMissed s t c)

/-- PART_COMPLETE (R184). -/
def execPartComplete (t id : Nat) (s : State) : Answer := finishCommand [.part] t id s fun c s => s.writeResult t c c.dropped

/-! ### The descriptors (R181, R183, R184) -/

/-- The sync word field: valid, aligned and inside the scratchpad that holds it, or zero. -/
def syncFields (d : List Byte) (size : Nat) : List (Nat × Bool) :=
  if natBit (fld d 23 1) 0 then [(52, fld d 52 4 % 16 == 0 && decide (fld d 52 4 + 16 ≤ size))] else zeroFields d 52 4

/-- Whether a core belongs to the cluster of the current team (R236). -/
def coreOk (s : State) (t core : Nat) : Bool := (s.mateOn t core).isSome

/-- The fields from 16 to 23 that R183 lays out. An o-number that names no live reservation is a field out of range (R181; notes/assumptions/104, DESIGN
CHOICE). -/
def spaceFields (s : State) (t : Nat) (d : List Byte) (srcs dsts : List Nat) (codes : List Nat) : List (Nat × Bool) :=
  let ss := fld d 16 1
  let ds := fld d 17 1
  [(16, srcs.contains ss), (17, dsts.contains ds), (18, if ss = 2 then coreOk s t (fld d 18 1) else fld d 18 1 == 0)
   , (19, if ds = 2 then coreOk s t (fld d 19 1)
      else if ds = 3 then ((s.team? t).bind fun T => (T.resv[fld d 19 1]?).bind id).isSome else fld d 19 1 == 0)
   , (20, decide (1 ≤ fld d 20 1 ∧ fld d 20 1 ≤ 3)), (21, codes.contains (fld d 21 1))
   , (22, decide (fld d 22 1 ≤ 5) && (!(ss == 2 || ds == 2) || decide (fld d 22 1 ≥ 2))), (23, decide (fld d 23 1 ≤ 1))]

/-- The interval that strided rows cover (R182). -/
def bounding (base : Int) (row : Nat) (n1 n2 : Nat) (t1 t2 : Int) : Int × Int :=
  let a := t1 * (Int.ofNat n1 - 1)
  let b := t2 * (Int.ofNat n2 - 1)
  (base + min 0 a + min 0 b, Int.ofNat row + max 0 a + max 0 b - (min 0 a + min 0 b))

/-- The bounds of a scratchpad or reservation range at issue (R181, R183). -/
def checkSpan (x : Span) : M Unit := do
  let (c, T, _) ← here
  let s ← get
  if x.len ≤ 0 then pure ()
  else
    match x.space with
    | 0 => pure ()
    | 3 =>
      let n := (((T.resv[x.core]?).bind id).map fun r => fld r.record 0 4).getD 0
      require (decide (0 ≤ x.start ∧ x.start + x.len ≤ n)) cObufBounds 0 (BitVec.ofInt 64 x.start)
    | sp =>
      let size := if sp = 1 then T.size else ((s.mateOn c.team x.core).map s.padSize).getD 0
      require (decide (0 ≤ x.start ∧ x.start + x.len ≤ size)) cScratchBounds 0 (BitVec.ofInt 64 x.start)

/-- A command goes to its pieces; a one-sided command whose target is no device of the pod faults, whatever its length (R186, R343). -/
def State.beginCmd (t id : Nat) (s : State) : State :=
  match s.cmd? t id with
  | none => s
  | some c =>
    if [CmdKind.puts, .get, .radd].contains c.kind && !s.inPod (fld c.desc 18 2) then
      s.failCmd t c cAddrFault (BitVec.ofNat 64 (heapAt (fld c.desc 18 2) (fld c.desc 8 8))) 0
    else s.advanceCmd t id

/-- A command of the copy engine issued, with its pieces to follow. -/
def startCommand (x : Issue) : M Unit := do
  for l in x.locks do checkSpan l
  let (c, _, _) ← here
  let id ← issueCommand x
  doneScalar 4 (← hereScalar)
  upd fun s => s.beginCmd c.team id

/-- The size of the scratchpad that holds the sync word of a CPY (R255). -/
def cpySyncPad (s : State) (c : Cur) (T : Team) (d : List Byte) : Nat :=
  if fld d 17 1 = 2 then ((s.mateOn c.team (fld d 19 1)).map s.padSize).getD 0 else T.size

/-- The fields of a CPY descriptor, each with its check (R183). -/
def cpyFields (s : State) (c : Cur) (T : Team) (d : List Byte) : List (Nat × Bool) :=
  spaceFields s c.team d [0, 1, 2] [0, 1, 2, 3] [0, 1, 2, 3]
    ++ [(24, fld d 24 4 != 0), (28, fld d 28 4 != 0 && (fld d 20 1 ≥ 2 || fld d 28 4 == 1))
        , (32, fld d 32 4 != 0 && (fld d 20 1 ≥ 3 || fld d 32 4 == 1))]
    ++ syncFields d (cpySyncPad s c T d) ++ zeroFields d 56 8

/-- The ranges of a CPY: what it reads, what it writes (R182, R183). -/
def cpySpans (d : List Byte) : List Span :=
  let row := 2 ^ fld d 21 1 * fld d 24 4
  let a := bounding (fld d 0 8) row (fld d 28 4) (fld d 32 4) (sfld d 36 4) (sfld d 40 4)
  let b := bounding (fld d 8 8) row (fld d 28 4) (fld d 32 4) (sfld d 44 4) (sfld d 48 4)
  [⟨fld d 16 1, fld d 18 1, a.1, a.2, false⟩, ⟨fld d 17 1, fld d 19 1, b.1, b.2, true⟩]

/-- A command of a 64-byte descriptor: its flag, its descriptor, the checks of its fields, then its issue (R181). -/
def descCommand (kind : CmdKind) (flag : BitVec 6) (sa : SReg) (fields : State → Cur → Team → List Byte → List (Nat × Bool))
    (spans : List Byte → List Span) : M Unit := do
  let fl ← commandFlag flag
  let (c, T, _) ← here
  let off := (← hereScalar).getS sa
  let d ← readDesc off 64 64
  checkFields (fields (← get) c T d)
  startCommand { kind := kind, flag := fl, desc := d, srec := off.toNat, scope := fld d 22 1, locks := spans d }

/-- CPY (R183). -/
def execCpy (flag : BitVec 6) (sa : SReg) (s : State) : Answer := M.answer (descCommand .cpy flag sa cpyFields cpySpans) s

/-- The fields of a GATH descriptor (R184). Its destination may also be a scratchpad of the cluster, space 2: R248, R251 and the byte 19 of R183,
which GATH shares, name it, where the table of R184 lists spaces 1 and 3 (notes/assumptions/106, DEDUCED). -/
def gathFields (s : State) (c : Cur) (T : Team) (d : List Byte) : List (Nat × Bool) :=
  spaceFields s c.team d [0] [1, 2, 3] [2, 3] ++ [(28, decide (1 ≤ fld d 28 4 ∧ fld d 28 4 ≤ 65536))]
    ++ syncFields d (cpySyncPad s c T d)

/-- The ranges of a GATH: its indices, its window, what it writes (R182, R184). -/
def gathSpans (d : List Byte) : List Span :=
  let b := bounding (fld d 8 8) (fld d 28 4) (fld d 24 4) 1 (sfld d 44 4) 0
  [⟨1, 0, fld d 40 4, 2 ^ fld d 21 1 * fld d 24 4, false⟩, ⟨0, 0, fld d 0 8, fld d 32 8, false⟩
   , ⟨fld d 17 1, fld d 19 1, b.1, if fld d 24 4 = 0 then 0 else b.2, true⟩]

/-- GATH (R184). -/
def execGath (flag : BitVec 6) (sa : SReg) (s : State) : Answer := M.answer (descCommand .gath flag sa gathFields gathSpans) s

/-- Whether a number is a power of two. -/
def isPow2 (n : Nat) : Bool := n != 0 && n == 2 ^ Nat.log2 n

/-- The fields of a PART descriptor (R184). -/
def partFields (s : State) (c : Cur) (T : Team) (d : List Byte) : List (Nat × Bool) :=
  let z := fld d 28 4
  let k := if fld d 21 1 % 2 = 0 then 4 else 8
  spaceFields s c.team d [0, 1, 2] [0, 1, 2, 3] [0, 1, 2, 3]
    ++ [(28, decide (8 ≤ z ∧ z ≤ 256) && z % 8 == 0), (32, fld d 32 4 % k == 0 && decide (fld d 32 4 + k ≤ z))
        , (36, isPow2 (fld d 36 4) && decide (2 ≤ fld d 36 4 ∧ fld d 36 4 ≤ 4096))]
    ++ syncFields d T.size

/-- The ranges of a PART: its records, its partitions, its cursors (R182, R184). -/
def partSpans (d : List Byte) : List Span :=
  [⟨1, 0, fld d 40 4, fld d 28 4 * fld d 24 4, false⟩, ⟨0, 0, fld d 0 8, fld d 36 4 * fld d 8 8, true⟩, ⟨1, 0, fld d 44 4, 8 * fld d 36 4, true⟩]

/-- PART (R184). -/
def execPart (flag : BitVec 6) (sa : SReg) (s : State) : Answer := M.answer (descCommand .part flag sa partFields partSpans) s

end Sys2Proof.Machine
end

