-- ==== Sys2Proof/Machine/Fabric.lean ====
section
/-! DEFINITION. One-sided fabric commands, requests and answers of the fabric, links and credits (R186, R340–R348, R360). -/

namespace Sys2Proof.Machine

/-! ### PUTS, GET and RADD (R186) -/

/-- The descriptor's checks, for the bits of byte 23 that a command admits. -/
def fabricFields (kind : CmdKind) (d : List Byte) (size : Nat) : List (Nat × Bool) :=
  let sync := kind == .get && natBit (fld d 23 1) 0
  [(16, decide (fld d 16 1 ≤ 1)), (17, kind != .radd || decide (fld d 17 1 ≤ 2)), (18, decide (fld d 18 2 < 1024))]
    ++ zeroFields d 20 2 ++ [(22, fld d 22 1 == 4 || fld d 22 1 == 5)
    , (23, match kind with
        | .get => decide (fld d 23 1 ≤ 1)
        | .puts => fld d 23 1 == 0 || fld d 23 1 == 2
        | _ => fld d 23 1 == 0)
    , (24, kind != .radd || fld d 24 4 % raddSize d == 0)]
    ++ zeroFields d 28 4 ++ zeroFields d 48 4
    ++ [(52, !sync || (fld d 52 4 % 16 == 0 && decide (fld d 52 4 + 16 ≤ size)))] ++ zeroFields d 56 8

/-- The range that a one-sided command reads or writes on this device (R182, R186). -/
def fabricSpans (kind : CmdKind) (d : List Byte) : List Span := [⟨fld d 16 1, 0, fld d 0 8, fld d 24 4, kind == .get⟩]

/-- A one-sided command issued. -/
def oneSided (kind : CmdKind) (flag : BitVec 6) (sa : SReg) : M Unit :=
  descCommand kind flag sa (fun _ _ T d => fabricFields kind d T.size) (fabricSpans kind)

def execPuts (flag : BitVec 6) (sa : SReg) (s : State) : Answer := M.answer (oneSided .puts flag sa) s
def execGet (flag : BitVec 6) (sa : SReg) (s : State) : Answer := M.answer (oneSided .get flag sa) s
def execFabricRadd (flag : BitVec 6) (sa : SReg) (s : State) : Answer := M.answer (oneSided .radd flag sa) s

/-- PUTS_COMPLETE (R186). -/
def execPutsComplete (t id : Nat) (s : State) : Answer := finishCommand [.puts] t id s
/-- GET_COMPLETE (R186). -/
def execGetComplete (t id : Nat) (s : State) : Answer := finishCommand [.get] t id s
/-- FABRIC_RADD_COMPLETE (R186). -/
def execFabricRaddComplete (t id : Nat) (s : State) : Answer := finishCommand [.radd] t id s

/-! ### Requests from other devices (R344, R345, R348) -/

/-- The agent that a canal acts as for a context (R329): no core's TLB, and a non-owner of every page. -/
def canalAgent (C : Context) : Agent := C.agent

/-- The kind of access that a request makes at the target (R319). -/
def requestAccess : FabricOp → Access
  | .read _ => .read
  | .write _ => .write
  | .atom _ _ _ _ => .atomic
  | .cas _ _ _ => .atomic
  | .radd _ _ => .radd
  | .add _ _ => .radd
  | .signal _ => .radd

/-- The bytes a request touches; those of a commutative add are told by its element's page. -/
def requestLen : FabricOp → Nat
  | .read n => n
  | .write b => b.length
  | .atom _ _ n _ => n
  | .cas n _ _ => n
  | .radd _ _ => 1
  | .add _ _ => 1
  | .signal _ => 8

/-- Whether a page's kind admits a request: the element of a fabric RADD command names the kind itself (R186, R319, R344, R346). -/
def requestKind (op : FabricOp) (off : Nat) (p : Part) : Bool :=
  match op with
  | .radd _ ty => p.kind != 0 && off % elemBytes p.kind == 0 && (p.kind == 1 || !(ty == tyAcc || tysF.contains ty))
  | .add kind _ => p.kind == kind + 1 && off % elemBytes p.kind == 0
  | .signal _ => p.kind == 2 && off % 8 == 0
  | _ => p.kind == 0

/-- A request performed on located parts: its answer's data and the state after it (R345). -/
def State.perform (s : State) (op : FabricOp) (ps : List Part) : List Byte × State :=
  match op with
  | .read _ => (s.readParts ps, s)
  | .write b => ([], (s.dropLines ps).writeParts ps b 0)
  | .atom o sg n b =>
    let old := s.readParts ps
    (old, (s.dropLines ps).writeParts ps (toBytes n (atomValue o sg (8 * n) (ofBytes old) (b.toNat % 2 ^ (8 * n)))) 0)
  | .cas n new expected =>
    let old := s.readParts ps
    if ofBytes old = expected.toNat % 2 ^ (8 * n) then (old, (s.dropLines ps).writeParts ps (toBytes n new.toNat) 0) else (old, s)
  | .radd adds ty => ([], ps.foldl (fun s p => (s.mergeAt p ty adds).getD s) (s.dropLines ps))
  | .add kind b => ([], ps.foldl (fun s p => (s.mergeAt p (elemTy kind) [b]).getD s) (s.dropLines ps))
  | .signal v => ([], ps.foldl (fun s p => (s.mergeAt p 6 [toBytes 8 v.toNat]).getD s) (s.dropLines ps))

/-- The NACK code of a request whose address the target's heap does not map: a signal's is that of a wrong page (R344, R346). -/
def unmapped (op : FabricOp) : Nat :=
  match op with
  | .signal _ => 3
  | _ => 2

/-- What a request finds at its target: a NACK code, a wait, or the parts it is performed on (R344). -/
def State.resolve (s : State) (r : FabricReq) : (Nat ⊕ Option (List Part)) × State :=
  match s.contexts.find? fun c => c.podTag == some r.tag with
  | none => (.inl 1, s)
  | some C =>
    let a := canalAgent C
    let acc := requestAccess r.op
    let n := requestLen r.op
    if r.off + n > C.heapLen then (.inl (unmapped r.op), s)
    else
      match s.locate { a with adds := acc == .radd } (heapVa (natBits s.dome.podcfg.toNat 9 0) r.off) n acc.writes with
      | (.fault _, s) => (.inl (unmapped r.op), s)
      | (.parts ps, s) =>
        if ps.any fun p => !p.isAbsent && !p.isHeld && !(p.permits acc && p.open acc s && requestKind r.op r.off p) then (.inl 3, s)
        else if ps.any fun p => p.isAbsent || p.isHeld then (.inr none, s.reportParts a acc ps)
        else if acc != .write && acc != .radd && (s.partsPoison ps).isSome then (.inl 4, s)
        else (.inr (some ps), s)

/-- A request parked in its canal's fault queue of 64 entries; past them it stays in the pool of VC 0. Either way its beats are not returned (R341,
R348). -/
def State.park (r : FabricReq) (s : State) : State :=
  s.modDome fun d =>
    if (d.parked.filter fun q => q.port == r.port).length < 64 then { d with parked := d.parked ++ [r] } else { d with pool := d.pool ++ [r] }

/-- Whether a request comes behind a parked one of its sender to the same bytes: they are performed in the order they were sent (R342). -/
def State.behindParked (s : State) (r : FabricReq) : Bool :=
  let stop (q : FabricReq) : Nat := q.off + max (requestLen q.op) (requestBytes q.op)
  (s.dome.parked ++ s.dome.pool).any fun q =>
    q.port == r.port && q.src == r.src && q.tag == r.tag && decide (q.off < stop r) && decide (r.off < stop q)

/-- The answer to a request, of the request's class, on the canal it came by, and the beats of the request returned to the sender's credits (R341). -/
def State.reply (r : FabricReq) (nack : Option Nat) (data : List Byte) (s : State) : State :=
  let conf := (s.contexts.find? fun c => c.podTag == some r.tag).any (·.conf)
  (s.sendOn r.port 1 data.length r.zero (Msg.guard conf (.answer r.src r.id nack data))).send (.credit r.port 0 (beats (requestBytes r.op)))

/-! ### Answers (R344, R347) -/

/-- The cause that a NACK code raises (R344). -/
def nackCause (code : Nat) : Cause :=
  match code with
  | 3 => cAccessFault
  | 4 => cLinkFault
  | 5 => cIllegalOp
  | _ => cAddrFault

/-! ### Credits (R341) -/

/-- VC_CREDIT_RETURN (R341): a pool never holds more than its size; what waited for it is sent. -/
def execVcCreditReturn (port vc n : Nat) (s : State) : Answer :=
  .next ((s.modDome fun d =>
    { d with canals := modifyAt (fun c => { c with credits := modifyAt (fun x => min (x + n) (vcPools.getD vc 0)) vc c.credits }) port d.canals }).flush
    port)

end Sys2Proof.Machine
end

