-- ==== Sys2Proof/Machine/Plane.lean ====
section
/-! DEFINITION. Bit-plane collectives: PLCL, PLCN, PLWT, PLVAL, PLCX, their headers, planes, freezes and answers, and what a link's fall does to
them (R187, R188, R349–R360). -/

namespace Sys2Proof.Machine

/-! ### Collectives and tiles -/

/-- Bytes of an element of a collective's format (R187). -/
def planeBytes (fmt : Nat) : Nat := if fmt = 10 then 4 else 2

/-- The tiles of a tensor, and those a device owns under operations 1 and 2 (R351). -/
def Coll.total (c : Coll) : Nat := c.count / 256
def Coll.share (c : Coll) : Nat := c.total / max 1 c.comm.n

/-- The position that owns a tile (R351). -/
def Coll.owner (c : Coll) (t : Nat) : Nat := if c.op = 0 then t % max 1 c.comm.n else t / max 1 c.share

/-- The tiles of the device's destination, in order, and the number of the first (R351). -/
def Coll.firstTile (c : Coll) : Nat := if c.op = 1 then c.comm.pos * c.share else 0
def Coll.stateTiles (c : Coll) : Nat := if c.op = 1 then c.share else c.total
def Coll.inState (c : Coll) (t : Nat) : Bool := decide (c.firstTile ≤ t ∧ t < c.firstTile + c.stateTiles)

def Coll.tile (c : Coll) (t : Nat) : Option Tile := c.tiles[t]?
def Coll.next (c : Coll) : Nat := (c.comm.pos + 1) % max 1 c.comm.n

/-- A tile before its header. -/
def Tile.start (i : Nat) : Tile :=
  { idx := i, exp := none, flags := 0, counts := [], gathers := [], landed := 0, canc := false, want := none, late := [], fixed := none
    write := false, done := false }

/-- The key of a tile's messages. -/
def Coll.key (c : Coll) (ctx t : Nat) : PlaneKey := ⟨ctx, c.handle, c.seq, t⟩

/-- The collective that a message concerns, with its team. Messages name their context by its number, the same on every device of a ring (R344;
notes/assumptions/142, DESIGN CHOICE). -/
def State.collOf? (s : State) (k : PlaneKey) : Option (Nat × Coll) :=
  (indexed 0 s.teams).findSome? fun x =>
    if ((s.launches[x.2.launch]?).any fun l => l.ctx == k.ctx) then
      (x.2.colls.find? fun c => c.handle == k.handle && c.seq == k.seq).map fun c => (x.1, c)
    else none

/-- The collective of a team by its command's number. -/
def State.coll? (s : State) (t cmd : Nat) : Option Coll := (s.team? t).bind fun T => T.colls.find? fun c => c.cmd == cmd
def State.modColl (t cmd : Nat) (f : Coll → Coll) (s : State) : State :=
  s.modTeam t fun T => { T with colls := T.colls.map fun c => if c.cmd = cmd then f c else c }
def State.modTile (t cmd i : Nat) (f : Tile → Tile) (s : State) : State :=
  s.modColl t cmd fun c => { c with tiles := modifyAt f i c.tiles }

/-- Whether this device's context still has to issue the collective that a message concerns (R350). -/
def State.awaits (s : State) (k : PlaneKey) : Bool :=
  ((s.context? k.ctx).bind fun C => C.comms.find? fun c => c.handle == k.handle).any fun c => decide (c.issued ≤ k.seq)

/-- A message for a collective that this device has not issued yet waits; one for a collective that is over is dropped. -/
def waitFor (e : Event) (k : PlaneKey) (s : State) : Answer := .next (if s.awaits k then s.later e else s)

/-- A message sent to the next device of a ring, on its canal, with the class of the collective's launch (R302, R341, R349). -/
def State.sendRing (c : Coll) (k : PlaneKey) (vc bytes : Nat) (m : Msg) (s : State) : State :=
  let zero := ((s.collOf? k).bind fun tc => s.launchOf? tc.1).any (·.cls == 0)
  s.sendOn c.comm.canal vc bytes zero (Msg.guard ((s.context? k.ctx).any (·.conf)) m)

/-- The communicator that a message concerns (R349). -/
def State.commOf? (s : State) (k : PlaneKey) : Option Comm := (s.context? k.ctx).bind fun C => C.comms.find? fun c => c.handle == k.handle

/-- The port by which a ring's traffic arrives: the one that the route table gives for the previous device; where it gives several, the ring's own canal
(R342, R349; notes/assumptions/107, DESIGN CHOICE). -/
def State.ringIn (s : State) (x : Comm) : Nat :=
  match (s.dome.routes.find? fun r => r.1 == x.prev).map (·.2) with
  | some [p] => p
  | _ => x.canal

/-- What is known of a message's communicator whose context has left (R341). -/
def State.goneOf? (s : State) (k : PlaneKey) : Option Gone := s.dome.gone.find? fun x => x.ctx == k.ctx && x.comm.handle == k.handle

/-- The beats of a message that a ring's device has consumed go back to the previous device (R341). -/
def State.ringCredit (k : PlaneKey) (vc bytes : Nat) (s : State) : State :=
  match (s.commOf? k).or ((s.goneOf? k).map (·.comm)) with
  | some x => s.send (.credit (s.ringIn x) vc (beats bytes))
  | none => s

/-- An arrival on VC 3, which the canal consumes at once: its beats go back as it comes, and not again when a message that could not be taken up yet is
looked at anew (R341). -/
def arrival3 (k : PlaneKey) (mine : Bool) (e : Event) (f : State → Answer) (s : State) : Answer :=
  if s.dome.credited.contains e then f (s.modDome fun d => { d with credited := d.credited.erase e })
  else f (if mine then s else s.ringCredit k 3 64)

/-- An arrival's answer, with the credits it returns: none for what this device gave itself, or for what goes on waiting in the pool. -/
def arrival (credit : State → State) (mine : Bool) (s : State) (r : Answer) : Answer :=
  match r with
  | .next s' => .next (if mine || decide (s.dome.later.length < s'.dome.later.length) then s' else credit s')
  | r => r

/-- The bytes of a count plane (R354). -/
def countBytes (n : Nat) : Nat := 32 * (Nat.log2 n + 1)

/-- The bytes of a gather plane of an operation on a ring of n devices (R355): g + 1 bits of each element in the first, one bit in each other. -/
def gatherSize (op n plane : Nat) : Nat := 32 * if plane ≠ 1 || op = 2 || n ≤ 1 then 1 else Nat.log2 (n - 1) + 2
def Coll.gatherBytes (c : Coll) (plane : Nat) : Nat := gatherSize c.op c.comm.n plane

/-- The operation and the ring's size of the collective that a message belongs to, though its context may have left. -/
def State.ringShape (s : State) (k : PlaneKey) : Nat × Nat :=
  match s.collOf? k, s.goneOf? k with
  | some (_, c), _ => (c.op, c.comm.n)
  | none, some x => (((x.ops.find? fun y => y.1 == k.seq).map (·.2)).getD 2, x.comm.n)
  | none, none => (2, ((s.commOf? k).map (·.n)).getD 1)

/-! ### Elements (R352, R353, R357) -/

/-- The value of an element of a source tile. -/
def planeVal (fmt : Nat) (b : List Byte) : FVal := (ETy.get fmt 0).fmt.decode (ofBytes b)

/-- The elements of a tile's bytes. -/
def tileVals (fmt : Nat) (b : List Byte) : List FVal :=
  let e := planeBytes fmt
  (List.range 256).map fun i => planeVal fmt ((b.drop (e * i)).take e)

/-- floor(log2 |x|) of a nonzero finite element (R352). -/
def FVal.top : FVal → Option Int
  | .fin _ m e => if m = 0 then none else some (Nat.log2 m + e)
  | _ => none

/-- The larger of two exponents that may be absent. -/
def maxExp : Option Int → Option Int → Option Int
  | none, b => b
  | a, none => a
  | some a, some b => some (max a b)

/-- E of a tile's elements (R352). -/
def tileExp (vs : List FVal) : Option Int := vs.foldl (fun m v => maxExp m v.top) none

/-- The flags of a tile's elements: NAN 1, PINF 2, NINF 4 (R352). -/
def tileFlags (vs : List FVal) : Nat :=
  vs.foldl (fun f v =>
    f ||| match v with
      | .nan => 1
      | .inf false => 2
      | .inf true => 4
      | _ => 0) 0

/-- x_int (R353). -/
def planeInt (P : Nat) (E : Int) : FVal → Int
  | .fin neg m e =>
    let k := e + P - 2 - E
    let z : Int := if neg then -(m : Int) else m
    if k ≥ 0 then z * 2 ^ k.toNat else z / 2 ^ (-k).toNat
  | _ => 0

/-- The k-th plane of a P-bit value, plane P − k (R353). -/
def planeBit (P k : Nat) (z : Int) : Nat := natBits (wrapNat P z) (P - k) (P - k)

/-- The weight of the k-th plane (R353). -/
def planeWeight (P k : Nat) : Int := if k = 1 then -(2 ^ (P - 1)) else 2 ^ (P - k)

/-- The gather planes of a value (R355): the first is its floor by 2^(P−1). -/
def gatherVal (P k : Nat) (z : Int) : Int := if k = 1 then z / 2 ^ (P - 1) else (z / 2 ^ (P - k)) % 2

/-- The sum of weighted planes, element by element. -/
def sumPlanes (ps : List (Int × List Int)) : List Int :=
  ps.foldl (fun v wp => (v.zip wp.2).map fun xy => xy.1 + wp.1 * xy.2) (List.replicate 256 0)

/-- V_k of a tile on this device (R356): the owner sums count planes, every other device and the owner of operation 2 gather planes. A freeze at f has fixed
V_f (R359); below f the owner's count planes stand, and elsewhere the gather planes are those of V_f. -/
def Coll.valueAt (c : Coll) (x : Tile) (k : Nat) : List Int :=
  let P := c.planes
  let counted := c.owner x.idx == c.comm.pos && c.op != 2
  let byCounts := sumPlanes ((indexed 1 (x.counts.take k)).map fun kc => (planeWeight P kc.1, kc.2.map Int.ofNat))
  match x.fixed with
  | some v => if k ≥ x.want.getD x.landed then v else if counted then byCounts else v.map fun z => z / 2 ^ (P - k) * 2 ^ (P - k)
  | none =>
    if counted then byCounts else sumPlanes ((indexed 1 (x.gathers.take k)).map fun kg => ((2 : Int) ^ (P - kg.1), kg.2))

/-- The bytes of a tile whose element values are z ÷ `den` units (R188, R357): canonical NaN everywhere when a flag is set. -/
def encodeTile (fmt P : Nat) (E : Int) (flags : Nat) (half : Bool) (vs : List Int) : List Byte :=
  let f := (ETy.get fmt 0).fmt
  vs.flatMap fun z =>
    toBytes (planeBytes fmt)
      (if flags ≠ 0 then f.nanBits
       else if z = 0 then 0
       else f.roundScaled .rne (z < 0) z.natAbs (E - P + 2 - if half then 1 else 0))

/-! ### The state area (R187) -/

/-- A tile's counter word. -/
def Coll.counter (c : Coll) (x : Tile) : Nat := c.planes * 2 ^ 16 + (if x.canc then 256 else 0) + x.landed

/-- A tile's counter written, and the PLVALs that wait on the area woken. -/
def State.touch (t cmd i : Nat) (s : State) : State :=
  match s.coll? t cmd, s.team? t with
  | some c, some T =>
    match c.tile i with
    | some x =>
      if !c.inState i then s
      else
        let s := s.writeScratch t (c.area + 16 + 4 * (i - c.firstTile)) (toBytes 4 (c.counter x)) c.stamp
        T.cmds.foldl (fun s v => if v.kind = .plval && v.srec = c.area then s.post (.plvalViewWrite t v.id) else s) s
    | none => s
  | _, _ => s

/-- The flag falls when every tile of the destination is complete or cancelled (R187). -/
def State.settleColl (t cmd : Nat) (s : State) : State :=
  match s.coll? t cmd with
  | some c =>
    if !c.ended && !c.broken && c.tiles.all fun x => x.done || !c.inState x.idx then
      (s.modColl t cmd fun c => { c with ended := true }).dropCmd t cmd
    else s
  | none => s

/-! ### Reading sources and writing destinations (R358) -/

/-- The canals' agent for a team's context. -/
def State.canal? (s : State) (t : Nat) : Option Agent := (s.contextOf? t).map canalAgent

/-- What a source tile gives: its elements, none where it cannot be read on account of a fault, or a wait. -/
inductive Source where
  | vals (vs : List FVal)
  | broken
  | wait

/-- The collective meets a fault on this device (R185). -/
def State.failColl (t : Nat) (c : Coll) (cause : Cause) (addr : Word) (detail : Nat) (s : State) : State :=
  if c.broken || c.ended then s
  else (s.modColl t c.cmd fun c => { c with broken := true }).post (.engineFault t c.cmd cause addr (BitVec.ofNat 32 (detail + 0x53)))

/-- The device's own source tile read (R351, R358): each time anew, from another device's heap too. -/
def State.sourceTile (t : Nat) (c : Coll) (i : Nat) (s : State) : Source × State :=
  let e := planeBytes c.fmt
  let j := if c.op = 2 then i - c.comm.pos * c.share else i
  match s.canal? t, c.fetched.find? fun x => x.1 == i with
  | none, _ => (.broken, s)
  | _, some x => (.vals (tileVals c.fmt x.2), s)
  | some a, none =>
    match s.readLoc a (.global (c.src + 256 * e * j)) (256 * e) with
    | (.ok b, s) => (.vals (tileVals c.fmt b), s)
    | (.wait, s) => (.wait, s)
    | (.peer dev off, s) =>
      if c.broken then (.broken, s)
      else if c.asked.contains i then (.wait, s)
      else
        (.wait, (s.modColl t c.cmd fun c => { c with asked := c.asked ++ [i] }).sendRemote
          { Remote.of t c.grp dev off (256 * e) (-1#32) with cmd := some c.cmd, lane := i, rd := true } (.read (256 * e)))
    | (.fault cause x code, s) => (.broken, s.failColl t c cause x (nackInfo s.devnum (fabricCode code)))

/-- What another device has given of a source tile is used up: the next use reads it again (R345, R358). -/
def State.forgetTile (t cmd i : Nat) (s : State) : State :=
  s.modColl t cmd fun c => { c with fetched := c.fetched.filter fun x => x.1 != i, asked := c.asked.filter (· != i) }

/-- The values that a device's contribution takes where its source cannot be read: free (notes/assumptions/15). -/
def freeBits (s : State) : List Nat × State := ((List.range 256).map fun i => Config.freeNat (s.free + i) % 2, { s with free := s.free + 256 })

/-- A tile whose destination stands: it is done, and cancelled where a freeze fixed it (R357, R359). -/
def State.markTile (t cmd i : Nat) (s : State) : State :=
  ((s.modTile t cmd i fun x =>
    match x.fixed with
    | some _ => { x with write := false, done := true, canc := true, landed := x.want.getD x.landed }
    | none => { x with write := false, done := true }).touch t cmd i).settleColl t cmd

/-- A tile's destination written from V_f or from S (R357, R359), piece by piece (R253); what a freeze writes anew takes the place of what is still to come
of an earlier write. A page that is not resident is waited for. -/
def State.finishTile (t cmd i : Nat) (s : State) : State :=
  let s := { s with apart := s.apart.filter fun x => !(x.team == t && x.tile == some (cmd, i)) }
  match s.coll? t cmd, s.canal? t, (s.coll? t cmd).bind fun c => c.tile i with
  | some c, some a, some x =>
    let e := planeBytes c.fmt
    let b := encodeTile c.fmt c.planes (x.exp.getD 0) x.flags false (c.valueAt x c.planes)
    if !c.inState i then s.markTile t cmd i
    else
      match s.landLoc a { Apart.of ⟨t, c.grp, .scalar⟩ c.stamp with tile := some (cmd, i) } (.global (c.dst + 256 * e * (i - c.firstTile))) b with
      | (.ok (s', true), _) => s'.modTile t cmd i fun x => { x with write := false }
      | (.ok (s', false), _) => s'.markTile t cmd i
      | (.wait, s) => s.modTile t cmd i fun x => { x with write := true }
      | (.peer dev off, s) =>
        (s.modTile t cmd i fun x => { x with write := true }).sendRemote
          { Remote.of t c.grp dev off b.length (-1#32) with cmd := some cmd, lane := i } (.write b)
      | (.fault cause y code, s) => s.failColl t c cause y (nackInfo s.devnum (fabricCode code))
  | _, _, _ => s

/-- A freeze sent around the ring on VC 3, and on VC 2 its gather planes, which operation 1 does not need (R359). -/
def State.sendFreeze (c : Coll) (k : PlaneKey) (f : Nat) (vals : List Int) (s : State) : State :=
  let s := s.sendRing c k 3 64 (.freeze k f)
  if c.op = 1 then s
  else (List.range f).foldl (fun s j => s.sendRing c k 2 (c.gatherBytes (j + 1)) (.gather k (j + 1) true (vals.map (gatherVal c.planes (j + 1))))) s

/-- A cancel decided at the tile's owner (R359). -/
def State.arbitrate (ctx t cmd i c pos : Nat) (detm : Bool) (s : State) : State :=
  match s.coll? t cmd, (s.coll? t cmd).bind fun x => x.tile i with
  | some C, some x =>
    let freeze (f : Nat) (s : State) : State :=
      let s := (s.modTile t cmd i fun x => { x with want := some f, fixed := some (C.valueAt x f) }).finishTile t cmd i
      if C.comm.n > 1 then s.sendFreeze C (C.key ctx i) f (C.valueAt x f) else s
    if x.canc || x.fixed.isSome then
      let f := x.want.getD x.landed
      if c ≠ f && detm then
        (if pos = C.comm.pos then s.post (.cancelAnswer (C.key ctx i) ⟨c, pos, true⟩)
         else s.sendRing C (C.key ctx i) 3 64 (.cancelAnswer (C.key ctx i) ⟨c, pos, true⟩))
      else s
    else if x.want.isSome then s.modTile t cmd i fun x => { x with late := x.late ++ [(c, pos, detm)] }
    else if c = 0 then freeze x.landed s
    else if c ≤ x.landed then freeze c s
    else s.modTile t cmd i fun x => { x with want := some c }
  | _, _ => s

/-- An accepted cancel whose planes have come: the freeze, then the cancels that waited behind it (R359). -/
def State.checkWant (ctx t cmd i : Nat) (s : State) : State :=
  match (s.coll? t cmd).bind fun c => c.tile i with
  | some x =>
    match x.want, x.fixed with
    | some f, none =>
      if f ≤ x.landed then
        let s := (s.modTile t cmd i fun x => { x with want := none, late := [] }).arbitrate ctx t cmd i f 0 false
        x.late.foldl (fun s l => s.arbitrate ctx t cmd i l.1 l.2.1 l.2.2) s
      else s
    | _, _ => s
  | none => s

/-! ### PLCL (R187, R349, R350) -/

/-- The header of a collective as this device describes it. -/
def Coll.header (c : Coll) (dev : Nat) : HeaderBody :=
  { op := c.op, fmt := c.fmt, planes := c.planes, count := c.count, ringSize := c.comm.n, podTag := c.comm.tag.toNat, first := dev
    last := c.comm.prev, sender := 1024, next := c.comm.next, mismatch := none, exp := none, flags := 0, final := false }

/-- The unfinished collectives of a communicator. -/
def State.liveColls (s : State) (ctx handle : Nat) : Nat :=
  (s.teams.map fun T =>
    if (s.launches[T.launch]?).any fun l => l.ctx == ctx then (T.colls.filter fun c => c.handle == handle && !c.ended && !c.broken).length
    else 0).foldl (· + ·) 0

/-- The communicator that a descriptor names, if it has members (R349). -/
def plclComm (C : Context) (d : List Byte) : Option Comm := (C.comms.find? fun x => x.handle == fld d 18 2).filter fun x => x.n != 0

/-- The fields of a PLCL descriptor, each with its check, in the order of R349. The bytes that R187 does not list must be zero (notes/assumptions/124,
DESIGN CHOICE). -/
def plclFields (comm : Option Comm) (d : List Byte) : List (Nat × Bool) :=
  let n := (comm.map (·.n)).getD 1
  [(16, decide (fld d 16 1 ≤ 2)), (17, [8, 9, 10].contains (fld d 17 1)), (18, comm.isSome)
   , (20, fld d 20 1 % 8 == 0 && decide (8 ≤ fld d 20 1 ∧ fld d 20 1 ≤ 64)), (21, fld d 21 1 == 0)
   , (22, decide (3 ≤ fld d 22 1 ∧ fld d 22 1 ≤ 5) && !(fld d 22 1 == 3 && decide (n > 1))), (23, fld d 23 1 == 0)
   , (24, fld d 24 4 != 0 && fld d 24 4 % (if fld d 16 1 = 0 then 256 else 256 * n) == 0), (28, fld d 28 4 % 16 == 0)] ++ zeroFields d 40 24

/-- The collective that a descriptor starts on a communicator, as the command `cmd` of a group (R187). -/
def plclColl (cmd grp : Nat) (x : Comm) (d : List Byte) : Coll :=
  { cmd := cmd, grp := grp, handle := fld d 18 2, seq := x.issued, op := fld d 16 1, fmt := fld d 17 1, planes := fld d 20 1, count := fld d 24 4
    scope := fld d 22 1, src := fld d 0 8, dst := fld d 8 8, area := fld d 28 4, view := fld d 32 8, comm := x, first := none
    tiles := (List.range (fld d 24 4 / 256)).map Tile.start, stamp := 0, fetched := [], asked := [], odd := false, broken := false, ended := false }

/-- The ranges of a collective: its source, its destination, its state area (R182). -/
def Coll.spans (c : Coll) : List Span :=
  [⟨0, 0, c.src, 256 * planeBytes c.fmt * (if c.op = 2 then c.share else c.total), false⟩
   , ⟨0, 0, c.dst, 256 * planeBytes c.fmt * c.stateTiles, true⟩, ⟨1, 0, c.area, 16 + 4 * c.stateTiles, true⟩]

/-- The state area as a collective starts (R187, R353). -/
def Coll.freshArea (c : Coll) : List Byte :=
  toBytes 4 c.stateTiles ++ toBytes 4 c.comm.n ++ toBytes 8 0 ++ (List.range c.stateTiles).flatMap fun _ => toBytes 4 (c.planes * 2 ^ 16)

/-- The tiles whose header this device starts: all of them at position 0, or under operation 2 its own (R350). -/
def Coll.leads (c : Coll) : List Nat := (List.range c.total).filter fun i => if c.op = 2 then c.owner i == c.comm.pos else c.comm.pos == 0

/-- A collective starts: it joins its team, its communicator counts it, its state area is written (R187). -/
def State.startColl (t ctx : Nat) (c : Coll) (s : State) : State :=
  ((s.modTeam t fun T => { T with colls := T.colls ++ [c] }).modContext ctx fun C =>
    { C with comms := C.comms.map fun y => if y.handle = c.handle then { y with issued := y.issued + 1 } else y }).writeScratch t c.area c.freshArea
      c.stamp

/-- The header round of a collective begins. -/
def State.leadColl (ctx : Nat) (c : Coll) (s : State) : State :=
  c.leads.foldl (fun s i => s.post (.planeHeader (c.key ctx i) (c.header (natBits s.dome.podcfg.toNat 9 0)))) s

/-- PLCL: the checks of R349 in the order of the fields; the state area's bounds; then the stalls, and the header round begins at position 0, or under
operation 2 at each owner. -/
def execPlcl (flag : BitVec 6) (sa : SReg) (s : State) : Answer :=
  M.answer (do
    let fl ← commandFlag flag
    let (c, T, _) ← here
    let C ← hereContext
    let off := (← hereScalar).getS sa
    let d ← readDesc off 64 64
    checkFields (plclFields (plclComm C d) d)
    match plclComm C d with
    | none => trap cIllegalOp 0 0 18
    | some x =>
      let coll := plclColl T.nextCmd c.grp x d
      require (decide (coll.area + 16 + 4 * coll.stateTiles ≤ T.size)) cScratchBounds 0 (BitVec.ofNat 64 coll.area)
      if (← get).liveColls C.id coll.handle ≥ 4 then stallOn .queueFull
      let id ← issueCommand { kind := .plcl, flag := fl, desc := d, srec := coll.area, scope := coll.scope, locks := coll.spans }
      let coll := { coll with stamp := (((← get).cmd? c.team id).map (·.stamp)).getD 0 }
      upd fun s => s.startColl c.team C.id coll
      doneScalar 4 (← hereScalar)
      upd fun s => s.leadColl C.id coll) s

/-! ### The header round (R350, R352) -/

/-- Whether a header was formed on this device. -/
def formedHere (h : HeaderBody) : Bool := h.sender == 1024

/-- Whether a header differs from this device's parameters or ring (R350). -/
def Coll.differs (c : Coll) (dev : Nat) (h : HeaderBody) : Bool :=
  h.op != c.op || h.fmt != c.fmt || h.planes != c.planes || h.count != c.count || h.ringSize != c.comm.n || h.podTag != c.comm.tag.toNat
    || h.sender != c.comm.prev || (c.comm.pos + 1 == c.comm.n && decide (c.comm.n > 1) && (h.last != dev || c.comm.next != h.first))

/-- Whether an entry with one device names another as the next (R349, R350): its ring is not the one that it counts. -/
def Comm.stray (x : Comm) (dev : Nat) : Bool := x.n == 1 && x.next != dev

/-- The device that an arriving header shows to differ (R350): the one before, whose entry names another next device, or which hands position 0 its
header back without the ring's maximum; or this device. Under operation 2 a header goes all the way round before it is final. -/
def Coll.mismatch (c : Coll) (dev : Nat) (h : HeaderBody) : Option Nat :=
  if h.next != dev then some h.sender
  else if c.differs dev h then some dev
  else if !h.final && c.op != 2 && c.comm.pos == 0 then some (if h.first != dev then dev else h.sender)
  else none

/-- A mismatch ends the collective here (R350): every tile is cancelled with nothing landed, and the command takes its fault. -/
def State.endOdd (t : Nat) (c : Coll) (dev : Nat) (s : State) : State :=
  let s := s.failColl t c cIllegalOp 0 (dev % 1024 * 2 ^ 16 + 5 * 2 ^ 8)
  let s := s.modColl t c.cmd fun c =>
    { c with odd := true, broken := true
             tiles := c.tiles.map fun x => { x with canc := true, landed := 0, done := true, write := false, want := some 0 } }
  (List.range c.total).foldl (fun s i => s.touch t c.cmd i) s

/-- A tile's exponent and flags are fixed: the planes start at the device after its owner, or at the owner alone (R354, R355). -/
def State.fixTile (ctx t : Nat) (c : Coll) (i : Nat) (E : Int) (flags : Nat) (s : State) : State :=
  let s := (s.modTile t c.cmd i fun x => { x with exp := some E, flags := flags }).touch t c.cmd i
  if c.op ≠ 2 && c.comm.pos = (c.owner i + 1) % max 1 c.comm.n then
    (List.range c.planes).foldl (fun s k => s.post (.countPlane (c.key ctx i) (k + 1) (List.replicate 256 0))) s
  else s

/-- The gather planes of a tile sent to the next device (R355). -/
def State.sendGathers (ctx : Nat) (c : Coll) (i : Nat) (vs : List Int) (s : State) : State :=
  if c.comm.n ≤ 1 then s
  else (List.range c.planes).foldl (fun s k =>
    s.sendRing c (c.key ctx i) 2 (c.gatherBytes (k + 1)) (.gather (c.key ctx i) (k + 1) false (vs.map (gatherVal c.planes (k + 1))))) s

/-- The owner of an all-gather tile converts it, completes it, and sends it (R355); a cancel that has waited for its planes freezes it, and one that has
come before leaves nothing to convert (R359). -/
def State.convertOwn (ctx t : Nat) (c : Coll) (i : Nat) (vs : List Int) (s : State) : State :=
  if (c.tile i).any fun x => x.canc || x.fixed.isSome then s
  else
    let s := s.modTile t c.cmd i fun x =>
      { x with gathers := (List.range c.planes).map fun k => vs.map (gatherVal c.planes (k + 1)), landed := c.planes }
    let s := (s.touch t c.cmd i).checkWant ctx t c.cmd i
    if ((s.coll? t c.cmd).bind fun c => c.tile i).any (·.fixed.isSome) then s else (s.finishTile t c.cmd i).sendGathers ctx c i vs

/-- A header at a device (R350, R352). -/
def headerHere (k : PlaneKey) (h : HeaderBody) (s : State) : Answer :=
  match s.collOf? k with
  | none => waitFor (.planeHeader k h) k s
  | some (t, c) =>
    let dev := natBits s.dome.podcfg.toNat 9 0
    let i := k.tile
    let p := c.comm.pos
    let own := formedHere h
    let forward (h : HeaderBody) (s : State) : State :=
      if c.comm.n > 1 || !own || c.comm.stray dev then s.sendRing c k 2 64 (.header k { h with sender := dev, next := c.comm.next }) else s
    let again : Answer := .next (s.later (.planeHeader k h))
    -- of the header that position 0, or the owner of an all-gather tile, forms itself only a stray entry shows
    let h :=
      if h.mismatch.isSome then h
      else if own then { h with mismatch := if c.comm.stray dev then some dev else none }
      else { h with mismatch := c.mismatch dev h }
    match h.mismatch with
    | some bad => .next (if c.odd then s else forward h (s.endOdd t c bad))
    | none =>
      if c.odd then .next s
      else if h.final then
        let s := s.fixTile k.ctx t c i (h.exp.getD 0) h.flags
        let stop := if c.op = 2 then c.next == c.owner i else p + 2 == c.comm.n
        .next (if stop then s else forward h s)
      else if c.op = 2 && !own && c.owner i ≠ p then
        -- the owner's header is compared all round the ring before any device takes its values (R350)
        .next (forward h (if c.owner i = 0 then s.modColl t c.cmd fun c => { c with first := c.first.or (some h) } else s))
      else if c.op = 2 && !own && (c.tile i).all (·.exp.isNone) then
        -- it is back: the owner's values are broadcast
        .next ((forward { h with final := true } (s.fixTile k.ctx t c i (h.exp.getD 0) h.flags)).post (.planeHeader k { h with sender := 1024 }))
      else if c.op = 2 && p ≠ 0 && c.first.isNone then again
      else if c.op = 2 && (c.tile i).any (·.exp.isSome) then
        -- the owner reads its tile again, and converts it (R358)
        let E := ((c.tile i).bind (·.exp)).getD 0
        let convert (zs : List Int) (s : State) : Answer := .next ((s.forgetTile t c.cmd i).convertOwn k.ctx t c i zs)
        match s.sourceTile t c i with
        | (.wait, s) => .next (s.later (.planeHeader k h))
        | (.vals vs, s) => convert (vs.map fun v => signed c.planes (wrapNat c.planes (planeInt c.planes E v))) s
        | (.broken, s) =>
          convert ((List.range 256).map fun j => signed c.planes (Config.freeNat (s.free + j) % 2 ^ c.planes)) { s with free := s.free + 256 }
      else
        match s.sourceTile t c i with
        | (.wait, s) => .next (s.later (.planeHeader k h))
        | (src, s) =>
          let vs := match src with
            | .vals vs => vs
            | _ => [.fin false (2 ^ (Config.freeNat s.free % 256)) (-128), if Config.freeNat (s.free + 1) % 2 = 1 then .nan else .fin false 0 0]
          let s := match src with
            | .vals _ => s
            | _ => { s with free := s.free + 2 }
          let s := s.forgetTile t c.cmd i
          let E := maxExp h.exp (tileExp vs)
          let fl := h.flags ||| tileFlags vs
          if c.op = 2 then
            let base := (c.first.getD h)
            let h' := { base with exp := some (E.getD 0), flags := fl }
            let s := if p = 0 then s.modColl t c.cmd fun c => { c with first := c.first.or (some h') } else s
            if c.comm.n > 1 then .next (forward h' s)
            else .next ((s.fixTile k.ctx t c i (E.getD 0) fl).post (.planeHeader k h))
          else if p + 1 = c.comm.n then
            .next (forward { h with exp := some (E.getD 0), flags := fl, final := true } (s.fixTile k.ctx t c i (E.getD 0) fl))
          else .next (forward { h with exp := E, flags := fl } s)

/-- PLANE_HEADER (R350, R352), its beats returned (R341). -/
def execPlaneHeader (k : PlaneKey) (h : HeaderBody) (s : State) : Answer := arrival (State.ringCredit k 2 64) (formedHere h) s (headerHere k h s)

/-! ### Planes (R354–R356) -/

/-- This device's bits of a plane (R353, R358); none while the source waits for a page. The last plane ends the use of what another device has given. -/
def State.ownBits (t : Nat) (c : Coll) (i plane : Nat) (E : Int) (s : State) : Option (List Nat) × State :=
  match s.sourceTile t c i with
  | (.vals vs, s) =>
    (some (vs.map fun v => planeBit c.planes plane (planeInt c.planes E v)), if plane = c.planes then s.forgetTile t c.cmd i else s)
  | (.broken, s) => let r := freeBits s; (some r.1, r.2)
  | (.wait, s) => (none, s)

/-- A count plane at a device (R354): this device adds its bits; at the owner the plane is final, and with the last one the tile is complete. -/
def countHere (k : PlaneKey) (plane : Nat) (counts : List Nat) (s : State) : Answer :=
  match s.collOf? k, (s.collOf? k).bind fun tc => tc.2.tile k.tile with
  | some (t, c), some x =>
    let again (s : State) : Answer := .next (s.later (.countPlane k plane counts))
    let i := k.tile
    let mine := c.owner i == c.comm.pos
    if c.odd || x.canc || x.fixed.isSome then .next s
    else
      match x.exp with
      | none => again s
      | some E =>
        if mine && plane != x.landed + 1 then again s
        else
          match s.ownBits t c i plane E with
          | (none, s) => again s
          | (some bits, s) =>
            let sum := (counts.zip bits).map fun ab => ab.1 + ab.2
            if !mine then .next (s.sendRing c k 2 (countBytes c.comm.n) (.count k plane sum))
            else if c.broken then .next s
            else
              let s := (s.modTile t c.cmd i fun x => { x with counts := x.counts ++ [sum], landed := x.landed + 1 }).touch t c.cmd i
              let s := s.checkWant k.ctx t c.cmd i
              match (s.coll? t c.cmd).bind fun c => c.tile i with
              | some x =>
                if x.landed = c.planes && x.fixed.isNone then
                  let s := s.finishTile t c.cmd i
                  .next (if c.op = 0 then s.sendGathers k.ctx c i (c.valueAt x c.planes) else s)
                else .next s
              | none => .next s
  | _, _ => waitFor (.countPlane k plane counts) k s

/-- COUNT_PLANE (R354), its beats returned: the device after the owner starts the tile's planes itself (R341). -/
def execCountPlane (k : PlaneKey) (plane : Nat) (counts : List Nat) (s : State) : Answer :=
  arrival (State.ringCredit k 2 (countBytes (s.ringShape k).2))
    ((s.collOf? k).any fun tc => tc.2.comm.pos == (tc.2.owner k.tile + 1) % max 1 tc.2.comm.n) s (countHere k plane counts s)

/-- A gather plane at a device (R355, R356); once a freeze is known, those of S stop here (R359). -/
def gatherHere (k : PlaneKey) (plane : Nat) (vals : List Int) (s : State) : Answer :=
  match s.collOf? k, (s.collOf? k).bind fun tc => tc.2.tile k.tile with
  | some (t, c), some x =>
    let i := k.tile
    if c.odd || x.canc || x.fixed.isSome then .next s
    else if x.exp.isNone || plane ≠ x.gathers.length + 1 then .next (s.later (.gatherPlane k plane vals))
    else
      let s := if c.next = c.owner i then s else s.sendRing c k 2 (c.gatherBytes plane) (.gather k plane false vals)
      let s := s.modTile t c.cmd i fun x => { x with gathers := x.gathers ++ [vals], landed := if c.broken then x.landed else x.landed + 1 }
      if c.broken then .next s
      else
        let s := s.touch t c.cmd i
        .next (if plane = c.planes then s.finishTile t c.cmd i else s)
  | _, _ => waitFor (.gatherPlane k plane vals) k s

/-- GATHER_PLANE (R355, R356), its beats returned (R341). -/
def execGatherPlane (k : PlaneKey) (plane : Nat) (vals : List Int) (s : State) : Answer :=
  arrival (State.ringCredit k 2 (gatherSize (s.ringShape k).1 (s.ringShape k).2 plane)) false s (gatherHere k plane vals s)

/-! ### Cancels (R188, R359) -/

/-- A cancel at a device (R359): carried on to the tile's owner, which decides it once the header round has fixed the tile. -/
def cancelHere (k : PlaneKey) (c pos : Nat) (detm : Bool) (s : State) : Answer :=
  match s.collOf? k, (s.collOf? k).bind fun tc => tc.2.tile k.tile with
  | some (t, C), some x =>
    if C.owner k.tile ≠ C.comm.pos then .next (s.sendRing C k 3 64 (.cancel k c pos detm))
    else if x.exp.isNone && !C.odd then .next (s.later (.cancelRequest k c pos detm))
    else .next (s.arbitrate k.ctx t C.cmd k.tile c pos detm)
  | _, _ => waitFor (.cancelRequest k c pos detm) k s

/-- CANCEL_REQUEST (R359), its beats returned (R341). -/
def execCancelRequest (k : PlaneKey) (c pos : Nat) (detm : Bool) (s : State) : Answer :=
  arrival3 k ((s.commOf? k).any (·.pos == pos)) (.cancelRequest k c pos detm) (cancelHere k c pos detm) s

/-- A freeze with its gather planes at a device (R359): the tile's view and destination become V_f. -/
def freezeHere (k : PlaneKey) (f : Nat) (vals : List Int) (s : State) : Answer :=
  match s.collOf? k, (s.collOf? k).bind fun tc => tc.2.tile k.tile with
  | some (t, c), some x =>
    let s' := s
    let s := if c.next = c.owner k.tile then s else s.sendFreeze c k f vals
    if x.canc || x.fixed.isSome || c.broken then .next s
    else if x.exp.isNone then .next (s'.later (.freeze k f vals))
    else .next ((s.modTile t c.cmd k.tile fun x => { x with want := some f, fixed := some vals }).finishTile t c.cmd k.tile)
  | _, _ => waitFor (.freeze k f vals) k s

/-- FREEZE (R359): its own beats are returned as it comes, its gather planes' as they are consumed (R341). -/
def execFreeze (k : PlaneKey) (f : Nat) (vals : List Int) (s : State) : Answer :=
  let planes : List Nat :=
    if (s.ringShape k).1 = 1 then [] else (List.range f).map fun j => gatherSize (s.ringShape k).1 (s.ringShape k).2 (j + 1)
  arrival3 k false (.freeze k f vals) (fun s => arrival (fun s => planes.foldl (fun s n => s.ringCredit k 2 n) s) false s (freezeHere k f vals s)) s

/-- The group of a team whose PLCX of a count on a tile still waits for its answer, the earliest first. -/
def Team.asker (T : Team) (cmd i n : Nat) : Option Nat :=
  ((indexed 0 T.groups).foldl (fun (b : Option (Nat × Nat)) g =>
    match g.2.cancel with
    | some x =>
      if x.coll = cmd && x.count = n && x.tiles.contains i && !x.refused.contains i && b.all fun y => decide (x.num < y.1) then some (x.num, g.1) else b
    | none => b) none).map (·.2)

/-- An answer at a device (R359): carried on to the position that asked; there a conflict is kept for the PLCX that waits. -/
def answerHere (k : PlaneKey) (r : CancelReply) (s : State) : Answer :=
  match s.collOf? k with
  | some (t, c) =>
    if c.comm.pos ≠ r.pos then .next (s.sendRing c k 3 64 (.cancelAnswer k r))
    else
      match (s.team? t).bind fun T => T.asker c.cmd k.tile r.count with
      | some g =>
        if r.violation then
          .next (s.modGroup t g fun G => { G with cancel := G.cancel.map fun x => { x with refused := x.refused ++ [k.tile] } })
        else .next s
      | none => .next s
  | none => .next s

/-- CANCEL_ANSWER (R359), its beats returned: an owner answers itself (R341). -/
def execCancelAnswer (k : PlaneKey) (r : CancelReply) (s : State) : Answer :=
  arrival3 k ((s.collOf? k).any fun tc => tc.2.owner k.tile == tc.2.comm.pos) (.cancelAnswer k r) (answerHere k r) s

/-! ### The tile words (R188) -/

/-- The collective that a state area holds, the last that was started on it. -/
def Team.collAt (T : Team) (area : Nat) : Option Coll := T.colls.reverse.find? fun c => c.area == area

/-- The collective of a state area and its tile, checked. -/
def hereTile (area : Word) (j : Nat) : M (Coll × Tile) := do
  let (_, T, _) ← here
  match T.collAt area.toNat with
  | none => trap cIllegalOp
  | some c =>
    require (decide (j < c.stateTiles)) cIllegalOp
    match c.tile (c.firstTile + j) with
    | some x => return (c, x)
    | none => trap cIllegalOp

/-- PLCN. -/
def execPlcn (sd sa sb : SReg) (s : State) : Answer :=
  M.answer (do
    let r ← hereScalar
    let (c, x) ← hereTile (r.getS sa) (r.getS sb).toNat
    doneScalar 4 (r.setS sd (BitVec.ofNat 64 (c.counter x)))) s

/-- PLWT: parked until enough planes have landed or the tile is cancelled, then an acquire at the collective's scope. -/
def execPlwt (sd sa sb : SReg) (s : State) : Answer :=
  M.answer (do
    let (cur, _, _) ← here
    let r ← hereScalar
    let j := (r.getS sb).toNat
    let (c, x) ← hereTile (r.getS sa) j
    let k := (r.getS sd).toNat
    if x.canc || decide (k ≤ x.landed) then
      let a ← hereAgent
      upd fun s => s.acquire a c.scope
      doneScalar 4 r
    else
      parkOn 0 { kind := 0x55, addr := r.getS sa, value := BitVec.ofNat 64 (k % 2 ^ 32 + j % 2 ^ 32 * 2 ^ 32)
                 mons := [.scratch cur.team (c.area + 16 + 4 * j)], word := .plwt sd sa sb }) s

/-- PLVAL: checked, then issued as an engine command that waits for the tile. What determinism forbids comes first, by the word and the mode alone
(R167). -/
def execPlval (flag : BitVec 6) (sa sb : SReg) (s : State) : Answer :=
  M.answer (do
    let fl ← commandFlag flag
    let r ← hereScalar
    let x := (r.getS sb).toNat
    let j := natBits x 23 0
    let k := natBits x 31 24
    let L ← hereLaunch
    require (k != 0 || L.detm == 0) cDetViolation
    let (c, _) ← hereTile (r.getS sa) j
    require (natBits x 63 33 == 0) cIllegalOp
    require (decide (k ≤ c.planes)) cIllegalOp 0 0 (BitVec.ofNat 64 k)
    let e := planeBytes c.fmt
    startCommand
      { kind := .plval, flag := fl, desc := [], arg := r.getS sb, srec := c.area, scope := c.scope
        locks := [⟨0, 0, c.view + 256 * e * j, 256 * e, true⟩] }) s

/-- PLVAL_VIEW_WRITE (R188): once E is fixed and the planes have landed or the tile is cancelled, the view is written and the flag falls. The command waits
for E whatever has become of the tile (notes/assumptions/16). -/
def execPlvalViewWrite (t id : Nat) (s : State) : Answer :=
  match s.cmd? t id, s.canal? t with
  | some v, some a =>
    let arg := v.arg.toNat
    match (s.team? t).bind fun T => T.collAt v.srec with
    | none => .next s
    | some c =>
      match c.tile (c.firstTile + natBits arg 23 0) with
      | none => .next s
      | some x =>
        let k := natBits arg 31 24
        let ready := x.exp.isSome && (x.canc || decide (k ≤ x.landed))
        if v.faulted || v.kind ≠ .plval || v.waiting ≠ 0 || !ready then .next s
        else if v.pos = 1 then .next (s.dropCmd t id)
        else
          let k' := if k = 0 then x.landed else min k x.landed
          let E := x.exp.getD 0
          let half := natBit arg 32
          let vs : List Int := (c.valueAt x k').map fun (z : Int) => if half then 2 * z + (c.comm.n : Int) * (2 ^ (c.planes - k') - 1) else z
          let e := planeBytes c.fmt
          let va : Int := c.view + 256 * e * natBits arg 23 0
          let x' := { Apart.of ⟨t, v.grp, .scalar⟩ v.stamp with piece := some (id, 0, 256 * e) }
          match s.landLoc a x' (.global va) (encodeTile c.fmt c.planes E x.flags half vs) with
          | (.ok (s', true), _) => .next (s'.modCmd t id fun c => { c with pos := 1, waiting := c.waiting + 1 })
          | (.ok (s', false), _) => .next (s'.dropCmd t id)
          | (.wait, s) => .next (s.modCmd t id fun c => { c with held := [0] })
          | (.peer dev off, s) =>
            .next ((s.modCmd t id fun c => { c with pos := 1 }).askPiece t v 0 dev off (256 * e) false
              (.write (encodeTile c.fmt c.planes E x.flags half vs)))
          | (.fault cause y code, s) => .next (s.failCmd t v cause y code)
  | _, _ => .next s

/-- Whether a cancel of a tile is settled on its device (R359): it shows CANC, and where a conflict traps it is known whether there is one, but of a
collective that a fault has ended, whose answer may be lost (R360). -/
def Cancel.settled (x : Cancel) (c : Coll) (detm : Nat) (i : Nat) : Bool :=
  match c.tile i with
  | some t => t.canc && (detm == 0 || t.landed == x.count || x.refused.contains i || c.broken)
  | none => true

/-- PLCX: each cancel goes to its tile's owner; the stream blocks until every tile shows CANC here, and a conflict that
determinism forbids traps. An immediate cancel under a determinism mode is forbidden before any check (R167). -/
def execPlcx (sd sa sb : SReg) (s : State) : Answer :=
  M.answer (do
    let (cur, _, G) ← here
    let L ← hereLaunch
    let C ← hereContext
    let r ← hereScalar
    let all := r.getS sb == -1#64
    require (r.getS sd != 0 || L.detm == 0) cDetViolation
    let (c, _) ← hereTile (r.getS sa) (if all then 0 else (r.getS sb).toNat)
    let n := (r.getS sd).toNat
    if n ≥ c.planes then doneScalar 4 r
    else
      let tiles := if all then (List.range c.stateTiles).map (c.firstTile + ·) else [c.firstTile + (r.getS sb).toNat]
      match G.cancel with
      | none =>
        upd fun s =>
          { s.modGroup cur.team cur.grp fun g =>
              { g with cancel := some { num := s.nextId, coll := c.cmd, tiles := tiles, count := n, refused := [] } } with nextId := s.nextId + 1 }
        upd fun s => tiles.foldl (fun s i =>
          if c.owner i = c.comm.pos then s.post (.cancelRequest (c.key C.id i) n c.comm.pos (L.detm != 0))
          else s.sendRing c (c.key C.id i) 3 64 (.cancel (c.key C.id i) n c.comm.pos (L.detm != 0))) s
        stallOn .engine
      | some x =>
        if !x.tiles.all (x.settled c L.detm) then stallOn .engine
        upd fun s => s.modGroup cur.team cur.grp fun g => { g with cancel := none }
        require x.refused.isEmpty cDetViolation
        doneScalar 4 r) s

/-! ### Links (R360) -/

/-- Whether a communicator's ring crosses a port of this device: the one it leaves by, the one it arrives by. -/
def State.crosses (s : State) (port : Nat) (x : Comm) : Bool := decide (x.n > 1) && (x.canal == port || s.ringIn x == port)

/-- The port by which a ring's next device is told of a fall: the ring's own canal while it is up; else another port that leads there, if one is up; else
the canal, where the notice waits for the link (R342, R360). -/
def State.ringOut (s : State) (x : Comm) : Nat :=
  if (s.dome.canals[x.canal]?).any (·.up) then x.canal else (s.portTo? 0 x.next).getD x.canal

/-- A ring's devices are told of a port that has fallen, by the link control of VC 3 (R302, R341, R360; notes/assumptions/49). -/
def State.tellRing (x : Comm) (k : PlaneKey) (pos : Nat) (s : State) : State :=
  let zero := s.launches.any fun L => L.ctx == k.ctx && !L.ended && L.cls == 0
  s.sendOn (s.ringOut x) 3 64 zero (Msg.guard ((s.context? k.ctx).any (·.conf)) (.ringDown k pos))

/-- A collective ended by a link (R360): each tile not complete freezes at its own LANDED, and the command takes its fault, which names the ring's
next device (R344; notes/assumptions/141, DESIGN CHOICE). -/
def State.breakColl (t : Nat) (c : Coll) (s : State) : State :=
  let s := s.modColl t c.cmd fun c => { c with broken := true, ended := true }
  let s := c.tiles.foldl (fun s x =>
    if x.done || x.fixed.isSome || !c.inState x.idx then s
    else (s.modTile t c.cmd x.idx fun x => { x with want := some x.landed, fixed := some (c.valueAt x x.landed) }).finishTile t c.cmd x.idx) s
  let s := s.report
    { kind := 5, cause := cLinkFault.toNat, flags := 4, ctx := ((s.launchOf? t).map (·.ctx)).getD 0, core := ((s.team? t).map (·.core)).getD 0
      grp := c.grp, team := ((s.team? t).map (·.ordinal)).getD 0 }
  s.post (.engineFault t c.cmd cLinkFault 0 (BitVec.ofNat 32 (nackInfo c.comm.next 4 + 0x53)))

/-- The unfinished collectives of a communicator end here (R360): those whose number is below the notice's, and those of the `k.tile` after. -/
def State.breakComm (k : PlaneKey) (s : State) : State :=
  (indexed 0 s.teams).foldl (fun s u =>
    if (s.launchOf? u.1).any fun l => l.ctx == k.ctx then
      u.2.colls.foldl (fun s c => if c.handle == k.handle && !c.ended && !c.broken && decide (c.seq < k.seq + k.tile) then s.breakColl u.1 c else s) s
    else s) s

/-- The notice of a communicator's fallen port (R360): the number of collectives issued here in place of a collective's, and in place of a tile how many
later ones, issued on other devices alone, it ends too: four, the most that can be unfinished (R350), or none where the notice has to wait for the link. -/
def State.ringNotice (s : State) (ctx : Nat) (x : Comm) : PlaneKey :=
  ⟨ctx, x.handle, x.issued, if (s.dome.canals[s.ringOut x]?).any (·.up) then 4 else 0⟩

/-- A port of this device goes down (R360): everything in flight on it is lost. Of the fault record R388 gives no field the canal's number: the address
holds it, with the store code of a canal buffer (notes/assumptions/120, DESIGN CHOICE). -/
def State.portDown (port : Nat) (s : State) : State :=
  let s := (s.modDome fun d => { d with canals := modifyAt (fun c => { c with up := false, waiting := [] }) port d.canals }).report
    { kind := 5, cause := cLinkFault.toNat, store := 7, addr := port }
  let s := (s.remotes.filter fun r => r.port == port).foldl (fun s r => s.post (.fabricResponse { id := r.id, nack := some 4, data := [] }))
    (s.modDome fun d => { d with orphans := d.orphans.filter fun x => x.2 != port })
  s.contexts.foldl (fun s C =>
    C.comms.foldl (fun s x =>
      if s.crosses port x then (s.breakComm (s.ringNotice C.id x)).tellRing x (s.ringNotice C.id x) x.pos else s) s) s

/-- A device of a ring has lost a port (R360): what is unfinished on the communicator ends here too, and the notice goes on round the ring. It waits for
the collectives that are to be issued here still, and ends them. -/
def ringDownHere (k : PlaneKey) (pos : Nat) (s : State) : Answer :=
  match s.commOf? k with
  | none => .next s
  | some x =>
    let k' : PlaneKey := { k with seq := if k.tile = 0 then k.seq else max k.seq x.issued }
    let s := s.breakComm k'
    let s := if pos = x.pos then s else s.tellRing x k' pos
    .next (if x.issued < k.seq then s.later (.linkDown (.ring { k with tile := 0 } x.pos)) else s)

/-- LINK_DOWN (R360): a port of this device, or one of another device of a collective's ring. -/
def execLinkDown (x : LinkLoss) (s : State) : Answer :=
  match x with
  | .own port => .next (s.portDown port)
  | .ring k pos => arrival3 k false (.linkDown x) (ringDownHere k pos) s

/-- LINK_RESTORED (R360): the canal starts anew, and sends what has been given to it since it fell. -/
def execLinkRestored (port : Nat) (s : State) : Answer :=
  .next ((s.modDome fun d =>
    { d with canals := modifyAt (fun c => if c.up then c else { Canal.start with waiting := c.waiting }) port d.canals }).flush port)

end Sys2Proof.Machine
end

