-- ==== Sys2Proof/Machine/Matrix.lean ====
section
/-! DEFINITION. The operand buffer, companding tables, the matrix engine, batches and tiles (R192–R203). -/

namespace Sys2Proof.Machine

/-! ### Reservations (R192, R193) -/

/-- Bits of an element of a reservation's format. -/
def obufBits (ty : Nat) : Nat := (ETy.get ty 0).w
/-- Whether a reservation's format is quantised. -/
def quantB (ty : Nat) : Bool := ty == 0 || ty == 12 || ty == 13
/-- The block length of a code (R192); 1 stands for none. -/
def blockLen (code : Nat) : Nat := if code = 0 then 1 else 2 ^ (code + 3)
/-- Bytes of a scale. -/
def scaleSize (d : List Byte) : Nat := if fld d 6 1 = 0 then 1 else 2
/-- Bytes of the data region. -/
def dataBytes (d : List Byte) : Nat := (fld d 16 4 * fld d 20 4 * obufBits (fld d 4 1) + 7) / 8
/-- Bytes of the scale region. -/
def scaleBytes (d : List Byte) : Nat :=
  if quantB (fld d 4 1) then
    ((fld d 20 4 + blockLen (fld d 5 1) - 1) / blockLen (fld d 5 1)) * fld d 16 4 * scaleSize d
  else 0

/-- The checks of a record, in order, each with the TINFO of its failure (R192, R193). -/
def recordFields (d : List Byte) : List (Nat × Bool) :=
  let len := fld d 0 4
  let ty := fld d 4 1
  let q := quantB ty
  [(0, len % 256 == 0 && decide (256 ≤ len ∧ len ≤ 524288)), (4, [0, 9, 10, 12, 13].contains ty)
   , (5, if q then decide (1 ≤ fld d 5 1 ∧ fld d 5 1 ≤ 4) else fld d 5 1 == 0)
   , (6, if q then decide (fld d 6 1 ≤ 1) else fld d 6 1 == 0)
   , (7, natBits (fld d 7 1) 6 3 == 0 && (!natBit (fld d 7 1) 7 || ty == 0 || ty == 12)), (8, decide (fld d 8 1 ≤ 1))]
    ++ zeroFields d 9 3
    ++ [(12, q || fld d 12 4 == 0), (16, fld d 16 4 % 32 == 0 && decide (32 ≤ fld d 16 4)), (20, decide (1 ≤ fld d 20 4))]
    ++ zeroFields d 24 8
    ++ [(0, decide (dataBytes d ≤ len))
        , (12, !q || decide (dataBytes d ≤ fld d 12 4 ∧ fld d 12 4 + scaleBytes d ≤ len))]

/-- The live reservations of the teams resident on a core: base and length. -/
def State.coreResv (s : State) (core : Nat) : List (Nat × Nat) :=
  s.teams.flatMap fun T =>
    if T.live && !T.away && T.core == core then T.resv.filterMap fun r => r.map fun r => (r.base, fld r.record 0 4) else []

/-- The lowest free run of a length, at a multiple of 256 (R193). -/
def freeRun (live : List (Nat × Nat)) (len : Nat) : Option Nat :=
  ((List.range 2048).find? fun k =>
    decide (256 * k + len ≤ 524288) && live.all fun r => decide (256 * k + len ≤ r.1 ∨ r.1 + r.2 ≤ 256 * k)).map (256 * ·)

/-- The live reservation of an o-number. -/
def Team.live? (T : Team) (o : Nat) : Option Reservation := (T.resv[o]?).bind id

/-- OBRES (R193). -/
def execObres (sd sa sb : SReg) (s : State) : Answer :=
  M.answer (do
    let r ← hereScalar
    let d ← readDesc (r.getS sa) 32 32
    let (c, T, _) ← here
    let o := (r.getS sb).toNat
    require (decide (o ≤ 15) && (T.live? o).isNone) cIllegalOp
    checkFields (recordFields d)
    match freeRun ((← get).coreResv T.core) (fld d 0 4) with
    | none => doneScalar 4 (r.setS sd (-1#64))
    | some base =>
      upd fun s =>
        { s.modTeam c.team fun T => { T with resv := T.resv.set o (some { record := d, base := base, free := s.free, cells := [] }) } with
          free := s.free + 1 }
      doneScalar 4 (r.setS sd (BitVec.ofNat 64 base))) s

/-- OBREL (R193): it waits while a range-lock entry covers the reservation. -/
def execObrel (sa : SReg) (s : State) : Answer :=
  M.answer (do
    let r ← hereScalar
    let (c, T, _) ← here
    let o := (r.getS sa).toNat
    require (decide (o ≤ 15) && (T.live? o).isSome) cIllegalOp
    if T.locks.any fun l => l.space == 3 && l.core == o then stallOn .lock
    upd fun s =>
      { s.modTeam c.team fun T => { T with resv := T.resv.set o none } with
        poison := s.poison.filter fun u => match u with
          | .obuf t o' _ => !(t == c.team && o' == o)
          | _ => true }
    doneScalar 4 r) s

/-! ### Companding tables (R194) -/

/-- The table that 68 bytes hold. -/
def tableOf (b : List Byte) : Option CTable :=
  CTable.ofKnots ((List.range 17).map fun i => BitVec.ofNat 32 (fld b (4 * i) 4))

/-- A table of a core loaded by a context, if it is valid. -/
def State.loadTable (ctx core n : Nat) (b : List Byte) (s : State) : Option State :=
  (tableOf b).map fun t => s.modCore core fun c =>
    { c with tables := c.tables.set n (some t), loaders := modifyAt (fun l => if l.contains ctx then l else l ++ [ctx]) n c.loaders }

/-- CTAB (R194): the checks of a scalar load over 68 bytes; from another device the stream blocks until the bytes have come. -/
def execCtab (sa sb : SReg) (s : State) : Answer :=
  M.answer (do
    let r ← hereScalar
    let (c, T, _) ← here
    let C ← hereContext
    let n := (r.getS sa).toNat
    require (decide (n ≤ 7)) cIllegalOp
    if (← get).remotes.any fun q => q.team == c.team && q.grp == c.grp && q.sreg.any fun x => x.1 == c.stream then stallOn .remote
    let hits ← checkAccess [{ lane := 0, scratch := false, ea := (r.getS sb).toNat, size := 68, align := 4, acc := .read }]
    let a ← hereAgent
    for h in hits do
      if h.waitsHere (← get) a then
        reportHits hits
        stallOn .page
      match h.parts with
      | { place := .peer dev off, .. } :: _ =>
        let (_, _, G) ← here
        upd fun s => s.sendRemote { Remote.of c.team c.grp dev off 68 G.lanePc with sreg := some (c.stream, 0, 8 + n) } (.read 68)
        stallOn .remote
      | _ =>
        if ← readsLate h 0 (8 + n) then return
        match (← get).loadTable C.id T.core n ((← get).readHit c.team h) with
        | none => trap cIllegalOp
        | some s' => set s'
      doneScalar 4 r) s

/-! ### The words of the matrix engine: entry (R198) -/

/-- The lanes, the encoding and the convergence that a word of the matrix engine requires, in the order of R198; none where no lane takes part. -/
def matrixEnter (i : Instr) (w : LaneWord) (more : LaneCtx → Bool) : M (Option LaneCtx) := do
  match ← laneEnter w.guard.toNat w.neg w.guardOk with
  | none => return none
  | some x =>
    match laneForm 64 i with
    | none => trap cIllegalOp
    | some (f, _) =>
      require (w.guard == 127 && f.legal w x.L.vregs x.L.aregs x.L.tiles && more x) cIllegalOp
      require (x.G.active.length == x.G.lanes.length) cIllegalConvergence 0 0 4
      return some x

/-- A word of the matrix engine with its effect. -/
def matrixRun (i : Instr) (w : LaneWord) (more : LaneCtx → Bool) (eff : LaneCtx → M Unit) (s : State) : Answer :=
  M.answer (do
    match ← matrixEnter i w more with
    | none => retireLane (← here).1
    | some x =>
      eff x
      retireLane x.c) s

/-! ### MMA (R196–R200) -/

/-- cb and ks (R197): from the immediate, or from a clause constant. -/
def mmaBlock (x : LaneCtx) (w : LaneWord) : Nat × Nat :=
  if w.bits 31 31 = 1 then
    let k := (x.G.kreg (w.bits 2 0)).toNat
    (natBits k 15 0, natBits k 31 16)
  else (w.bits 11 0, w.bits 23 12)

/-- The A companding table that a word names. -/
def mmaTable (w : LaneWord) : Option Nat := if natBit w.md.toNat 1 then some (w.md.toNat / 4) else none

/-- The table of a reservation's record. -/
def recordTable (d : List Byte) : Option Nat := if natBit (fld d 7 1) 7 then some (fld d 7 1 % 8) else none

/-- Whether a full latch holds what the word names (R198, R199). -/
def latchFits (G : Group) (w : LaneWord) : Bool :=
  match G.latch with
  | none => true
  | some l => l.va == w.va.toNat && l.ty == w.ty.toNat && l.ct == mmaTable w

/-- The encoding checks of an MMA beyond its fields: the reservation is live and holds the format named (R196, R197). -/
def mmaLegal (w : LaneWord) (x : LaneCtx) : Bool :=
  (x.T.live? w.vb.toNat).any (fun r => fld r.record 4 1 == w.bits 28 24) && latchFits x.G w

/-- Element (k, n)'s index in a reservation (R192). -/
def elemIndex (d : List Byte) (k n : Nat) : Nat := if fld d 8 1 = 0 then k * fld d 16 4 + n else n * fld d 20 4 + k
/-- The byte offset of a scale (R192). -/
def scaleOff (d : List Byte) (k n : Nat) : Nat := fld d 12 4 + (k / blockLen (fld d 5 1) * fld d 16 4 + n) * scaleSize d

/-- The byte interval that an MMA reads of its reservation, scale entries included: its start and its end (R200). -/
def mmaSpan (d : List Byte) (K cb ks : Nat) : Nat × Nat :=
  let b := obufBits (fld d 4 1)
  let lo := elemIndex d (K * ks) (32 * cb) * b / 8
  let hi := (elemIndex d (K * ks + K - 1) (32 * cb + 31) * b + b + 7) / 8
  if quantB (fld d 4 1) then
    (min lo (scaleOff d (K * ks) (32 * cb)), max hi (scaleOff d (K * ks + K - 1) (32 * cb + 31) + scaleSize d))
  else (lo, hi)

/-- The lock entry that consecutive MMAs of one reservation share (R200). -/
def Group.sharedLock (G : Group) (o : Nat) : Option Nat :=
  (G.mmas.getLast?).bind fun m => if !m.fenced && m.o == o then some m.lock else none

/-- An entry widened to cover an interval. -/
def Lock.widen (lo hi : Nat) (l : Lock) : Lock :=
  { l with start := min l.start lo, len := max (l.start + l.len) hi - min l.start lo }

/-- MMAs in flight on a core. -/
def State.mmaCount (s : State) (core : Nat) : Nat :=
  (s.teams.map fun T => if T.live && !T.away && T.core == core then (T.groups.map fun g => g.mmas.length).foldl (· + ·) 0 else 0).foldl (· + ·) 0

/-- The operand A as the registers hold it. -/
def readA (x : LaneCtx) (w : LaneWord) : Latch :=
  { va := w.va.toNat, ty := w.ty.toNat, ct := mmaTable w
    aregs := x.G.lanes.map fun l => (List.range 8).map fun i => BitVec.ofNat 64 (l.getV (w.va.toNat + i))
    scales := x.G.lanes.map fun l => if quantA w.ty.toNat then BitVec.ofNat 64 (l.getV w.vc.toNat) else 0 }

/-- The issue of an MMA (R198–R200): its checks, its operand, its lock entry; the engine's work follows. -/
def mmaIssue (i : Instr) (w : LaneWord) (x : LaneCtx) : M Unit := do
  let some K := mmaK w.ty.toNat (w.bits 28 24) | trap cIllegalOp
  let o := w.vb.toNat
  let some r := x.T.live? o | trap cIllegalOp
  let d := r.record
  let (cb, ks) := mmaBlock x w
  require (decide (32 * cb + 32 ≤ fld d 16 4 ∧ K * ks + K ≤ fld d 20 4)) cObufBounds
  let L := blockLen (fld d 5 1)
  require (!(quantA w.ty.toNat && fld d 6 1 == 1 && decide ((K + L - 1) / L > 4))) cIllegalOp
  let tabs := (((← get).cores[x.T.core]?).map (·.tables)).getD []
  let tab (n : Option Nat) : Option CTable := n.bind fun n => (tabs[n]?).bind id
  require ([mmaTable w, recordTable d].all fun n => n.isNone || (tab n).isSome) cIllegalOp
  let latch ← match x.G.latch with
    | some l => pure l
    | none =>
      match laneForm 64 i with
      | none => trap cIllegalOp
      | some (f, _) =>
        let rs := (readRegs i f w).filter fun q => !q.1
        checkRegs x.c.team x.c.grp (x.parts.flatMap fun l => rs.map fun q => (l, l, q))
        if x.G.outstanding rs then stallOn .landing
        pure (readA x w)
  if (← get).mmaCount x.T.core ≥ 16 then stallOn .engine
  let (lo, hi) := mmaSpan d K cb ks
  if x.T.locks.any fun l => l.against x.T.core 3 o lo (hi - lo) false then stallOn .lock
  let id := (← get).nextId
  let num := x.T.nextCmd
  let lock ← match x.G.sharedLock o with
    | some k =>
      upd fun s => s.modTeam x.c.team fun T => { T with locks := T.locks.map fun l => if l.cmd = k then l.widen lo hi else l }
      pure k
    | none =>
      if x.T.locks.length ≥ 32 then stallOn .lock
      upd fun s => s.modTeam x.c.team fun T =>
        { T with locks := T.locks ++ spanLocks x.c.grp num [⟨3, o, lo, hi - lo, false⟩], nextCmd := num + 1 }
      pure num
  let m : Mma :=
    { id := id, tile := w.vd.toNat, o := o, ta := w.ty.toNat, cb := cb, ks := ks, aregs := latch.aregs, scales := latch.scales
      ctA := tab latch.ct, ctB := tab (recordTable d), batch := 0, fenced := false, lock := lock }
  upd fun s => (({ s with nextId := id + 1 } : State).modGroup x.c.team x.c.grp fun g =>
    { g with mmas := g.mmas ++ [m], latch := if natBit w.md.toNat 0 then some latch else none }).post (.mmaComplete x.c.team x.c.grp id)

def execMma (w : LaneWord) (s : State) : Answer := matrixRun (.mma w) w (mmaLegal w) (mmaIssue (.mma w) w) s
def execMmaKreg (w : LaneWord) (s : State) : Answer := matrixRun (.mmaKreg w) w (mmaLegal w) (mmaIssue (.mmaKreg w) w) s

/-! ### The engine's work (R25, R28, R198) -/

/-- An operand of a format under its scale and its table: exact without a table, rounded to f32 with one (R25, R28). -/
def mmaValue (ty : Nat) (s : FVal) (t : Option CTable) (e : Nat) : FVal :=
  match t with
  | none => scaledElem ty s e
  | some tab => f32.decode (f32.roundVal .rne ((expand tab (maxMag ty) ((ETy.get ty 0).value e)).mul s))

/-- A block scale in its format. -/
def blockScale (d : List Byte) (x : Nat) : FVal := if fld d 6 1 = 0 then scaleE8 (x % 256) else scaleBf16 (x % 65536)

/-- DecodeA (R198). -/
def decodeA (d : List Byte) (m : Mma) (K lane k : Nat) : FVal :=
  let t := ETy.get m.ta 0
  let e := elemAt t.w (k % t.subn) ((((m.aregs[lane]?).bind fun r => r[k / t.subn]?).map BitVec.toNat).getD 0)
  if quantA m.ta then
    let L := blockLen (fld d 5 1)
    let j := if L > K then 0 else k / L
    mmaValue m.ta (blockScale d (((m.scales[lane]?).map BitVec.toNat).getD 0 >>> (8 * scaleSize d * j))) m.ctA e
  else t.value e

/-- A byte of a reservation: one that nothing has written is undefined (R193). -/
def Reservation.byte (r : Reservation) (off : Nat) : Byte := (cellFind off r.cells).getD (Config.freeByte r.free off)
/-- Bytes of a reservation as a number. -/
def Reservation.read (r : Reservation) (off n : Nat) : Nat := ofBytes ((List.range n).map fun i => r.byte (off + i))

/-- DecodeB (R198). -/
def decodeB (r : Reservation) (m : Mma) (k n : Nat) : FVal :=
  let d := r.record
  let ty := fld d 4 1
  let t := ETy.get ty 0
  let i := elemIndex d k n
  let e := if t.w = 4 then elemAt 4 (i % 2) (r.read (i / 2) 1) else r.read (i * (t.w / 8)) (t.w / 8)
  if quantB ty then mmaValue ty (blockScale d (r.read (scaleOff d k n) (scaleSize d))) m.ctB e else t.value e

/-- The tile after an MMA. -/
def mmaTile (r : Reservation) (m : Mma) (W : Nat) (tile : List Acc) : List Acc :=
  let K := (mmaK m.ta (fld r.record 4 1)).getD 0
  let bs := (List.range 32).map fun c => (List.range K).map fun k => decodeB r m (K * m.ks + k) (32 * m.cb + c)
  let as := (List.range W).map fun l => (List.range K).map fun k => decodeA r.record m K l k
  (tile.zip (as.flatMap fun a => bs.map fun b => a.zip b)).map fun tp => tp.2.foldl (fun acc ab => acc.add (ab.1.mul ab.2)) tp.1

/-- The poison that an MMA reads (R387): the lowest poisoned byte among its elements and scales. -/
def State.mmaPoison (s : State) (t : Nat) (r : Reservation) (m : Mma) : Option Nat :=
  if s.poison.isEmpty then none
  else
    let K := (mmaK m.ta (fld r.record 4 1)).getD 0
    let b := obufBits (fld r.record 4 1)
    let offs := (List.range K).flatMap fun k => (List.range 32).flatMap fun c =>
      let kk := K * m.ks + k
      let n := 32 * m.cb + c
      (elemIndex r.record kk n * b / 8, (b + 7) / 8) :: if quantB (fld r.record 4 1) then [(scaleOff r.record kk n, scaleSize r.record)] else []
    (offs.filterMap fun x => s.obufPoison t m.o x.1 x.2).foldl (fun (a : Option Nat) x => some (min x (a.getD x))) none

/-- The poison of a tile, into which an MMA accumulates (R198, R387): the selector of its first poisoned accumulator. -/
def State.tilePoison (s : State) (t g tile W : Nat) : Option Nat :=
  if s.poison.isEmpty then none
  else
    ((List.range W).flatMap fun l => (List.range 32).map fun c => (l, tileUnit tile c)).findSome? fun x =>
      if s.poison.contains (.acc t g x.1 x.2) then some (regSelector x.1 (true, x.2)).toNat else none

/-- An MMA leaves the engine: its lock entry is released when no other MMA that it covers is left (R200). -/
def State.dropMma (t g : Nat) (m : Mma) (s : State) : State :=
  let s := s.modGroup t g fun G => { G with mmas := G.mmas.filter fun x => x.id != m.id }
  match s.group? t g with
  | some G =>
    (if G.mmas.any fun x => x.lock == m.lock then s
     else s.modTeam t fun T => { T with locks := T.locks.filter fun l => l.cmd != m.lock }).settleTeam t
  | none => s

/-- MMA_COMPLETE (R198, R200): the tile takes the products, after every earlier MMA of the group into it; poison is an engine fault of the group, with the
opcode in TINFO[7:0] (R185, R387; notes/assumptions/143, DESIGN CHOICE). -/
def execMmaComplete (t g id : Nat) (s : State) : Answer :=
  match s.team? t, s.group? t g with
  | some T, some G =>
    match G.mmas.find? fun m => m.id == id with
    | none => .next s
    | some m =>
      if (G.mmas.find? fun x => x.tile == m.tile).any fun x => x.id != id then .next (s.post (.mmaComplete t g id))
      else
        match T.live? m.o with
        | none => .next (s.dropMma t g m)
        | some r =>
          match (s.mmaPoison t r m).or (s.tilePoison t g m.tile G.lanes.length) with
          | none =>
            .next ((s.modGroup t g fun G => { G with tiles := modifyAt (mmaTile r m G.lanes.length) m.tile G.tiles }).dropMma t g m)
          | some off =>
            let s := s.dropMma t g m
            if G.gone then .next s
            else
              .next ((s.modGroup t g Group.unpark).holdTrap t
                { cause := cEcc, grp := g, lane := false, tlpc := G.lanePc, tlane := 0, taddr := BitVec.ofNat 64 off
                  tinfo := BitVec.ofNat 64 (2 ^ 63 + 0x68), tick := s.tick, async := true, cmd := none, lost := none })
  | _, _ => .next s

/-! ### Batches (R201) -/

/-- MFEN: the group's MMAs since its last are one batch. -/
def execMfen (w : LaneWord) (s : State) : Answer :=
  controlRun (.mfen w) (fun x _ => do
    roomToPush x
    let b := x.G.batch + 1
    upd fun s => s.modGroup x.c.team x.c.grp fun g =>
      { g with batch := b, mmas := g.mmas.map fun m => if m.fenced then m else { m with fenced := true, batch := b.toNat } }
    pushEntry x b.toNat
    retireLane x.c) s

/-- Whether MWAIT waits for an MMA's batch: it is at least as far back as `n`. -/
def mwaitHolds (G : Group) (n : BitVec 32) (m : Mma) : Bool :=
  let far := G.batch - BitVec.ofNat 32 m.batch
  m.fenced && decide ((G.batch - n).toNat ≤ far.toNat) && decide (far.toNat < 2 ^ 31)

/-- MWAIT in either form. -/
def mwaitRun (i : Instr) (n : LaneCtx → LaneWord → BitVec 32) (s : State) : Answer :=
  controlRun i (fun x w => do
    let b := n x w
    let ahead := (b - x.G.batch).toNat
    require (!decide (1 ≤ ahead ∧ ahead < 2 ^ 31)) cIllegalOp
    if x.G.mmas.any (mwaitHolds x.G b) then stallOn .batch
    retireLane x.c) s

/-- MWAIT with its number in a k-register. Where no lane is active and VA names none, k[VA mod 8] is read (R135; notes/assumptions/136, DESIGN CHOICE). -/
def execMwait (w : LaneWord) (s : State) : Answer :=
  mwaitRun (.mwait w) (fun x w => BitVec.ofNat 32 (x.G.kreg (w.va.toNat % 8)).toNat) s
def execMwaitLast (w : LaneWord) (s : State) : Answer := mwaitRun (.mwaitLast w) (fun x _ => x.G.batch) s

/-! ### MZERO and MST (R202, R203) -/

/-- A word that reads or clears a tile waits for the MMAs into it (R200). -/
def tileReady (x : LaneCtx) (tile : Nat) : M Unit := do
  if x.G.mmas.any fun m => m.tile == tile then stallOn .engine

/-- MZERO: every accumulator of the tile is written whole, and loses its poison (R387). -/
def execMzero (w : LaneWord) (s : State) : Answer :=
  matrixRun (.mzero w) w (fun _ => true) (fun x => do
    tileReady x w.vd.toNat
    upd fun s => { s with poison := s.poison.filter fun u => !inTile x.c.team x.c.grp (· == w.vd.toNat) u }.modGroup x.c.team x.c.grp fun g =>
      { g with tiles := modifyAt (fun t => t.map fun _ => Acc.zero) w.vd.toNat g.tiles }) s

/-- Element (lane, c) of a tile. -/
def tileElem (G : Group) (tile lane c : Nat) : Acc := ((G.tiles[tile]?).bind fun t => t[lane * 32 + c]?).getD Acc.zero
/-- Row `lane` of a tile. -/
def tileRow (G : Group) (tile lane : Nat) : List Acc := (List.range 32).map fun c => tileElem G tile lane c

/-- The registers that MST reads, the tile's MMAs, and the tile (R53, R200, R387). -/
def mstReady (i : Instr) (w : LaneWord) (x : LaneCtx) : M Unit := do
  match laneForm 64 i with
  | none => trap cIllegalOp
  | some (f, _) =>
    let rs := (readRegs i f w).filter fun q => !q.1
    checkRegs x.c.team x.c.grp (x.parts.flatMap fun l => rs.map fun q => (l, l, q))
    if x.G.outstanding rs then stallOn .landing
    tileReady x w.vb.toNat
    checkRegs x.c.team x.c.grp (x.parts.flatMap fun l => (List.range 32).map fun c => (l, l, (true, tileUnit w.vb.toNat c)))

/-- The bytes of a rounded row (R35, R203). -/
def rowBytes (w : LaneWord) (row : List Acc) : List Byte :=
  row.flatMap fun a => toBytes (w.ety.w / 8) (a.round w.ety.fmt (Rm.ofCode (w.bits 26 25)))

/-- MST.rnd and MST.raw: each lane's row as a store. -/
def mstStore (i : Instr) (w : LaneWord) (size align kind : Nat) (bytes : List Acc → List Byte) (x : LaneCtx) : M Unit := do
  mstReady i w x
  let sp := w.bits 24 24 == 1
  laneStore x (x.reqs sp size align .write fun l => laneEa sp (x.a w l) (offOf w))
    (x.parts.map fun l => bytes (tileRow x.G w.vb.toNat l)) kind 0 (scopeOf w) (w.rm == 2)

def execMstRnd (w : LaneWord) (s : State) : Answer :=
  matrixRun (.mstRnd w) w (fun _ => true) (mstStore (.mstRnd w) w (32 * (w.ety.w / 8)) (w.ety.w / 8) 6 (rowBytes w)) s
def execMstRaw (w : LaneWord) (s : State) : Answer :=
  matrixRun (.mstRaw w) w (fun _ => true) (mstStore (.mstRaw w) w 4096 128 7 fun row => row.flatMap Acc.bytes) s

/-- MST.add: each image merged into its element (R41, R203). -/
def execMstAdd (w : LaneWord) (s : State) : Answer :=
  matrixRun (.mstAdd w) w (fun _ => true) (fun x => do
    mstReady (.mstAdd w) w x
    let _ ← checkAccess (x.reqs false 4096 128 .radd fun l => laneEa false (x.a w l) (offOf w)) (takesType tyAcc)
    laneAdds x (x.parts.flatMap fun l => (indexed 0 (tileRow x.G w.vb.toNat l)).map fun ca =>
      (l, laneEa false (x.a w (x.G.lane l)) (offOf w) + 128 * ca.1, [ca.2.bytes])) tyAcc (relScope w)) s

end Sys2Proof.Machine
end

