-- ==== Sys2Proof/Machine/Spire.lean ====
section
/-! DEFINITION. The Spire: state records, logits, the heap, the normaliser, labels, and the five commands (R206–R218). -/

namespace Sys2Proof.Machine

/-! ### Logits, terms and the heap (R207–R210) -/

/-- L2E of R209. -/
def l2e : Nat := 0x3FB8AA3B

/-- The term that a logit adds to the normaliser (R209). -/
inductive Term where
  | none
  | ovf
  | val (v : FVal)
deriving DecidableEq, Repr

/-- 2^(m ÷ 2^k), for a fraction in [0, 1), correctly rounded to 24 bits: an f32 pattern. -/
def exp2Frac (m k : Nat) : Nat :=
  if m = 0 then 0x3F800000
  else
    let r := exp2Fix k m (2 ^ fixBits, 2 ^ fixBits)
    (roundBetween .rne false r.1 r.2).getD (Config.hardCase 0xE2 0 (m * 2 ^ 16 + k) % 2 ^ 32)

/-- The same value with its exponent raised by `i`; far below 2^-298 every use of it rounds alike, and the exponent is kept bounded. -/
def scaleUp (i : Int) : FVal → FVal
  | .fin s m e => .fin s m (max (e + i) (-4000))
  | v => v

/-- The term of a non-NaN logit (R209). -/
def termOf (l : Nat) : Term :=
  match f32.decode (f32.roundVal .rne ((f32.decode l).mul (f32.decode l2e))) with
  | .nan => .none
  | .inf true => .none
  | .inf false => .ovf
  | .fin s m e =>
    let z : Int := if s then -(m : Int) else m
    let k : Nat := (-e).toNat
    let num : Int := if e ≥ 0 then z * 2 ^ e.toNat else z
    let i : Int := num / 2 ^ k
    if i ≥ 340 then .ovf else .val (scaleUp i (f32.decode (exp2Frac (num % 2 ^ k).toNat k)))

/-- The logit of a row against the hidden vector (R207). -/
def logitOf (h w : List FVal) : Nat := ((h.zip w).foldl (fun a p => a.add (p.1.mul p.2)) Acc.zero).round f32 .rne

/-- A heap entry: a logit and a token id. -/
abbrev HeapEntry := Nat × Nat

/-- The order of R208: larger value, then lower token id, then +0. -/
def heapBefore (a b : HeapEntry) : Bool :=
  let x := f32.decode a.1
  let y := f32.decode b.1
  y.lt x || (x.compare y == some .eq && (decide (a.2 < b.2) || (a.2 == b.2 && a.1 == 0 && b.1 != 0)))

/-- An entry put into a sorted heap. -/
def heapInsert (e : HeapEntry) : List HeapEntry → List HeapEntry
  | [] => [e]
  | x :: xs => if heapBefore e x then e :: x :: xs else x :: heapInsert e xs

/-- The logit that stays captured when another row bears the label (R210). -/
def captureOf (old new : Nat) : Nat :=
  let a := f32.decode old
  let b := f32.decode new
  if a.isNan then old
  else if b.isNan then new
  else if a.lt b then new
  else if a.compare b = some .eq ∧ new = 0 then new
  else old

/-! ### The state record (R206, R214) -/

/-- A state record's contents. -/
structure SpireRec where
  k      : Nat
  nan    : Nat
  depth  : Nat
  hfmt   : Nat
  wfmt   : Nat
  block  : Nat
  labels : Nat
  spill  : Nat
  room   : Nat
  rows   : Nat
  mask   : Nat
  ids    : List Nat
  logits : List Nat
  norm   : Acc
  heap   : List HeapEntry
deriving DecidableEq, Repr

/-- No spill area. -/
def noSpill : Nat := 0xFFFFFFFF

/-- The size of a record. -/
def recSize (k : Nat) : Nat := 256 + 8 * k

/-- The record that bytes hold. -/
def SpireRec.of (b : List Byte) : SpireRec :=
  { k := fld b 4 4, nan := fld b 12 4, depth := fld b 16 4, hfmt := fld b 20 1, wfmt := fld b 21 1, block := fld b 22 1, labels := fld b 23 1
    spill := fld b 24 4, room := fld b 28 4, rows := fld b 32 8, mask := fld b 40 1
    ids := (List.range 8).map fun j => fld b (48 + 4 * j) 4, logits := (List.range 8).map fun j => fld b (80 + 4 * j) 4
    norm := Acc.ofBytes ((b.drop 128).take 128)
    heap := (List.range (min (fld b 8 4) (fld b 4 4))).map fun i => (fld b (256 + 8 * i) 4, fld b (260 + 8 * i) 4) }

/-- The bytes of a record. -/
def SpireRec.bytes (r : SpireRec) : List Byte :=
  toBytes 4 1 ++ toBytes 4 r.k ++ toBytes 4 r.heap.length ++ toBytes 4 r.nan ++ toBytes 4 r.depth ++ toBytes 1 r.hfmt ++ toBytes 1 r.wfmt
    ++ toBytes 1 r.block ++ toBytes 1 r.labels ++ toBytes 4 r.spill ++ toBytes 4 r.room ++ toBytes 8 r.rows ++ toBytes 4 r.mask ++ toBytes 4 0
    ++ r.ids.flatMap (toBytes 4) ++ r.logits.flatMap (toBytes 4) ++ List.replicate 16 0 ++ r.norm.readImage.bytes
    ++ r.heap.flatMap (fun e => toBytes 4 e.1 ++ toBytes 4 e.2) ++ List.replicate (8 * (r.k - r.heap.length)) 0

/-- Whether a block code agrees with a W format. -/
def blockOk (w b : Nat) : Bool := if w = 13 then decide (1 ≤ b ∧ b ≤ 4) else b == 0
/-- Whether a declared spill area lies aligned inside the allocation. One that does not is a field out of range, as R212 and R214 say, and not one of
the regions that R211 checks by R167 (notes/assumptions/109, DESIGN CHOICE). -/
def spillOk (off room size : Nat) : Bool := off == noSpill || (off % 8 == 0 && decide (off + 8 * room ≤ size))

/-- The checks of the first 256 bytes of a record, in the order of their offsets (R214). The normaliser's image is not checked (notes/assumptions/140,
DESIGN CHOICE). -/
def recFields (b : List Byte) (size : Nat) : List (Nat × Bool) :=
  [(0, fld b 0 4 == 1), (4, decide (1 ≤ fld b 4 4 ∧ fld b 4 4 ≤ 65536)), (8, decide (fld b 8 4 ≤ fld b 4 4))
   , (16, decide (1 ≤ fld b 16 4 ∧ fld b 16 4 ≤ 65536)), (20, fld b 20 1 == 9 || fld b 20 1 == 10), (21, [9, 10, 13].contains (fld b 21 1))
   , (22, blockOk (fld b 21 1) (fld b 22 1)), (23, decide (fld b 23 1 ≤ 8)), (24, spillOk (fld b 24 4) (fld b 28 4) size)
   , (40, decide (fld b 40 4 < 256)), (44, fld b 44 4 == 0)]
    ++ (List.range 8).map (fun j => (80 + 4 * j, natBit (fld b 40 1) j || fld b (80 + 4 * j) 4 == 0))
    ++ [(112, (List.range 16).all fun i => fld b (112 + i) 1 == 0)]

/-- The entries past the count are zero (R206). TINFO names the first entry, as it names the first uncaptured logit, by its own offset (R214;
notes/assumptions/110, DESIGN CHOICE). -/
def tailFields (b : List Byte) : List (Nat × Bool) :=
  (List.range (fld b 4 4 - fld b 8 4)).map fun i => (256 + 8 * (fld b 8 4 + i), fld b (256 + 8 * (fld b 8 4 + i)) 8 == 0)

/-- A row's logit taken into a record (R208–R210). -/
def SpireRec.takeRow (r : SpireRec) (tl : Nat × Nat) : SpireRec :=
  let t := tl.1
  let l := tl.2
  let hit (j : Nat) : Bool := decide (j < r.labels) && r.ids.getD j 0 == t
  let r := { r with
    logits := (indexed 0 r.logits).map fun (jx : Nat × Nat) => if hit jx.1 then (if natBit r.mask jx.1 then captureOf jx.2 l else l) else jx.2
    mask := (List.range 8).foldl (fun m j => if hit j then m ||| 2 ^ j else m) r.mask
    rows := (r.rows + 1) % 2 ^ 64 }
  if (f32.decode l).isNan then { r with nan := min (r.nan + 1) (2 ^ 32 - 1), norm := { r.norm with nan := true } }
  else
    { r with
      heap := (heapInsert (l, t) r.heap).take r.k
      norm := match termOf l with
        | .none => r.norm
        | .ovf => { r.norm with ovf := true }
        | .val v => r.norm.add v }

/-- Record B merged into record A (R215). -/
def SpireRec.merge (a b : SpireRec) : SpireRec :=
  { a with
    heap := (b.heap.foldl (fun h e => heapInsert e h) a.heap).take a.k
    norm := a.norm.merge b.norm
    nan := min (a.nan + b.nan) (2 ^ 32 - 1)
    rows := (a.rows + b.rows) % 2 ^ 64
    logits := (indexed 0 a.logits).map fun (jx : Nat × Nat) =>
      if natBit b.mask jx.1 then (if natBit a.mask jx.1 then captureOf jx.2 (b.logits.getD jx.1 0) else b.logits.getD jx.1 0) else jx.2
    mask := a.mask ||| b.mask }

/-! ### Quotients by the normaliser (R216, R217) -/

/-- T ÷ N_Z − y as a ratio of integers; the denominator is N, or N times a power of two. -/
def termRatio (t : FVal) (y : Int) (n : Int) : Int × Int :=
  match t with
  | .fin _ m e => if e + 298 ≥ 0 then (m * 2 ^ (e + 298).toNat - y * n, n) else (m - y * n * 2 ^ (-(e + 298)).toNat, n * 2 ^ (-(e + 298)).toNat)
  | _ => (-(y * n), n)

/-- A ratio times 2^e rounded to f32. -/
def roundRatio (num den e : Int) : Nat :=
  if num = 0 then 0
  else f32.roundRat .rne ((num < 0) != (den < 0)) (num.natAbs * 2 ^ e.toNat) (den.natAbs * 2 ^ (-e).toNat)

/-- The value of a term as a number: no term counts as zero. -/
def Term.value : Term → FVal
  | .val v => v
  | _ => .fin false 0 0

/-- A probability of R216; a free value stands where the entry has no term and the normaliser no status bit. -/
def probability (norm : Acc) (free : Nat) (e : HeapEntry) : Nat :=
  if norm.status ≠ 0 ∨ norm.val = 0 then f32.nanBits
  else
    match termOf e.1 with
    | .ovf => Config.freeNat free % 2 ^ 32
    | t => roundRatio (termRatio t.value 0 norm.val).1 (termRatio t.value 0 norm.val).2 0

/-- δ of R217. -/
def deltaOf (norm : Acc) (g l : Nat) (y : Bool) : Nat :=
  let t := termOf l
  if (f32.decode l).isNan || (f32.decode g).isNan || norm.status != 0 || norm.val == 0 || t == .ovf then f32.nanBits
  else
    let q := termRatio t.value (if y then 1 else 0) norm.val
    match f32.decode g with
    | .fin s m e => roundRatio ((if s then -1 else 1) * m * q.1) q.2 e
    | .inf s => if q.1 = 0 then f32.nanBits else f32.inf (s != ((q.1 < 0) != (q.2 < 0)))
    | .nan => f32.nanBits

/-- The extract of a record (R216). -/
def SpireRec.extract (r : SpireRec) (probs : Bool) (free : Nat) : List Byte :=
  toBytes 4 r.heap.length ++ toBytes 4 r.nan ++ toBytes 4 (r.norm.round f32 .rne) ++ toBytes 4 r.mask ++ r.logits.flatMap (toBytes 4)
    ++ List.replicate 16 0 ++ r.norm.readImage.bytes ++ r.heap.flatMap (fun e => toBytes 4 e.1 ++ toBytes 4 e.2)
    ++ (if probs then (indexed 0 r.heap).flatMap fun ie => toBytes 4 (probability r.norm (free + ie.1) ie.2) else [])

/-- The size of an extract. -/
def extractSize (count : Nat) (probs : Bool) : Nat := 192 + 8 * count + if probs then 4 * count else 0

/-! ### Issue (R211–R215) -/

/-- Bytes of an element of the h and W formats. -/
def spireBytes (ty : Nat) : Nat := if ty = 13 then 1 else if ty = 9 then 2 else 4

/-- A request of the word's one executing lane, for R167's reports. -/
def spireReq (lane off size align : Nat) : Req := { lane := lane, scratch := true, ea := off, size := size, align := align, acc := .read }

/-- The alignment and the bounds of scratchpad regions, in the order of R167. -/
def spireRegions (x : LaneCtx) (rs : List Req) : M Unit := do
  trapReqs cAtomicAlign 0 ((rs.filter fun r => r.ea.toNat % r.align != 0).take 1)
  trapReqs cScratchBounds 0 ((rs.filter fun r => decide (r.ea.toNat + r.size > x.T.size)).take 1)

/-- A scratchpad range read at issue: poison traps. -/
def spireRead (x : LaneCtx) (off n : Nat) : M (List Byte) := do
  let s ← get
  match s.scratchPoison x.c.team off n with
  | some a => trap cEcc (BitVec.ofNat 64 (maskLanes x.parts)) (BitVec.ofNat 64 a) 3
  | none => return s.readScratch x.c.team off n

/-- The region of a record, by the K in its first bytes. -/
def recordRegion (x : LaneCtx) (off : Nat) (b : List Byte) : Req := spireReq (x.parts.headD 0) off (recSize (fld b 4 4)) 64

/-- A record read and checked at issue, once the regions are (R211, R214); `b` are its first 256 bytes. -/
def spireRecord (x : LaneCtx) (off : Nat) (b : List Byte) : M SpireRec := do
  checkFields (recFields b x.T.size)
  let b ← spireRead x off (recSize (fld b 4 4))
  checkFields (tailFields b)
  return SpireRec.of b

/-- A span of a team's own scratchpad. -/
def padSpan (off len : Nat) (write : Bool) : Span := ⟨1, 0, off, len, write⟩
/-- The spill area of a record. -/
def spillSpan (r : SpireRec) : List Span := if r.spill = noSpill then [] else [padSpan r.spill (8 * r.room) true]

/-- A Spire command about to be issued: its scope is that of its descriptor, or team where its descriptor has none (R213, R217; notes/assumptions/113). -/
structure SpireIssue where
  kind : CmdKind
  desc : List Byte
  scope : Nat := 1
  locks : List Span

/-- The two offsets of a word, checked; an earlier command that writes a record it reads holds it back (R182, R211). -/
def spireOffsets (x : LaneCtx) (w : LaneWord) (reads merge : Bool) : M (Nat × Nat) := do
  let lane := x.parts.headD 0
  let a := x.a w (x.G.lane lane) % 2 ^ 32
  let b := x.b w (x.G.lane lane) % 2 ^ 32
  spireRegions x [spireReq lane a 256 64, spireReq lane b (if merge then 256 else 64) 64]
  if !merge then
    let _ ← checkAccess [spireReq lane b 64 64]
  let held (off : Nat) : Bool := x.T.locks.any fun l => l.against x.T.core 1 0 off 256 false
  if (reads && held a) || (merge && held b) then stallOn .lock
  return (a, b)

/-- A Spire word (R211): it executes once, with the values of the lowest lane of P; the checks answer the command, which then waits for the
queue, for the range locks, and for the earlier accesses of its lane (R287). -/
def spireRun (i : Instr) (w : LaneWord) (reads merge : Bool) (checks : LaneCtx → Nat → Nat → M SpireIssue) (s : State) : Answer :=
  M.answer (do
    match ← laneEnter w.guard.toNat w.neg w.guardOk with
    | none => retireLane (← here).1
    | some x =>
      let x := { x with parts := x.parts.take 1 }
      laneChecks x i
      let (a, b) ← spireOffsets x w reads merge
      let y ← checks x a b
      if (← get).queued x.T.core true ≥ 4 then stallOn .queueFull
      if !x.T.admits y.locks then stallOn .lock
      releaseLanes x
      let id := x.T.nextCmd
      let tag := x.G.clause.map (·.tag)
      let cmd : Cmd :=
        { id := id, kind := y.kind, grp := x.c.grp, flag := none, desc := y.desc, arg := BitVec.ofNat 64 b, srec := a, tag := tag, lpc := x.G.lanePc
          pos := 0, retry := [], held := [], dropped := 0, waiting := 0, got := [], faulted := false, stamp := x.G.ric.toNat
          scope := y.scope, core := x.T.core }
      upd fun s =>
        ((((s.modTeam x.c.team fun T =>
            { T with cmds := T.cmds ++ [cmd], locks := T.locks ++ spanLocks x.c.grp id y.locks, nextCmd := id + 1 }).modGroup
          x.c.team x.c.grp fun g => match tag with
            | some n => Group.modTag g n fun t => { t with stores := t.stores + 1 }
            | none => g).modCore x.T.core fun c => { c with spire := c.spire ++ [(x.c.team, id)] }).post (.spireComplete x.T.core))
      retireLane x.c) s

/-- VPJS (R212). -/
def execVpjs (w : LaneWord) (s : State) : Answer :=
  spireRun (.vpjs w) w false false (fun x a b => do
    let d ← spireRead x b 64
    let k := fld d 0 4
    spireRegions x [spireReq (x.parts.headD 0) a (recSize k) 64]
    checkFields ([(0, decide (1 ≤ k ∧ k ≤ 65536)), (4, decide (1 ≤ fld d 4 4 ∧ fld d 4 4 ≤ 65536)), (8, fld d 8 1 == 9 || fld d 8 1 == 10)
      , (9, [9, 10, 13].contains (fld d 9 1)), (10, blockOk (fld d 9 1) (fld d 10 1)), (11, decide (fld d 11 1 ≤ 8))
      , (12, spillOk (fld d 12 4) (fld d 16 4) x.T.size), (16, fld d 12 4 == noSpill || decide (k ≤ fld d 16 4 + 64))] ++ zeroFields d 20 12)
    return { kind := .vpjs, desc := d, locks := [padSpan a (recSize k) true] }) s

/-- The checks that VPJR and VPJB share: the regions of the record, of h and, backward, of dh; then the record's fields and the descriptor's (R211,
R213, R214, R217). -/
def streamChecks (x : LaneCtx) (a : Nat) (d : List Byte) (back : Bool) : M SpireRec := do
  let lane := x.parts.headD 0
  let b ← spireRead x a 256
  let eh := spireBytes (fld b 20 1)
  spireRegions x (recordRegion x a b :: spireReq lane (fld d 24 4) (eh * fld b 16 4) eh ::
    if back then [spireReq lane (fld d 48 4) (128 * fld b 16 4) 128] else [])
  let r ← spireRecord x a b
  checkFields [(8, decide (r.depth * spireBytes r.wfmt ≤ fld d 8 8)), (16, decide (1 ≤ fld d 16 4 ∧ fld d 16 4 ≤ 2 ^ 24))
    , (20, decide (fld d 20 4 + fld d 16 4 ≤ 2 ^ 32)), (28, decide (fld d 28 1 ≤ 5))]
  return r

/-- VPJR (R213, R214). -/
def execVpjr (w : LaneWord) (s : State) : Answer :=
  spireRun (.vpjr w) w true false (fun x a b => do
    let d ← spireRead x b 64
    let r ← streamChecks x a d false
    require (!(decide (r.k > 64) && r.spill == noSpill && decide (r.heap.length + fld d 16 4 > 64))) cHeapSpill
    return { kind := .vpjr, desc := d, scope := fld d 28 1
             locks := [padSpan a (recSize r.k) true, padSpan (fld d 24 4) (spireBytes r.hfmt * r.depth) false] ++ spillSpan r }) s

/-- Whether two records can be merged (R215): all eight ids count, and a block length code counts as part of the W format (notes/assumptions/111, DESIGN
CHOICE). -/
def SpireRec.agrees (a b : SpireRec) : Bool :=
  a.k == b.k && a.depth == b.depth && a.hfmt == b.hfmt && a.wfmt == b.wfmt && a.block == b.block && a.labels == b.labels
    && a.ids == b.ids

/-- VPJM (R214, R215): records that do not agree are refused before room for the merged heap is looked for (notes/assumptions/126, DEDUCED). -/
def execVpjm (w : LaneWord) (s : State) : Answer :=
  spireRun (.vpjm w) w true true (fun x a b => do
    let p ← spireRead x a 256
    let q ← spireRead x b 256
    spireRegions x [recordRegion x a p, recordRegion x b q]
    let r ← spireRecord x a p
    let q ← spireRecord x b q
    require (r.agrees q) cIllegalOp
    require (!(decide (r.k > 64) && r.spill == noSpill && decide (r.heap.length + q.heap.length > 64))) cHeapSpill
    return { kind := .vpjm, desc := List.replicate 64 0
             locks := [padSpan a (recSize r.k) true, padSpan b (recSize q.k) false] ++ spillSpan r }) s

/-- VPJX (R216): a destination in the scratchpad is checked at issue, a global one as it is written (R211). A space that R216 does not list raises
ILLEGAL_OP (notes/assumptions/138, DESIGN CHOICE). -/
def execVpjx (w : LaneWord) (s : State) : Answer :=
  spireRun (.vpjx w) w true false (fun x a b => do
    let d ← spireRead x b 64
    let p ← spireRead x a 256
    let n := extractSize (min (fld p 8 4) (fld p 4 4)) (natBit (fld d 9 1) 0)
    let lane := x.parts.headD 0
    spireRegions x (recordRegion x a p :: if fld d 8 1 = 1 then [spireReq lane (fld d 0 8) n 64] else [])
    let _ ← spireRecord x a p
    checkFields [(8, decide (fld d 8 1 ≤ 1))]
    return { kind := .vpjx, desc := d, locks := [padSpan a (recSize (fld p 4 4)) false, ⟨fld d 8 1, 0, fld d 0 8, n, true⟩] }) s

/-- VPJB (R217). -/
def execVpjb (w : LaneWord) (s : State) : Answer :=
  spireRun (.vpjb w) w true false (fun x a b => do
    let d ← spireRead x b 64
    let r ← streamChecks x a d true
    return { kind := .vpjb, desc := d, scope := fld d 28 1
             locks := [padSpan a (recSize r.k) false, padSpan (fld d 24 4) (spireBytes r.hfmt * r.depth) false
                       , padSpan (fld d 48 4) (128 * r.depth) true] }) s

/-! ### The Spire's work (R207, R213–R218) -/

/-- What a command finds on its way: it goes on, it waits for a page, it has asked another device, or it fails. -/
inductive SpireWait (α : Type) where
  | ok (x : α)
  | wait
  | ask (dev off va len : Nat)
  | fault (cause : Cause) (addr : Word) (detail : Nat)

/-- Global bytes read for a command; those that another device has sent are at hand. -/
def State.spireBytes (a : Agent) (c : Cmd) (va : Int) (len : Nat) (s : State) : SpireWait (List Byte) × State :=
  match c.got.find? fun g => (g.1 : Int) == va && g.2.length == len with
  | some g => (.ok g.2, s)
  | none =>
    match s.readLoc a (.global va) len with
    | (.ok b, s) => (.ok b, s)
    | (.wait, s) => (.wait, s)
    | (.peer dev off, s) => (.ask dev off va.toNat len, s)
    | (.fault cause x n, s) => (.fault cause x n, s)

/-- The elements of a format in bytes. -/
def unpackElems (ty n : Nat) (b : List Byte) : List FVal :=
  (List.range n).map fun i => (ETy.get ty 0).value (fld b (spireBytes ty * i) (spireBytes ty))

/-- A row of W, decoded (R207, R213). -/
def State.spireRow (a : Agent) (c : Cmd) (r : SpireRec) (n : Nat) (s : State) : SpireWait (List FVal) × State :=
  match s.spireBytes a c (fld c.desc 0 8 + fld c.desc 8 8 * n) (r.depth * Machine.spireBytes r.wfmt) with
  | (.ok b, s) =>
    let w := unpackElems r.wfmt r.depth b
    if r.wfmt ≠ 13 then (.ok w, s)
    else
      let L := blockLen r.block
      let nb := (r.depth + L - 1) / L
      match s.spireBytes a c (fld c.desc 32 8 + n * nb) nb with
      | (.ok sc, s) => (.ok ((indexed 0 w).map fun iv => iv.2.mul (scaleE8 (fld sc (iv.1 / L) 1))), s)
      | (.wait, s) => (.wait, s)
      | (.ask dev off va len, s) => (.ask dev off va len, s)
      | (.fault cause x d, s) => (.fault cause x d, s)
  | (.wait, s) => (.wait, s)
  | (.ask dev off va len, s) => (.ask dev off va len, s)
  | (.fault cause x d, s) => (.fault cause x d, s)

/-- The hidden vector. -/
def State.spireHidden (s : State) (t : Nat) (r : SpireRec) (d : List Byte) : List FVal :=
  unpackElems r.hfmt r.depth (s.readScratch t (fld d 24 4) (Machine.spireBytes r.hfmt * r.depth))

/-- The logits of rows `n` to `n + k − 1`. -/
def State.spireLogits (a : Agent) (c : Cmd) (r : SpireRec) (h : List FVal) : Nat → Nat → State → SpireWait (List Nat) × State
  | 0, _, s => (.ok [], s)
  | k + 1, n, s =>
    match s.spireRow a c r n with
    | (.ok w, s) =>
      match State.spireLogits a c r h k (n + 1) s with
      | (.ok ls, s) => (.ok (logitOf h w :: ls), s)
      | e => e
    | (.wait, s) => (.wait, s)
    | (.ask dev off va len, s) => (.ask dev off va len, s)
    | (.fault cause x d, s) => (.fault cause x d, s)

/-- The poison of a scratchpad range that a command reads, as its fault (R387). -/
def State.spirePoison (s : State) (t : Nat) (rs : List (Nat × Nat)) : Option Nat := rs.findSome? fun r => s.scratchPoison t r.1 r.2

/-- The record at an offset. -/
def State.recordAt (s : State) (t off : Nat) : SpireRec :=
  SpireRec.of (s.readScratch t off (recSize (ofBytes (s.readScratch t (off + 4) 4))))

/-- The command leaves the Spire's queue. -/
def State.dropSpire (core t id : Nat) (s : State) : State :=
  s.modCore core fun c => { c with spire := c.spire.filter fun x => x != (t, id) }

/-- A command is done (R211). -/
def State.endSpire (core t id : Nat) (s : State) : State := (s.dropSpire core t id).dropCmd t id

/-- A command waits for a page, or for another device's answer. -/
def State.waitSpire (t : Nat) (c : Cmd) (s : State) : State := s.modCmd t c.id fun c => { c with held := [0] }
def State.askSpire (t : Nat) (c : Cmd) (dev off va len : Nat) (s : State) : State :=
  (s.modCmd t c.id fun c => { c with waiting := 1 }).sendRemote
    { Remote.of t c.grp dev off len c.lpc with cmd := some c.id, lane := va, rd := true } (.read len)

/-- A command fails (R214, R217): VPJB reports the rows it has finished. -/
def State.failSpire (core t : Nat) (c : Cmd) (cause : Cause) (addr : Word) (detail : Nat) (s : State) : State :=
  (s.dropSpire core t c.id).post (.engineFault t c.id cause addr
    (BitVec.ofNat 32 ((if c.kind = .vpjb then c.pos else detail) * 256 + c.kind.opcode)))

/-- The record that a VPJS descriptor describes (R212). -/
def initRecord (d : List Byte) : SpireRec :=
  { k := fld d 0 4, nan := 0, depth := fld d 4 4, hfmt := fld d 8 1, wfmt := fld d 9 1, block := fld d 10 1, labels := fld d 11 1
    spill := fld d 12 4, room := fld d 16 4, rows := 0, mask := 0, ids := (List.range 8).map fun j => fld d (32 + 4 * j) 4
    logits := List.replicate 8 0, norm := Acc.zero, heap := [] }

/-- VPJR's effect: the record after its rows. -/
def streamRecord (r : SpireRec) (t0 : Nat) (ls : List Nat) : SpireRec :=
  (indexed 0 ls).foldl (fun r il => r.takeRow (t0 + il.1, il.2)) r

/-- An element of dW as an engine finds it: a whole ACC element at its alignment; outside an ACC range the access fails (R40, R217). -/
def State.gradPart (a : Agent) (va : Int) (s : State) : Found Part × State :=
  match s.engineLocate a va 1 .radd with
  | (.ok (p :: _), s) =>
    if p.kind ≠ 1 then (.fault cAccessFault (BitVec.ofInt 64 va) 0, s)
    else if va.toNat % 128 ≠ 0 then (.fault cAtomicAlign (BitVec.ofInt 64 va) 0, s)
    else (.ok { p with len := 128 }, s)
  | (.ok [], s) => (.fault cAccessFault (BitVec.ofInt 64 va) 0, s)
  | (.wait, s) => (.wait, s)
  | (.peer dev off, s) => (.peer dev off, s)
  | (.fault cause x n, s) => (.fault cause x n, s)

/-- The elements of a row of dW located, every one before any is changed. -/
def State.gradRow (a : Agent) : List Int → State → Found (List (Option Part × Nat × Nat)) × State
  | [], s => (.ok [], s)
  | va :: rest, s =>
    match s.gradPart a va with
    | (.ok p, s) =>
      match State.gradRow a rest s with
      | (.ok ps, s) => (.ok ((some p, 0, 0) :: ps), s)
      | e => e
    | (.peer dev off, s) =>
      match State.gradRow a rest s with
      | (.ok ps, s) => (.ok ((none, dev, off) :: ps), s)
      | e => e
    | (.wait, s) => (.wait, s)
    | (.fault cause x n, s) => (.fault cause x n, s)

/-- A command's output written, each access piece by piece (R253): the command waits for what is still to come. -/
def Cmd.output (c : Cmd) (t : Nat) : Apart := { Apart.of ⟨t, c.grp, .scalar⟩ c.stamp with piece := some (c.id, 0, 0) }
def State.waitOutput (t : Nat) (c : Cmd) (s : State) : State := s.modCmd t c.id fun c => { c with waiting := c.waiting + 1 }
def State.putOutput (t : Nat) (c : Cmd) (accs : List (List Block)) (s : State) : State :=
  let r := s.putApart false (c.output t) accs
  if r.2 then r.1.waitOutput t c else r.1

/-- The gradients of a row added (R217): dh in the scratchpad, dW in its elements here or at another device. -/
def State.addGrads (t : Nat) (c : Cmd) (δ : FVal) (h w : List FVal) (ps : List (Option Part × Nat × Nat)) (s : State) : State :=
  let images := (indexed 0 w).map fun iv =>
    let off := fld c.desc 48 4 + 128 * iv.1
    padBlocks t off ((Acc.ofBytes (s.readScratch t off 128)).add (δ.mul iv.2)).readImage.bytes
  let s := s.putOutput t c images
  (h.zip ps).foldl (fun s hp =>
    let img := (Acc.zero.add (δ.mul hp.1)).bytes
    match hp.2 with
    | (some p, _) => (s.mergeAt p tyAcc [img]).getD s
    | (none, dev, off) => s.askPiece t c 0 dev off 128 false (.radd [img] tyAcc)) s

/-- VPJB from its row `c.pos` on, `k` rows at most in one go. -/
def State.spireBack (a : Agent) (core t id : Nat) (r : SpireRec) (h : List FVal) : Nat → State → State
  | 0, s => s
  | k + 1, s =>
    match s.cmd? t id with
    | none => s
    | some c =>
      if c.waiting ≠ 0 then s
      else if c.pos ≥ fld c.desc 16 4 then s.endSpire core t id
      else
        match s.spireRow a c r c.pos with
        | (.wait, s) => s.waitSpire t c
        | (.ask dev off va len, s) => s.askSpire t c dev off va len
        | (.fault cause x d, s) => s.failSpire core t c cause x d
        | (.ok w, s) =>
          let l := logitOf h w
          let y := (List.range r.labels).any fun j => r.ids.getD j 0 == fld c.desc 20 4 + c.pos
          let δ := deltaOf r.norm (fld c.desc 52 4) l y
          let next (s : State) : State := s.modCmd t id fun c => { c with pos := c.pos + 1, got := [] }
          if δ % 2 ^ 31 = 0 then State.spireBack a core t id r h k (next s)
          else
            match s.gradRow a ((List.range r.depth).map fun i => ((fld c.desc 40 8 + (c.pos * r.depth + i) * 128 : Nat) : Int)) with
            | (.ok ps, s) => State.spireBack a core t id r h k (next (s.addGrads t c (f32.decode δ) h w ps))
            | (.wait, s) => s.waitSpire t c
            | (.peer _ _, s) => s
            | (.fault cause x d, s) => s.failSpire core t c cause x d

/-- What a command leaves in its record's spill area: free bytes (R214; notes/assumptions/112). -/
def State.blurSpill (t : Nat) (r : SpireRec) (stamp : Nat) (s : State) : State :=
  if r.spill = noSpill then s
  else
    { s.writeScratch t r.spill ((List.range (8 * r.room)).map fun i => BitVec.ofNat 8 (Config.freeNat (s.free + i))) stamp with
      free := s.free + 8 * r.room }

/-- The record or the extract written in the scratchpad: the command is done with the last piece (R211). -/
def State.finishSpire (core t : Nat) (c : Cmd) (off : Nat) (b : List Byte) (s : State) : State :=
  let r := s.putApart false (c.output t) [padBlocks t off b]
  if r.2 then r.1.waitOutput t c else r.1.endSpire core t c.id

/-- The command's effect (R212–R217): the record, or the extract, is written as the command completes. A global extract that is not 64-byte aligned is the
engine fault ATOMIC_ALIGN (R216; notes/assumptions/139, DESIGN CHOICE). -/
def State.runSpire (a : Agent) (core t : Nat) (c : Cmd) (s : State) : State :=
  let r := s.recordAt t c.srec
  let finish := State.finishSpire core t c c.srec
  let reads := match c.kind with
    | .vpjs => []
    | .vpjm => [(c.srec, recSize r.k), (c.arg.toNat, recSize r.k)]
    | .vpjx => [(c.srec, recSize r.k)]
    | .vpjb => [(c.srec, recSize r.k), (fld c.desc 24 4, Machine.spireBytes r.hfmt * r.depth), (fld c.desc 48 4, 128 * r.depth)]
    | _ => [(c.srec, recSize r.k), (fld c.desc 24 4, Machine.spireBytes r.hfmt * r.depth)]
  match s.spirePoison t reads with
  | some x => s.failSpire core t c cEcc (BitVec.ofNat 64 x) 0
  | none =>
    let h := s.spireHidden t r c.desc
    match c.kind with
    | .vpjs => finish (initRecord c.desc).bytes s
    | .vpjm => finish (r.merge (s.recordAt t c.arg.toNat)).bytes (s.blurSpill t r c.stamp)
    | .vpjx =>
      let b := r.extract (natBit (fld c.desc 9 1) 0) s.free
      let s := { s with free := s.free + r.heap.length }
      if fld c.desc 8 1 = 1 then s.finishSpire core t c (fld c.desc 0 8) b
      else if fld c.desc 0 8 % 64 ≠ 0 then s.failSpire core t c cAtomicAlign (BitVec.ofNat 64 (fld c.desc 0 8)) 0
      else
        match s.landLoc a (c.output t) (.global (fld c.desc 0 8)) b with
        | (.ok (s', true), _) => s'.waitOutput t c
        | (.ok (s', false), _) => s'.endSpire core t c.id
        | (.wait, s) => s.waitSpire t c
        | (.peer dev off, s) =>
          if c.pos = 0 then (s.modCmd t c.id fun c => { c with pos := 1 }).askPiece t c 0 dev off b.length false (.write b)
          else s.endSpire core t c.id
        | (.fault cause x d, s) => s.failSpire core t c cause x d
    | .vpjb => s.spireBack a core t c.id r h (fld c.desc 16 4 - c.pos + 1)
    | _ =>
      match s.spireLogits a c r h (fld c.desc 16 4) 0 with
      | (.ok ls, s) => finish (streamRecord r (fld c.desc 20 4) ls).bytes (s.blurSpill t r c.stamp)
      | (.wait, s) => s.waitSpire t c
      | (.ask dev off va len, s) => s.askSpire t c dev off va len
      | (.fault cause x d, s) => s.failSpire core t c cause x d

/-- SPIRE_COMPLETE (R211, R214, R217): the oldest command of the core's Spire has its effect, unless it waits. -/
def execSpireComplete (core : Nat) (s : State) : Answer :=
  match (s.cores[core]?).bind fun c => c.spire.head? with
  | none => .next s
  | some (t, id) =>
    match s.cmd? t id, s.agentOf? t with
    | some c, some a =>
      if c.faulted then .next (s.dropSpire core t id)
      else if c.waiting ≠ 0 || !c.held.isEmpty then .next s
      else
        let s := s.runSpire a.engine core t c
        .next (if (s.cores[core]?).any fun x => x.spire.head? != some (t, id) && !x.spire.isEmpty then s.post (.spireComplete core) else s)
    | _, _ => .next (s.dropSpire core t id)

/-- An answer of another device reaches a Spire command: its bytes are kept until it has read them. -/
def State.answerSpire (t : Nat) (c : Cmd) (rd : Bool) (va : Nat) (nack : Option (Cause × Word × Nat)) (b : List Byte) (s : State) : State :=
  let core := ((s.team? t).map (·.core)).getD 0
  match nack with
  | some (cause, x, info) => s.failSpire core t (if rd then c else { c with pos := c.pos - 1 }) cause x (info / 256)
  | none =>
    let s := s.modCmd t c.id fun c => if rd then { c with got := c.got ++ [(va, b)] } else c
    if (s.cmd? t c.id).any fun c => c.waiting == 0 then s.post (.spireComplete core) else s

end Sys2Proof.Machine
end

