-- ==== Sys2Proof/Machine/FabricAnswer.lean ====
section
/-! DEFINITION. The answers of other devices, brought to whoever waits for them (R71, R185, R344, R347). -/

namespace Sys2Proof.Machine

/-- A scalar WAITA's word of another device has been read (R175, R250): it parks where the word equals its operand, unless it was woken to read once more;
the park holds no monitor there, so that it reads again at once (R176; notes/assumptions/14). The handler slot executes its word again. -/
def State.answerWaita (s : State) (r : Remote) (st : Stream) (sd : Nat) (code : Nat) (v : Word) (g : ScalarRegs) : State :=
  let sa : SReg := BitVec.ofNat 6 ((code - 32) / 64)
  let sb : SReg := BitVec.ofNat 6 ((code - 32) % 64)
  let detm := ((s.launchOf? r.team).map (·.detm)).getD 0
  let woken := (s.group? r.team r.grp).any (·.woken)
  let s' := s.modGroup r.team r.grp fun G => { G with woken := false }
  if v = g.getS sb && (!woken || detm == 2) then
    if st = .handler then s
    else
      match parkOn 0 { kind := 0x5B, tcode := natBits (g.getS sa).toNat 59 57, addr := (g.getS sa) &&& 0x00FFFFFFFFFFFFFF#64, value := g.getS sb
                       polls := true, word := .waita (BitVec.ofNat 6 sd) sa sb } s' with
      | .ok (_, s) => s.post (.parkWake r.team r.grp)
      | .error (_, s) => s
  else s'.retireScalar ((g.setS (BitVec.ofNat 6 sd) v).goto (g.pc + 4))

/-- The bytes that a scalar stream waited for have come: its register is written, or the table of CTAB loaded, and the stream goes on (R71, R194). -/
def State.landScalar (s : State) (t sd ext : Nat) (b : List Byte) (g : ScalarRegs) : State :=
  if ext ≥ 8 then
    match (s.team? t).bind fun T => s.loadTable (((s.contextOf? t).map (·.id)).getD 0) T.core (ext - 8) b with
    | some s => s.retireScalar (g.goto (g.pc + 4))
    | none => s.takeTrap { cause := cIllegalOp }
  else
    let v := match ext with
      | 4 => loadValue .s8 b
      | 5 => loadValue .s16 b
      | 6 => loadValue .s32 b
      | _ => BitVec.ofNat 64 (ofBytes b)
    s.retireScalar ((g.setS (BitVec.ofNat 6 sd) v).goto (g.pc + 4))

/-- A scalar access of another device that has been answered: its register is written, or the table of CTAB loaded, and the stream goes on, or it
traps at its word (R71, R347); one that acquires does so now (R264). -/
def State.answerScalar (s : State) (r : Remote) (x : Stream × Nat × Nat) (f : FabricResp) : State :=
  let s := { s with cur := some ⟨r.team, r.grp, x.1⟩ }
  let s := if f.nack.isNone then r.acq.elim s (s.acquireFor r.team) else s
  match f.nack with
  | some code =>
    s.takeTrap { cause := nackCause code, taddr := BitVec.ofNat 64 (heapVa r.dev r.off), tinfo := BitVec.ofNat 64 (nackInfo r.dev code) }
  | none =>
    match s.scalarRegs? with
    | some g =>
      if x.2.2 = storeCode then s.retireScalar (g.goto (g.pc + 4))
      else if x.2.2 ≥ 32 then s.answerWaita r x.1 x.2.1 x.2.2 (BitVec.ofNat 64 (ofBytes f.data)) g
      else s.landScalar r.team x.2.1 x.2.2 f.data g
    | none => s

/-- A collective's read or write of another device's heap that has been answered (R185, R344, R358). -/
def State.answerColl (s : State) (r : Remote) (c : Coll) (f : FabricResp) : State :=
  match f.nack with
  | some code => s.failColl r.team c (nackCause code) (BitVec.ofNat 64 (heapVa r.dev r.off)) (nackInfo r.dev code)
  | none =>
    if r.rd then s.modColl r.team c.cmd fun c => { c with fetched := c.fetched ++ [(r.lane, f.data)] }
    -- of a tile that a freeze has written anew the counter waits for the last write (R359)
    else if s.remotes.any fun x => x.team == r.team && x.cmd == some c.cmd && x.lane == r.lane && !x.rd then s
    else s.markTile r.team c.cmd r.lane

/-- A command's request that has been answered (R185, R344). -/
def State.answerCmd (s : State) (r : Remote) (id : Nat) (f : FabricResp) : State :=
  match s.cmd? r.team id, s.agentOf? r.team with
  | some c, some a =>
    if c.faulted then s
    else
      let s := s.modCmd r.team id fun c => { c with waiting := c.waiting - 1 }
      if c.kind.isSpire then
        s.answerSpire r.team c r.rd r.lane
          (f.nack.map fun code => (nackCause code, BitVec.ofNat 64 (heapVa r.dev r.off), nackInfo r.dev code)) f.data
      else
      match f.nack with
      | some code =>
        s.post (.engineFault r.team id (nackCause code) (BitVec.ofNat 64 (heapVa r.dev r.off))
          (BitVec.ofNat 32 (nackInfo r.dev code + c.kind.opcode)))
      | none =>
        if r.rd then (s.deliver a.engine r.team c r.lane (c.piece s r.team r.lane) f.data).advanceCmd r.team id
        else
          let s := if c.kind = .part then s.advanceCursor r.team c (partIndex s r.team c.desc r.lane) else s
          (s.landed r.team c (c.piece s r.team r.lane).len).advanceCmd r.team id
  | _, _ => s

/-- An answer's beats are returned at once (R341); one that stands for a lost link took none. -/
def State.answerCredit (s : State) (port n : Nat) : State :=
  if (s.dome.canals[port]?).any (·.up) then s.send (.credit port 1 (beats n)) else s

/-- Whether a stream that waits for bytes is gone: its group is killed, or the handling it belongs to has ended (R97, R378). -/
def State.leftBy (s : State) (t g : Nat) (st : Stream) : Bool :=
  match st with
  | .handler => (s.team? t).all fun T => T.state != .handling && T.state != .dumping
  | _ => (s.group? t g).all (·.gone)

/-- An answer that has come for a remote access (R344, R347), which is no longer in flight. -/
def answerRemote (f : FabricResp) (r : Remote) (s : State) : State :=
  let s := s.answerCredit r.port f.data.length
  let nack (code : Nat) : Nack :=
      { lane := r.lane, cause := nackCause code, addr := BitVec.ofNat 64 (heapVa r.dev r.off), info := nackInfo r.dev code, lpc := r.lpc }
  match r.sreg, r.cmd, r.load, r.store with
  | some x, _, _, _ => if s.leftBy r.team r.grp x.1 then s else s.answerScalar r x f
  | none, some id, _, _ =>
      match s.coll? r.team id with
      | some c => s.answerColl r c f
      | none => s.answerCmd r id f
  | none, none, some l, _ =>
      match f.nack with
      | some code => s.pieceLost r.team r.grp l.1 (nack code)
      | none => s.pieceLoaded r.team r.grp l.1 l.2.1 l.2.2 f.data
  | none, none, none, some id =>
      match f.nack with
      | some code => s.storeLost r.team r.grp id (nack code)
      | none => s.pieceStored r.team r.grp id
  | none, none, none, none =>
      match f.nack, s.group? r.team r.grp with
      | some code, some G =>
        if G.killed then s
        else
          (s.modGroup r.team r.grp Group.unpark).holdTrap r.team
            { cause := nackCause code, grp := r.grp, lane := false, tlpc := G.lanePc, tlane := 0, taddr := BitVec.ofNat 64 (heapVa r.dev r.off)
              tinfo := BitVec.ofNat 64 (2 ^ 62 + nackInfo r.dev code), tick := s.tick, async := true, cmd := none, lost := none }
      | _, _ => s

/-- FABRIC_RESPONSE (R344, R347): an answer reaches whoever waits for it, and a team that waits for its last one is over (R242, R264); of one that nobody
waits for any more only the beats go back. -/
def execFabricResponse (f : FabricResp) (s : State) : Answer :=
  match s.remotes.find? fun r => r.id == f.id, s.dome.orphans.find? fun x => x.1 == f.id with
  | some r, _ => .next ((answerRemote f r { s with remotes := s.remotes.filter fun x => x.id != f.id }).settleTeam r.team)
  | none, some x => .next ((s.modDome fun d => { d with orphans := d.orphans.filter fun y => y.1 != f.id }).answerCredit x.2 f.data.length)
  | none, none => .next s

end Sys2Proof.Machine
end

