-- ==== Sys2Proof/Machine/Apart.lean ====
section
/-! DEFINITION. Accesses performed block by block: what is still to come of them, performed (R252–R254), and the requests of other devices, served (R344,
R345, R348). -/

namespace Sys2Proof.Machine

/-- A command's piece has landed whole: a Spire's output is written (R211), any other command's bytes count, and it goes on (R179). -/
def State.pieceLanded (t id n len : Nat) (s : State) : State :=
  match s.cmd? t id with
  | none => s
  | some c =>
    if c.faulted then s
    else
      let done (s : State) : State := s.modCmd t id fun c => { c with waiting := c.waiting - 1 }
      if c.kind = .vpjb then (done s).answerSpire t c false 0 none []
      else if c.kind.isSpire then
        let core := ((s.team? t).map (·.core)).getD 0
        (s.endSpire core t id).post (.spireComplete core)
      else (done (s.pieceDone t c n len)).advanceCmd t id

/-- The blocks of a write that are still to come are performed; then what waits for them goes on. -/
def State.putRest (x : Apart) (s : State) : State :=
  let s := x.blocks.foldl (State.putBlock x.stamp) s
  let s := x.store.elim s (s.pieceStored x.team x.grp)
  let s := if x.reads.isEmpty then x.load.elim s fun id => s.pieceLoaded x.team x.grp id 0 0 [] else s
  let s := x.tile.elim s fun ci => s.markTile x.team ci.1 ci.2
  x.piece.elim s fun p => s.pieceLanded x.team p.1 p.2.1 p.2.2

/-- The pieces of a read that are still to come are read; then the load, the scalar stream or the other device has them. -/
def State.readRest (x : Apart) (s : State) : State :=
  let got (b : List Byte) : List Byte := x.reads.foldl (fun b r => patch b r.2.1 (s.readBlock r.2.2)) b
  let s := x.load.elim s fun id => x.reads.foldl (fun s r => s.pieceLoaded x.team x.grp id r.1 r.2.1 (s.readBlock r.2.2)) s
  let s := match x.sload, s.scalarRegs? with
    | some l, some g => if s.leftBy x.team x.grp x.stream then s else s.landScalar x.team l.1 l.2.1 (got l.2.2) g
    | _, _ => s
  x.reply.elim s fun r => s.reply r.1 none (got r.2)

/-- What is still to come of an access is performed, and a team that waits for its last one is over (R242, R264). -/
def State.performApart (s : State) (x : Apart) : State :=
  let cur := if x.reply.isSome then none else some ⟨x.team, x.grp, x.stream⟩
  let s := { ({ s with cur := cur }.putRest x).readRest x with cur := s.cur }
  if x.reply.isSome then s else s.settleTeam x.team

/-- The accesses that a test selects are performed to the end, in the order they were made. -/
def State.settleApart (p : Apart → Bool) (s : State) : State :=
  (s.apart.filter p).foldl State.performApart { s with apart := s.apart.filter fun x => !p x }

/-- Whether an access is one of a team's streams. -/
def Apart.ofStreams (x : Apart) (t : Nat) : Bool := x.piece.isNone && x.tile.isNone && x.reply.isNone && x.team == t

/-- Whether an access is a stream's own, which its next instruction comes after. -/
def Apart.isOf (x : Apart) (c : Cur) : Bool := x.ofStreams c.team && x.stream == c.stream && (c.stream == .handler || x.grp == c.grp)

/-- Every access of a team's streams performed to the end; and those of its commands too. -/
def State.settleWrites (t : Nat) (s : State) : State := s.settleApart (·.ofStreams t)
def State.settleAll (t : Nat) (s : State) : State := s.settleApart fun x => x.reply.isNone && x.team == t

/-! ### Requests from other devices (R344, R345, R348) -/

/-- The unit in which a peer window's access to a part is performed at once (R252, R254). -/
def Part.peerUnit (p : Part) : Nat := max 8 (elemBytes p.kind)

/-- A resolved request performed and answered: a read's or a write's pieces each when it will, the answer with the last of them (R253, R345). -/
def State.serveRequest (r : FabricReq) (ps : List Part) (s : State) : State :=
  let base := (ps.head?.map (·.va)).getD 0
  let whose : Apart := Apart.of ⟨0, 0, .scalar⟩ 0
  let blocks (b : List Byte) : List Block := ps.flatMap fun p => p.blocksOf p.peerUnit ((b.drop (p.va - base)).take p.len)
  match r.op with
  | .write b =>
    let x := (s.dropLines ps).putApart false { whose with reply := some (r, []) } [blocks b]
    if x.2 then x.1 else x.1.reply r none []
  | .read n =>
    let b := s.readParts ps
    let x := s.readsApart false { whose with reply := some (r, b) } [{ lane := 0, ea := base, blocks := blocks (List.replicate n 0) }]
    if x.2 = 0 then x.1.reply r none b else x.1
  | _ =>
    let x := s.perform r.op ps
    x.2.reply r none x.1

/-- FABRIC_REQUEST (R344, R345, R348): performed and answered, refused with a NACK, or parked until its page is resident; the sender's earlier requests
are performed to the end before it (R342). -/
def execFabricRequest (r : FabricReq) (s : State) : Answer :=
  let s := s.settleApart fun x => x.reply.any fun q => q.1.port == r.port && q.1.src == r.src
  if s.behindParked r then .next (s.park r)
  else
    match s.resolve r with
    | (.inl code, s) => .next (s.reply r (some code) [])
    | (.inr none, s) => .next (s.park r)
    | (.inr (some ps), s) => .next (s.serveRequest r ps)

end Sys2Proof.Machine
end

