-- ==== Sys2Proof/Machine/Wake.lean ====
section
/-! DEFINITION. The end of a park: PARK_WAKE and WAITA_TIMEOUT (R175, R176, R309, R395). -/

namespace Sys2Proof.Machine

/-- A parked word executed again: every instruction that parks. -/
def waitAgain (i : Instr) (s : State) : Answer :=
  match i with
  | .waita sd sa sb => execWaita sd sa sb s
  | .swait sa sb => execSwait sa sb s
  | .sbarw sa sb => execSbarw sa sb s
  | .plwt sd sa sb => execPlwt sd sa sb s
  | .laneWaita w => execLaneWaita w s
  | .laneSwait w => execLaneSwait w s
  | .barw w => execBarw w s
  | .cbarw w => execCbarw w s
  | _ => .next s

/-- Whether a park is a WAITA's. -/
def Park.isWaita (p : Park) : Bool := p.kind == 0x5B || p.kind == 0xE0

/-- The clock of a group that leaves a park (R395): the waking operations' largest stamp, under mode 2; the word's retirement adds one. -/
def Group.afterPark (g : Group) (detm : Nat) (p : Park) : Group :=
  { g with park := none, woken := p.isWaita, ric := if detm = 2 then BitVec.ofNat 64 (max g.ric.toNat p.stamp) else g.ric }

/-- A parked group leaves its park and executes its word again; where the wait's condition still holds, the park goes on (R175, R178, R180, R188). -/
def leavePark (t g : Nat) (p : Park) (detm : Nat) (s : State) : Answer :=
  match waitAgain p.word { s.modGroup t g fun G => G.afterPark detm p with cur := some ⟨t, g, p.stream⟩ } with
  | .next s' => if ((s'.group? t g).bind (·.park)).isSome then .next s else .next s'
  | r => r

/-- PARK_WAKE (R176, R395): a team whose streams are stopped keeps the wake until it resumes; under mode 2 a WAITA wakes only on a write that changes
the value. -/
def execParkWake (t g : Nat) (s : State) : Answer :=
  match s.team? t, s.group? t g, s.launchOf? t with
  | some T, some G, some L =>
    match G.park with
    | none => .next s
    | some p =>
      if p.isWaita && L.detm == 2 && !p.written && !p.polls then .next s
      else if T.state != .running || T.away || T.stop || !T.live then
        .next (s.modGroup t g fun G => { G with park := G.park.map fun p => { p with written := true } })
      else leavePark t g p L.detm s
  | _, _, _ => .next s

/-- WAITA_TIMEOUT (R175). -/
def execWaitaTimeout (t g : Nat) (s : State) : Answer :=
  match s.team? t, s.group? t g, s.launchOf? t with
  | some T, some G, some L =>
    match G.park with
    | none => .next s
    | some p =>
      if T.state = .running && !T.away && !T.stop && T.live && p.isWaita && p.deadline.any (fun d => decide (d ≤ s.tick)) then leavePark t g p L.detm s
      else .next s
  | _, _, _ => .next s

end Sys2Proof.Machine
end

