-- ==== Sys2Proof/Machine/Retry.lean ====
section
/-! DEFINITION. The accesses that wait for a page or a line, taken up again: the operand log, commands, tiles, parked requests, stalled streams (R323, R326–R328,
R336, R348). -/

namespace Sys2Proof.Machine

/-- The access that an operand-log entry makes. -/
def LogEntry.access (e : LogEntry) : Access := if e.kind = 0 ∨ e.kind = 4 then .read else if e.kind = 2 ∨ e.kind = 3 then .atomic else .write
/-- Whether it belongs to a store. -/
def LogEntry.isStore (e : LogEntry) : Bool := e.kind == 1 || decide (e.kind ≥ 5)

/-- The operation of a code of R328. -/
def atomOfCode : Nat → AtomOp
  | 0 => .add
  | 1 => .min
  | 2 => .max
  | 3 => .and
  | 4 => .or
  | 5 => .xor
  | _ => .xchg

/-- What an atomic entry leaves in memory; the type of its element, which says whether it is signed, is that of its destination. -/
def LogEntry.newValue (e : LogEntry) (ty old : Nat) : Nat :=
  let w := 8 * e.size
  if e.kind = 2 then atomValue (atomOfCode e.sub) (ETy.get ty 0).isSigned w old (e.op.toNat % 2 ^ w)
  else if old = ofBytes (e.data.take e.size) then e.op.toNat % 2 ^ w else old

/-- An entry's final fault (R326, R327). -/
def State.loseEntry (e : LogEntry) (cause : Cause) (addr : Word) (info : Nat) (s : State) : State :=
  let n : Nack := { lane := e.lane, cause := cause, addr := addr, info := info, lpc := e.lpc }
  if e.isStore then s.storeLost e.team e.grp e.id n else s.pieceLost e.team e.grp e.id n

/-- An entry whose bytes are at hand performed. -/
def State.performEntry (e : LogEntry) (ps : List Part) (s : State) : State :=
  if e.isStore then (s.writeParts ps e.data 0).pieceStored e.team e.grp e.id
  else
    let old := s.readParts ps
    let ty := (((s.group? e.team e.grp).bind fun g => g.loads.find? fun r => r.id == e.id).bind fun r =>
      (r.dsts.find? fun d => d.lane == e.lane).map (·.ty)).getD 0
    let s := if e.access = .atomic then s.writeParts ps (toBytes e.size (e.newValue ty (ofBytes old))) 0 else s
    s.pieceLoaded e.team e.grp e.id e.lane e.off old

/-- An entry's walk made again: where it goes on waiting, the size of its page. -/
def State.retryEntry (e : LogEntry) (s : State) : Option Nat × State :=
  let va : Word := BitVec.ofNat 64 e.va
  match s.agentOf? e.team with
  | none => (none, s)
  | some a =>
    match s.locate a e.va e.size e.access.writes with
    | (.fault m, s) => (none, s.loseEntry e cAddrFault va (if m then 0x100 else 0))
    | (.parts ps, s) =>
      if ps.any fun p => p.isAbsent || p.isHeld then (some ((ps.head?.map (·.bits)).getD 16), s.reportParts a e.access ps)
      else if !ps.all fun p => p.permits e.access then (none, s.loseEntry e cAccessFault va 0)
      else if !ps.all fun p => p.open e.access s then (none, s.loseEntry e cAccessFault va 0x200)
      else
        match if e.isStore then none else s.partsPoison ps with
        | some x => (none, s.loseEntry e cEcc (BitVec.ofNat 64 x.1) x.2)
        | none => (none, s.performEntry e ps)

/-- Whether a team's context has an address space; none stands for all. -/
def State.ofAsid (s : State) (asid : Option Nat) (t : Nat) : Bool := asid.all fun n => (s.contextOf? t).any fun C => C.asid == n

/-- A log's entries taken up in order: one behind an entry of its page that goes on waiting waits too (R327). -/
def retryEntries (asid : Option Nat) : List LogEntry → List (Nat × Nat × Nat) → State → List LogEntry × State
  | [], _, s => ([], s)
  | e :: es, stopped, s =>
    let ctx := ((s.launchOf? e.team).map (·.ctx)).getD 0
    if !s.ofAsid asid e.team || stopped.any fun k => k.1 == ctx && k.2.2 == e.va / 2 ^ k.2.1 then
      let r := retryEntries asid es stopped s
      (e :: r.1, r.2)
    else
      match s.retryEntry e with
      | (some bits, s) =>
        let r := retryEntries asid es ((ctx, bits, e.va / 2 ^ bits) :: stopped) s
        (e :: r.1, r.2)
      | (none, s) => retryEntries asid es stopped s

/-- A core's operand log taken up again. -/
def State.retryLog (asid : Option Nat) (core : Nat) (s : State) : State :=
  let log := ((s.cores[core]?).map (·.oplog)).getD []
  if log.isEmpty then s
  else
    let r := retryEntries asid log [] s
    r.2.modCore core fun c => { c with oplog := r.1 }

/-- A command whose pieces wait. -/
def State.retryCmd (t : Nat) (c : Cmd) (s : State) : State :=
  if c.held.isEmpty || c.faulted then s
  else if c.kind = .plval then (s.modCmd t c.id fun c => { c with held := [] }).post (.plvalViewWrite t c.id)
  else if c.kind.isSpire then
    (s.modCmd t c.id fun c => { c with held := [] }).post (.spireComplete (((s.team? t).map (·.core)).getD 0))
  else (s.modCmd t c.id fun c => { c with retry := c.retry ++ c.held, held := [] }).advanceCmd t c.id

/-- A collective's tiles whose destination waits for a page. -/
def State.retryColl (t : Nat) (c : Coll) (s : State) : State :=
  c.tiles.foldl (fun s x =>
    if x.write && !s.remotes.any fun r => r.team == t && r.cmd == some c.cmd && r.lane == x.idx && !r.rd then s.finishTile t c.cmd x.idx
    else s) s

/-- A stream that stalls on a page goes on. -/
def Group.offPage (g : Group) : Group := { g with stallS := g.stallS.filter (!·.isPage), stallL := g.stallL.filter (!·.isPage) }

/-- One team's waits taken up again. -/
def State.retryTeam (t : Nat) (s : State) : State :=
  match s.team? t with
  | none => s
  | some T =>
    let s := s.modTeam t fun T => { T with groups := T.groups.map Group.offPage }
    T.colls.foldl (fun s c => s.retryColl t c) (T.cmds.foldl (fun s c => s.retryCmd t c) s)

/-- The queue entries whose acceptance waits are taken up again (R293, R326). -/
def State.retryQueues (asid : Option Nat) (s : State) : State :=
  let due := s.contexts.filter fun C => asid.all (· == C.asid)
  { s with
    contexts := s.contexts.map fun (C : Context) =>
      if asid.all (· == C.asid) then { C with queues := C.queues.map fun q => { q with waiting := 0 } } else C
    agenda := s.agenda ++ due.flatMap fun C =>
      (indexed 0 C.queues).flatMap fun iq => List.replicate iq.2.waiting (.event (.launchAccept C.id iq.1)) }

/-- The word that a virtual address of an agent names now, if its page is resident: a walk that leaves no trace. -/
def State.monAt (s : State) (a : Agent) (va : Nat) : Option Mon :=
  match (s.locate { a.dome with fuse := [], other := false } va 8 false).1 with
  | .parts (p :: _) =>
    match p.place with
    | .hbm pa => some (.hbm p.key pa)
    | .held l => some (.hbm p.key (128 * l + va % 128))
    | .host pa => some (.host pa)
    | _ => none
  | _ => none

/-- A park's monitors armed anew where its words lie now; a word that reads otherwise than when the park began has been written meanwhile (R176, R337). -/
def Park.rearm (s : State) (a : Agent) (p : Park) : Park :=
  let found := p.words.filterMap fun w => (s.monAt a w.1).map fun m => (m, w.2)
  { p with
    mons := p.mons.filter (fun m => match m with
      | .scratch _ _ => true
      | _ => false) ++ found.map (·.1)
    written := p.written || found.any fun x => s.monRead x.1 != x.2 }

/-- The parked WAITAs of a team armed anew; those whose word has changed wake (R176). -/
def State.rearmTeam (t : Nat) (s : State) : State :=
  match s.team? t, s.agentOf? t with
  | some T, some a =>
    (indexed 0 T.groups).foldl (fun s gG =>
      match gG.2.park with
      | some p =>
        if p.words.isEmpty then s
        else
          let q := p.rearm s a
          let s := s.modGroup t gG.1 fun G => { G with park := some q }
          if q.written && !p.written then s.post (.parkWake t gG.1) else s
      | none => s) s
  | _, _ => s

/-- Every access of an address space that waits walks again (R323, R326), the command processor's too; the parked requests of the canals arrive again,
ahead of every later one (R342, R348), and the driver's requests that wait for the host (R336). -/
def State.retryWaits (asid : Option Nat) (s : State) : State :=
  let s := s.flushWrites
  let s := (List.range s.cores.length).foldl (fun s c => s.retryLog asid c) s
  let s := (List.range s.teams.length).foldl (fun s t => if s.ofAsid asid t then s.retryTeam t else s) s
  let s := s.retryQueues asid
  { s.modDome fun d => { d with parked := [], pool := [], asks := [] } with
    agenda := ((s.dome.parked ++ s.dome.pool).map fun r => .event (.fabricRequest r)) ++ s.dome.asks.map .driver ++ s.agenda }

end Sys2Proof.Machine
end

