-- ==== Sys2Proof/Machine/Coherence.lean ====
section
/-! DEFINITION. Invalidation, the sweeper, the L1 copies, the host's accesses and core power gating (R322, R323, R329–R336, R389, R420). -/

namespace Sys2Proof.Machine

/-! ### Page tables read as a whole (R317) -/

/-- The bytes of a table of a level. -/
def tableSize : Nat → Nat
  | 0 => 1048576
  | 3 => 512
  | _ => 8192

/-- The valid entries of a table, in ascending address: an entry is found by its first byte, which is listed because V is 1. -/
def tableEntries (m : Cells) (level t : Nat) : List Nat :=
  m.filterMap fun c => if t ≤ c.1 && decide (c.1 < t + tableSize level) && (c.1 - t) % 16 == 0 && c.2.getLsbD 0 then some c.1 else none

/-- The valid leaves below a table, in ascending virtual address: the entry's address, its word 0, its page's size as a power of two. Entries that may
not be read are passed over. -/
def leavesFrom (m : Cells) (may : Nat → Bool) : Nat → Nat → Nat → List (Nat × Nat × Nat)
  | 0, _, _ => []
  | fuel + 1, level, t =>
    ((tableEntries m level t).filter may).flatMap fun a =>
      let w0 := readLE m a 8
      let w1 := readLE m (a + 8) 8
      if malformed level w0 w1 then [] else if natBit w0 1 then [(a, w0, pageBits level)] else leavesFrom m may fuel (level + 1) w1

/-- The tables below a root, each with its size. -/
def tablesFrom (m : Cells) : Nat → Nat → Nat → List (Nat × Nat)
  | 0, _, _ => []
  | fuel + 1, level, t =>
    (t, tableSize level) :: (tableEntries m level t).flatMap fun a =>
      let w0 := readLE m a 8
      let w1 := readLE m (a + 8) 8
      if malformed level w0 w1 || natBit w0 1 then [] else tablesFrom m fuel (level + 1) w1

/-- The leaves of a context, as far as the firewall lets the device read its tables (R420). -/
def Context.leaves (C : Context) (s : State) : List (Nat × Nat × Nat) := leavesFrom s.mem (fun a => s.firewall .dev a false) 4 0 C.root

/-- The physical base of a leaf's page. -/
def leafBase (w0 : Nat) : Nat := natBits w0 51 16 * 65536

/-- The leaves of a context that map a range of HBM. -/
def Context.leavesIn (C : Context) (s : State) (pa len : Nat) : List (Nat × Nat × Nat) :=
  (C.leaves s).filter fun x => !natBit x.2.1 14 && decide (leafBase x.2.1 < pa + len) && decide (pa < leafBase x.2.1 + 2 ^ x.2.2)

/-! ### DOME.TLBI (R323) -/

/-- The size in bits of a page-size code of DOME.TLBI; code 3 stands for every size. -/
def tlbiBits : Nat → Nat
  | 0 => 16
  | 1 => 21
  | _ => 30

/-- Whether a TLB entry matches an invalidation. -/
def TlbEntry.matches (e : TlbEntry) (v : Nat) : Bool :=
  e.asid == natBits v 15 0
    && (natBit v 62 || ((natBits v 61 60 == 3 || e.bits == tlbiBits (natBits v 61 60)) && e.covers e.asid (natBits v 55 16 * 65536)))

/-- Whether an L1 line lies in the affected pages. -/
def L1Line.matches (l : L1Line) (v : Nat) : Bool :=
  l.asid == natBits v 15 0
    && (natBit v 62 || l.vline * 128 / 2 ^ tlbiBits (natBits v 61 60) == natBits v 55 16 * 65536 / 2 ^ tlbiBits (natBits v 61 60))

/-- DOME_TLBI (R323): a write while GO reads 1 is discarded; GO starts the invalidation, whose entries and lines go at once; what was translated is
performed first. -/
def execDomeTlbi (v : Word) (s : State) : Answer :=
  if s.dome.tlbi.getLsbD 63 then .next s
  else
    let w := v &&& 0xF0FFFFFFFFFFFFFF#64
    let s := s.modDome fun d => { d with tlbi := w }
    if v.getLsbD 63 then
      let s := (s.settleApart fun _ => true).combine fun _ => true
      let s := s.writeBack (s.linesWhere fun l => l.matches v.toNat)
      let s := { s with
        quads := s.quads.map fun (q : Quad) => { q with tlb := q.tlb.filter fun e => !e.matches v.toNat }
        cores := s.cores.map fun (c : Core) => { c with l1 := c.l1.filter fun l => !l.matches v.toNat } }
      .next (s.post .tlbiComplete)
    else .next s

/-- Whether a reported page and what an invalidation covers have an address in common: with SIZE 3 that is the address alone. -/
def coveredPage (v : Nat) (key : Nat × Nat × Nat) : Bool :=
  let bits := max key.2.2 (if natBits v 61 60 = 3 then 16 else tlbiBits (natBits v 61 60))
  key.1 == natBits v 15 0 && (natBit v 62 || key.2.1 / 2 ^ bits == natBits v 55 16 * 65536 / 2 ^ bits)

/-- TLBI_COMPLETE (R323, R326, R337): GO returns to 0; every access that waits walks again, and a page may be reported anew; the monitors of parked
waits follow their words to where the pages lie now (R176; notes/assumptions/14). -/
def execTlbiComplete (s : State) : Answer :=
  if !s.dome.tlbi.getLsbD 63 then .next s
  else
    let v := s.dome.tlbi.toNat
    let asid := some (natBits v 15 0)
    let s := s.modDome fun d =>
      { d with tlbi := d.tlbi &&& 0x7FFFFFFFFFFFFFFF#64, reported := d.reported.filter fun k => !coveredPage v k }
    .next (((List.range s.teams.length).foldl (fun s t => if s.ofAsid asid t then s.rearmTeam t else s) s).retryWaits asid)

/-! ### The sweeper and L1 expiry (R322, R332) -/

/-- Both heat fields of a leaf lowered, where the firewall lets the sweeper reach it (R322, R420). -/
def sweepLeaf (s : State) (a : Nat) : State :=
  s.devWrite a (toBytes 8 (lowerHeat (lowerHeat (readLE s.mem a 8) 8) 10))

/-- SWEEPER_PASS (R322): every leaf of every context once; it waits until the host has given back every line of them that it holds (R336). -/
def execSweeperPass (s : State) : Answer :=
  if !s.dome.sweep.getLsbD 31 then .next s
  else
    let leaves := (s.contexts.flatMap fun C => (C.leaves s).map (·.1)).eraseDups
    let held := leaves.filterMap fun a => s.heldLine a 8
    if !held.isEmpty then .next (held.foldl (fun s l => s.askBack l) s)
    else
    let s' := leaves.foldl sweepLeaf s
    .next (s'.modDome fun d => { d with sweepAt := s.tick + natBits d.sweep.toNat 23 0 * 1000 })

/-- L1_CLEAN_EXPIRY (R332): a clean line of a shared or host page leaves the L1. -/
def execL1CleanExpiry (core asid line : Nat) (s : State) : Answer :=
  .next (s.modCore core fun c =>
    { c with l1 := c.l1.filter fun l => !(l.asid == asid && l.vline == line && !l.dirty && (l.share != 1 || l.host)) })

/-! ### The host (R333, R335, R336, R420) -/

/-- Whether the HBM answers the host (R415): from ready until internal reset. -/
def State.hostServed (s : State) : Bool := s.plat.phase == .ready || s.plat.phase == .live || (s.plat.phase == .draining && s.plat.served)

/-- Whether the 64 KiB block of an address meets a range: a firewall entry covers whole blocks (R420). -/
def within (pa : Nat) (r : Nat × Nat) : Bool := decide (r.1 < (pa / 65536 + 1) * 65536) && decide (pa / 65536 * 65536 < r.1 + r.2)

/-- The ranges of rings, save areas and page tables, each with its length (R420). -/
def State.regions (s : State) : List (Nat × Nat) :=
  (s.dome.ring.toList.flatMap fun r => [(r.1, 64 * r.2.1), (r.2.2, 64)]) ++ (s.dome.trace.toList.map fun r => (r.1, 32 * r.2))
    ++ (s.contexts.map fun C => (C.saveBase, C.saveNext)) ++ s.contexts.flatMap fun C => tablesFrom s.mem 4 0 C.root

/-- The fixed region of page tables, save areas and rings, which the host cannot reach (R420). -/
def State.guarded (s : State) (pa : Nat) : Bool := s.regions.any (within pa)

/-- Whether the host may make an access (R420). -/
def State.hostMay (s : State) (pa len : Nat) (write : Bool) : Bool :=
  (List.range (len / 65536 + 2)).all fun i =>
    let x := min (pa + 65536 * i) (pa + len - 1)
    s.firewall .host x write && !s.guarded x

/-- What the host's access to a page does to its leaf (R329, R330): the host owns none, so that a private page is recalled, and one that is untouched
becomes shared. -/
def State.hostRecall (pa len : Nat) (s : State) : State :=
  (s.contexts.flatMap fun C => C.leavesIn s pa len).foldl (fun s x =>
    let w1 := readLE s.mem (x.1 + 8) 8
    if w1 % 4 = 1 then (s.devWrite (x.1 + 8) (toBytes 8 (w1 + 1))).recall x.1 (leafBase x.2.1) x.2.2
    else if w1 % 4 = 0 then s.devWrite (x.1 + 8) (toBytes 8 (w1 + 2))
    else s) s

/-- The host takes a line (R333). -/
def State.hostTake (line : Nat) (s : State) : State :=
  s.modDome fun d => { d with dir := { line := line, hostHas := true, waiting := false } :: d.dir.filter fun x => x.line != line }

/-- HOST_ACCESS: one that comes by a port whose function is not enabled is answered as one before the device is ready (R414;
notes/assumptions/129) (R329, R333, R334, R336, R387, R389, R420): the L1 copies are invalidated and the partials combined first. The host
has no memory key: of a confidential context's pages it sees the ciphertext (R389). -/
def execHostAccess (r : HostReq) (s : State) : Answer :=
  let n := match r.write with
    | some b => b.length
    | none => r.len
  if !s.hostServed || (r.port == 1 && s.plat.port1Off) || !s.hostMay r.addr n r.write.isSome then .next (s.send (.hostReply r.addr r.write.isNone []))
  else
    let s := if r.take then s.settleApart fun _ => true else s
    let s := ((s.hostRecall r.addr n).combine (Partial.meets false r.addr n)).l2Access r.addr n 0 false r.write.isSome
    let part : Part := { va := 0, len := n, place := .hbm r.addr, perm := 7, kind := 0 }
    let s := s.dropLines [part]
    match r.write with
    | some b => .next ((s.writeMem false r.addr b).send (.hostReply r.addr false []))
    | none =>
      let b := cellsRead s.mem r.addr n
      let poisoned := (s.partPoison part).isSome
      let s := if r.take then s.hostTake (r.addr / 128) else s
      .next (s.send (.hostReply r.addr poisoned (if poisoned then [] else b)))

/-- HOST_SNOOP (R333 to R336): the partials of the line are combined first, so that the host reads every add that happens before (R274). A snoop of a line
of host memory is answered with what the device holds; one that invalidates removes the copies
in the L1s and the L2; a poisoned line is returned as poisoned (R387).
From internal reset the device holds none. -/
def execHostSnoop (line : Nat) (inval : Bool) (s : State) : Answer :=
  if !s.hostServed then .next (s.send (.hostReply (128 * line) false []))
  else
    let s := s.combine (Partial.meets true (128 * line) 128)
    let s := if inval then
        { s with
          cores := s.cores.map fun c => { c with l1 := c.l1.filter fun l => !(l.host && l.pline == 128 * line) }
          l2 := s.l2.filter fun x => !(x.host && x.line == line) }
      else s
    let poisoned := (s.poisonAt true (128 * line) 128).isSome
    .next (s.send (.hostReply (128 * line) poisoned (if poisoned then [] else cellsRead s.hostMem (128 * line) 128)))

/-- BACK_INVALIDATE_RESPONSE (R333, R336): the host gives the line back, with its bytes where it has modified them; the accesses that waited go on. -/
def execBackInvalidateResponse (line : Nat) (data : List Byte) (s : State) : Answer :=
  if (s.heldLine (128 * line) 128).isNone then .next s
  else
    let s := if data.isEmpty then s else s.writeMem false (128 * line) (data.take 128)
    .next ((s.modDome fun d => { d with dir := d.dir.filter fun x => x.line != line }).retryWaits none)

/-- CORE_POWER_GATING (R336): only of a core without teams, whose lines and directory records go first. -/
def execCorePowerGating (core : Nat) (s : State) : Answer :=
  if s.teams.any fun T => T.live && !T.away && T.core == core then .next s
  else
    let s := s.combine fun p => p.core == core
    .next ((s.writeBack (s.linesOf core fun _ => true)).modCore core fun c => { c with l1 := [], gated := true })

end Sys2Proof.Machine
end

