-- ==== Sys2Proof/Machine/CrossLane.lean ====
section
/-! DEFINITION. Cross-lane operations (R142–R147). -/

namespace Sys2Proof.Machine

/-- The entry pushed by a word with `.push` (R143). -/
def pushIf (x : LaneCtx) (w : LaneWord) (v : Nat) : M Unit := if w.md.toNat % 2 = 1 then pushEntry x v else pure ()
/-- Room for the entry of a word with `.push`. -/
def roomIf (x : LaneCtx) (w : LaneWord) : M Unit := if w.md.toNat % 2 = 1 then roomToPush x else pure ()

/-- The participants that hold a predicate. -/
def LaneCtx.holding (x : LaneCtx) (p : Nat) : List Nat := x.parts.filter fun i => (x.G.lane i).getP p

/-- POLL.thr (R144). -/
def execPollThr (w : LaneWord) (s : State) : Answer :=
  laneRun (.pollThr w) (fun x w => do
    roomIf x w
    let c := (x.holding w.va.toNat).length
    let n := w.bits 6 0
    let r := if n = 0 then c == x.parts.length else decide (n ≤ c)
    pushIf x w (if r then 1 else 0)
    computes (fun _ w l => l.setP w.vd.toNat r) x w) s

/-- POLL.mask (R144). -/
def execPollMask (w : LaneWord) (s : State) : Answer :=
  laneRun (.pollMask w) (fun x w => do
    roomIf x w
    let m := maskLanes (x.holding w.va.toNat)
    pushIf x w m
    writesV x w.vd.toNat fun _ _ => m) s

/-- POLL.rank (R144). -/
def execPollRank (w : LaneWord) (s : State) : Answer :=
  laneRun (.pollRank w) (fun x w => do
    roomIf x w
    let h := x.holding w.va.toNat
    pushIf x w h.length
    writesV x w.vd.toNat fun i _ => (h.filter (· < i)).length) s

/-- KEYG (R144): the lowest participant with the same key. -/
def LaneCtx.leader (x : LaneCtx) (w : LaneWord) (i : Nat) : Nat :=
  (x.parts.find? fun j => x.a w (x.G.lane j) == x.a w (x.G.lane i)).getD i

def execKeyg (w : LaneWord) (s : State) : Answer :=
  laneRun (.keyg w) (fun x w => do
    roomIf x w
    pushIf x w (x.parts.filter fun i => x.leader w i == i).length
    writesV x w.vd.toNat fun i _ => x.leader w i) s

/-- LEAD (R144). -/
def execLead (w : LaneWord) (s : State) : Answer :=
  laneRun (.lead w) (fun x w => do
    roomIf x w
    let first := x.parts.headD 0
    pushIf x w first
    upd fun s => s.modGroup x.c.team x.c.grp fun g => g.mapLanesI x.parts fun i l => l.setP w.vd.toNat (i == first)) s

/-- LPUSH (R144). -/
def execLpush (w : LaneWord) (s : State) : Answer :=
  laneRun (.lpush w) (fun x w => do
    roomToPush x
    pushEntry x (x.a w (x.G.lane (x.parts.headD 0)))) s

/-! ### XLN and BCST (R145) -/

/-- A register read from another lane: zero where that lane is vacant (R142). -/
def LaneCtx.across (x : LaneCtx) (w : LaneWord) (i : Nat) : Nat :=
  let l := x.G.lane i
  if l.occupied then x.a w l else 0

/-- The element of a lane that an XLN source number names, where it lies in the group. -/
def LaneCtx.sourceElem (x : LaneCtx) (w : LaneWord) (own : Nat) (src : Int) : Nat :=
  let n := w.ety.subn
  if src < 0 || src ≥ x.G.lanes.length * n then own
  else elemAt w.ety.w (src.toNat % n) (x.across w (src.toNat / n))

/-- The result of an XLN in a lane: element i takes the element whose number `f` gives. -/
def LaneCtx.gathered (x : LaneCtx) (w : LaneWord) (f : Nat → Int) (i : Nat) (l : Lane) : Nat :=
  let n := w.ety.subn
  packElems w.ety.w ((List.range n).map fun e => x.sourceElem w (elemAt w.ety.w e (x.a w l)) (f (i * n + e)))

/-- The lanes that an XLN reads from, for a participant. -/
def LaneCtx.sourceLanes (x : LaneCtx) (w : LaneWord) (f : Nat → Nat → Int) : List (Nat × Nat × (Bool × Nat)) :=
  let n := w.ety.subn
  if w.kA then []
  else
    x.parts.flatMap fun i =>
      ((List.range n).filterMap fun e =>
        let src := f i (i * n + e)
        if src < 0 || src ≥ x.G.lanes.length * n then none else some (src.toNat / n)).eraseDups.map fun j => (i, j, (false, w.va.toNat))

/-- An XLN whose source numbers are given per lane (R145). -/
def moves (f : LaneCtx → LaneWord → Nat → Nat → Int) (x : LaneCtx) (w : LaneWord) : M Unit := do
  checkRegs x.c.team x.c.grp (x.sourceLanes w (f x w))
  writesV x w.vd.toNat fun i l => x.gathered w (f x w i) i l

def execXlnGet (w : LaneWord) (s : State) : Answer :=
  laneRun (.xlnGet w) (moves fun x w i e =>
    let n := w.ety.subn
    let base := x.b w (x.G.lane i)
    Int.ofNat ((base + (e - i * n)) % (x.G.lanes.length * n))) s
def execXlnFlip (w : LaneWord) (s : State) : Answer :=
  laneRun (.xlnFlip w) (moves fun _ w _ e => Int.ofNat (e ^^^ w.bits 15 0)) s
def execXlnRot (w : LaneWord) (s : State) : Answer :=
  laneRun (.xlnRot w) (moves fun x w _ e => Int.ofNat ((e + w.bits 15 0) % (x.G.lanes.length * w.ety.subn))) s
def execXlnSlide (w : LaneWord) (s : State) : Answer :=
  laneRun (.xlnSlide w) (moves fun _ w _ e => (e : Int) + signed 16 (w.bits 15 0)) s

def execBcst (w : LaneWord) (s : State) : Answer :=
  laneRun (.bcst w) (fun x w => do
    let n := w.bits 5 0
    if !w.kA && (x.G.lane n).occupied then checkRegs x.c.team x.c.grp (x.parts.map fun i => (i, n, (false, w.va.toNat)))
    let v := x.across w n
    writesV x w.vd.toNat fun _ _ => v) s

/-! ### GRED and GSCAN (R146) -/

/-- The float sum, rounded once (R146). -/
def sumRounded (f : FFmt) (rm : Rm) (vs : List FVal) : Nat :=
  match sumExact vs with
  | .fin s m e => if m = 0 then f.zero (rm == .rdn || vs.all FVal.isNeg) else f.roundScaled rm s m e
  | v => f.roundVal rm v

/-- The identity of an operation on an element type (R146). -/
def redIdentity (op : RedOp) (t : ETy) : Nat :=
  match op with
  | .add => 0
  | .min => if t.kind == .flt then t.fmt.inf false else if t.isSigned then 2 ^ (t.w - 1) - 1 else 2 ^ t.w - 1
  | .max => if t.kind == .flt then t.fmt.inf true else if t.isSigned then 2 ^ (t.w - 1) else 0
  | .and => 2 ^ t.w - 1
  | .or => 0
  | .xor => 0

/-- Elements combined, in ascending lane number; a lone NaN is canonical (R146). -/
def combine (op : RedOp) (t : ETy) (rm : Rm) (vs : List Nat) : Nat :=
  match vs with
  | [] => redIdentity op t
  | v :: rest =>
    let canon (x : Nat) : Nat := if (t.fmt.decode x).isNan then t.fmt.nanBits else x
    match op with
    | .add => if t.kind == .flt then sumRounded t.fmt rm (vs.map t.fmt.decode) else wrapNat t.w ((vs.map t.int).foldl (· + ·) 0)
    | .min => if t.kind == .flt then canon (rest.foldl t.fmt.minNum v) else rest.foldl (eMin t) v
    | .max => if t.kind == .flt then canon (rest.foldl t.fmt.maxNum v) else rest.foldl (eMax t) v
    | .and => vs.foldl (fun a b => a &&& b) (2 ^ t.w - 1)
    | .or => vs.foldl (fun a b => a ||| b) 0
    | .xor => vs.foldl (fun a b => a ^^^ b) 0

/-- The combination of every element over some lanes. -/
def LaneCtx.combined (x : LaneCtx) (op : RedOp) (w : LaneWord) (lanes : List Nat) : Nat :=
  packElems w.ety.w ((List.range w.ety.subn).map fun e =>
    combine op w.ety (rmode w) (lanes.map fun i => elemAt w.ety.w e (x.a w (x.G.lane i))))

def execGred (op : RedOp) (w : LaneWord) (s : State) : Answer :=
  laneRun (.gred op w) (fun x w => do
    roomIf x w
    let v := x.combined op w x.parts
    pushIf x w v
    writesV x w.vd.toNat fun _ _ => v) s

def execGscan (op : RedOp) (excl : Bool) (w : LaneWord) (s : State) : Answer :=
  laneRun (.gscan op excl w) (fun x w =>
    writesV x w.vd.toNat fun i _ => x.combined op w (x.parts.filter fun j => decide (j < i) || (j == i && !excl))) s

/-! ### GSYNC (R147) -/

/-- GSYNC's three checks, in order; it then waits for its lanes' accesses that a page or another device still holds up. -/
def execGsync (w : LaneWord) (s : State) : Answer :=
  laneRun (.gsync w) (fun x w => do
    let occ := maskLanes x.G.occupied
    let p := maskLanes x.parts
    let tl : Word := BitVec.ofNat 64 p
    let ms := x.parts.map fun i => x.a w (x.G.lane i) &&& occ
    let m := ms.headD 0
    require (ms.all (· == m)) cSyncMask tl
    require (p &&& m == p) cSyncMask tl
    require (m &&& p == m) cIllegalConvergence tl 0 1
    if (← get).laneBusy x.c.team x.c.grp x.T.core x.parts then stallOn .fence) s

end Sys2Proof.Machine
end

