-- ==== Sys2Proof/Machine/Image.lean ====
section
/-! DEFINITION. The byte layouts that a save area and a dump share (R313, R314, R328, R383, R398). -/

namespace Sys2Proof.Machine

/-- Bytes of words, eight each. -/
def wordBytes (ws : List Word) : List Byte := ws.flatMap fun w => toBytes 8 w.toNat
/-- Zeros. -/
def zeros (n : Nat) : List Byte := List.replicate n 0
/-- A list of bytes brought to a length with zeros. -/
def fitTo (n : Nat) (b : List Byte) : List Byte := b.take n ++ zeros (n - b.length)
/-- A list of bytes padded to a multiple of 256. -/
def pad256 (b : List Byte) : List Byte := b ++ zeros ((256 - b.length % 256) % 256)

/-- The state byte of a group block (R314): a group that has retired is marked as killed. -/
def Group.stateCode (g : Group) : Nat :=
  if g.gone then 3 else if g.park.isSome then 1 else if g.stallS.isSome || g.stallL.isSome then 2 else 0

/-- The parked wait of a group block. -/
def Park.code (p : Park) : Nat := p.kind.toNat + (if p.isWaita then p.tcode * 2 ^ 8 + (if p.space then 2 ^ 11 else 0) else 0)

/-- The constants of a run. -/
def Run.kBytes (r : Run) : List Byte := wordBytes r.k.toList

/-- A group block (R314). -/
def Group.block (g : Group) : List Byte :=
  let latch := g.latch.getD { va := 0, ty := 0, ct := none, aregs := [], scales := [] }
  wordBytes g.regs.s.toList ++ toBytes 8 g.regs.pc.toNat ++ toBytes 8 g.restart.toNat ++ toBytes 2 (g.regs.q.toNat % 2 ^ 15 + 2 ^ 15)
    ++ (List.range 12).map (fun n => BitVec.ofNat 8 (g.flag n)) ++ zeros 2 ++ toBytes 8 g.ric.toNat ++ toBytes 4 g.batch.toNat
    ++ toBytes 1 g.runs.length ++ toBytes 1 g.lq.length ++ toBytes 1 g.stateCode
    ++ toBytes 1 (if g.latch.isSome then 1 + (match latch.ct with
        | some n => 2 * n + 32
        | none => 0) else 0)
    ++ toBytes 4 g.lanePc.toNat ++ toBytes 4 (latch.va + latch.ty * 2 ^ 8)
    ++ toBytes 8 ((g.park.map Park.code).getD 0) ++ toBytes 8 ((g.park.map fun p => p.addr.toNat).getD 0)
    ++ toBytes 8 ((g.park.map fun p => p.value.toNat).getD 0) ++ fitTo 64 ((g.run.map Run.kBytes).getD [])
    ++ fitTo 1152 (g.runs.flatMap fun r => toBytes 4 r.target.toNat ++ zeros 4 ++ r.kBytes) ++ fitTo 512 (wordBytes g.lq)
    ++ toBytes 4 ((g.clause.map (·.header)).getD (2 ^ 32 - 1)) ++ zeros 236

/-- A lane block (R314): the lane's latched registers come from its group's latch. -/
def Group.laneBlock (g : Group) (i : Nat) (l : Lane) : List Byte :=
  toBytes 8 l.item.toNat ++ toBytes 8 l.rngk.toNat ++ toBytes 8 l.rngc.toNat ++ toBytes 12 l.p.toNat ++ toBytes 1 l.nest.toNat ++ zeros 11
    ++ fitTo 64 (wordBytes ((g.latch.bind fun x => x.aregs[i]?).getD []))
    ++ toBytes 8 (((g.latch.bind fun x => x.scales[i]?).map BitVec.toNat).getD 0) ++ zeros 8 ++ wordBytes l.v

def Team.groupBlocks (T : Team) : List Byte := T.groups.flatMap Group.block
def Team.laneBlocks (T : Team) : List Byte := T.groups.flatMap fun g => (indexed 0 g.lanes).flatMap fun il => g.laneBlock il.1 il.2
/-- The accumulators of every lane, raw. -/
def Team.accBytes (T : Team) : List Byte := T.groups.flatMap fun g => g.lanes.flatMap fun l => l.a.flatMap Acc.bytes
/-- The tiles of every group: group, tile, row, column. -/
def Team.tileBytes (T : Team) : List Byte := T.groups.flatMap fun g => g.tiles.flatMap fun t => t.flatMap Acc.bytes
/-- The scratchpad allocation. -/
def Team.padBytes (T : Team) : List Byte := cellsRead T.scratch 0 T.size

/-- A barrier slot. -/
def Barrier.bytes (b : Barrier) : List Byte :=
  toBytes 4 b.expected.toNat ++ toBytes 4 b.arrivals ++ toBytes 4 b.phase.toNat ++ toBytes 1 (if b.init then 1 else 0) ++ zeros 3
/-- b0 to b15, then cb0 to cb3. -/
def barrierBytes (T : Team) (L : Launch) : List Byte :=
  fitTo 320 ((T.bars.take 16 ++ (L.clusters.getD T.cluster []).take 4).flatMap Barrier.bytes)

/-- A range-lock entry. -/
def Lock.bytes (l : Lock) : List Byte :=
  toBytes 8 l.start ++ toBytes 8 l.len ++ toBytes 1 l.space ++ toBytes 1 (if l.space ≥ 2 then l.core else 0) ++ toBytes 1 (if l.write then 1 else 0)
    ++ toBytes 1 l.grp ++ zeros 4 ++ toBytes 8 l.cmd
def Team.lockBytes (T : Team) : List Byte := fitTo 1024 (T.locks.flatMap Lock.bytes)

/-- An operand-log entry (R328). -/
def LogEntry.image (e : LogEntry) : List Byte :=
  toBytes 8 e.va ++ toBytes 4 e.lpc.toNat ++ toBytes 1 e.grp ++ toBytes 1 e.lane ++ toBytes 1 e.flag ++ toBytes 1 e.kind ++ toBytes 1 e.size
    ++ toBytes 1 e.reg ++ toBytes 1 e.off ++ toBytes 1 e.sub ++ toBytes 1 e.scope ++ zeros 3 ++ toBytes 8 e.op.toNat ++ fitTo 32 e.data
/-- A team's entries in its core's operand log: a dump's section 8 (R383, R425). -/
def State.logBytes (s : State) (t : Nat) (T : Team) : List Byte :=
  (((s.cores[T.core]?).map (·.oplog)).getD []).flatMap fun e => if e.team = t then e.image else []

/-- A trap record (R383, section 9). -/
def State.trapBytes (s : State) (t : Nat) (x : Trap) : List Byte :=
  toBytes 1 x.cause.toNat ++ toBytes 1 x.grp ++ zeros 2 ++ toBytes 4 x.tlpc.toNat
    ++ toBytes 8 (((s.group? t x.grp).map fun g => g.regs.pc.toNat).getD 0) ++ toBytes 8 x.tlane.toNat ++ toBytes 8 x.taddr.toNat
    ++ toBytes 8 x.tinfo.toNat ++ zeros 24

/-- The live reservations in o order, with their contents. -/
def Team.resvBytes (T : Team) : List Byte :=
  (indexed 0 T.resv).flatMap fun ir =>
    match ir.2 with
    | some r => r.record ++ toBytes 1 ir.1 ++ zeros 31 ++ (List.range (fld r.record 0 4)).map r.byte
    | none => []

/-- The companding tables of a core that a context has loaded (R194). -/
def Core.tablesOf (c : Core) (ctx : Nat) : List (Option CTable) :=
  (indexed 0 c.tables).map fun nt => if (c.loaders.getD nt.1 []).contains ctx then nt.2 else none
/-- Their knots. -/
def Core.tableBytes (c : Core) (ctx : Nat) : List Byte :=
  fitTo 1024 ((c.tablesOf ctx).flatMap fun t => fitTo 128 ((t.map fun x => x.knots.flatMap fun k => toBytes 4 k.toNat).getD []))

/-- A carried or reissued command (section 11). -/
def Cmd.image (c : Cmd) : List Byte :=
  toBytes 2 c.kind.opcode ++ toBytes 1 c.grp ++ toBytes 1 (c.flag.getD 63) ++ toBytes 4 (if c.kind.isSpire then c.lpc.toNat else 2 ^ 32 - 1)
    ++ toBytes 8 c.srec ++ zeros 48 ++ fitTo 64 c.desc

/-- Sections placed at multiples of 256 from an offset: their offsets and sizes. -/
def sectionTable : Nat → List (List Byte) → List (Nat × Nat)
  | _, [] => []
  | off, b :: bs => (off, b.length) :: sectionTable (off + (pad256 b).length) bs

/-- A section table in bytes. -/
def tableImage (t : List (Nat × Nat)) : List Byte := t.flatMap fun x => toBytes 8 x.1 ++ toBytes 8 x.2

/-- The end of the last section. -/
def sectionsEnd (t : List (Nat × Nat)) : Nat := match t.getLast? with
  | some x => x.1 + x.2
  | none => 256

end Sys2Proof.Machine
end

