-- ==== Sys2Proof/Machine/Handler.lean ====
section
/-! DEFINITION. The trap handler's entry and watchdog, HANG, the release of an ordered operation, and DUMP (R99, R305, R376–R384, R390, R395). -/

namespace Sys2Proof.Machine

/-! ### Entry and watchdogs (R305, R380, R384) -/

/-- The watchdog of a class, in ticks (R301). -/
def State.watchdog (s : State) (cls : Nat) : Nat := natBits (((s.dome.classcfg[cls]?).map BitVec.toNat).getD 0) 47 32 * 1000000

/-- Whether every group of a stopping team is stopped and settled (R375). -/
def State.allSettled (s : State) (t : Nat) (T : Team) : Bool :=
  (indexed 0 T.groups).all fun gG => gG.2.gone || s.settled t gG.1 gG.2 T.core

/-- HANDLER_ENTRY (R376, R380): the handler starts for the earliest trap; where no live group holds one any more, the groups go on. A team without a
handler that held its trap over a pre-emption ends as R378 states (R306). -/
def execHandlerEntry (t : Nat) (s : State) : Answer :=
  match s.team? t with
  | some T =>
    if T.live && T.state == .stopping && !T.stop && !T.away && s.allSettled t T then
      match firstHeld T.groups with
      | some g =>
        match s.contextOf? t, (s.group? t g).bind fun G => G.held.head? with
        | some C, some x =>
          .next (if C.handler.isNone then (s.report (s.trapRec t x 1 x.cause.toNat 0)).killTeam t else (s.settleWrites t).enterHandler t g)
        | _, _ => .next s
      | none => .next ((s.modTeam t fun T => { T with state := .running }).rouse t)
    else .next s
  | none => .next s

/-- The stalls whose time the watchdog counts (R305): a WFLG waits on flags while it waits for its runs, an SDONE that waits for runs does not. -/
def Stall.hangs : Stall → Bool
  | .flag => true
  | .runs => true
  | .queueFull => true
  | .pop => true
  | .lock => true
  | .claim => true
  | .lastFlags => true
  | _ => false

/-- HANG (R305): the stalled lane word raises it, else the stalled scalar word. -/
def execHang (t g : Nat) (s : State) : Answer :=
  match s.team? t, s.group? t g, s.launchOf? t with
  | some T, some G, some L =>
    if !T.live || T.away || T.state != .running || G.gone || G.park.isSome || decide (s.tick - G.ricSeen ≤ s.watchdog L.cls) then .next s
    else if G.stallL.any Stall.hangs then .next ({ s with cur := some ⟨t, g, .lane⟩ }.takeTrap { cause := cHang })
    else if G.stallS.any Stall.hangs then .next ({ s with cur := some ⟨t, g, .scalar⟩ }.takeTrap { cause := cHang, tinfo := 2 })
    else .next s
  | _, _, _ => .next s

/-- ORDERED_OP_RELEASE (R395): a stream that waits at its ordered operation waits no more once the group's stamp is least, and the issue choice may take it
(R297, R299). -/
def execOrderedOpRelease (t g : Nat) (s : State) : Answer :=
  match s.team? t, s.group? t g, s.launchOf? t with
  | some T, some G, some L =>
    if !s.isLeast T.launch L t g G.ric.toNat then .next s
    else if G.stallL = some .ordered then .next (s.modGroup t g fun G => { G with stallL := none })
    else if G.stallS = some .ordered then .next (s.modGroup t g fun G => { G with stallS := none })
    else .next s
  | _, _, _ => .next s

/-! ### DUMP (R99, R381–R384, R390) -/

/-- Whether a team's work in flight is done: its commands but for collectives, its MMAs, its stores (R381). -/
def State.drained (s : State) (t : Nat) (T : Team) : Bool :=
  (T.cmds.all fun c => c.faulted || c.kind == .plcl) && (T.groups.all fun g => g.mmas.isEmpty && g.stores.all fun x => x.waiting == x.nacks.length)
    && s.remotes.all fun r => r.team != t || r.cmd.isSome

/-- The nine sections of a dump (R383). -/
def State.dumpSections (s : State) (t : Nat) (T : Team) (L : Launch) : List (List Byte) :=
  let held := T.groups.flatMap fun g => if g.killed then [] else g.held
  [T.groupBlocks, T.laneBlocks, T.accBytes, T.tileBytes, T.padBytes, barrierBytes T L, T.lockBytes, s.logBytes t T
   , ((T.handler.trap.toList ++ held).flatMap (s.trapBytes t))]

/-- The dump's header (R382): `flags` is its byte 6, `n` the sections completed. -/
def dumpHeader (T : Team) (L : Launch) (start flags n : Nat) (table : List (Nat × Nat)) : List Byte :=
  let x := T.handler.trap.getD ⟨0, 0, false, 0, 0, 0, 0, 0, false, none, none⟩
  [0x42, 0x4E, 0x44, 0x50] ++ toBytes 2 1 ++ toBytes 1 flags ++ toBytes 1 n ++ toBytes 4 L.ctx ++ toBytes 4 T.ordinal ++ toBytes 8 start
    ++ toBytes 8 L.record ++ toBytes 1 x.cause.toNat ++ toBytes 1 x.grp ++ toBytes 1 L.width ++ toBytes 1 T.groups.length ++ toBytes 2 L.vregs
    ++ toBytes 1 L.aregs ++ toBytes 1 L.tiles ++ toBytes 4 T.size ++ zeros 4 ++ toBytes 8 (sectionsEnd table) ++ fitTo 144 (tableImage table)
    ++ zeros 56

/-- The sections with their places in the table: each but the last with the zeros up to the next one's place (R383, R425). -/
def placedSections (secs : List (List Byte)) (table : List (Nat × Nat)) : List (Nat × List Byte) :=
  let stops := (table.drop 1).map (·.1) ++ [sectionsEnd table]
  ((secs.zip table).zip stops).map fun x => (x.1.2.1, fitTo (x.2 - x.1.2.1) x.1.1)

/-- How many sections fit within a size, each with its padding, and where the last ends (R381, R425). -/
def fitSections (limit : Nat) : List (Nat × List Byte) → Nat × Nat → Nat × Nat
  | [], r => r
  | x :: xs, r => if x.1 + x.2.length ≤ limit then fitSections limit xs (r.1 + 1, x.1 + x.2.length) else r

/-- Writes of a dump in their order, up to the first that fails: how many were made, and what stopped the rest. -/
def dumpWrites (a : Agent) (t : Nat) : List (Int × List Byte) → Nat → State → Nat × Found Unit × State
  | [], n, s => (n, .ok (), s)
  | (va, b) :: rest, n, s =>
    if b.isEmpty then dumpWrites a t rest (n + 1) s
    else
      match s.writeLoc a t (.global va) b 0 with
      | (.ok s', _) => dumpWrites a t rest (n + 1) s'
      | (.wait, s) => (n, .wait, s)
      | (.peer _ _, s) => (n, .fault cAccessFault (BitVec.ofInt 64 va) 0, s)
      | (.fault c x d, s) => (n, .fault c x d, s)

/-- The envelope of a confidential context's dump (R390): the ephemeral key and the nonce are free values. -/
def State.seal (s : State) (C : Context) (start cause flags : Nat) (plain : List Byte) : List Byte × State :=
  let d := Config.freeNat s.free % (ecQ - 1) + 1
  let nonce := toBytes 12 (Config.freeNat (s.free + 1))
  let secret := match ecMul d (ecDecode C.tenant) with
    | some (x, _) => toBE 48 x
    | none => zeros 48
  let key := hkdf384 secret ([0x42, 0x4E, 0x53, 0x44] ++ toBytes 4 C.id)
  let head := [0x42, 0x4E, 0x53, 0x44] ++ toBytes 4 C.id ++ toBytes 8 start ++ toBytes 1 cause ++ toBytes 1 flags ++ zeros 6
    ++ toBytes 8 plain.length ++ ecEncode (ecMul d ecG) ++ zeros 3 ++ nonce
  let r := gcmSeal key nonce head plain
  (head ++ r.1 ++ r.2, { s with free := s.free + 2 })

/-- A team's dump in plain bytes (R382, R383): its header for flags and a count of sections, and its placed sections. -/
def State.dumpPlan (s : State) (t : Nat) (T : Team) (L : Launch) : (Nat → Nat → List Byte) × List (Nat × List Byte) :=
  let secs := s.dumpSections t T L
  let table := sectionTable 256 secs
  (fun flags n => dumpHeader T L T.entry flags n table, placedSections secs table)

/-- The envelope over the first `n` sections of a dump (R390). -/
def State.envelope (s : State) (t : Nat) (T : Team) (L : Launch) (C : Context) (flags n : Nat) : List Byte × State :=
  let (header, secs) := s.dumpPlan t T L
  s.seal C T.entry ((T.handler.trap.map fun x => x.cause.toNat).getD 0) flags (header flags n ++ (secs.take n).flatMap (·.2))

/-- A dump whose `made` writes are all that it makes ends where it stands (R384): byte 6 of its header has bit 1 set, and byte 7 counts the sections
completed; a confidential context's is sealed over those sections (R390, R428). Without the header there is no partial dump. -/
def State.cutDump (t buf made : Nat) (s : State) : State :=
  match s.team? t, s.launchOf? t, s.contextOf? t, s.agentOf? t with
  | some T, some L, some C, some a =>
    if made = 0 then s
    else if C.conf then
      let (b, s) := s.envelope t T L C 2 (made - 1)
      (dumpWrites a.engine t [((buf : Int), b)] 0 s).2.2
    else (dumpWrites a.engine t [((buf : Int) + 6, [2, BitVec.ofNat 8 (made / 2)])] 0 s).2.2
  | _, _, _, _ => s

/-- HANDLER_WDOG_EXPIRY (R384): a handler that has run longer than its class's interval is a double fault with second cause HANG; a dump in progress
ends where it stands. -/
def execHandlerWdogExpiry (t : Nat) (s : State) : Answer :=
  match s.team? t, s.launchOf? t with
  | some T, some L =>
    if T.live && (T.state == .handling || T.state == .dumping) && decide (s.tick - T.handler.since > s.watchdog L.cls) then
      let (buf, made) := (if T.state == .dumping then T.handler.dump else none).getD (0, 0)
      .next ((s.cutDump t buf made).doubleFault t cHang (if made = 0 then 0 else 2))
    else .next s
  | _, _ => .next s

/-- The dump written (R381): its header, then each section that fits with its padding, the header's count after each; the number of bytes written. A
confidential context's is the envelope, written section by section (R390). A page that is not resident is waited for; a fault of its own writes is a
double fault. -/
def dumpInto (buf limit : Nat) : M Nat := do
  let (c, T, _) ← here
  let L ← hereLaunch
  let C ← hereContext
  let a := (← hereAgent).engine
  let s ← get
  let (header, secs) := s.dumpPlan c.team T L
  let wrap := if C.conf then 160 else 0
  if limit < wrap + 256 then return 0
  let (n, stop) := fitSections (limit - wrap) secs (0, 256)
  let flags := if n = 9 then 1 else 0
  let (steps, s) : List (Int × List Byte) × State :=
    if C.conf then
      let (b, s) := s.envelope c.team T L C flags n
      let part (lo len : Nat) : Int × List Byte := ((buf + lo : Nat), (b.drop lo).take len)
      (part 0 400 :: ((secs.take n).map fun x => part (144 + x.1) x.2.length) ++ [part (144 + stop) 16], s)
    else
      ((((buf : Int), header 0 0) ::
          (indexed 1 (secs.take n)).flatMap fun ix => [((buf + ix.2.1 : Nat), ix.2.2), ((buf + 7 : Nat), [BitVec.ofNat 8 ix.1])])
        ++ [((buf : Int) + 6, [BitVec.ofNat 8 flags])], s)
  match dumpWrites a c.team steps 0 s with
  | (_, .ok _, s) => set s; return stop + wrap
  | (m, .fault cause _ _, s) => set ((s.cutDump c.team buf m).doubleFault c.team cause (if m = 0 then 0 else 2)); return 0
  | (m, _, s) =>
    set (s.modTeam c.team fun T => { T with handler := { T.handler with dump := some (buf, m) } })
    stallOn .page

/-- DUMP (R99, R381): it waits until the team's work has drained. -/
def execDump (sd sa sb : SReg) (s : State) : Answer :=
  M.answer (do
    onlyInHandler
    let r ← hereScalar
    let (c, T, _) ← here
    let buf := (r.getS sa).toNat
    let limit := (r.getS sb).toNat
    require (buf % 256 == 0) cAddrFault 0 (r.getS sa)
    if limit < 256 then doneScalar 4 (r.setS sd 0)
    else
      if T.state != .dumping then
        upd fun s => s.modTeam c.team fun T => { T with state := .dumping, entry := s.tick }
      if !(← get).drained c.team T then stallOn .handler
      let n ← dumpInto buf limit
      if ((← get).team? c.team).any (fun T => T.state == .dumping) then
        upd fun s => s.modTeam c.team fun T => { T with state := .handling }
        doneScalar 4 (r.setS sd (BitVec.ofNat 64 n))) s

end Sys2Proof.Machine
end

