-- ==== Sys2Proof/Machine/Launch.lean ====
section
/-! DEFINITION. Launches: the launch record and its checks, buffer handles, acceptance, placement of teams, and the end of a launch (R43, R91, R227–R236,
R242, R293–R296, R303, R396). -/

namespace Sys2Proof.Machine

/-! ### The launch record (R227, R228) -/

/-- Whether bytes are zero. -/
def allZero (b : List Byte) : Bool := b.all (· == 0)

/-- The fields' own conditions (R65, R227, R228). -/
def recordRanges (d : List Byte) : Bool :=
  let V := fld d 40 2
  let W := fld d 42 1
  let n := fld d 43 1
  let A := fld d 44 1
  let items := (List.range (fld d 52 1)).map fun i => fld d (56 + i) 1
  allZero ((d.drop 53).take 3) && allZero ((d.drop 106).take 2) && allZero ((d.drop 120).take 8) && allZero (d.drop 162) && natBits (fld d 45 1) 6 3 == 0
    && [8, 16, 32, 64].contains W && decide (1 ≤ n ∧ n ≤ 32 ∧ W * n ≤ 1024) && decide (32 ≤ V ∧ V ≤ 256) && V % 16 == 0
    && decide (A ≤ 16) && decide (fld d 45 1 % 8 ≤ 6) && decide (fld d 36 4 ≤ 4194304) && fld d 36 4 % 256 == 0
    && decide (1 ≤ fld d 46 1 ∧ fld d 46 1 ≤ 8 ∧ 1 ≤ fld d 47 1 ∧ fld d 47 1 ≤ 6 ∧ fld d 46 1 * fld d 47 1 ≤ 12)
    && decide (fld d 48 1 ≤ 1) && decide (fld d 49 1 ≤ 1) && decide (fld d 50 1 ≤ 3) && decide (fld d 51 1 ≤ 2) && decide (fld d 52 1 ≤ 8)
    && allZero ((d.drop (56 + fld d 52 1)).take (8 - fld d 52 1)) && items.all (fun r => decide (r < V)) && decide items.Nodup
    && decide (fld d 128 32 < 2 ^ V) && decide (fld d 160 2 < 2 ^ A)
    && fld d 24 4 % 4 == 0 && decide (fld d 24 4 < fld d 16 4)
    && (fld d 28 4 == 0xFFFFFFFF || (fld d 28 4 % 4 == 0 && decide (fld d 28 4 < fld d 16 4)))
    && fld d 0 8 % 4 == 0 && fld d 8 8 % 64 == 0 && fld d 64 8 % 8 == 0 && fld d 112 8 % 64 == 0
    && !(fld d 72 8 == 0 && fld d 108 4 == 0) && decide (fld d 104 2 ≤ 64) && !(fld d 51 1 == 2 && fld d 108 4 == 0)

/-- The refill address of a record that names one inside the lane section: the global address of its clause header. -/
def refillAt (d : List Byte) : Option Nat :=
  let r := fld d 32 4
  if r = 0xFFFFFFFF || r ≥ fld d 20 4 then none else some (fld d 8 8 + 12 * r)

/-- The bytes of the clause at a record's refill address, if the word `b` there is a legal header and the clause lies in the lane section (R52). -/
def refillLen (d b : List Byte) : Option Nat :=
  (decodeHeader (BitVec.ofNat 96 (ofBytes (b.take 12)))).bind fun h => if fld d 32 4 + h.len < fld d 20 4 then some (12 * (h.len + 1)) else none

/-- Whether a record's refill address, where the bytes `b` stand, holds a legal clause header (R52, R228), of a clause that holds an RFIL word (R65). -/
def refillOk (d b : List Byte) : Bool :=
  fld d 32 4 == 0xFFFFFFFF || ((refillAt d).isSome && (refillLen d b).isSome && (List.range (b.length / 12)).any fun i =>
    i != 0 && match decodeLane (BitVec.ofNat 96 (fld b (12 * i) 12)) with
      | .ok (.rfil _) => true
      | _ => false)

/-- The entries of a buffer-handle list (R294): handle and mode; none where the list is invalid. -/
def handleList (b : List Byte) : Option (List (Nat × Nat)) :=
  let es := (List.range (b.length / 16)).map fun i => (fld b (16 * i) 4, fld b (16 * i + 4) 1, allZero ((b.drop (16 * i + 5)).take 11))
  if es.all (fun e => decide (e.1 ≤ 4095 ∧ 1 ≤ e.2.1 ∧ e.2.1 ≤ 3) && e.2.2) && decide (es.map (·.1)).Nodup then
    some (es.map fun e => (e.1, e.2.1))
  else none

/-- A launch as its record describes it. -/
def launchOf (ctx va : Nat) (d : List Byte) (tick : Nat) : Launch :=
  { ctx := ctx, record := va, sbase := fld d 0 8, lbase := fld d 8 8, ssize := fld d 16 4, lsize := fld d 20 4, entry := fld d 24 4
    restart := fld d 28 4, refill := fld d 32 4, spad := fld d 36 4, vregs := fld d 40 2, width := fld d 42 1, grps := fld d 43 1
    aregs := fld d 44 1, tiles := fld d 45 1 % 8, tsaved := natBit (fld d 45 1) 7, cw := fld d 46 1, ch := fld d 47 1, fuse := fld d 48 1 == 1
    grpMode := fld d 49 1 == 1, cls := fld d 50 1, detm := fld d 51 1, items := (List.range (fld d 52 1)).map fun i => fld d (56 + i) 1
    queue := fld d 64 8, nitems := fld d 72 8, seed := BitVec.ofNat 64 (fld d 80 8), arg := BitVec.ofNat 64 (fld d 88 8), maxTeams := fld d 108 4
    completion := fld d 112 8, vmask := fld d 128 32, amask := fld d 160 2, claim := 0, placed := 0, finished := 0, unfinished := 0
    lowest := -1#64, accepted := tick, firstIssue := 0, deps := [], ended := false, killed := false, halted := false, barren := false, clusters := []
    replay := none }

/-! ### Room on a core (R43, R232, R233, R236, R237) -/

/-- Register-file bytes of a datapath. -/
def rfBytes : Nat := 262144

/-- What is bound to a core: of each group its datapath, slot, quarters, register bytes and accumulators; the scratchpad bytes of its teams, how
many they are, and whether one of them is of a fused cluster. -/
structure Room where
  groups : List (Nat × Nat × Nat × Nat × Nat)
  pad    : Nat
  teams  : Nat
  fused  : Bool
deriving DecidableEq, Repr

/-- An empty core. -/
def Room.empty : Room := ⟨[], 0, 0, false⟩

/-- What a core holds. -/
def State.room (s : State) (core : Nat) : Room :=
  let ts := s.teams.filter fun T => T.live && !T.away && T.core == core
  { groups := ts.flatMap fun T =>
      match s.launches[T.launch]? with
      | some L => (T.groups.filter fun g => !g.gone).map fun g =>
          (g.dp, g.slot, g.quarter, L.width * L.vregs * 8, L.width * (L.aregs + 32 * L.tiles))
      | none => []
    pad := (ts.map (·.size)).foldl (· + ·) 0
    teams := ts.length
    fused := ts.any fun T => (s.launches[T.launch]?).any (·.fuse) }

/-- The free register-file bytes of a datapath. -/
def Room.free (r : Room) (dp : Nat) : Nat := rfBytes - ((r.groups.filter fun g => g.1 == dp).map fun g => g.2.2.2.1).foldl (· + ·) 0
/-- The lowest free slot of a datapath. -/
def Room.slot? (r : Room) (dp : Nat) : Option Nat := (List.range 8).find? fun k => !r.groups.any fun g => g.1 == dp && g.2.1 == k
/-- The narrow groups of a datapath that hold one of the quarters. -/
def Room.narrow (r : Room) (dp q : Nat) : Nat := (r.groups.filter fun g => g.1 == dp && g.2.2.1 != 15 && g.2.2.1 &&& q != 0).length

/-- The choice that holds the fewest narrow groups, the first among equals. -/
def fewest (r : Room) (dp : Nat) : List Nat → Nat
  | [] => 15
  | q :: qs => qs.foldl (fun b x => if r.narrow dp x < r.narrow dp b then x else b) q

/-- The quarters of a group (R233): a mask of four bits. -/
def Room.quarters (r : Room) (dp width : Nat) : Nat :=
  if width = 8 then fewest r dp [1, 2, 4, 8] else if width = 16 then fewest r dp [3, 12] else 15

/-- The datapath with the most free bytes among those with a slot and room, the lowest among equals (R233). -/
def Room.datapath? (r : Room) (bytes : Nat) : Option Nat :=
  ((List.range 4).filter fun d => (r.slot? d).isSome && decide (bytes ≤ r.free d)).foldl (fun (b : Option Nat) d =>
    match b with
    | none => some d
    | some x => if r.free x < r.free d then some d else some x) none

/-- Groups bound one by one: where each goes; none where one of them does not fit. -/
def bindGroups (L : Launch) : Nat → Room → Option (List (Nat × Nat × Nat) × Room)
  | 0, r => some ([], r)
  | n + 1, r =>
    let bytes := L.width * L.vregs * 8
    match r.datapath? bytes with
    | none => none
    | some d =>
      let k := (r.slot? d).getD 0
      let q := r.quarters d L.width
      let r := { r with groups := r.groups ++ [(d, k, q, bytes, L.width * (L.aregs + 32 * L.tiles))] }
      (bindGroups L n r).map fun x => ((d, k, q) :: x.1, x.2)

/-- A team's groups placed on a core (R232). A team that comes back without its tiles asks no room for them, though R43 counts
them (R315; notes/assumptions/135, DESIGN CHOICE). -/
def Room.place (r : Room) (L : Launch) (bare : Bool := false) : Option (List (Nat × Nat × Nat) × Room) :=
  if r.teams ≥ 8 || decide (r.pad + L.spad > 4194304) || r.fused || (L.fuse && r.teams != 0) then none
  else
    match bindGroups L L.grps r with
    | none => none
    | some (bs, r) =>
      if (r.groups.map fun g => g.2.2.2.2).foldl (· + ·) 0 > 6144 + (if bare then L.grps * (L.width * (32 * L.tiles)) else 0) then none
      else some (bs, { r with pad := r.pad + L.spad, teams := r.teams + 1, fused := r.fused || L.fuse })

/-- The cores of a rectangle of one tower, counting rows and then columns; none where it does not fit in the mesh (R2, R236). -/
def rectangle (origin w h : Nat) : Option (List Nat) :=
  let row := origin % 48 / 8
  let col := origin % 8
  if row + h ≤ 6 ∧ col + w ≤ 8 then some ((List.range h).flatMap fun i => (List.range w).map fun j => origin + 8 * i + j) else none

/-- What each core holds, by its number. -/
abbrev Rooms := List (Nat × Room)
def Rooms.get (rs : Rooms) (core : Nat) : Room := ((rs.find? fun x => x.1 == core).map (·.2)).getD Room.empty
def Rooms.set (rs : Rooms) (core : Nat) (r : Room) : Rooms := (core, r) :: rs.filter fun x => x.1 != core

/-- A cluster's teams put on the cores of a rectangle. -/
def placeOn (L : Launch) : List Nat → Rooms → Option (List (Nat × List (Nat × Nat × Nat)) × Rooms)
  | [], rs => some ([], rs)
  | c :: cs, rs =>
    match (rs.get c).place L with
    | none => none
    | some (bs, r) => (placeOn L cs (rs.set c r)).map fun x => ((c, bs) :: x.1, x.2)

/-- The default choice (R233): the rectangle whose cores hold the fewest teams, the lowest origin among equals. -/
def choosePlace (L : Launch) (cores : List Nat) (rs : Rooms) : Option (List (Nat × List (Nat × Nat × Nat)) × Rooms) :=
  let cands := (List.range 192).filterMap fun o =>
    match rectangle o L.cw L.ch with
    | some cs => if cs.all cores.contains then (placeOn L cs rs).map fun p => ((cs.map fun c => (rs.get c).teams).foldl (· + ·) 0, p) else none
    | none => none
  (cands.foldl (fun (b : Option (Nat × (List (Nat × List (Nat × Nat × Nat)) × Rooms))) x =>
    match b with
    | none => some x
    | some y => if x.1 < y.1 then some x else some y) none).map (·.2)

/-- Several clusters placed one after another. -/
def chooseAll (L : Launch) (cores : List Nat) : Nat → Rooms → Option (List (List (Nat × List (Nat × Nat × Nat))))
  | 0, _ => some []
  | n + 1, rs =>
    match choosePlace L cores rs with
    | none => none
    | some (p, rs) => (chooseAll L cores n rs).map (p :: ·)

/-- Several clusters put on rectangles of ascending origin, by search (R396): `fuel` bounds its depth. -/
def searchAll (L : Launch) (cores : List Nat) : Nat → List Nat → Nat → Rooms → Option (List (List (Nat × List (Nat × Nat × Nat))))
  | _, _, 0, _ => some []
  | 0, _, _, _ => none
  | _, [], _, _ => none
  | fuel + 1, o :: os, n + 1, rs =>
    let here := (rectangle o L.cw L.ch).bind fun cs => if cs.all cores.contains then placeOn L cs rs else none
    (here.bind fun p => (searchAll L cores fuel (o :: os) n p.2).map (p.1 :: ·)).orElse fun _ => searchAll L cores fuel os (n + 1) rs

/-- Where several clusters go together (R233, R396): each by the default choice in turn, and where that leaves one of them without room, wherever all
of them fit. -/
def placeMany (L : Launch) (cores : List Nat) (n : Nat) (rs : Rooms) : Option (List (List (Nat × List (Nat × Nat × Nat)))) :=
  (chooseAll L cores n rs).orElse fun _ => if n ≤ 1 then none else searchAll L cores (n + 193) (List.range 192) n rs

/-- The clusters that a launch places at one moment: all of them under mode 2, else one (R234, R396). -/
def Launch.batch (L : Launch) : Nat := if L.detm = 2 then (L.maxTeams + L.cw * L.ch - 1) / (L.cw * L.ch) else 1

/-- Whether a launch could be placed on its partition emptied of every team (R228, R396). -/
def placeableEmpty (L : Launch) (C : Context) : Bool :=
  (placeMany L C.cores L.batch []).isSome && !(L.detm == 2 && L.maxTeams % (L.cw * L.ch) != 0)

/-! ### Acceptance (R91, R228, R229, R293, R295) -/

/-- Whether the operations firmware is running and no update is in progress (R415, R418). -/
def State.ready (s : State) : Bool := s.plat.phase == .ready

/-- What the command processor finds in a launch record: a code of R91, or the launch with its handle list, or that it waits for a page that is not
resident, of the record itself or of what it names. -/
inductive Taken where
  | refused (code : Nat)
  | wait
  | ok (L : Launch) (hs : List (Nat × Nat))
deriving DecidableEq, Repr

/-- A read of the command processor, with all that its walk does (R321, R329): the bytes, `none` where they cannot be read; `wait` where a page is not
resident, whose fault is reported (R326). -/
def State.readRange (a : Agent) (va len : Nat) (s : State) : Found (Option (List Byte)) × State :=
  match s.locate a va len false with
  | (.fault _, s) => (.ok none, s)
  | (.parts ps, s) =>
    if ps.any fun p => p.isAbsent || p.isHeld then (.wait, s.reportParts a .read ps)
    else if ps.all fun p => p.permits .read && p.open .read s && !p.isPeer then (.ok (some (s.readParts ps)), s)
    else (.ok none, s)

/-- The handle list of a record (R294). -/
def State.readHandles (a : Agent) (d : List Byte) (s : State) : Found (Option (List (Nat × Nat))) × State :=
  if fld d 104 2 = 0 then (.ok (some []), s)
  else
    match s.readRange a (fld d 96 8) (16 * fld d 104 2) with
    | (.ok b, s) => (.ok (b.bind handleList), s)
    | (_, s) => (.wait, s)

/-- The clause at a record's refill address, or its first word where that is no legal header; no bytes where the record names none. -/
def State.readRefill (a : Agent) (d : List Byte) (s : State) : Found (Option (List Byte)) × State :=
  match refillAt d with
  | none => (.ok (some []), s)
  | some va =>
    match s.readRange a va 12 with
    | (.ok (some b), s) =>
      match refillLen d b with
      | none => (.ok (some b), s)
      | some n => s.readRange a va n
    | r => r

/-- The replay descriptor that applies to a launch of a record, with the mode it gives as the launch is accepted (R398, R399; notes/assumptions/132). -/
def State.readReplay (C : Context) (d : List Byte) (s : State) : Found (Option (Nat × Nat)) × State :=
  match (if fld d 51 1 = 2 then C.replay else none) with
  | none => (.ok none, s)
  | some r =>
    match s.readRange C.agent r 1 with
    | (.ok b, s) =>
      let m := (b.map ofBytes).getD 0
      (.ok (some (r, if m ≤ 2 then m else 0)), s)
    | (_, s) => (.wait, s)

/-- A record read whole and checked (R228); a page that is not resident is waited for (R326). -/
def State.takeRecord (s : State) (C : Context) (va : Nat) : Taken × State :=
  let a := C.agent
  if va % 128 ≠ 0 then (.refused 2, s)
  else
    match s.readRange a va 256 with
    | (.ok (some d), s) =>
      if !recordRanges d then (.refused 2, s)
      else
        match s.readRefill a d with
        | (.ok (some w), s) =>
          if !refillOk d w then (.refused 2, s)
          else
            match s.readHandles a d with
            | (.ok (some hs), s) =>
              let L := launchOf C.id va d s.tick
              if placeableEmpty L C then
                match s.readReplay C d with
                | (.ok r, s) => (.ok { L with replay := r } hs, s)
                | (_, s) => (.wait, s)
              else (.refused 3, s)
            | (.ok none, s) => (.refused 2, s)
            | (_, s) => (.wait, s)
        | (.ok none, s) => (.refused 2, s)
        | (_, s) => (.wait, s)
    | (.ok none, s) => (.refused 2, s)
    | (_, s) => (.wait, s)

/-- A handle of the list processed (R295): what the launch depends on, and the entry after it. -/
def Context.takeHandle (C : Context) (l : Nat) (hm : Nat × Nat) : List Nat × Context :=
  let e := (C.handles.find? fun h => h.num == hm.1).getD { num := hm.1, writer := none, readers := [] }
  let e' := if hm.2 = 1 then { e with readers := e.readers ++ [l] } else { e with writer := some l, readers := [] }
  (e.writer.toList ++ (if hm.2 = 1 then [] else e.readers), { C with handles := e' :: C.handles.filter fun h => h.num != hm.1 })

/-- A launch accepted: it joins the placement list, its dependences known (R295). -/
def State.accept (L : Launch) (hs : List (Nat × Nat)) (s : State) : State :=
  let n := s.launches.length
  match s.context? L.ctx with
  | none => s
  | some C =>
    let r := hs.foldl (fun (r : List Nat × Context) h =>
      let x := r.2.takeHandle n h
      (r.1 ++ x.1, x.2)) ([], C)
    (({ s with launches := s.launches ++ [{ L with deps := r.1 }] }).modContext
      C.id fun _ => r.2).trace 1 4 0 0 C.id L.record 0xFFFFFFFF

/-- A status word of a completion record (R229). -/
def State.writeStatus (C : Context) (va status : Nat) (s : State) : State := s.domeWrite C va (toBytes 4 status)

/-- LAUNCH_ACCEPT (R229, R293): the next entry of a queue is accepted, refused or, being no launch, skipped and reported. An entry that waits, for a
page, for a line that the host holds (R336) or for the command processor, is taken up again (`State.retryQueues`). A refusal whose record gives no
place for its status, because it cannot be read or the place is not aligned, writes none (notes/assumptions/75). -/
def execLaunchAccept (ctx queue : Nat) (s : State) : Answer :=
  match s.context? ctx with
  | none => .next s
  | some C =>
    match C.queues[queue]? with
    | none => .next s
    | some q =>
      let onQueue (f : Queue → Queue) (s : State) : State := s.modContext ctx fun C => { C with queues := modifyAt f queue C.queues }
      let later := onQueue fun q => { q with waiting := q.waiting + 1 }
      if !s.ready then .next (later s)
      else
        let at_ := q.base + 32 * (if q.size = 0 then 0 else q.next % q.size)
        match s.heldLine at_ 32 with
        | some l => .next (later (s.askBack l))
        | none =>
        let s := s.combine (Partial.meets false at_ 32)
        let e := s.devRead at_ 32
        let done := onQueue fun q => { q with next := q.next + 1 }
        if fld e 8 1 ≠ 1 || !allZero (e.drop 9) then .next (done (s.send (.skipped ctx queue)))
        else
          match s.takeRecord C (fld e 0 8) with
          | (.wait, s) => .next (later s)
          | (.refused code, s) =>
            match s.vread C.agent (fld e 0 8) 256 with
            | (some d, s) => .next (done (if fld d 112 8 % 64 = 0 then s.writeStatus C (fld d 112 8) (code - 1) else s))
            | (none, s) => .next (done s)
          | (.ok L hs, s) => .next ((done (s.accept L hs)).writeStatus C L.completion 0xFFFFFFFF)

/-- LNCH (R91): it waits for the command processor, and for the stream's stores to other devices. -/
def execLnch (sd sa : SReg) (s : State) : Answer :=
  M.answer (do
    notInHandler
    let r ← hereScalar
    let C ← hereContext
    let va := r.getS sa
    require (va.toNat % 128 == 0 && decide (va.toNat < 2 ^ 56)) cAddrFault 0 va
    releaseHere
    if !(← get).ready then stallOn .engine
    let (found, s) := (← get).takeRecord C va.toNat
    set s
    match found with
    | .wait => stallOn .page
    | .refused code => doneScalar 4 (r.setS sd (BitVec.ofNat 64 code))
    | .ok L hs =>
      if ((← get).launches.filter fun l => l.ctx == C.id && !l.ended).length ≥ Config.launchQueueSize then
        doneScalar 4 (r.setS sd 1)
      else
        upd fun s => (s.accept L hs).writeStatus C L.completion 0xFFFFFFFF
        doneScalar 4 (r.setS sd 0)) s

/-! ### Placement (R234–R236, R296, R303, R396) -/

/-- A group at team start (R235). -/
def Group.start (L : Launch) (b : Nat × Nat × Nat) (tick : Nat) : Group :=
  { regs := (ScalarRegs.start (BitVec.ofNat 64 (L.sbase + L.entry))).setS 0 L.arg, restart := L.restartAt L.restart, ric := 0, batch := 0
    gitem := -1#64, f := Vector.replicate 12 0, fscope := List.replicate 12 0, lanes := List.replicate L.width (Lane.start L.vregs L.aregs)
    tiles := List.replicate L.tiles (List.replicate (L.width * 32) Acc.zero), latch := none, runs := [], run := none, clause := none, tags := []
    nextTag := 0, loads := [], stores := [], nextRec := 0, lq := [], mmas := [], park := none, stallS := none, stallL := none
    killed := false, retired := false, held := [], skipS := false, skipL := false, whole := false, resumeS := none, resumeL := none, gunfin := false, dp := b.1, slot := b.2.1
    quarter := b.2.2, ready := 0, starve := 0, sready := 0, sstarve := 0, ricSeen := tick, pass := none, woken := false, cancel := none }

/-- A team at its start (R235). -/
def Team.start (L : Launch) (l cluster pos core : Nat) (bs : List (Nat × Nat × Nat)) (tick : Nat) : Team :=
  { launch := l, ordinal := cluster * (L.cw * L.ch) + pos, cluster := cluster, pos := pos, core := core, live := true, away := false
    discard := false, state := .running, groups := bs.map fun b => Group.start L b tick, scratch := [], size := L.spad
    bars := List.replicate 16 Barrier.start, syncs := [], locks := [], resv := List.replicate 16 none, cmds := [], nextCmd := 0, colls := []
    handler := { regs := ScalarRegs.start 0, hs := Vector.replicate 4 0, trap := none, since := 0, dump := none, stall := none }, ordered := 0, claimed := false
    elig := false, stop := false, image := 0, waited := false, yields := false, entry := 0, stopped := 0, saved := [] }

/-- The room of a core is taken: a team that was swapped out of it gives way no more (R304). -/
def State.takeRoom (cores : List Nat) (s : State) : State :=
  { s with teams := s.teams.map fun T => if cores.contains T.core then { T with yields := false } else T }

/-- The lines that earlier teams have left in some cores' L1s go, the modified ones written back, the C lines combined: in a fused cluster's L1 each line
has one position, and is held there alone (R237, R333). -/
def State.clearL1 (cores : List Nat) (s : State) : State :=
  cores.foldl (fun s c => (s.writeBack (s.linesOf c fun _ => true)).modCore c fun x => { x with l1 := [] })
    (s.combine fun p => cores.contains p.core)

/-- A cluster placed (R235, R236). -/
def State.startCluster (l : Nat) (p : List (Nat × List (Nat × Nat × Nat))) (s : State) : State :=
  match s.launches[l]? with
  | none => s
  | some L =>
    let cluster := L.clusters.length
    -- a dependent launch begins with an acquire at sys (R295)
    let begin_ (c : Core) : Core := { if L.deps.isEmpty then c else c.dropShared with gated := false }
    let s := p.foldl (fun (s : State) x => s.modCore x.1 begin_) s
    -- what was kept for its team is free again (R303)
    let s := { s with cores := s.cores.map fun (c : Core) => if c.taking = some l then { c with taking := none } else c }
    let s := if L.fuse then s.clearL1 (p.map (·.1)) else s
    let s := s.takeRoom (p.map (·.1))
    ({ s with teams := s.teams ++ (indexed 0 p).map fun (ip : Nat × Nat × List (Nat × Nat × Nat)) =>
        Team.start L l cluster ip.1 ip.2.1 ip.2.2 s.tick }).modLaunch l fun L =>
      { L with placed := L.placed + p.length, clusters := L.clusters ++ [List.replicate 4 Barrier.start] }

/-- Whether a launch may still place a team (R234, R396): a cluster is placed whole, past the maximum where that is no multiple of its size
(notes/assumptions/76). -/
def Launch.wants (L : Launch) : Bool :=
  !L.ended && !L.halted && !L.barren
    && (if L.detm = 2 then L.placed == 0
        else (L.maxTeams == 0 || decide (L.placed < L.maxTeams)) && (L.nitems == 0 || decide (L.claim < L.nitems)))

/-- Whether every launch it depends on has ended (R295). -/
def State.depsMet (s : State) (L : Launch) : Bool := L.deps.all fun d => (s.launches[d]?).all (·.ended)

/-- The rooms of a partition. -/
def State.rooms (s : State) (cores : List Nat) : Rooms := cores.map fun c => (c, s.room c)

/-- Whether a launch comes before another in the placement list: lower class first, then earlier acceptance (R296). -/
def placedBefore (L M : Launch) (l m : Nat) : Bool := decide (L.cls < M.cls) || (L.cls == M.cls && decide (l < m))

/-- Whether a core is open to the teams of a launch: one that is being emptied for another launch is not, while that one waits for it (R303), but to those
that come before it in the list (R296). -/
def State.openTo (s : State) (l : Nat) (core : Nat) : Bool :=
  match ((s.cores[core]?).bind (·.taking)).bind fun m => (s.launches[m]?).map fun M => (m, M) with
  | some (m, M) => m == l || !M.wants || ((s.launches[l]?).any fun L => placedBefore L M l m)
  | none => true

/-- Where a launch's next teams go now, if they fit. -/
def State.planFor (s : State) (l : Nat) : Option (List (List (Nat × List (Nat × Nat × Nat)))) :=
  match s.launches[l]? with
  | none => none
  | some L =>
    match s.context? L.ctx with
    | none => none
    | some C =>
      let cores := C.cores.filter (s.openTo l)
      if L.wants && s.depsMet L then placeMany L cores L.batch (s.rooms cores) else none

/-- Whether two launches are of one partition. -/
def State.samePartition (s : State) (L M : Launch) : Bool :=
  match s.context? L.ctx, s.context? M.ctx with
  | some C, some D => C.cores.any D.cores.contains
  | _, _ => false

/-! ### Teams that wait to be restored (R315) -/

/-- The live teams of a team's cluster that are swapped out or not, in order of position. -/
def State.cluster (s : State) (t : Nat) (away : Bool) : List Nat :=
  match s.team? t with
  | none => []
  | some T =>
    let ms := (indexed 0 s.teams).filter fun u => u.2.live && u.2.away == away && u.2.launch == T.launch && u.2.cluster == T.cluster
    (List.range 48).flatMap fun p => (ms.filter fun u => u.2.pos == p).map (·.1)

/-- Runs of a core's operand buffer for reservations of given lengths, one after another. -/
def allotRuns (live : List (Nat × Nat)) : List Nat → Option (List Nat)
  | [] => some []
  | n :: ns => match freeRun live n with
    | none => none
    | some b => (allotRuns ((b, n) :: live) ns).map (b :: ·)

/-- The lengths of a team's live reservations, in o order. -/
def Team.resvLens (T : Team) : List Nat := T.resv.filterMap fun r => r.map fun r => fld r.record 0 4

/-- Where one team goes back: its core, its groups' slots, the bases of its reservations. -/
structure Seat where
  team  : Nat
  core  : Nat
  binds : List (Nat × Nat × Nat)
  bases : List Nat
deriving DecidableEq, Repr

/-- The teams of a cluster put back on the cores of a rectangle. -/
def State.seatAll (s : State) (L : Launch) (cs : List Nat) : List Nat → Rooms → Option (List Seat)
  | [], _ => some []
  | t :: ts, rs =>
    match s.team? t with
    | none => none
    | some T =>
      let core := cs.getD T.pos 0
      match (rs.get core).place L T.discard, allotRuns (s.coreResv core) T.resvLens with
      | some (bs, r), some bases => (State.seatAll s L cs ts (rs.set core r)).map fun x => ⟨t, core, bs, bases⟩ :: x
      | _, _ => none

/-- The seats of the cluster of a team that is swapped out on the rectangle of an origin, and how many teams its cores hold (R315). -/
def State.seatsAt (s : State) (t origin : Nat) : Option (Nat × List Seat) :=
  match s.launchOf? t, s.contextOf? t with
  | some L, some C =>
    match rectangle origin L.cw L.ch with
    | some cs =>
      let rs := s.rooms C.cores
      if cs.all (fun c => C.cores.contains c && (s.launchIx t).all fun l => s.openTo l c) && (!L.fuse || cs.all fun c => (rs.get c).teams == 0) then
        (s.seatAll L cs (s.cluster t true) rs).map fun p => ((cs.map fun c => (rs.get c).teams).foldl (· + ·) 0, p)
      else none
    | none => none
  | _, _ => none

/-- Where that cluster goes back by default (R233, R315): the origin of the rectangle whose cores hold the fewest teams. -/
def State.restorePlan (s : State) (t : Nat) : Option Nat :=
  (((List.range 192).filterMap fun o => (s.seatsAt t o).map fun p => (p.1, o)).foldl (fun (b : Option (Nat × Nat)) x =>
    match b with
    | none => some x
    | some y => if x.1 < y.1 then some x else some y) none).map (·.2)

/-- Whether a launch of the partition that comes before another could place a team now, or have one restored (R296). -/
def State.othersFirst (s : State) (l : Nat) (L : Launch) : Bool :=
  (indexed 0 s.launches).any fun m =>
    placedBefore m.2 L m.1 l && s.samePartition m.2 L
      && ((s.planFor m.1).isSome || (indexed 0 s.teams).any fun u => u.2.live && u.2.away && !u.2.yields && u.2.launch == m.1 && (s.restorePlan u.1).isSome)

/-- Whether a team of the same launch and of an earlier cluster than `k` could be restored now. -/
def State.mateFirst (s : State) (l k : Nat) : Bool :=
  (indexed 0 s.teams).any fun u => u.2.live && u.2.away && !u.2.yields && u.2.launch == l && decide (u.2.cluster < k) && (s.restorePlan u.1).isSome

/-- Whether a team gives way to one that waits (R304): a swap freed its room, none has taken it yet, and some other team of the partition would fit. -/
def State.givesWay (s : State) (t : Nat) : Bool :=
  match s.team? t, s.launchOf? t with
  | some T, some L =>
    T.yields
      && ((indexed 0 s.launches).any (fun m => s.samePartition m.2 L && (s.planFor m.1).isSome)
        || (indexed 0 s.teams).any fun u =>
          u.2.live && u.2.away && !u.2.yields && ((s.launchOf? u.1).any fun M => s.samePartition M L) && (s.restorePlan u.1).isSome)
  | _, _ => false

/-- The commands that keep running in the canals (R307). -/
def Cmd.carried (c : Cmd) : Bool := c.kind == .plcl || (c.kind.isFabric && c.kind != .plval && fld c.desc 16 1 == 0)
/-- The commands that are issued again (R218). -/
def Cmd.reissued (c : Cmd) : Bool := c.kind.isSpire && c.kind != .vpjb

/-- Whether a team can be saved without waiting on a page that is not resident: neither its handler, which must return first, nor a command that must
complete first waits for one (R303, R306, R307). -/
def Team.savesNow (T : Team) : Bool :=
  (T.cmds.all fun c => c.faulted || c.carried || c.reissued || c.held.isEmpty)
    && !((T.state == .handling || T.state == .dumping) && T.handler.stall.any Stall.isPage)

/-- The core that class 0 takes (R303): of those without a class-0 team on which the launch's first team fits once they are emptied and whose teams
can be saved without waiting on a page, the one whose highest class is greatest, the lowest among equals. While a core of the partition is being
emptied, no other is chosen. -/
def State.victim (s : State) (L : Launch) (cores : List Nat) : Option Nat :=
  if s.teams.any fun T => T.live && !T.away && T.stop && cores.contains T.core then none else
  let cls (c : Nat) : List Nat := s.teams.filterMap fun T =>
    if T.live && !T.away && T.core == c then (s.launches[T.launch]?).map (·.cls) else none
  let ok := cores.filter fun c => !(cls c).isEmpty && !(cls c).contains 0 && (Room.empty.place L).isSome
    && s.teams.all fun T => !(T.live && !T.away && T.core == c) || T.savesNow
  ok.foldl (fun (b : Option Nat) c =>
    match b with
    | none => some c
    | some x =>
      let m := (cls x).foldl max 0
      let n := (cls c).foldl max 0
      if m < n || (m == n && decide (c < x)) then some c else some x) none

/-- TEAM_PLACE (R234, R296, R303, R396): the next team or cluster of a launch is placed, unless one that comes before it fits; a class-0 team that does not
fit takes a core, whose teams are pre-empted, and which is kept for it from then on. -/
def execTeamPlace (l : Nat) (s : State) : Answer :=
  match s.launches[l]? with
  | none => .next s
  | some L =>
    if !s.ready then .next s
    else if s.othersFirst l L || s.mateFirst l L.clusters.length then .next s
    else
      match s.planFor l with
      | some ps => .next (ps.foldl (fun s p => s.startCluster l p) s)
      | none =>
        match s.context? L.ctx with
        | none => .next s
        | some C =>
          if L.cls = 0 && L.wants && s.depsMet L then
            match s.victim L C.cores with
            | none => .next s
            | some core =>
              .next ((indexed 0 s.teams).foldl (fun s tT =>
                if tT.2.live && !tT.2.away && tT.2.core == core && !tT.2.stop then
                  (s.modTeam tT.1 fun T => { T with stop := true }).post (.preempt tT.1) else s)
                (s.modCore core fun c => { c with taking := some l }))
          else .next s

/-! ### The end of a launch (R229, R234) -/

/-- Whether a launch has ended: no team is live and none will be placed. -/
def State.launchOver (s : State) (l : Nat) (L : Launch) : Bool :=
  !L.ended && !s.teams.any (fun T => T.launch == l && T.live) && (L.halted || (!L.wants && L.placed != 0) || (L.barren && L.placed != 0))

/-- The final status of a launch (R229). -/
def Launch.status (L : Launch) : Nat :=
  if L.killed then 4 else if L.unfinished = 0 && L.nitems ≤ L.claim then 0 else 3

/-- The completion record but for its status (R229). -/
def Launch.completionBody (L : Launch) (tick : Nat) : List Byte :=
  toBytes 4 L.placed ++ toBytes 8 L.finished ++ toBytes 8 L.unfinished ++ toBytes 8 (L.nitems - L.claim) ++ toBytes 8 L.accepted
    ++ toBytes 8 L.firstIssue ++ toBytes 8 tick ++ toBytes 8 L.lowest.toNat

/-- The launch is over: its record is written, the status last, and its readers' places are given up (R229, R295). -/
def State.finishLaunch (l : Nat) (s : State) : State :=
  match s.launches[l]? with
  | none => s
  | some L =>
    let s := (s.modLaunch l fun L => { L with ended := true }).modContext L.ctx fun C =>
      { C with handles := C.handles.map fun h => { h with readers := h.readers.filter (· != l) } }
    match s.context? L.ctx with
    | none => s
    | some C =>
      (((s.domeWrite C (L.completion + 4) (L.completionBody s.tick)).writeStatus C L.completion L.status).trace 1 4 0 0 C.id L.record
        L.status)

/-- LAUNCH_END (R229, R234). -/
def execLaunchEnd (l : Nat) (s : State) : Answer :=
  match s.launches[l]? with
  | some L => if s.launchOver l L then .next (s.finishLaunch l) else .next s
  | none => .next s

/-- DRIVER_LAUNCH_END (R229): every team of the launch is killed; those that have been swapped out are gone at once. -/
def execDriverLaunchEnd (l : Nat) (s : State) : Answer :=
  match s.launches[l]? with
  | none => .next s
  | some L =>
    if L.ended then .next s
    else
      let s := s.modLaunch l fun L => { L with killed := true, halted := true }
      .next (((indexed 0 s.teams).foldl (fun s tT => if tT.2.launch = l ∧ tT.2.live then s.killTeam tT.1 else s) s).post (.launchEnd l))

end Sys2Proof.Machine
end

