-- ==== Sys2Proof/Machine/Pair.lean ====
section
/-! DEFINITION. Pair words (R48–R50, R55). -/

namespace Sys2Proof.Machine

/-- The effect of a long instruction that has a short form (R50). -/
def shortFx (x : LaneCtx) : Instr → M Unit
  | .laneAdd w => computes fxAdd x w
  | .laneSub w => computes fxSub x w
  | .laneMul w => computes fxMul x w
  | .laneMin w => computes fxMin x w
  | .laneMax w => computes fxMax x w
  | .laneAnd w => computes fxAnd x w
  | .laneOr w => computes fxOr x w
  | .laneXor w => computes fxXor x w
  | .laneShl w => computes fxShl x w
  | .laneShr w => computes fxShr x w
  | .laneSar w => computes fxSar x w
  | .laneAddi w => computes fxAddi x w
  | .laneShli w => computes fxShli x w
  | .laneShri w => computes fxShri x w
  | .mov w => computes fxMov x w
  | .fadd w => computes fxFadd x w
  | .fsub w => computes fxFsub x w
  | .fmul w => computes fxFmul x w
  | .fmin w => computes fxFmin x w
  | .fmax w => computes fxFmax x w
  | .fabs w => computes fxFabs x w
  | .fneg w => computes fxFneg x w
  | .fma w => computes fxFma x w
  | .laneCmp c w => computes (fxCmp c) x w
  | .fcmp c w => computes (fxFcmp c) x w
  | .laneSel w => computes fxSel x w
  | .lanePopc w => computes fxPopc x w
  | .laneLd w => laneLdFx false x w
  | .laneSt w => laneStFx false x w
  | .laneLds w => laneLdFx true x w
  | .laneSts w => laneStFx true x w
  | .ex2f w => computes fxEx2f x w
  | .rcp w => computes fxRcp x w
  | .rsq w => computes fxRsq x w
  | .lg2 w => computes fxLg2 x w
  | .aadd w => computes fxAadd x w
  | .amac w => computes fxAmac x w
  | .laneMovi w => computes fxMovi x w
  | _ => pure ()

/-- The guard of a slot in a lane: 15 means always (R48). -/
def Lane.passesShort (l : Lane) (o : ShortOp) : Bool := if o.guard = 15 then true else l.getP o.guard.toNat != o.neg

/-- The lanes in which a slot executes; a NOP slot executes in none, so that it alone never makes its pair a checked word (notes/assumptions/102,
DESIGN CHOICE). -/
def slotLanes (G : Group) (o : ShortOp) : List Nat :=
  if o.op = 0 then [] else G.active.filter fun i => (G.lane i).passesShort o

/-- The checks of a slot whose word is checked: poison and outstanding loads in its own lanes (R53, R387). -/
def slotChecks (x : LaneCtx) (o : ShortOp) : M Unit := do
  match o.long with
  | none => pure ()
  | some i => if !x.parts.isEmpty then laneChecks x i

/-- A slot's effect. -/
def slotFx (x : LaneCtx) (o : ShortOp) : M Unit := do
  match o.long with
  | none => pure ()
  | some i =>
    if !x.parts.isEmpty then
      shortFx x i
      match laneForm 64 i with
      | some (f, w) => if !readsDest i then clearRegs x (destRegs f w)
      | none => pure ()

/-- A slot that halts leaves no effect of the pair's other slot: the group's lanes are put back (R48). -/
def undoLanes (c : Cur) (G : Group) (m : M Unit) : M Unit := fun s =>
  match m s with
  | .ok r => .ok r
  | .error (h, s') => .error (h, s'.modGroup c.team c.grp fun g => { g with lanes := G.lanes })

/-- PAIR_WORD (R48–R50): both slots' lanes are found before either writes; the dependence rule of R49 makes slot 0 then slot 1 the same as both
at once. A pair that is illegal by R48 or R50 and breaks R49 too raises ILLEGAL_OP: the spec gives the two causes no order (notes/assumptions/103, DESIGN
CHOICE). -/
def execPairWord (p : PairWord) (s : State) : Answer :=
  M.answer (do
    let (c, _, G) ← here
    if G.active.isEmpty then retireLane c
    else
      require (p.slot0.guardOk && p.slot1.guardOk) cIllegalOp
      let x0 ← laneCtx (slotLanes G p.slot0)
      let x1 ← laneCtx (slotLanes G p.slot1)
      if x0.parts.isEmpty && x1.parts.isEmpty then retireLane c
      else
        require (!p.mid && p.slot0.legal x0.L.vregs x0.L.aregs && p.slot1.legal x0.L.vregs x0.L.aregs) cIllegalOp
        require p.pairable cIllegalPair
        slotChecks x0 p.slot0
        slotChecks x1 p.slot1
        slotFx x0 p.slot0
        undoLanes c G (slotFx x1 p.slot1)
        retireLane c) s

end Sys2Proof.Machine
end

