-- ==== Sys2Proof/Machine/Registers.lean ====
section
/-! DEFINITION. The control registers of the Dome and the operations firmware, the counters' snapshot, trace sampling, the stop, the throttle, errors and
their records (R11, R33, R260, R301, R302, R322, R343, R385–R388, R404, R405, R408, R412, R413, R431). -/

namespace Sys2Proof.Machine

/-! ### Register writes: reserved fields keep reading zero (R11) -/

/-- Whether a quota value is discarded (R260). -/
def quotaBad (v : Nat) : Bool :=
  let rsv (i : Nat) : Nat := natBits v (16 * i + 4) (16 * i)
  let lim (i : Nat) : Nat := natBits v (16 * i + 12) (16 * i + 8)
  [0, 1, 2, 3].any (fun i => lim i == 0 || decide (lim i > 16) || decide (rsv i > lim i)) || decide (rsv 0 + rsv 1 + rsv 2 + rsv 3 > 16)

/-- DOME_L2QUOTA (R260). -/
def execDomeL2quota (v : Word) (s : State) : Answer :=
  if quotaBad v.toNat then .next s else .next (s.modDome fun d => { d with l2quota := v &&& 0x1F1F1F1F1F1F1F1F#64 })

/-- CP_CLASSCFG (R301). -/
def execCpClasscfg (cls : BitVec 2) (v : Word) (s : State) : Answer :=
  if natBits v.toNat 19 0 = 0 || natBits v.toNat 19 0 > 1000000 || natBits v.toNat 47 32 = 0 then .next s
  else .next (s.modDome fun d => { d with classcfg := d.classcfg.set cls.toNat (v &&& 0x0000FFFF200FFFFF#64) })

/-- DOME_CLS0RSV (R302): an access that found no entry of its class is made again. -/
def execDomeCls0rsv (v : Word) (s : State) : Answer :=
  if [0, 4, 8].any fun lo => decide (natBits v.toNat (lo + 3) lo > 8) then .next s
  else .next ((s.modDome fun d => { d with cls0rsv := v &&& 0xFFF#64 }).retryWaits none)

/-- DOME_SWEEP (R322): the period counts from the write. -/
def execDomeSweep (v : Word) (s : State) : Answer :=
  if v.getLsbD 31 && natBits v.toNat 23 0 == 0 then .next s
  else .next (s.modDome fun d => { d with sweep := v &&& 0x80FFFFFF#64, sweepAt := s.tick + natBits v.toNat 23 0 * 1000 })

/-- FAB_PODCFG (R343). -/
def execFabPodcfg (v : Word) (s : State) : Answer :=
  let size := natBits v.toNat 26 16
  if natBits v.toNat 9 0 ≥ size || size = 0 || size > 1024 || s.contexts.any (·.podTag.isSome) then .next s
  else .next (s.modDome fun d => { d with podcfg := v &&& 0x87FF03FF#64 })

/-- DOME_CNTSNAP (R404): GO stands until the copy is done, and TICK is read-only. -/
def execDomeCntsnap (v : Word) (s : State) : Answer :=
  if v.getLsbD 63 then .next (s.modDome fun d => { d with cntsnap := d.cntsnap ||| 0x8000000000000000#64 }) else .next s

/-- CNTSNAP_COPY (R404): every core's leaves at one tick. -/
def execCntsnapCopy (s : State) : Answer :=
  if s.dome.cntsnap.getLsbD 63 then
    .next ({ s with cores := s.cores.map fun (c : Core) => { c with snap := c.leaves } }.modDome fun d =>
      { d with cntsnap := BitVec.ofNat 64 (s.tick % 2 ^ 63) })
  else .next s

/-- DBG_TRACECTL (R405). -/
def execDbgTracectl (v : Word) (s : State) : Answer := .next (s.modDome fun d => { d with tracectl := v &&& 0x000000F8000001FF#64 })

/-- TRACE_SAMPLE (R405): one kind-5 record for each core that holds a group, of the first of them. -/
def execTraceSample (s : State) : Answer :=
  .next ((List.range 192).foldl (fun s core =>
    match findIndexFrom (fun T : Team => T.live && !T.away && T.core == core && T.groups.any fun g => !g.gone) 0 s.teams with
    | none => s
    | some t =>
      match (s.team? t).bind fun T => findIndexFrom (fun g : Group => !g.gone) 0 T.groups with
      | none => s
      | some g =>
        match s.group? t g with
        | some G => s.traceGroup t g 5 G.regs.pc.toNat G.lanePc.toNat
        | none => s) s)

/-- DBG_STOPCTL (R408): an arming is discarded for a tick that has passed, and while a confidential context is live. -/
def execDbgStopctl (v : Word) (s : State) : Answer :=
  if v.getLsbD 0 && (decide (s.dome.stoptick.toNat ≤ s.tick) || s.contexts.any (·.conf)) then .next s
  else .next (s.modDome fun d => { d with stopctl := (d.stopctl &&& 2#64) ||| (v &&& 1#64) })

/-- Every UALink port reports its link down to its partner (R408, R414). -/
def State.portsDown (s : State) : State :=
  let ups := (List.range 24).filter fun p => (s.dome.canals[p]?).any fun (c : Canal) => c.up
  { s.modDome fun d => { d with canals := d.canals.map fun (c : Canal) => { c with up := false } } with outbox := s.outbox ++ ups.map Msg.linkDown }

/-- DBG_STOP (R408): at the armed tick every clock is gated, and the CXL and UALink ports report their links down. -/
def execDbgStop (s : State) : Answer :=
  if s.dome.stopctl.getLsbD 0 && decide (s.dome.stoptick.toNat ≤ s.tick) then
    .next { s.portsDown.modDome fun d => { d with stopctl := d.stopctl ||| 2#64 } with outbox := s.portsDown.outbox ++ [.cxlDown 0, .cxlDown 1] }
  else .next s

/-- PWR_CLKCTL (R412): STEP and HELD are read-only. -/
def execPwrClkctl (v : Word) (s : State) : Answer :=
  let ilim := natBits v.toNat 43 32
  let tlim := natBits v.toNat 31 24
  if ilim < 400 || ilim > 3600 || tlim < 70 || tlim > 105 || natBits v.toNat 11 8 > 8 then .next s
  else .next (s.modPlat fun p => { p with clkctl := (v &&& 0x00000FFFFF000F00#64) ||| (p.clkctl &&& 0x1F#64) })

/-- THROTTLE_EVAL (R413): one step up while over a limit, one down after 100 quiet evaluations, never above MAXSTEP. -/
def execThrottleEval (s : State) : Answer :=
  let p := s.plat
  let v := p.clkctl.toNat
  let ilim := natBits v 43 32
  let tlim := natBits v 31 24
  let top := natBits v 11 8
  let step := natBits v 3 0
  let hot := decide (p.current > ilim) || decide (p.junction > tlim) || !p.thermN
  let quiet := if 10 * p.current ≤ 9 * ilim ∧ p.junction + 5 ≤ tlim ∧ p.thermN then min (p.quiet + 1) 100 else 0
  let step' := min top (if hot then step + 1 else if quiet ≥ 100 then step - 1 else step)
  .next (s.modPlat fun p =>
    { p with quiet := quiet
             clkctl := (p.clkctl &&& 0xFFFFFFFFFFFFFFE0#64) ||| BitVec.ofNat 64 (step' + if step' = 0 then 0 else 16) })

/-- REGISTER_WRITE (R11): DBG.STOPTICK is the register that a write changes and nothing else (R408); an address of a register that a write acts on is that
register's own write; a write elsewhere has no effect. -/
def execRegisterWrite (addr : Nat) (v : Word) (s : State) : Answer :=
  if addr = 0x1F018 then .next (s.modDome fun d => { d with stoptick := v })
  else if addr = 0x2000 then execDomeL2quota v s
  else if addr = 0x2010 then execDomeCls0rsv v s
  else if addr = 0x2018 then execDomeSweep v s
  else if addr = 0x2020 then execDomeTlbi v s
  else if addr = 0x4000 then execFabPodcfg v s
  else if addr = 0x5000 then execPwrClkctl v s
  else if addr = 0x1F000 then execDomeCntsnap v s
  else if addr = 0x1F010 then execDbgTracectl v s
  else if addr = 0x1F020 then execDbgStopctl v s
  else if 0x3000 ≤ addr ∧ addr < 0x3020 ∧ addr % 8 = 0 then execCpClasscfg (BitVec.ofNat 2 ((addr - 0x3000) / 8)) v s
  else .next s

/-- A word of a core's counter block (R404): its leaves, the quantiser NaN counter, TLB_DUAL in the block of the quad's lowest core, L2 lines, L1 misses. -/
def State.counterWord (s : State) (core k : Nat) : Word :=
  match s.cores[core]? with
  | none => 0
  | some c =>
    if k < 16 then c.leaves.getD k 0
    else if k = 16 then c.nans.setWidth 64
    else if k = 17 then
      if (List.range core).any fun c' => quadOf c' == quadOf core then 0 else ((s.quads[quadOf core]?).map (·.dual)).getD 0
    else if k = 18 then c.l2r
    else if k = 19 then c.l2w
    else if k = 20 then c.miss
    else 0

/-- What the operations firmware reads in the word at a control offset (R11, R404, R405, R408, R412): a register, a counter block, the corrected-error
counters, a snapshot; zero where there is nothing. -/
def State.controlWord (s : State) (addr : Nat) : Word :=
  let d := s.dome
  if addr % 8 ≠ 0 then 0
  else if addr = 0x2000 then d.l2quota
  else if addr = 0x2010 then d.cls0rsv
  else if addr = 0x2018 then d.sweep
  else if addr = 0x2020 then d.tlbi
  else if 0x3000 ≤ addr ∧ addr < 0x3020 then d.classcfg.getD ((addr - 0x3000) / 8) 0
  else if addr = 0x4000 then d.podcfg
  else if addr = 0x5000 then s.plat.clkctl
  else if 0x10000 ≤ addr ∧ addr < 0x1C000 then s.counterWord ((addr - 0x10000) / 256) ((addr - 0x10000) % 256 / 8)
  else if 0x1C000 ≤ addr ∧ addr < 0x1C040 then d.corrected.getD ((addr - 0x1C000) / 8) 0
  else if addr = 0x1F000 then d.cntsnap
  else if addr = 0x1F010 then d.tracectl
  else if addr = 0x1F018 then d.stoptick
  else if addr = 0x1F020 then d.stopctl
  else if 0x20000 ≤ addr then (((s.cores[(addr - 0x20000) / 128]?).map (·.snap)).getD []).getD ((addr - 0x20000) % 128 / 8) 0
  else 0

/-! ### Trace and fault rings (R388, R405, R431) -/

/-- The lost records of the trace units told, each unit's by one kind-8 record, as far as there is space (R405). -/
def State.tellLost (s : State) : State :=
  (List.range 5).foldl (fun s unit =>
    let lost := s.dome.lost.getD unit 0
    if lost = 0 || s.dome.traceFree = 0 then s
    else (s.traceWrite unit (traceBytes s.tick 8 unit 0 0 0 lost 0)).modDome fun d => { d with lost := d.lost.set unit 0 }) s

/-- TRACE_RING_SPACE_RETURN (R405): the ring has room for `records` more, of any unit. -/
def execTraceRingSpaceReturn (_unit records : Nat) (s : State) : Answer :=
  match s.dome.trace with
  | none => .next s
  | some (_, size) =>
    .next (s.modDome fun d => { d with traceFree := min size (d.traceFree + records) }).tellLost

/-- FAULT_RING_DRAIN (R431). -/
def execFaultRingDrain (s : State) : Answer := .next (s.drainRing s.dome.held.length)

/-! ### Errors (R385–R387) -/

/-- The store of a unit, and the address that its record gives (R387). -/
def unitStore : EccUnit → Nat × Nat
  | .hbm a => (0, a / 32 * 32)
  | .l2 a => (1, a / 128 * 128)
  | .l1 _ _ a => (2, a / 128 * 128)
  | .scratch _ o => (3, o / 64 * 64)
  | .vreg _ _ l i => (4, l * 2 ^ 12 + i * 2 ^ 4 + 2)
  | .acc _ _ l i => (5, l * 2 ^ 12 + i * 2 ^ 4 + 7)
  | .obuf _ _ o => (6, o)
  | .canal p => (7, p)

/-- The team and the group that a unit belongs to. -/
def unitOwner : EccUnit → Option Nat × Nat
  | .scratch t _ => (some t, 0)
  | .vreg t g _ _ => (some t, g)
  | .acc t g _ _ => (some t, g)
  | .obuf t _ _ => (some t, 0)
  | _ => (none, 0)

/-- The context that a unit's bytes belong to: of an L1 line the context of its address space, else that of its team, and none for a
unit of HBM, of the L2 or of a canal, whose record has CTXID 0 (R388; notes/assumptions/121, DESIGN CHOICE). -/
def State.unitContext (s : State) (u : EccUnit) : Option Context :=
  match u with
  | .l1 _ asid _ => s.contexts.find? fun C => C.asid == asid
  | u => (unitOwner u).1.bind s.contextOf?

/-- The core that a unit lies in, and 0 for one outside the cores (R2, R388). -/
def State.unitCore (s : State) : EccUnit → Nat
  | .l1 c _ _ => c
  | u => (((unitOwner u).1.bind s.team?).map (·.core)).getD 0

/-- Whether the code of a unit's store corrects flipped bits of it (R385): one bit in each 64-bit word, or in HBM one device symbol of the granule. -/
def correctable (u : EccUnit) (bits : List Nat) : Bool :=
  match u with
  | .hbm _ => bits.all fun b => Config.hbmSymbol b == Config.hbmSymbol (bits.headD 0)
  | _ => bits.all fun b => (bits.filter fun c => c / 64 == b / 64).length == 1

/-- Bits of a unit that flip; a bit that flips twice is whole again (R385). -/
def State.upset (u : EccUnit) (bits : List Nat) (s : State) : State :=
  let old := ((s.upsets.find? fun x => x.1 == u).map (·.2)).getD []
  let now := old.filter (!bits.contains ·) ++ bits.eraseDups.filter (!old.contains ·)
  { s with upsets := (if now.isEmpty then [] else [(u, now)]) ++ s.upsets.filter fun x => x.1 != u }

/-- A tag or control entry whose parity fails leaves, and is fetched again from its source when it is next used (R385). -/
def State.refetch (x : TagUnit) (s : State) : State :=
  match x with
  | .l1 core asid line =>
    let hit (l : L1Line) : Bool := l.asid == asid && l.vline == line
    (s.writeBack (s.linesOf core hit)).modCore core fun c => { c with l1 := c.l1.filter fun l => !hit l }
  | .l2 line host => { s with l2 := s.l2.filter fun l => !(l.line == line && l.host == host) }
  | .tlb quad asid va => { s with quads := modifyAt (fun (q : Quad) => { q with tlb := q.tlb.filter fun e => !e.covers asid va }) quad s.quads }

/-- An error that is met (R385–R387): one that is corrected counts and is reported; one that is not poisons its unit, and is reported. -/
def State.meetError (u : EccUnit) (hard : Bool) (s : State) : State :=
  let (store, addr) := unitStore u
  let t := (unitOwner u).1
  let r : FaultRec :=
    { kind := if hard then 3 else 4, cause := if hard then cEcc.toNat else cSoftError.toNat, store := store, addr := addr % 2 ^ 52, count := if hard then 0 else 1
      ctx := ((s.unitContext u).map (·.id)).getD 0, core := s.unitCore u, grp := (unitOwner u).2
      team := ((t.bind s.team?).map (·.ordinal)).getD 0 }
  let s := { s with upsets := s.upsets.filter fun x => x.1 != u }
  (if hard then { s with poison := u :: s.poison.filter (· != u) }
    else s.modDome fun d => { d with corrected := modifyAt (· + 1) store d.corrected }).report r

/-- ECC_ERROR (R385–R387): flipped bits that the state records are judged by the code of their store; of others the event says whether they are
uncorrectable. -/
def execEccError (u : EccUnit) (hard : Bool) (s : State) : Answer :=
  .next (s.meetError u (match s.upsets.find? fun x => x.1 == u with
    | some x => !correctable u x.2
    | none => hard))

/-- Whether the scrubber reads a unit (R386). -/
def isScrubbed : EccUnit → Bool
  | .hbm _ => true
  | .l2 _ => true
  | _ => false

/-- SCRUB_PASS (R386, R387): every HBM granule and L2 line is read; what has flipped is corrected and counted, or poisoned and reported. -/
def execScrubPass (s : State) : Answer :=
  .next (((s.upsets.filter fun x => isScrubbed x.1).foldl (fun s x => s.meetError x.1 (!correctable x.1 x.2)) s).modDome fun d =>
    { d with scrubAt := s.tick + 86400000000000 })

/-! ### Resolution (R33, R429) -/

/-- A resolution step in a group (R33): for `acc` below 256, of an accumulator register of a lane; from 256 up, of accumulator `lane` of a tile. -/
def Group.resolveAt (lane acc ctr : Nat) (G : Group) : Group :=
  if acc < 256 then { G with lanes := modifyAt (fun l => { l with a := modifyAt (Acc.resolveStep ctr) acc l.a }) lane G.lanes }
  else { G with tiles := modifyAt (modifyAt (Acc.resolveStep ctr) lane) (acc - 256) G.tiles }

/-- RESOLUTION_STEP (R33): one counter of one accumulator, of a lane's registers or of a tile. -/
def execResolutionStep (t g lane acc ctr : Nat) (s : State) : Answer :=
  if ctr > 8 then .next s else .next (s.modGroup t g (Group.resolveAt lane acc ctr))

end Sys2Proof.Machine
end

