-- ==== Sys2Proof/Machine/Platform.lean ====
section
/-! DEFINITION. Reset, boot, firmware, attestation, confidential contexts, and what the driver asks of the operations firmware (R293, R317, R343, R344, R349,
R378, R389–R391, R399, R405, R407, R410, R414–R420, R431). -/

namespace Sys2Proof.Machine

/-! ### Reset (R410, R414) -/

/-- A request for a full device reset (R414, step 1): absorbed by one under way; a firmware load or a live update is abandoned. -/
def State.requestReset (trip : Bool) (s : State) : State :=
  if s.plat.phase = .draining ∨ s.plat.phase = .held then s
  else s.portsDown.modPlat fun p => { p with phase := .draining, served := s.hostServed, loading := none, oldOps := none, liveDue := none, trip := trip, pulsed := false }

/-- DEV_RST_N (R414): a reset request; while the device is held for a thermal trip, the pulse that it waits for. -/
def execDevRstN (s : State) : Answer :=
  if s.plat.phase = .held then .next (s.modPlat fun p => { p with pulsed := true }) else .next (s.requestReset false)
/-- PG_DEASSERT (R410). -/
def execPgDeassert (s : State) : Answer := .next ((s.modPlat fun p => { p with pgOk := false }).requestReset false)
/-- PG_ALL_ASSERTED (R410). -/
def execPgAllAsserted (s : State) : Answer := .next (s.modPlat fun p => { p with pgOk := true })
/-- CXL_CONVENTIONAL_RESET (R414). -/
def execCxlConventionalReset (s : State) : Answer := .next (s.requestReset false)
/-- CXL_FLR_PORT0 (R414). -/
def execCxlFlrPort0 (s : State) : Answer := .next (s.requestReset false)
/-- CXL_FLR_PORT1 (R414): that function's configuration registers alone, so its port is off until it is enabled again. -/
def execCxlFlrPort1 (s : State) : Answer := .next (s.modPlat fun p => { p with port1Off := true })
/-- FUNCTION_ENABLE (R414). -/
def execFunctionEnable (s : State) : Answer := .next (s.modPlat fun p => { p with port1Off := false })
/-- THERMAL_TRIP (R414). -/
def execThermalTrip (s : State) : Answer := .next (s.requestReset true)
/-- THERM_N_DEASSERT (R414). -/
def execThermNDeassert (s : State) : Answer := .next (s.modPlat fun p => { p with thermN := true })

/-- Internal reset (R414, step 3): everything held on the device is lost but its fuses; pins and sensors stand. -/
def State.internalReset (s : State) : State :=
  let p := s.plat
  { State.reset with
    free := s.free, nextId := s.nextId, hostMem := s.hostMem, outbox := s.outbox, agenda := s.agenda, tick := s.tick
    plat := { Platform.start with
      phase := .held, rstDone := false, trip := p.trip, tripPin := p.trip, pulsed := p.pulsed, pgOk := p.pgOk, thermN := p.thermN
      current := p.current, junction := p.junction, minRoot := p.minRoot, minOps := p.minOps, serial := p.serial } }

/-- Whether internal reset may be released (R410, R414). -/
def Platform.mayRelease (p : Platform) : Bool := p.pgOk && (!p.trip || (p.thermN && p.pulsed))

/-- A range as a firewall entry holds it, base and limit at 64 KiB granularity (R420). -/
def blocks (r : Nat × Nat) : Nat × Nat := (r.1 / 65536 * 65536, (r.2 + 65535) / 65536 * 65536)

/-- The fixed entries that the root programs (R420): the root's own region, and the operations firmware's. -/
def fixedFirewall : List (Nat × Nat × BitVec 8) :=
  [((blocks Config.rootRegion).1, (blocks Config.rootRegion).2, 0x03), ((blocks Config.opsRegion).1, (blocks Config.opsRegion).2, 0x07)]

/-- The entries that the root writes (R420): the fixed ones and, as they are then, those of the page tables, save areas and rings
(notes/assumptions/129). -/
def State.programFirewall (s : State) : State :=
  let own := (s.regions.filter fun r => decide (r.2 > 0)).map fun r => (r.1, r.1 + r.2)
  s.modPlat fun p => { p with firewall := (fixedFirewall ++ (own.map fun r => ((blocks r).1, (blocks r).2, 0x3F#8)).eraseDups).take 32 }

/-- What the platform does by itself from one tick to the next (R414, R415). -/
def State.advancePlatform (s : State) : State :=
  match s.plat.phase with
  | .rom => s.modPlat fun p => { p with phase := .rootLoad }
  | .rootRun => (s.modPlat fun p => { p with phase := .opsLoad }).programFirewall
  | .draining => s.internalReset
  | .held =>
    if s.plat.mayRelease then
      { s.modPlat fun p => { p with phase := .rom, rstDone := true, trip := false, tripPin := false } with tick := 0 }
    else s
  | _ => s

/-! ### Firmware images (R415–R418) -/

/-- An answer of the mailbox. -/
def State.doe (status : Nat) (s : State) : State := s.send (.doe status [])

/-- The kind of image that the mailbox takes in a phase: 1 root, 2 operations; none where it takes none (R416). -/
def Phase.takes : Phase → Option Nat
  | .rootLoad => some 1
  | .opsLoad => some 2
  | .ready => some 2
  | _ => none

/-- The largest image of a kind (R417). -/
def imageLimit (kind : Nat) : Nat := if kind = 1 then 262144 else 16777216

/-- The checks that a header alone decides, in the order of R416; 0 where all pass. -/
def headerStatus (kind len min : Nat) (h : List Byte) : Nat :=
  if !(h.take 4 == [0x46, 0x57, 0x49, 0x4D] && h.length == 256 && fld h 4 2 == 1 && fld h 6 1 == kind) then 6
  else if len ≠ 256 + fld h 12 4 || len > imageLimit kind then 2
  else if fld h 8 4 < min then 5
  else if !ecdsaVerify (ecDecode Config.romKey) (sha384 (h.take 80)) (ofBE ((h.drop 80).take 48)) (ofBE ((h.drop 128).take 48)) then 4
  else 0

/-- BEGIN (R416): a refused image is discarded, and the state is that of waiting for a BEGIN. -/
def execDoeBegin (len : BitVec 32) (hdr : List Byte) (s : State) : Answer :=
  match s.plat.phase.takes with
  | none => .next (s.doe 1)
  | some kind =>
    let st := headerStatus kind len.toNat (if kind = 1 then s.plat.minRoot else s.plat.minOps) hdr
    .next ((s.modPlat fun p => { p with loading := if st = 0 then some ⟨hdr, []⟩ else none }).doe st)

/-- Whether an image's body is whole and has its digest. -/
def Image.good (i : Image) : Bool := i.body.length == fld i.header 12 4 && sha384 i.body == (i.header.drop 32).take 48

/-- CHUNK (R416): in ascending offset with no gaps; the last one completes the digest. -/
def execDoeChunk (off : BitVec 32) (body : List Byte) (s : State) : Answer :=
  match s.plat.loading with
  | none => .next (s.doe 1)
  | some i =>
    let i' : Image := { i with body := i.body ++ body }
    let n := fld i.header 12 4
    let drop (st : Nat) : Answer := .next ((s.modPlat fun p => { p with loading := none }).doe st)
    if off.toNat ≠ i.body.length || off.toNat % 4096 ≠ 0 || body.length > 4096 || i'.body.length > n then drop 2
    else if i'.body.length = n ∧ !i'.good then drop 3
    else .next ((s.modPlat fun p => { p with loading := some i' }).doe 0)

/-- An operations image placed in the firmware region, header and body, from its base on (R415; notes/assumptions/129). -/
def State.placeOps (i : Option Image) (s : State) : State :=
  match i with
  | some i => s.writeMem false (blocks Config.opsRegion).1 (i.header ++ i.body)
  | none => s

/-- END (R415, R416, R418): a verified operations image is placed in its region. A verified image starts; an operations image received while one runs
starts a live update, answered when it is ready or given up. -/
def execDoeEnd (s : State) : Answer :=
  match s.plat.loading with
  | none => .next (s.doe 1)
  | some i =>
    let s := s.modPlat fun p => { p with loading := none }
    if !i.good then .next (s.doe 3)
    else
      match s.plat.phase with
      | .rootLoad => .next ((s.modPlat fun p => { p with phase := .rootRun, root := some i }).doe 0)
      | .opsLoad => .next (((s.modPlat fun p => { p with phase := .opsStart, ops := some i }).placeOps (some i)).doe 0)
      | .ready =>
        .next ((s.modPlat fun p => { p with phase := .live, oldOps := p.ops, ops := some i, liveDue := some (s.tick + 1000000000) }).placeOps (some i))
      | _ => .next (s.doe 1)

/-- What the operations firmware initialises as it starts (R415): the L2, the directory, the canals, the command processor's tables and the control
registers of the Dome, at their reset values; the sweeper's first pass is a whole interval away (R322). -/
def State.initControl (s : State) : State :=
  { s with
    l2 := []
    dome := { Dome.start with
      sweepAt := s.tick + 100000000, scrubAt := s.dome.scrubAt, corrected := s.dome.corrected, held := s.dome.held, later := s.dome.later, asks := s.dome.asks } }

/-- FIRMWARE_READY (R415, R418): the firmware that starts initialises the device; after an update, what has waited for it goes on. -/
def execFirmwareReady (s : State) : Answer :=
  match s.plat.phase with
  | .opsStart => .next ((s.modPlat fun p => { p with phase := .ready }).initControl)
  | .live =>
    let s' := ((s.modPlat fun p => { p with phase := .ready, oldOps := none, liveDue := none }).retryQueues none).post .faultRingDrain
    .next (if s.plat.liveDue.isSome then s'.doe 0 else s')
  | _ => .next s

/-- LIVE_UPDATE_TIMEOUT (R418): the old image is restarted, and END answers 1. -/
def execLiveUpdateTimeout (s : State) : Answer :=
  if s.plat.phase = .live ∧ s.plat.liveDue.any (fun d => decide (d ≤ s.tick)) then
    .next (((s.modPlat fun p => { p with ops := p.oldOps, oldOps := none, liveDue := none }).placeOps s.plat.oldOps).doe 1)
  else .next s

/-- From step 5 of the bring-up on (R416). -/
def Phase.late : Phase → Bool
  | .opsStart => true
  | .ready => true
  | .live => true
  | _ => false

/-- An image's security version. -/
def Image.version (i : Image) : Nat := fld i.header 8 4

/-- COMMIT (R416, R417): the fused minimums rise to the running images' versions. -/
def execDoeCommit (s : State) : Answer :=
  if !s.plat.phase.late then .next (s.doe 1)
  else
    .next ((s.modPlat fun p =>
      { p with minRoot := max p.minRoot ((p.root.map Image.version).getD 0), minOps := max p.minOps ((p.ops.map Image.version).getD 0) }).doe 0)

/-! ### Attestation and confidential contexts (R389, R391, R408, R419, R420) -/

/-- The device's identity key (R419). -/
def identityKey : Nat := ofBE Config.fusedSecret % (ecQ - 1) + 1

/-- The digest of an image, header included. -/
def imageDigest (i : Option Image) : List Byte := (i.map fun i => sha384 (i.header ++ i.body)).getD (zeros 48)

/-- The signed part of a report (R419); CTXID 0 names no context. -/
def State.report256 (s : State) (ctx : Nat) (nonce : List Byte) : List Byte :=
  let C := if ctx = 0 then none else s.context? ctx
  let p := s.plat
  [0x42, 0x4E, 0x41, 0x54] ++ toBytes 4 1 ++ fitTo 16 p.serial ++ fitTo 48 nonce ++ imageDigest p.root ++ imageDigest p.ops
    ++ toBytes 1 ((p.root.map Image.version).getD 0) ++ toBytes 1 ((p.ops.map Image.version).getD 0) ++ toBytes 1 p.minRoot ++ toBytes 1 p.minOps
    ++ toBytes 4 ctx ++ toBytes 4 (if C.any (·.conf) then 1 else 0) ++ toBytes 4 p.violations.toNat
    ++ ((C.map fun C => if C.conf then sha384 C.tenant else zeros 48).getD (zeros 48)) ++ toBytes 8 s.tick ++ zeros 16

/-- ATTEST (R416, R419): the signature's nonce is a free value. -/
def execDoeAttest (ctx : BitVec 32) (nonce : List Byte) (s : State) : Answer :=
  if !s.plat.phase.late || (ctx != 0 && (s.context? ctx.toNat).isNone) then .next (s.doe 1)
  else
    let b := s.report256 ctx.toNat nonce
    let k := Config.freeNat s.free % (ecQ - 1) + 1
    .next ({ s with free := s.free + 1 }.send (.doe 0 (b ++ ecdsaSign identityKey k (sha384 b))))

/-- CONFIDENTIAL_CONTEXT_CREATE (R408, R419): a point off the curve is refused, and no context is admitted while a stop is armed. The root makes
the context's memory key: what its pages held before is not readable under it (notes/assumptions/100). -/
def execConfidentialContextCreate (ctx : Nat) (key : List Byte) (s : State) : Answer :=
  let ok := match ecDecode key with
    | some (x, y) => ecOn x y
    | none => false
  if !ok || key.length ≠ 97 || s.dome.stopctl.getLsbD 0 || !s.ready then .next s
  else
    .next ({ s with free := s.free + 1 }.modContext
      ctx fun C => if C.conf then C else { C with conf := true, tenant := key, memKey := some s.free }).programFirewall

/-- A context leaves the device: its launches end, of which the trace tells (R405), its teams and their work are gone; the adds they have made stand. -/
def State.endContext (ctx : Nat) (s : State) : State :=
  let s := (s.settleApart fun _ => true).combine fun _ => true
  let s := s.launches.foldl (fun s L => if L.ctx = ctx ∧ !L.ended then s.trace 1 4 0 0 ctx L.record 4 else s) s
  let mine (t : Nat) : Bool := (s.launchOf? t).any fun L => L.ctx == ctx
  let ops (h : Nat) : List (Nat × Nat) := (indexed 0 s.teams).flatMap fun tT =>
    if mine tT.1 then (tT.2.colls.filter fun c => c.handle == h).map fun c => (c.seq, c.op) else []
  let left : List Gone := (s.context? ctx).toList.flatMap fun C => C.comms.map fun x => ⟨ctx, x, ops x.handle⟩
  { (s.abandon fun r => mine r.team).modDome fun d => { d with gone := left ++ d.gone.filter fun x => x.ctx != ctx } with
    teams := (indexed 0 s.teams).map fun (tT : Nat × Team) =>
      if mine tT.1 then { tT.2 with live := false, away := false, state := .ended, cmds := [], colls := [], locks := [], saved := [] } else tT.2
    launches := s.launches.map fun (L : Launch) => if L.ctx = ctx then { L with ended := true, killed := true, halted := true } else L
    cores := s.cores.map fun (c : Core) => { c with oplog := c.oplog.filter fun e => !mine e.team, spire := c.spire.filter fun x => !mine x.1 }
    contexts := s.contexts.filter fun (C : Context) => C.id != ctx }

/-- CONFIDENTIAL_CONTEXT_END (R389, R420): with its key gone, its pages and its save area hold what no agent can decrypt. -/
def execConfidentialContextEnd (ctx : Nat) (s : State) : Answer :=
  match s.context? ctx with
  | none => .next s
  | some C => if !C.conf then .next s else .next (s.endContext ctx).programFirewall

/-! ### The driver (R293, R317, R344, R349, R378, R399, R405, R407, R413, R420, R431) -/

/-- A context that the driver sets up. -/
def Context.fresh (id asid root saveBase : Nat) (cores : List Nat) : Context :=
  { id := id, asid := asid, root := root, cores := cores.filter (· < 192), queues := [], handles := [], handler := none
    watches := List.replicate 4 ⟨0, 8, false, 0, false⟩, comms := [], podTag := none, heapLen := 0, saveBase := saveBase, saveNext := 0, conf := false, memKey := none
    tenant := [], replay := none, sums := List.replicate 16 0 }

/-- Whether a watchpoint's range is one that R407 admits. -/
def Watch.legal (w : Watch) : Bool := isPow2 w.len && decide (8 ≤ w.len ∧ w.len ≤ 2 ^ 30) && w.base % w.len == 0

/-- An access of the control cores that the firewall blocks is counted (R420). -/
def State.violation (s : State) : State := s.modPlat fun p => { p with violations := p.violations + 1 }

/-- A write of the control cores to HBM (R420): one that the firewall blocks is dropped and counted. -/
def State.controlWrite (a : Nat) (b : List Byte) (s : State) : State :=
  if s.mayRange .cc a b.length true then
    ((s.combine (Partial.meets false a b.length)).dropLines [{ va := 0, len := b.length, place := .hbm a, perm := 7, kind := 0 }]).writeMem false a b
  else s.violation

/-- A read of HBM by the control cores (R389, R420), which carry no context key: of a confidential context's pages the ciphertext; one that the firewall
blocks returns zeros and is counted. -/
def State.controlRead (a n : Nat) (s : State) : State :=
  if s.mayRange .cc a n false then
    let s := s.combine (Partial.meets false a n)
    s.send (.control a (cellsRead s.mem a n))
  else s.violation.send (.control a (zeros n))

/-- What the operations firmware does for the driver: nothing unless it runs. -/
def State.serve (d : DriverCmd) (s : State) : State :=
  match d with
  | .addContext id asid root saveBase cores =>
    if (s.context? id).isSome || asid ≥ 65536 then s else { s with contexts := s.contexts ++ [Context.fresh id asid root saveBase cores] }
  | .dropContext id => s.endContext id
  | .addQueue ctx base size => s.modContext ctx fun C => if C.queues.length ≥ 16 then C else { C with queues := C.queues ++ [⟨base, size, 0, 0⟩] }
  | .setHandler ctx h => s.modContext ctx fun C => { C with handler := h }
  | .setWatch ctx i w admin => s.modContext ctx fun C => if (admin && C.conf) || !w.legal then C else { C with watches := C.watches.set i { w with admin := admin } }
  | .setComm ctx c => s.modContext ctx fun C => { C with comms := { c with issued := 0 } :: C.comms.filter fun x => x.handle != c.handle }
  | .setPod ctx tag n => s.modContext ctx fun C => { C with podTag := tag, heapLen := n }
  | .setReplay ctx a => s.modContext ctx fun C => { C with replay := a }
  | .setRing base size hdr =>
    if base % 64 = 0 ∧ hdr % 64 = 0 ∧ 64 ≤ size ∧ size ≤ 1048576 ∧ isPow2 size ∧ base + 64 * size ≤ hbmSize ∧ hdr + 64 ≤ hbmSize then
      (s.controlWrite hdr (zeros 64)).modDome fun d => { d with ring := some (base, size, hdr) }
    else s
  | .setTrace base size => s.modDome fun d => { d with trace := some (base, size), tracePos := 0, traceFree := size }
  | .setRoute dev ports => s.modDome fun d => { d with routes := (dev, ports) :: d.routes.filter fun r => r.1 != dev }
  | .setHdm rs => s.modPlat fun p => { p with hdm := rs }
  | .writeHbm a b => s.controlWrite a b
  | .readHbm a n => s.controlRead a n
  | .readControl a => s.send (.control a (toBytes 8 (s.controlWord a).toNat))
  | .sensors _ _ _ => s
  | .writeHost _ _ => s
  | .upset _ _ => s
  | .tagError _ => s

/-- The range of HBM that the control cores access for a request. -/
def DriverCmd.range : DriverCmd → Option (Nat × Nat)
  | .writeHbm a b => some (a, b.length)
  | .readHbm a n => some (a, n)
  | .setRing _ _ hdr => some (hdr, 64)
  | _ => none

/-- A driver's request, a report of the sensors, or a write of the host to its own memory. A request whose access meets a line that the host holds waits for
it (R333, R336), and those that come after it wait behind it. -/
def State.drive (d : DriverCmd) (s : State) : State :=
  match d with
  | .sensors current junction thermN =>
    let s := s.modPlat fun p => { p with current := current, junction := junction, thermN := thermN }
    if junction > 115 then s.requestReset true else s
  | .writeHost a b =>
    ((s.combine (Partial.meets true a b.length)).dropRange true a b.length).writeMem true a b
  | .upset u bits => s.upset u bits
  | .tagError x => s.refetch x
  | d =>
    if !s.ready then s
    else
      match d.range with
      | none => s.serve d
      | some (a, n) =>
        if !s.dome.asks.isEmpty then s.modDome fun x => { x with asks := x.asks ++ [d] }
        else
          match s.heldLine a n with
          | some l => (s.askBack l).modDome fun x => { x with asks := x.asks ++ [d] }
          | none => s.serve d

end Sys2Proof.Machine
end

