-- ==== Sys2Proof/Machine/Save.lean ====
section
/-! DEFINITION. Swaps, pre-emption and restore (R41, R164, R205, R218, R304–R316, R397, R398). -/

namespace Sys2Proof.Machine

/-! ### Swap eligibility (R304) -/

/-- The park threshold of a class, in ticks, and whether its teams may be swapped out (R301). -/
def State.parkTicks (s : State) (cls : Nat) : Nat := natBits (((s.dome.classcfg[cls]?).map BitVec.toNat).getD 0) 19 0 * 1000
def State.swapEnabled (s : State) (cls : Nat) : Bool := natBit (((s.dome.classcfg[cls]?).map BitVec.toNat).getD 0) 29

/-- Whether every live group of a team has been parked for the threshold. -/
def Team.longParked (T : Team) (now ticks : Nat) : Bool :=
  (T.state == .running || T.state == .ended) && T.groups.all fun g => g.gone || g.park.any fun p => decide (p.since + ticks ≤ now)

/-- Whether a team is swap-eligible: every team of its cluster has been parked for the threshold of its class. -/
def State.swappable (s : State) (t : Nat) : Bool :=
  match s.team? t, s.launchOf? t with
  | some T, some L =>
    T.live && !T.away && s.swapEnabled L.cls
      && (s.cluster t false).all fun u => (s.team? u).any fun U => U.longParked s.tick (s.parkTicks L.cls)
  | _, _ => false

/-- Whether some team of the partition that waits would fit once a cluster has left. -/
def State.wanted (s : State) (t : Nat) : Bool :=
  match s.launchOf? t with
  | none => false
  | some L =>
    let s' := (s.cluster t false).foldl (fun (x : State) u => x.modTeam u fun T => { T with live := false }) s
    (indexed 0 s.launches).any (fun m => s.samePartition m.2 L && (s.planFor m.1).isNone && (s'.planFor m.1).isSome)
      || (indexed 0 s.teams).any fun u =>
        u.2.live && u.2.away && ((s.launchOf? u.1).any fun M => s.samePartition M L) && (s.restorePlan u.1).isNone && (s'.restorePlan u.1).isSome

/-- SWAP_ELIGIBLE (R304): the cluster is eligible while every team of it stays parked; where a waiting team would take its room, it is swapped out and
gives way to it. While the firmware is updated no swap begins (R418). -/
def execSwapEligible (t : Nat) (s : State) : Answer :=
  let ok := s.swappable t
  let s := (s.cluster t false).foldl (fun (x : State) u => x.modTeam u fun T => { T with elig := ok }) s
  if ok && s.plat.phase != .live && s.wanted t then
    .next (((s.cluster t false).foldl (fun (x : State) u => x.modTeam u fun T => { T with stop := true, yields := true }) s).post (.preempt t))
  else .next s

/-! ### Pre-emption (R306, R307) -/

/-- Whether pre-emption discards a team's tiles (R205, R397): they are declared recomputable, every live group has a restart address, and the
launch is not of mode 2; a launch without tiles has none to discard (notes/assumptions/127, DESIGN CHOICE). -/
def Team.discards (T : Team) (L : Launch) : Bool :=
  !L.tsaved && L.tiles != 0 && L.detm != 2 && T.groups.all fun g => g.gone || g.restart != -1#64


/-- Whether a group's work in flight has drained as far as a save needs (R307): each of its loads and stores is done, waits in the operand log, or has
failed. -/
def groupDrained (t g : Nat) (G : Group) (log : List LogEntry) (keepTiles : Bool) : Bool :=
  let rest (id : Nat) (ns : List Nack) : Bool := !ns.isEmpty || log.any fun e => e.team == t && e.grp == g && e.id == id
  G.loads.all (fun l => !l.blocks && rest l.id l.nacks) && G.stores.all (fun x => rest x.id x.nacks) && (!keepTiles || G.mmas.isEmpty)

/-- Whether a team can be saved: its handler does not run, and everything that must complete has. -/
def State.canSave (s : State) (t : Nat) (T : Team) (L : Launch) : Bool :=
  let log := ((s.cores[T.core]?).map (·.oplog)).getD []
  (T.state == .running || T.state == .stopping || T.state == .ended) && T.cmds.all (fun c => c.faulted || c.carried || c.reissued)
    && (indexed 0 T.groups).all (fun gG => groupDrained t gG.1 gG.2 log (!T.discards L))
    && !s.remotes.any fun r => r.team == t && r.cmd.isNone

/-- The flags of the clause in progress fall (true: are raised again) (R307). -/
def Group.clauseFlags (raise : Bool) (g : Group) : Group :=
  match g.clause.bind fun c => g.tags.find? fun t => t.id == c.tag with
  | none => g
  | some t =>
    if raise then [t.fa, t.fb].foldl (fun (g : Group) f => match f with
        | some n => g.raiseFlag n
        | none => g) g
    else (g.lower? t.fa).lower? t.fb

/-- A command as the save leaves it: one that is issued again starts over. -/
def Cmd.atSave (c : Cmd) : Cmd := if c.reissued then { c with pos := 0, retry := [], held := [], waiting := 0, got := [] } else c

/-- A team as its image holds it: what drains has drained, its MMAs are complete or abandoned. -/
def Team.atSave (T : Team) (L : Launch) : Team :=
  { T with
    discard := T.discards L
    groups := T.groups.map fun g => { g.clauseFlags false with mmas := [] }
    cmds := T.cmds.map Cmd.atSave
    locks := T.locks.filter fun l => !T.groups.any fun g => g.mmas.any fun m => m.lock == l.cmd }

/-- The flag that a command's image names: a Spire command's is its clause's FB. -/
def Team.cmdFlag (T : Team) (c : Cmd) : Option Nat :=
  match c.tag with
  | some tag => ((T.groups[c.grp]?).bind fun g => g.tags.find? fun t => t.id == tag).bind (·.fb)
  | none => c.flag

/-- The twelve sections of a team's image (R313, R398). -/
def State.saveSections (s : State) (t : Nat) (T : Team) (L : Launch) (C : Context) : List (List Byte) :=
  let mode := (L.replay.map (·.2)).getD 0
  let held := (firstHeld T.groups).bind fun g => (T.groups[g]?).bind fun G => G.held.head?
  [T.groupBlocks, T.laneBlocks, T.accBytes, if T.discard then [] else T.tileBytes, T.padBytes, barrierBytes T L
   , fitTo 1024 ((T.locks.filter fun l => T.cmds.any fun c => c.id == l.cmd && c.carried).flatMap Lock.bytes), fitTo 4096 (s.logBytes t T), T.resvBytes
   , ((s.cores[T.core]?).map fun c => c.tableBytes C.id).getD (zeros 1024)
   , fitTo 4096 ((T.cmds.filter fun c => !c.faulted).flatMap fun c => { c with flag := T.cmdFlag c }.image)
   , toBytes 1 L.detm ++ toBytes 1 mode ++ zeros 6 ++ toBytes 8 T.ordered ++ toBytes 8 T.nextCmd ++ zeros 40
      ++ fitTo 64 ((held.map (s.trapBytes t)).getD []) ++ zeros 128]

/-- The header of a team's image (R312). -/
def State.saveHeader (s : State) (T : Team) (L : Launch) (C : Context) (table : List (Nat × Nat)) : List Byte :=
  let core := (s.cores[T.core]?).getD Core.start
  [0x42, 0x4E, 0x43, 0x53] ++ toBytes 2 1 ++ toBytes 2 12 ++ toBytes 4 L.ctx ++ toBytes 4 T.ordinal ++ toBytes 8 s.tick ++ toBytes 8 L.record
    ++ toBytes 1 L.width ++ toBytes 1 T.groups.length ++ toBytes 1 L.aregs
    ++ toBytes 1 (L.tiles + if T.discard || L.tiles == 0 then 0 else 128) ++ toBytes 2 L.vregs ++ toBytes 1 T.pos
    ++ toBytes 1 ((if T.discard then 1 else 0) + if T.groups.any (fun g => !g.held.isEmpty) then 2 else 0) ++ toBytes 4 T.size
    ++ toBytes 4 core.nans.toNat ++ toBytes 4 (maskOf (T.resv.map (·.isSome))) ++ toBytes 4 (maskOf ((core.tablesOf C.id).map (·.isSome)))
    ++ toBytes 8 (sectionsEnd table) ++ fitTo 192 (tableImage table)

/-- The most that a team's image can take, in pages of 4,096 bytes: the place that each team has in its context's save area. -/
def imageRoom (L : Launch) : Nat :=
  let lanes := L.width * L.grps
  (256 + up256 (2560 * L.grps) + up256 ((128 + 8 * L.vregs) * lanes) + up256 (128 * L.aregs * lanes) + up256 (4096 * lanes * L.tiles) + up256 L.spad
    + 512 + 1024 + 4096 + (524288 + 32 * 64) + 1024 + 4096 + 256 + 4095) / 4096 * 4096

/-- The modified lines of a core written back to their home slices, and clean from then on (R277, R330). -/
def State.cleanCore (core : Nat) (s : State) : State :=
  (s.writeBack (s.linesOf core fun _ => true)).modCore core fun c => { c with l1 := c.l1.map fun l => { l with dirty := false } }

/-- The image of a team written, and the team off its core (R306): its part of the operand log goes with it, and its writes are performed at sys (R277). -/
def State.saveTeam (t : Nat) (s : State) : State :=
  match s.team? t, s.launchOf? t, s.contextOf? t with
  | some T, some L, some C =>
    let T' := T.atSave L
    let s := s.cleanCore T.core
    let s' := s.abandon fun r => r.team == t && r.cmd.any fun id => T.cmds.any fun c => c.id == id && c.reissued
    let at_ := if T.image = 0 then C.saveBase + C.saveNext else T.image
    let s' := if T.image = 0 then s'.modContext C.id fun C => { C with saveNext := C.saveNext + imageRoom L } else s'
    let secs := (s'.modTeam t fun _ => T').saveSections t T' L C
    let table := sectionTable 256 secs
    let mine := (((s.cores[T.core]?).map (·.oplog)).getD []).filter fun e => e.team == t
    ((s'.devPoke at_ (s.saveHeader T' L C table ++ secs.flatMap pad256) C.memKey).modTeam t fun _ =>
        { T' with away := true, stop := false, elig := false, waited := false, image := at_, saved := mine }).modCore T.core fun c =>
      { c with oplog := c.oplog.filter fun e => e.team != t, spire := c.spire.filter fun x => x.1 != t }
  | _, _, _ => s

/-- PREEMPT (R306): every team of the cluster stops, then, once all can be saved, leaves its core. While the firmware is updated it waits (R418): teams
that have not stopped run on, and it is looked at again on the next tick. -/
def execPreempt (t : Nat) (s : State) : Answer :=
  match s.launchOf? t with
  | none => .next s
  | some L =>
    if s.plat.phase == .live then
      .next (if (s.team? t).any (·.stop) then s else s.modDome fun d => { d with later := d.later ++ [.preempt t] })
    else
    let ts := s.cluster t false
    let s := ts.foldl (fun (x : State) u => x.modTeam u fun T => { T with stop := true }) s
    if ts.all fun u => (s.team? u).any fun U => s.canSave u U L then
      .next (ts.foldl (fun x u => x.saveTeam u) (ts.foldl (fun x u => x.settleAll u) s))
    else .next s

/-! ### Restore (R308, R309, R315, R316) -/

/-- A group brought back into its slot (R316). -/
def Group.reseat (b : Nat × Nat × Nat) (tick : Nat) (g : Group) : Group :=
  { g with dp := b.1, slot := b.2.1, quarter := b.2.2, ready := 0, starve := 0, sready := 0, sstarve := 0, pass := none, stallS := none, stallL := none
           park := g.park.map fun p => { p with since := tick, written := true } }

/-- A discarding restore (R308). -/
def Group.discarded (T : Team) (n : Nat) (g : Group) : Group :=
  let g := { g with
    regs := g.regs.goto g.restart, runs := [], run := none, clause := none, tags := [], lq := [], latch := none, mmas := []
    tiles := g.tiles.map fun t => t.map fun _ => Acc.zero, f := Vector.replicate 12 0, park := none, woken := false
    skipS := false, skipL := false, whole := false, resumeS := none, resumeL := none, cancel := none
    lanes := g.lanes.map fun l => { l with nest := if l.nest = 255 then 255 else 0 } }
  (T.cmds.filter fun c => c.grp == n && c.carried && !c.faulted).foldl (fun (g : Group) c => match c.flag with
    | some f => g.raiseFlag f
    | none => g) g

/-- The tables that an image records, loaded into a core (R194, R316). -/
def State.reloadTables (s : State) (key : Option Nat) (image off mask ctx core : Nat) : State :=
  (List.range 8).foldl (fun (s : State) n =>
    if natBit mask n then (s.loadTable ctx core n (s.devRead (image + off + 128 * n) 68 key)).getD s else s) s

/-- One team brought back (R316), but for its waits. -/
def State.seatTeam (x : Seat) (s : State) : State :=
  match s.team? x.team, s.contextOf? x.team with
  | some T, some C =>
    let word (off n : Nat) : Nat := ofBytes (s.devRead (T.image + off) n C.memKey)
    let s := if (s.launchOf? x.team).any (·.fuse) then s.clearL1 [x.core] else s
    let s := s.reloadTables C.memKey T.image (word (64 + 144) 8) (word 52 4) C.id x.core
    let live := (indexed 0 T.resv).filter fun r => r.2.isSome
    let bases := (live.map (·.1)).zip x.bases
    let gs := (indexed 0 T.groups).map fun g =>
      let h := if T.discard then g.2.discarded T g.1 else g.2.clauseFlags true
      h.reseat (x.binds.getD g.1 (0, 0, 0)) s.tick
    let T' := { T with
      away := false, core := x.core, waited := false, yields := false, saved := [], groups := gs
      resv := (indexed 0 T.resv).map fun r => r.2.map fun v => { v with base := ((bases.find? fun b => b.1 == r.1).map (·.2)).getD v.base } }
    let spire := (T.cmds.filter fun c => c.reissued && !c.faulted).map fun c => (x.team, c.id)
    let s := if T.discard then { s with poison := s.poison.filter fun u => !(indexed 0 T.groups).any fun g => inTile x.team g.1 (fun _ => true) u } else s
    let s := (s.modTeam x.team fun _ => T').modCore x.core fun c =>
      { c with oplog := c.oplog ++ T.saved, gated := false, spire := c.spire ++ spire }
    if spire.isEmpty then s else s.post (.spireComplete x.core)
  | _, _ => s

/-- The acquire at sys of a restored team, then its waits look again (R277, R309). -/
def State.resumeTeam (t : Nat) (s : State) : State :=
  match s.agentOf? t, s.team? t with
  | some a, some T =>
    let s := (s.acquire a 5).retryLog a.asid T.core
    if T.state = .running then s.rouse t else s
  | _, _ => s

/-- What a core lacks for a team (R315), as the bits of a CAPACITY_WAIT mask. -/
def Room.lacks (r : Room) (L : Launch) (runs : Bool) (bare : Bool) : List Bool :=
  let bytes := L.width * L.vregs * 8
  let seats := ((List.range 4).map fun d => r.free d / bytes).foldl (· + ·) 0
  let groups := decide (r.groups.length + L.grps > 32)
  let regs := decide (seats < L.grps) || (!groups && (bindGroups L L.grps r).isNone)
  [decide (r.teams ≥ 8) || r.fused, groups, regs
   , decide ((r.groups.map fun g => g.2.2.2.2).foldl (· + ·) 0 + L.grps * (L.width * (L.aregs + if bare then 0 else 32 * L.tiles)) > 6144)
   , decide (r.pad + L.spad > 4194304), !runs, decide (L.cw * L.ch > 1) || L.fuse]

/-- The mask over the cores of a partition. -/
def State.lacking (s : State) (T : Team) (L : Launch) (C : Context) : Nat :=
  C.cores.foldl (fun m c => m ||| maskOf ((s.room c).lacks L (allotRuns (s.coreResv c) T.resvLens).isSome T.discard)) 0

/-- RESTORE (R296, R315, R316): the cluster goes back as a whole, in its turn, onto the rectangle of a core; where no core qualifies, the driver hears
of it once. -/
def execRestore (t core : Nat) (s : State) : Answer :=
  match s.team? t, s.launchOf? t, s.contextOf? t with
  | some T, some L, some C =>
    if !T.live || !T.away || !s.ready then .next s
    else
      match s.seatsAt t core with
      | some (_, seats) =>
        if s.givesWay t || s.othersFirst T.launch L || s.mateFirst T.launch T.cluster then .next s
        else
          let s := (s.takeRoom (seats.map (·.core)))
          let s := seats.foldl (fun s x => s.seatTeam x) s
          .next (seats.foldl (fun s x => s.resumeTeam x.team) s)
      | none =>
        if T.waited || (s.restorePlan t).isSome then .next s
        else
          .next (((s.cluster t true).foldl (fun (x : State) u => x.modTeam u fun T => { T with waited := true }) s).report
            { kind := 7, ctx := C.id, store := s.lacking T L C, team := T.ordinal })
  | _, _, _ => .next s

end Sys2Proof.Machine
end

