-- ==== Sys2Proof/Machine/ScalarArith.lean ====
section
/-! DEFINITION. Scalar integer arithmetic and logic (R73–R82). -/

namespace Sys2Proof.Machine

/-- sd := f(sa, sb), then the next word (R73). -/
def scalarAlu (sd sa sb : SReg) (f : Word → Word → Word) (s : State) : Answer :=
  scalarStep 4 (fun r => r.setS sd (f (r.getS sa) (r.getS sb))) s

/-- sd := f(sa), then the next word. -/
def scalarAlu1 (sd sa : SReg) (f : Word → Word) (s : State) : Answer :=
  scalarStep 4 (fun r => r.setS sd (f (r.getS sa))) s

/-- floor(a × b ÷ 2^64) (R73). -/
def mulHigh (u : Bool) (a b : Word) : Word :=
  if u then BitVec.ofNat 64 (a.toNat * b.toNat / 2 ^ 64) else BitVec.ofInt 64 (a.toInt * b.toInt / 2 ^ 64)
/-- DIV of R74. -/
def divWord (u : Bool) (a b : Word) : Word := BitVec.ofNat 64 (divide (!u) 64 a.toNat b.toNat)
/-- REM of R74. -/
def remWord (u : Bool) (a b : Word) : Word := BitVec.ofNat 64 (remainder (!u) 64 a.toNat b.toNat)
/-- The shifts of R75. -/
def shlWord (a : Word) (n : Nat) : Word := BitVec.ofNat 64 (shiftLeft 64 a.toNat n)
def shrWord (a : Word) (n : Nat) : Word := BitVec.ofNat 64 (shiftRight 64 a.toNat n)
def sarWord (a : Word) (n : Nat) : Word := BitVec.ofNat 64 (shiftArith 64 a.toNat n)
/-- MIN and MAX of R73. -/
def minWord (u : Bool) (a b : Word) : Word := if (if u then b.ult a else b.slt a) then b else a
def maxWord (u : Bool) (a b : Word) : Word := if (if u then a.ult b else a.slt b) then b else a
/-- POS and WID of a field descriptor (R78). -/
def fieldPos (d : Word) : Nat := natBits d.toNat 5 0
def fieldWid (d : Word) : Nat := natBits d.toNat 14 8

def execAdd (sd sa sb : SReg) (s : State) : Answer := scalarAlu sd sa sb (fun a b => a + b) s
def execSub (sd sa sb : SReg) (s : State) : Answer := scalarAlu sd sa sb (fun a b => a - b) s
def execMul (sd sa sb : SReg) (s : State) : Answer := scalarAlu sd sa sb (fun a b => a * b) s
def execMulh (u : Bool) (sd sa sb : SReg) (s : State) : Answer := scalarAlu sd sa sb (mulHigh u) s
def execDiv (u : Bool) (sd sa sb : SReg) (s : State) : Answer := scalarAlu sd sa sb (divWord u) s
def execRem (u : Bool) (sd sa sb : SReg) (s : State) : Answer := scalarAlu sd sa sb (remWord u) s
def execAnd (sd sa sb : SReg) (s : State) : Answer := scalarAlu sd sa sb (fun a b => a &&& b) s
def execOr (sd sa sb : SReg) (s : State) : Answer := scalarAlu sd sa sb (fun a b => a ||| b) s
def execXor (sd sa sb : SReg) (s : State) : Answer := scalarAlu sd sa sb (fun a b => a ^^^ b) s
def execShl (sd sa sb : SReg) (s : State) : Answer := scalarAlu sd sa sb (fun a b => shlWord a b.toNat) s
def execShr (sd sa sb : SReg) (s : State) : Answer := scalarAlu sd sa sb (fun a b => shrWord a b.toNat) s
def execSar (sd sa sb : SReg) (s : State) : Answer := scalarAlu sd sa sb (fun a b => sarWord a b.toNat) s
def execMin (u : Bool) (sd sa sb : SReg) (s : State) : Answer := scalarAlu sd sa sb (minWord u) s
def execMax (u : Bool) (sd sa sb : SReg) (s : State) : Answer := scalarAlu sd sa sb (maxWord u) s

/-- BFX (R78). -/
def execBfx (sd sa sb : SReg) (s : State) : Answer :=
  scalarAlu sd sa sb (fun a d => BitVec.ofNat 64 (fieldExtract a.toNat (fieldPos d) (fieldWid d))) s
/-- BFI (R78): it reads sd as a source. -/
def execBfi (sd sa sb : SReg) (s : State) : Answer :=
  scalarStep 4 (fun r =>
    let d := r.getS sb
    r.setS sd (BitVec.ofNat 64 (fieldInsert (r.getS sd).toNat (r.getS sa).toNat (fieldPos d) (fieldWid d)))) s

def execAddi (sd sa : SReg) (imm : BitVec 13) (s : State) : Answer := scalarAlu1 sd sa (fun a => a + imm.signExtend 64) s
def execAndi (sd sa : SReg) (imm : BitVec 13) (s : State) : Answer := scalarAlu1 sd sa (fun a => a &&& imm.signExtend 64) s
def execOri (sd sa : SReg) (imm : BitVec 13) (s : State) : Answer := scalarAlu1 sd sa (fun a => a ||| imm.signExtend 64) s
def execXori (sd sa : SReg) (imm : BitVec 13) (s : State) : Answer := scalarAlu1 sd sa (fun a => a ^^^ imm.signExtend 64) s
def execShli (sd sa : SReg) (cnt : BitVec 6) (s : State) : Answer := scalarAlu1 sd sa (fun a => shlWord a cnt.toNat) s
def execShri (sd sa : SReg) (cnt : BitVec 6) (s : State) : Answer := scalarAlu1 sd sa (fun a => shrWord a cnt.toNat) s
def execSari (sd sa : SReg) (cnt : BitVec 6) (s : State) : Answer := scalarAlu1 sd sa (fun a => sarWord a cnt.toNat) s

/-- MOVI (R77). -/
def execMovi (sd : SReg) (v : BitVec 32) (s : State) : Answer := scalarStep 8 (fun r => r.setS sd (v.signExtend 64)) s
/-- MOVHI (R77): the low half is kept. -/
def execMovhi (sd : SReg) (v : BitVec 32) (s : State) : Answer :=
  scalarStep 8 (fun r => r.setS sd (v ++ (r.getS sd).extractLsb' 0 32)) s

def execPopc (sd sa : SReg) (s : State) : Answer := scalarAlu1 sd sa (fun a => BitVec.ofNat 64 (popCount 64 a.toNat)) s
def execClz (sd sa : SReg) (s : State) : Answer := scalarAlu1 sd sa (fun a => BitVec.ofNat 64 (clz 64 a.toNat)) s
def execCtz (sd sa : SReg) (s : State) : Answer := scalarAlu1 sd sa (fun a => BitVec.ofNat 64 (ctz 64 a.toNat)) s
def execBrev (sd sa : SReg) (s : State) : Answer := scalarAlu1 sd sa (fun a => BitVec.ofNat 64 (bitReverse 64 a.toNat)) s

/-- CMP (R80). -/
def execCmp (c : ScalarCond) (qd : QReg) (sa sb : SReg) (s : State) : Answer :=
  scalarStep 4 (fun r => r.setQ qd (condHolds c (r.getS sa) (r.getS sb))) s
/-- CMPI (R80). -/
def execCmpi (c : ScalarCond) (qd : QReg) (sa : SReg) (v : BitVec 32) (s : State) : Answer :=
  scalarStep 8 (fun r => r.setQ qd (condHolds c (r.getS sa) (v.signExtend 64))) s
/-- QOP (R81). -/
def execQop (f : QFun) (qd qa qb : QReg) (s : State) : Answer :=
  scalarStep 4 (fun r => r.setQ qd (qopValue f (r.getQ qa) (r.getQ qb))) s
/-- SEL (R82). -/
def execSel (sd : SReg) (q : QReg) (sa sb : SReg) (s : State) : Answer :=
  scalarStep 4 (fun r => r.setS sd (if r.getQ q then r.getS sa else r.getS sb)) s

end Sys2Proof.Machine
end

