-- ==== Sys2Proof/Machine/Schedule.lean ====
section
/-! DEFINITION. Which streams may issue, the issue choice of a core-clock cycle, and its slot leaves (R238, R297–R299, R394, R402, R403). -/

namespace Sys2Proof.Machine

/-! ### Streams that may issue -/

/-- Whether the clocks of the device are gated (R408), or a reset has stopped its cores (R414). -/
def State.stopped (s : State) : Bool := s.dome.stopctl.getLsbD 1 || s.plat.phase == .draining || s.plat.phase == .held

/-- Whether the answers that a blocked lane word waits for have all come (R347). -/
def Group.answered (g : Group) : Bool := g.loads.any fun l => l.blocks && l.waiting == 0

/-- Whether a team's streams start instructions in a core-clock cycle: a team stops with the cycle in which a trap of one of its groups is raised, so that
every trap of that cycle is held; the group that holds one starts nothing more (R306, R375, R376). -/
def Team.issues (T : Team) (G : Group) (cycle : Nat) : Bool :=
  T.live && !T.away && !G.gone && !T.stop && (T.state == .running || (T.state == .stopping && T.stopped == cycle && G.held.isEmpty))

/-- Whether a stopping team's group still ends a lane word that other devices have answered: the word has issued, and writes its registers (R306, R375). -/
def Team.finishes (T : Team) (G : Group) : Bool :=
  T.live && !T.away && !G.gone && G.answered && ((T.state == .running && T.stop) || T.state == .stopping)

/-- Whether a group's lane stream may go on; whether its next word would stall is for its trial to tell (R297). -/
def State.laneMay (s : State) (t g : Nat) : Bool :=
  match s.team? t, s.group? t g with
  | some T, some G =>
    !s.stopped && ((T.issues G s.plat.cycles && G.park.isNone) || T.finishes G) && (G.run.isSome || !G.runs.isEmpty) && G.pass.isNone
      && !G.stallL.any Stall.isPage && !(G.stallL == some .remote && !G.answered)
  | _, _ => false

/-- Whether a scalar access of the group waits for another device. -/
def State.scalarAway (s : State) (t g : Nat) : Bool := s.remotes.any fun r => r.team == t && r.grp == g && r.sreg.any fun x => x.1 == .scalar

/-- Whether a group's scalar stream may issue (R299); under mode 2 it issues nothing until the run it enqueued has finished (R394). -/
def State.scalarMay (s : State) (t g : Nat) : Bool :=
  match s.team? t, s.group? t g, s.launchOf? t with
  | some T, some G, some L =>
    !s.stopped && T.issues G s.plat.cycles && G.park.isNone && !(L.detm == 2 && G.pending != 0) && !G.stallS.any Stall.isPage && !s.scalarAway t g
  | _, _, _ => false

/-- Whether a team's handler slot may issue (R299). -/
def State.handlerMay (s : State) (t : Nat) : Bool :=
  match s.team? t with
  | some T => !s.stopped && T.live && !T.away && (T.state == .handling || T.state == .dumping) && T.handler.trap.isSome
  | none => false

/-- A launch's first issue is noted (R229). -/
def State.noteIssue (t : Nat) (s : State) : State :=
  match s.team? t with
  | some T => s.modLaunch T.launch fun L => if L.firstIssue = 0 then { L with firstIssue := s.tick } else L
  | none => s

/-- A word that did not stall has issued. -/
def Issued (c : Cur) (r : Answer) : Answer :=
  match r with
  | .next s => .next (if (s.stallOf c).isSome then s else s.noteIssue c.team)
  | r => r

/-! ### The next word of a group -/

/-- The next word of the clause in progress, where its bytes are at hand; nothing of the state changes. -/
def State.peekWord (s : State) (t g : Nat) : Option (BitVec 96) :=
  match s.group? t g, s.launchOf? t, s.agentOf? t with
  | some G, some L, some a =>
    G.clause.bind fun c =>
      match (s.locate { a with l1 := false } (L.lbase + 12 * c.next) 12 false).1 with
      | .parts ps => if ps.all fun p => p.permits .fetch && !p.isAbsent && !p.isHeld then some (BitVec.ofNat 96 (ofBytes (s.readParts ps))) else none
      | .fault _ => none
  | _, _, _ => none

/-- The pipe of a long word of a family that can be packed: 0 to 8 the lane arithmetic pipes of R103, 9 and 10 the accumulator pipes of R154, 11 the memory
pipe of R170 (with ALD and AST, R154); the cross-lane words of R149 have none (R238). ARED runs in the cross-lane pipe and is packed as little as its words
(notes/assumptions/137, DEDUCED). -/
def longPipe (op fn : Nat) : Option Nat :=
  if [0x01, 0x04, 0x05, 0x06, 0x07, 0x30, 0x31, 0x33].contains op then some 0
  else if op = 0x02 then some 1
  else if op = 0x03 || (op = 0x10 && (fn = 3 || fn = 4)) then some 2
  else if [0x10, 0x11, 0x13].contains op then some 3
  else if op = 0x12 then some 4
  else if [0x20, 0x21, 0x22].contains op then some 5
  else if [0x28, 0x29, 0x2A, 0x2B].contains op then some 6
  else if op = 0x32 || op = 0x34 then some 7
  else if [0x38, 0x39, 0x3A, 0x3B].contains op then some 8
  else if [0x50, 0x51, 0x52, 0x53].contains op then some 9
  else if op = 0x54 || op = 0x56 then some 10
  else if op = 0x55 || (0x58 ≤ op && op ≤ 0x65) then some 11
  else none

/-- The pipe of a short operation (R50, R103, R154); LD, ST, LDS and STS run in the memory pipe, 11 (R170). -/
def shortPipe (op : Nat) : Option Nat :=
  if op = 0x03 then some 1
  else if (1 ≤ op && op ≤ 0x0F) || op = 0x1E || op = 0x1F || op = 0x2A then some 0
  else if 0x10 ≤ op && op ≤ 0x17 then some 3
  else if 0x18 ≤ op && op ≤ 0x1D then some 8
  else if 0x20 ≤ op && op ≤ 0x23 then some 11
  else if 0x24 ≤ op && op ≤ 0x27 then some 4
  else if op = 0x28 || op = 0x29 then some 9
  else none

/-- The pipes of a word as a set of bits; none where the word cannot be packed. -/
def wordPipes (w : BitVec 96) : Option Nat :=
  match decodeLane w with
  | .ok (.pairWord p) =>
    some (((shortPipe p.slot0.op.toNat).elim 0 fun k => 2 ^ k) ||| ((shortPipe p.slot1.op.toNat).elim 0 fun k => 2 ^ k))
  | .ok _ => (longPipe (w.extractLsb' 88 7).toNat (w.extractLsb' 84 4).toNat).map fun k => 2 ^ k
  | .error _ => none

/-- How often a word reads each v-register bank (R49). -/
def wordBanks (w : BitVec 96) (width : Nat) : List Nat :=
  let regs : List Nat :=
    match decodeLane w with
    | .ok (.pairWord p) => p.slot0.readsV ++ p.slot1.readsV
    | .ok i =>
      match laneForm width i with
      | some (f, lw) => (readRegs i f lw).filterMap fun r => if r.1 then none else some r.2
      | none => []
    | .error _ => []
  (List.range 4).map fun k => (regs.filter fun r => r % 4 == k).length

/-- The participating lanes of a group's next word. -/
def Group.joins (G : Group) (w : BitVec 96) : Bool :=
  let act := G.active
  match decodeLane w with
  | .ok (.pairWord p) =>
    act.any fun i => (G.lane i).passes (if p.slot0.guard = 15 then 127 else p.slot0.guard.toNat) p.slot0.neg
      || (G.lane i).passes (if p.slot1.guard = 15 then 127 else p.slot1.guard.toNat) p.slot1.neg
  | _ => let l := laneFields w; act.any fun i => (G.lane i).passes l.guard.toNat l.neg

/-- Whether a word is a pair with an empty slot. -/
def halfEmpty (w : BitVec 96) : Bool :=
  match decodeLane w with
  | .ok (.pairWord p) => p.slot0.op == 0 || p.slot1.op == 0
  | _ => false

/-! ### The issue choice (R297) -/

/-- What a stream's next instruction would do in this cycle: the stall it would end in; for a lane stream also its next word. -/
structure Trial where
  stall : Option Stall
  word  : Option (BitVec 96)

/-- The trials of a cycle: the streams that may go on, by team and group, and the handler slots whose next instruction would not stall. -/
structure Trials where
  lane    : Nat → Nat → Option Trial
  scalar  : Nat → Nat → Option Trial
  handler : Nat → Bool

/-- A group bound to a datapath, as the choice sees it. -/
structure Seen where
  team  : Nat
  grp   : Nat
  G     : Group
  cls   : Nat
  ctx   : Nat
  conf  : Bool
  ready : Bool
  tries : Bool
  stall : Option Stall
  word  : Option (BitVec 96)
  since : Nat
  wait  : Nat
  slot  : Nat

/-- The groups of a core's resident teams. A stream that its next instruction stalls is not ready; it tries the instruction once, and marks its stall;
a wait for a page or another device that has ended is tried again. -/
def State.seen (s : State) (k : Trials) (core : Nat) (scalar : Bool) (cycle : Nat) : List Seen :=
  (indexed 0 s.teams).flatMap fun tT =>
    if tT.2.live && !tT.2.away && tT.2.core == core then
      match s.launches[tT.2.launch]? with
      | some L =>
        (indexed 0 tT.2.groups).filterMap fun gG =>
          if gG.2.gone then none
          else
            let trial := if scalar then k.scalar tT.1 gG.1 else k.lane tT.1 gG.1
            let noted := if scalar then gG.2.stallS else gG.2.stallL
            let stall := match trial with
              | some x => x.stall
              | none => noted
            let mark := if scalar then gG.2.sready else gG.2.ready
            some { team := tT.1, grp := gG.1, G := gG.2, cls := L.cls, ctx := L.ctx, conf := (s.context? L.ctx).any (·.conf)
                   ready := trial.any (·.stall.isNone), stall := stall, word := trial.bind (·.word)
                   tries := trial.isSome && stall.isSome && (stall.any (fun k => k.isPage || k == .remote) || stall != noted)
                   since := if mark = 0 then cycle else mark - 1, wait := if scalar then gG.2.sstarve else gG.2.starve
                   slot := if scalar then 8 * gG.2.dp + gG.2.slot else gG.2.slot }
      | none => []
    else []

/-- How far a slot lies from the scan's start, wrapping. -/
def scanFrom (rr n slot : Nat) : Nat := (slot + n - rr % n) % n

/-- Whether a candidate is met before another (R297): forced first; then by class, which does not order forced ones among each other at the choice, but
does in the order of packing (`pack`); then by age; then by the scan. -/
def Seen.before (pack : Bool) (rr n : Nat) (a b : Seen) : Bool :=
  let fa := decide (a.wait ≥ 64)
  let fb := decide (b.wait ≥ 64)
  if fa != fb then fa
  else if (pack || !fa) && a.cls != b.cls then decide (a.cls < b.cls)
  else if a.since != b.since then decide (a.since < b.since)
  else decide (scanFrom rr n a.slot < scanFrom rr n b.slot)

/-- The candidates in the order of choice. -/
def insertSeen (pack : Bool) (rr n : Nat) (x : Seen) : List Seen → List Seen
  | [] => [x]
  | y :: ys => if x.before pack rr n y then x :: y :: ys else y :: insertSeen pack rr n x ys
def orderSeen (pack : Bool) (rr n : Nat) (xs : List Seen) : List Seen := xs.foldl (fun l x => insertSeen pack rr n x l) []

/-- The groups packed behind the first (R238): the issued ones, the quarters taken, the banks read. -/
def packInto (pipes : Nat) (word : Seen → Option (BitVec 96)) : List Seen → List Seen × Nat × List Nat → List Seen × Nat × List Nat
  | [], r => r
  | x :: xs, r =>
    match word x with
    | none => packInto pipes word xs r
    | some w =>
      let banks := (r.2.2.zip (wordBanks w x.G.lanes.length)).map fun p => p.1 + p.2
      if r.1.length < 4 && x.G.lanes.length ≤ 16 && x.G.quarter &&& r.2.1 == 0 && wordPipes w == some pipes && banks.all (· ≤ 4) then
        packInto pipes word xs (r.1 ++ [x], r.2.1 ||| x.G.quarter, banks)
      else packInto pipes word xs r

/-- The groups that a datapath issues in a cycle, the first of them first. A group whose next word is a clause header has no word of its clause at hand
yet: it issues alone, and is packed with none (R238). -/
def issueChoice (rr : Nat) (xs : List Seen) : List Seen :=
  match orderSeen false rr 8 (xs.filter (·.ready)) with
  | [] => []
  | first :: rest =>
    match first.word with
    | none => [first]
    | some w =>
      match wordPipes w with
      | none => [first]
      | some p =>
        if first.G.lanes.length > 16 then [first]
        else (packInto p (·.word) (orderSeen true rr 8 rest) ([first], first.G.quarter, wordBanks w first.G.lanes.length)).1

/-! ### Slot leaves (R402, R403) -/

/-- The leaf of a stall. -/
def Stall.leaf : Stall → Nat
  | .flag => 5
  | .queueFull => 5
  | .runs => 5
  | .pop => 3
  | .fetch => 4
  | .batch => 6
  | .ordered => 9
  | .record => 9
  | .lock => 10
  | _ => 12

/-- The leaf of a park: a barrier wait, a sync-word wait, or any other. -/
def Park.leaf (p : Park) : Nat :=
  if [0x5D, 0xE2, 0xE5].contains p.kind.toNat then 7 else if [0x5A, 0xE3].contains p.kind.toNat then 8 else 9

/-- Why a scalar stream's stall keeps its group from issuing: the waits that R402 names. -/
def Stall.scalarLeaves (k : Stall) : List Nat := if [Stall.flag, .runs, .ordered, .record, .lock].contains k then [k.leaf] else []

/-- Every reason for which a bound group does not issue: no run, its park, the stalls of its lane stream and of its scalar stream; a group for which
none of them holds waits for an operand or a pipe. -/
def Seen.idleLeaves (x : Seen) : List Nat :=
  match (if x.G.run.isNone && x.G.runs.isEmpty then [3] else []) ++ x.G.park.elim [] (fun p => [p.leaf]) ++ x.stall.elim [] (fun k => [k.leaf])
      ++ x.G.stallS.elim [] Stall.scalarLeaves with
  | [] => [12]
  | ks => ks

/-- The leaf of an issue: its words and who takes part in them. No lane takes part in a clause header. -/
def issueLeaf (xs : List Seen) : Nat :=
  match xs with
  | [] => 13
  | x :: _ =>
    match x.word with
    | none => 1
    | some w =>
      if !(xs.any fun y => y.word.any y.G.joins) then 1
      else if (xs.map fun y => min 32 y.G.lanes.length).foldl (· + ·) 0 < 32 || halfEmpty w then 2
      else 0

/-- The order in which the reasons of an empty slot are looked for. -/
def leafOrder : List Nat := [14, 13, 11, 12, 4, 3, 10, 5, 6, 7, 8, 9]

/-- The leaf of a datapath's slot, and the group that decides it. -/
def State.slotLeaf (s : State) (xs issued : List Seen) : Nat × Option Seen :=
  match xs.find? (·.G.pass.isSome) with
  | some x => (x.G.pass.getD 0, some x)
  | none =>
    if !issued.isEmpty then (issueLeaf issued, issued.head?)
    else if xs.isEmpty then (13, none)
    else
      let leaves (x : Seen) : List Nat := (if (s.team? x.team).any (·.stop) then [14] else []) ++ x.idleLeaves
      let k := (leafOrder.find? fun k => xs.any fun x => (leaves x).contains k).getD 12
      (k, xs.find? fun x => (leaves x).contains k)

/-- A leaf counted. -/
def bumpLeaf (k : Nat) (ws : List Word) : List Word := modifyAt (· + 1) k ws

/-- A slot charged at its core, and in the sums of each context whose partition has the core (R403). -/
def State.charge (core k : Nat) (who : Option Seen) (s : State) : State :=
  let s := s.modCore core fun c => { c with leaves := bumpLeaf (if who.any (·.conf) then 15 else k) c.leaves }
  { s with contexts := s.contexts.map fun (C : Context) =>
      if C.cores.contains core then { C with sums := bumpLeaf (if who.any fun x => x.ctx != C.id then 15 else k) C.sums } else C }

/-! ### A core-clock cycle (R297–R299) -/

/-- A group's counts after a cycle's choice. -/
def Group.settleLane (ready issued : Bool) (cycle leaf : Nat) (g : Group) : Group :=
  let g := { g with pass := none }
  if issued then { g with ready := 0, starve := 0, pass := if g.lanes.length = 64 then some leaf else none }
  else if ready then { g with ready := if g.ready = 0 then cycle + 1 else g.ready, starve := g.starve + 1 }
  else { g with ready := 0, starve := 0 }
def Group.settleScalar (ready issued : Bool) (cycle : Nat) (g : Group) : Group :=
  if issued then { g with sready := 0, sstarve := 0 }
  else if ready then { g with sready := if g.sready = 0 then cycle + 1 else g.sready, sstarve := g.sstarve + 1 }
  else { g with sready := 0, sstarve := 0 }

/-- The turns of a lane stream's issue: a run that has not started does so first; the clause's header is a word of its own issue (R53, R238;
notes/assumptions/130, DESIGN CHOICE). -/
def Seen.laneTurns (x : Seen) : List Turn := List.replicate (if x.G.run.isNone then 2 else 1) (.lane x.team x.grp)

/-- Whether a list names a group. -/
def seenIn (xs : List Seen) (x : Seen) : Bool := xs.any fun y => y.team == x.team && y.grp == x.grp

/-- One datapath's cycle: a 64-lane word's second pass, or the issue choice. -/
def State.cycleDatapath (core : Nat) (cycle : Nat) (all : List Seen) (s : State) (d : Nat) : State :=
  let xs := all.filter fun x => x.G.dp == d
  let rr := (((s.cores[core]?).map (·.rr)).getD []).getD d 0
  let issued := if xs.any (·.G.pass.isSome) then [] else issueChoice rr xs
  let (leaf, who) := s.slotLeaf xs issued
  let s := s.charge core leaf who
  let s := match issued with
    | [] => s
    | x :: _ => s.modCore core fun c => { c with rr := c.rr.set d ((x.slot + 1) % 8) }
  let s := xs.foldl (fun (s : State) x => s.modGroup x.team x.grp (Group.settleLane x.ready (seenIn issued x) cycle leaf)) s
  { s with agenda := s.agenda ++ issued.flatMap Seen.laneTurns ++ (xs.filter (·.tries)).map fun x => .attempt ⟨x.team, x.grp, .lane⟩ }

/-- One core's scalar issues: at most four, the handler slots first (R299). A handler slot whose instruction would stall tries it all the same, so that
what it waits for is asked for. Where the scan stands, and in what order it meets the core's groups and slots, is the model's choice
(notes/assumptions/131). -/
def State.cycleScalar (k : Trials) (core : Nat) (cycle : Nat) (s : State) : State :=
  let xs := s.seen k core true cycle
  let hs := (indexed 0 s.teams).filterMap fun tT => if tT.2.core == core && s.handlerMay tT.1 then some tT.1 else none
  let rr := ((s.cores[core]?).map (·.srr)).getD 0
  let ready := (hs.filter k.handler).take 4
  let issued := (orderSeen false rr 32 (xs.filter (·.ready))).take (4 - ready.length)
  let s := match issued with
    | [] => s
    | x :: _ => s.modCore core fun c => { c with srr := (x.slot + 1) % 32 }
  let s := xs.foldl (fun (s : State) x => s.modGroup x.team x.grp (Group.settleScalar x.ready (seenIn issued x) cycle)) s
  { s with agenda := s.agenda ++ ready.map (fun t => .handler t) ++ issued.map (fun x => .scalar x.team x.grp)
      ++ (hs.filter fun t => !k.handler t).map (fun t => .attempt ⟨t, 0, .handler⟩) ++ (xs.filter (·.tries)).map fun x => .attempt ⟨x.team, x.grp, .scalar⟩ }

/-- One core's cycle. -/
def State.cycleCore (k : Trials) (cycle : Nat) (s : State) (core : Nat) : State :=
  if s.teams.any fun T => T.live && !T.away && T.core == core then
    let all := s.seen k core false cycle
    ((List.range 4).foldl (State.cycleDatapath core cycle all) s).cycleScalar k core cycle
  else (List.range 4).foldl (fun s _ => s.charge core 13 none) s

/-- The issue of a core-clock cycle (R297–R299, R402): every datapath of every core classifies its slot, and the streams chosen take their turns next. -/
def State.issueCycle (k : Trials) (s : State) : State :=
  let r := (List.range 192).foldl (State.cycleCore k (s.plat.cycles - 1)) { s with agenda := [] }
  { r with agenda := r.agenda ++ s.agenda }

/-- CORE_CLOCK_CYCLE (R297–R299): the next cycle begins, and its issue follows at once. -/
def execCoreClockCycle (s : State) : Answer :=
  if s.stopped then .next s
  else .next { s.modPlat fun p => { p with cycles := p.cycles + 1 } with agenda := .issue :: s.agenda }

end Sys2Proof.Machine
end

