-- ==== Sys2Proof/Machine/Tick.lean ====
section
/-! DEFINITION. The global tick and what falls due on it (R3, R175, R229, R234, R297, R304, R305, R322, R332, R376, R384, R386, R395, R402–R418). -/

namespace Sys2Proof.Machine

/-- The events due for a group: its ordered operation, its timeout, its watchdog. -/
def State.dueGroup (s : State) (t : Nat) (T : Team) (L : Launch) (g : Nat) (G : Group) : List Event :=
  if G.gone || T.away || !T.live then []
  else
    (if (G.stallL == some .ordered || G.stallS == some .ordered) && s.isLeast T.launch L t g G.ric.toNat then [.orderedOpRelease t g] else [])
      ++ (if G.park.any fun p => p.isWaita && p.deadline.any fun d => decide (d ≤ s.tick) then [.waitaTimeout t g] else [])
      ++ (if T.state == .running && G.park.isNone && (G.stallL.any Stall.hangs || G.stallS.any Stall.hangs)
            && decide (s.tick - G.ricSeen > s.watchdog L.cls) then [.hang t g] else [])

/-- The events due for a team: handler entry and watchdog, a swap, a save, a restore. -/
def State.dueTeam (s : State) (t : Nat) (T : Team) : List Event :=
  match s.launches[T.launch]? with
  | none => []
  | some L =>
    if !T.live then []
    else if T.away then
      match s.restorePlan t with
      | some o => [.restore t o]
      | none => if T.waited then [] else [.restore t 0]
    else
      (if T.state == .stopping && !T.stop && s.allSettled t T then [.handlerEntry t] else [])
        ++ (if (T.state == .handling || T.state == .dumping) && decide (s.tick - T.handler.since > s.watchdog L.cls) then [.handlerWdogExpiry t] else [])
        ++ (if T.stop && s.plat.phase != .live then [.preempt t] else [])
        ++ (if !T.stop && (s.swappable t != T.elig || (T.elig && s.plat.phase != .live && s.wanted t)) then [.swapEligible t] else [])
        ++ (indexed 0 T.groups).flatMap fun gG => s.dueGroup t T L gG.1 gG.2

/-- The events due for the launches: placement and end. -/
def State.dueLaunches (s : State) : List Event :=
  (indexed 0 s.launches).flatMap fun lL =>
    (if s.launchOver lL.1 lL.2 then [Event.launchEnd lL.1] else [])
      ++ (if s.ready && lL.2.wants && s.depsMet lL.2 then [.teamPlace lL.1] else [])

/-- The clean lines of shared and host pages that have stayed for 4,096 cycles (R332). -/
def State.dueLines (s : State) : List Event :=
  (indexed 0 s.cores).flatMap fun cC =>
    cC.2.l1.filterMap fun l =>
      if !l.dirty && (l.share != 1 || l.host) && decide (l.fill + 4096 ≤ s.plat.cycles) then some (.l1CleanExpiry cC.1 l.asid l.vline) else none

/-- The ticks between two samples of a core (R405). -/
def State.samplePeriod (s : State) : Nat := 2 ^ max 10 (natBits s.dome.tracectl.toNat 39 35)

/-- The events due in the Dome and on the platform. -/
def State.dueDome (s : State) : List Event :=
  (if s.dome.cntsnap.getLsbD 63 then [Event.cntsnapCopy] else [])
    ++ (if s.dome.sweep.getLsbD 31 && decide (s.dome.sweepAt ≤ s.tick) then [.sweeperPass] else [])
    ++ (if s.dome.tracectl.getLsbD 0 && s.dome.tracectl.getLsbD 5 && s.tick % s.samplePeriod == 0 then [.traceSample] else [])
    ++ (if s.tick % 1000 = 0 then [.throttleEval] else [])
    ++ (if s.dome.scrubAt ≤ s.tick then [.scrubPass] else [])
    ++ (if s.dome.held.isEmpty then [] else [.faultRingDrain])
    ++ (if s.plat.phase = .live ∧ s.plat.liveDue.any (fun d => decide (d ≤ s.tick)) then [.liveUpdateTimeout] else [])
    ++ (if s.dome.stopctl.getLsbD 0 && decide (s.dome.stoptick.toNat ≤ s.tick) then [.dbgStop] else [])

/-- Time that the watchdog does not count: parked, waiting at an ordered operation, swapped out, or while the handler runs (R305, R397). -/
def Team.pauseWatchdog (T : Team) : Team :=
  { T with groups := T.groups.map fun g =>
      if T.away || T.state != .running || g.park.isSome || g.stallL == some .ordered || g.stallS == some .ordered then
        { g with ricSeen := g.ricSeen + 1 }
      else g }

/-- The core-clock cycles of a tick (R413): 1.25 GHz × (16 − STEP) ÷ 16 against 1 GHz, in 64ths of a cycle. -/
def State.clockCores (s : State) : State :=
  let acc := s.plat.phaseAcc + 5 * (16 - natBits s.plat.clkctl.toNat 3 0)
  { s.modPlat fun p => { p with phaseAcc := acc % 64 } with
    agenda := s.agenda ++ (List.range (acc / 64)).map fun _ => .event .coreClockCycle }

/-- A message of VC 3 (R341). -/
def Event.onVc3 : Event → Bool
  | .cancelRequest _ _ _ _ => true
  | .cancelAnswer _ _ => true
  | .freeze _ _ _ => true
  | .linkDown _ => true
  | _ => false

/-- GLOBAL_TICK (R3): the count advances, and what is due takes its turn; while the core and Dome clocks are gated (R408) or internal reset is asserted
(R414) nothing falls due. -/
def execGlobalTick (s : State) : Answer :=
  if s.dome.stopctl.getLsbD 1 && s.plat.phase != .draining then .next { s with tick := s.tick + 1 }
  else if s.plat.phase == .draining || s.plat.phase == .held then .next { s with tick := s.tick + 1 }.advancePlatform
  else
    let s := { s with tick := s.tick + 1 }.advancePlatform
    let s := { s with teams := s.teams.map Team.pauseWatchdog }
    let due := ((indexed 0 s.teams).flatMap fun tT => s.dueTeam tT.1 tT.2) ++ s.dueLaunches ++ s.dueLines ++ s.dueDome
    .next { s.modDome fun d => { d with later := [], credited := d.credited ++ d.later.filter Event.onVc3 } with agenda := s.agenda ++ (due ++ s.dome.later).map Turn.event }.clockCores

end Sys2Proof.Machine
end

