-- ==== Sys2Proof/Machine/Dispatch.lean ====
section
/-! DEFINITION. The one match from an instruction to its meaning. -/

namespace Sys2Proof.Machine

/-- The meaning of an instruction in a state. -/
def exec (i : Instr) (s : State) : Host.Outcome State Fault Refusal :=
  match i with
  | .add sd sa sb => Sys2Proof.Machine.execAdd sd sa sb s
  | .sub sd sa sb => Sys2Proof.Machine.execSub sd sa sb s
  | .mul sd sa sb => Sys2Proof.Machine.execMul sd sa sb s
  | .mulh u sd sa sb => Sys2Proof.Machine.execMulh u sd sa sb s
  | .div u sd sa sb => Sys2Proof.Machine.execDiv u sd sa sb s
  | .rem u sd sa sb => Sys2Proof.Machine.execRem u sd sa sb s
  | .and sd sa sb => Sys2Proof.Machine.execAnd sd sa sb s
  | .or sd sa sb => Sys2Proof.Machine.execOr sd sa sb s
  | .xor sd sa sb => Sys2Proof.Machine.execXor sd sa sb s
  | .shl sd sa sb => Sys2Proof.Machine.execShl sd sa sb s
  | .shr sd sa sb => Sys2Proof.Machine.execShr sd sa sb s
  | .sar sd sa sb => Sys2Proof.Machine.execSar sd sa sb s
  | .min u sd sa sb => Sys2Proof.Machine.execMin u sd sa sb s
  | .max u sd sa sb => Sys2Proof.Machine.execMax u sd sa sb s
  | .bfx sd sa sb => Sys2Proof.Machine.execBfx sd sa sb s
  | .bfi sd sa sb => Sys2Proof.Machine.execBfi sd sa sb s
  | .addi sd sa imm => Sys2Proof.Machine.execAddi sd sa imm s
  | .andi sd sa imm => Sys2Proof.Machine.execAndi sd sa imm s
  | .ori sd sa imm => Sys2Proof.Machine.execOri sd sa imm s
  | .xori sd sa imm => Sys2Proof.Machine.execXori sd sa imm s
  | .shli sd sa cnt => Sys2Proof.Machine.execShli sd sa cnt s
  | .shri sd sa cnt => Sys2Proof.Machine.execShri sd sa cnt s
  | .sari sd sa cnt => Sys2Proof.Machine.execSari sd sa cnt s
  | .movi sd v => Sys2Proof.Machine.execMovi sd v s
  | .movhi sd v => Sys2Proof.Machine.execMovhi sd v s
  | .cmp c qd sa sb => Sys2Proof.Machine.execCmp c qd sa sb s
  | .cmpi c qd sa v => Sys2Proof.Machine.execCmpi c qd sa v s
  | .qop f qd qa qb => Sys2Proof.Machine.execQop f qd qa qb s
  | .sel sd q sa sb => Sys2Proof.Machine.execSel sd q sa sb s
  | .popc sd sa => Sys2Proof.Machine.execPopc sd sa s
  | .clz sd sa => Sys2Proof.Machine.execClz sd sa s
  | .ctz sd sa => Sys2Proof.Machine.execCtz sd sa s
  | .brev sd sa => Sys2Proof.Machine.execBrev sd sa s
  | .ld sz sd base off => Sys2Proof.Machine.execLd sz sd base off s
  | .st sz ss base off => Sys2Proof.Machine.execSt sz ss base off s
  | .lds sz sd base off => Sys2Proof.Machine.execLds sz sd base off s
  | .sts sz ss base off => Sys2Proof.Machine.execSts sz ss base off s
  | .ldaq sc sz sd sa => Sys2Proof.Machine.execLdaq sc sz sd sa s
  | .strl sc sz ss sa => Sys2Proof.Machine.execStrl sc sz ss sa s
  | .atom op sc sd sa sb => Sys2Proof.Machine.execAtom op sc sd sa sb s
  | .cas sc sd sa sb => Sys2Proof.Machine.execCas sc sd sa sb s
  | .fence sc => Sys2Proof.Machine.execFence sc s
  | .br q neg off => Sys2Proof.Machine.execBr q neg off s
  | .call q neg off => Sys2Proof.Machine.execCall q neg off s
  | .ret q neg => Sys2Proof.Machine.execRet q neg s
  | .jmpr sa => Sys2Proof.Machine.execJmpr sa s
  | .lrun sa n target => Sys2Proof.Machine.execLrun sa n target s
  | .spop sd => Sys2Proof.Machine.execSpop sd s
  | .lnch sd sa => Sys2Proof.Machine.execLnch sd sa s
  | .sget sd ty code => Sys2Proof.Machine.execSget sd ty code s
  | .sset hs sa => Sys2Proof.Machine.execSset hs sa s
  | .mrst off => Sys2Proof.Machine.execMrst off s
  | .sdone => Sys2Proof.Machine.execSdone s
  | .nop => Sys2Proof.Machine.execNop s
  | .cpy flag sa => Sys2Proof.Machine.execCpy flag sa s
  | .gath flag sa => Sys2Proof.Machine.execGath flag sa s
  | .part flag sa => Sys2Proof.Machine.execPart flag sa s
  | .puts flag sa => Sys2Proof.Machine.execPuts flag sa s
  | .get flag sa => Sys2Proof.Machine.execGet flag sa s
  | .fabricRadd flag sa => Sys2Proof.Machine.execFabricRadd flag sa s
  | .plcl flag sa => Sys2Proof.Machine.execPlcl flag sa s
  | .plcn sd sa sb => Sys2Proof.Machine.execPlcn sd sa sb s
  | .plwt sd sa sb => Sys2Proof.Machine.execPlwt sd sa sb s
  | .plval flag sa sb => Sys2Proof.Machine.execPlval flag sa sb s
  | .plcx sd sa sb => Sys2Proof.Machine.execPlcx sd sa sb s
  | .wflg mask => Sys2Proof.Machine.execWflg mask s
  | .wflgNow mask => Sys2Proof.Machine.execWflgNow mask s
  | .swini sa sb => Sys2Proof.Machine.execSwini sa sb s
  | .swait sa sb => Sys2Proof.Machine.execSwait sa sb s
  | .waita sd sa sb => Sys2Proof.Machine.execWaita sd sa sb s
  | .sbara sd sa sb => Sys2Proof.Machine.execSbara sd sa sb s
  | .sbarw sa sb => Sys2Proof.Machine.execSbarw sa sb s
  | .obres sd sa sb => Sys2Proof.Machine.execObres sd sa sb s
  | .obrel sa => Sys2Proof.Machine.execObrel sa s
  | .ctab sa sb => Sys2Proof.Machine.execCtab sa sb s
  | .trap imm sa => Sys2Proof.Machine.execTrap imm sa s
  | .eret => Sys2Proof.Machine.execEret s
  | .trd sd sa sb => Sys2Proof.Machine.execTrd sd sa sb s
  | .twr ss sa sb => Sys2Proof.Machine.execTwr ss sa sb s
  | .tres sl sa sb => Sys2Proof.Machine.execTres sl sa sb s
  | .tkil sa => Sys2Proof.Machine.execTkil sa s
  | .dump sd sa sb => Sys2Proof.Machine.execDump sd sa sb s
  | .pairWord w => Sys2Proof.Machine.execPairWord w s
  | .laneAdd w => Sys2Proof.Machine.execLaneAdd w s
  | .laneAddi w => Sys2Proof.Machine.execLaneAddi w s
  | .laneSub w => Sys2Proof.Machine.execLaneSub w s
  | .adds w => Sys2Proof.Machine.execAdds w s
  | .subs w => Sys2Proof.Machine.execSubs w s
  | .neg w => Sys2Proof.Machine.execNeg w s
  | .abs w => Sys2Proof.Machine.execAbs w s
  | .laneMul w => Sys2Proof.Machine.execLaneMul w s
  | .laneMulh w => Sys2Proof.Machine.execLaneMulh w s
  | .muls w => Sys2Proof.Machine.execMuls w s
  | .mad w => Sys2Proof.Machine.execMad w s
  | .mads w => Sys2Proof.Machine.execMads w s
  | .laneDiv w => Sys2Proof.Machine.execLaneDiv w s
  | .laneRem w => Sys2Proof.Machine.execLaneRem w s
  | .laneMin w => Sys2Proof.Machine.execLaneMin w s
  | .laneMax w => Sys2Proof.Machine.execLaneMax w s
  | .clamp w => Sys2Proof.Machine.execClamp w s
  | .laneAnd w => Sys2Proof.Machine.execLaneAnd w s
  | .laneOr w => Sys2Proof.Machine.execLaneOr w s
  | .laneXor w => Sys2Proof.Machine.execLaneXor w s
  | .andn w => Sys2Proof.Machine.execAndn w s
  | .not w => Sys2Proof.Machine.execNot w s
  | .tern w => Sys2Proof.Machine.execTern w s
  | .laneShl w => Sys2Proof.Machine.execLaneShl w s
  | .laneShr w => Sys2Proof.Machine.execLaneShr w s
  | .laneSar w => Sys2Proof.Machine.execLaneSar w s
  | .rol w => Sys2Proof.Machine.execRol w s
  | .ror w => Sys2Proof.Machine.execRor w s
  | .laneShli w => Sys2Proof.Machine.execLaneShli w s
  | .laneShri w => Sys2Proof.Machine.execLaneShri w s
  | .laneSari w => Sys2Proof.Machine.execLaneSari w s
  | .roli w => Sys2Proof.Machine.execRoli w s
  | .rori w => Sys2Proof.Machine.execRori w s
  | .mov w => Sys2Proof.Machine.execMov w s
  | .laneMovi w => Sys2Proof.Machine.execLaneMovi w s
  | .laneSel w => Sys2Proof.Machine.execLaneSel w s
  | .lget w => Sys2Proof.Machine.execLget w s
  | .fadd w => Sys2Proof.Machine.execFadd w s
  | .fsub w => Sys2Proof.Machine.execFsub w s
  | .fmul w => Sys2Proof.Machine.execFmul w s
  | .fdiv w => Sys2Proof.Machine.execFdiv w s
  | .fsqrt w => Sys2Proof.Machine.execFsqrt w s
  | .fmin w => Sys2Proof.Machine.execFmin w s
  | .fmax w => Sys2Proof.Machine.execFmax w s
  | .fabs w => Sys2Proof.Machine.execFabs w s
  | .fneg w => Sys2Proof.Machine.execFneg w s
  | .cpsgn w => Sys2Proof.Machine.execCpsgn w s
  | .fma w => Sys2Proof.Machine.execFma w s
  | .fms w => Sys2Proof.Machine.execFms w s
  | .fnma w => Sys2Proof.Machine.execFnma w s
  | .ex2f w => Sys2Proof.Machine.execEx2f w s
  | .lg2 w => Sys2Proof.Machine.execLg2 w s
  | .rcp w => Sys2Proof.Machine.execRcp w s
  | .rsq w => Sys2Proof.Machine.execRsq w s
  | .sinp w => Sys2Proof.Machine.execSinp w s
  | .cosp w => Sys2Proof.Machine.execCosp w s
  | .rndi w => Sys2Proof.Machine.execRndi w s
  | .expi w => Sys2Proof.Machine.execExpi w s
  | .cvt w => Sys2Proof.Machine.execCvt w s
  | .qnt w => Sys2Proof.Machine.execQnt w s
  | .dqnt w => Sys2Proof.Machine.execDqnt w s
  | .bsAdd w => Sys2Proof.Machine.execBsAdd w s
  | .bsSub w => Sys2Proof.Machine.execBsSub w s
  | .bsAdds w => Sys2Proof.Machine.execBsAdds w s
  | .bsSubs w => Sys2Proof.Machine.execBsSubs w s
  | .bsMul w => Sys2Proof.Machine.execBsMul w s
  | .bsMuls w => Sys2Proof.Machine.execBsMuls w s
  | .bsMin w => Sys2Proof.Machine.execBsMin w s
  | .bsMax w => Sys2Proof.Machine.execBsMax w s
  | .bscmp c w => Sys2Proof.Machine.execBscmp c w s
  | .lanePopc w => Sys2Proof.Machine.execLanePopc w s
  | .laneClz w => Sys2Proof.Machine.execLaneClz w s
  | .laneCtz w => Sys2Proof.Machine.execLaneCtz w s
  | .laneBrev w => Sys2Proof.Machine.execLaneBrev w s
  | .laneBfx w => Sys2Proof.Machine.execLaneBfx w s
  | .laneBfi w => Sys2Proof.Machine.execLaneBfi w s
  | .bfxi w => Sys2Proof.Machine.execBfxi w s
  | .bfii w => Sys2Proof.Machine.execBfii w s
  | .hashCrc w => Sys2Proof.Machine.execHashCrc w s
  | .hashMix w => Sys2Proof.Machine.execHashMix w s
  | .scmp w => Sys2Proof.Machine.execScmp w s
  | .sfind w => Sys2Proof.Machine.execSfind w s
  | .slen w => Sys2Proof.Machine.execSlen w s
  | .rng w => Sys2Proof.Machine.execRng w s
  | .laneCmp c w => Sys2Proof.Machine.execLaneCmp c w s
  | .fcmp c w => Sys2Proof.Machine.execFcmp c w s
  | .pand w => Sys2Proof.Machine.execPand w s
  | .por w => Sys2Proof.Machine.execPor w s
  | .pxor w => Sys2Proof.Machine.execPxor w s
  | .pandn w => Sys2Proof.Machine.execPandn w s
  | .pnot w => Sys2Proof.Machine.execPnot w s
  | .pmov w => Sys2Proof.Machine.execPmov w s
  | .pset w => Sys2Proof.Machine.execPset w s
  | .pget w => Sys2Proof.Machine.execPget w s
  | .pput w => Sys2Proof.Machine.execPput w s
  | .laneIf w => Sys2Proof.Machine.execLaneIf w s
  | .laneElse w => Sys2Proof.Machine.execLaneElse w s
  | .laneEndif w => Sys2Proof.Machine.execLaneEndif w s
  | .laneLoop w => Sys2Proof.Machine.execLaneLoop w s
  | .laneBrk w => Sys2Proof.Machine.execLaneBrk w s
  | .laneCont w => Sys2Proof.Machine.execLaneCont w s
  | .laneEndloop w => Sys2Proof.Machine.execLaneEndloop w s
  | .laneExit w => Sys2Proof.Machine.execLaneExit w s
  | .laneStop w => Sys2Proof.Machine.execLaneStop w s
  | .rfil w => Sys2Proof.Machine.execRfil w s
  | .pollThr w => Sys2Proof.Machine.execPollThr w s
  | .pollMask w => Sys2Proof.Machine.execPollMask w s
  | .pollRank w => Sys2Proof.Machine.execPollRank w s
  | .keyg w => Sys2Proof.Machine.execKeyg w s
  | .lead w => Sys2Proof.Machine.execLead w s
  | .lpush w => Sys2Proof.Machine.execLpush w s
  | .xlnGet w => Sys2Proof.Machine.execXlnGet w s
  | .xlnFlip w => Sys2Proof.Machine.execXlnFlip w s
  | .xlnRot w => Sys2Proof.Machine.execXlnRot w s
  | .xlnSlide w => Sys2Proof.Machine.execXlnSlide w s
  | .bcst w => Sys2Proof.Machine.execBcst w s
  | .gred op w => Sys2Proof.Machine.execGred op w s
  | .gscan op excl w => Sys2Proof.Machine.execGscan op excl w s
  | .gsync w => Sys2Proof.Machine.execGsync w s
  | .azero w => Sys2Proof.Machine.execAzero w s
  | .aadd w => Sys2Proof.Machine.execAadd w s
  | .aadda w => Sys2Proof.Machine.execAadda w s
  | .aneg w => Sys2Proof.Machine.execAneg w s
  | .amac w => Sys2Proof.Machine.execAmac w s
  | .adot w => Sys2Proof.Machine.execAdot w s
  | .cres w => Sys2Proof.Machine.execCres w s
  | .arnd w => Sys2Proof.Machine.execArnd w s
  | .arndDiv w => Sys2Proof.Machine.execArndDiv w s
  | .ald w => Sys2Proof.Machine.execAld w s
  | .ast w => Sys2Proof.Machine.execAst w s
  | .aseg w => Sys2Proof.Machine.execAseg w s
  | .astat w => Sys2Proof.Machine.execAstat w s
  | .ageti w => Sys2Proof.Machine.execAgeti w s
  | .ared w => Sys2Proof.Machine.execAred w s
  | .laneLd w => Sys2Proof.Machine.execLaneLd w s
  | .laneSt w => Sys2Proof.Machine.execLaneSt w s
  | .laneLds w => Sys2Proof.Machine.execLaneLds w s
  | .laneSts w => Sys2Proof.Machine.execLaneSts w s
  | .laneAtom op w => Sys2Proof.Machine.execLaneAtom op w s
  | .laneCas w => Sys2Proof.Machine.execLaneCas w s
  | .radd w => Sys2Proof.Machine.execRadd w s
  | .raddAcc w => Sys2Proof.Machine.execRaddAcc w s
  | .laneFence w => Sys2Proof.Machine.execLaneFence w s
  | .laneWaita w => Sys2Proof.Machine.execLaneWaita w s
  | .bara w => Sys2Proof.Machine.execBara w s
  | .barw w => Sys2Proof.Machine.execBarw w s
  | .cbara w => Sys2Proof.Machine.execCbara w s
  | .cbarw w => Sys2Proof.Machine.execCbarw w s
  | .laneSwait w => Sys2Proof.Machine.execLaneSwait w s
  | .mma w => Sys2Proof.Machine.execMma w s
  | .mmaKreg w => Sys2Proof.Machine.execMmaKreg w s
  | .mfen w => Sys2Proof.Machine.execMfen w s
  | .mwait w => Sys2Proof.Machine.execMwait w s
  | .mwaitLast w => Sys2Proof.Machine.execMwaitLast w s
  | .mzero w => Sys2Proof.Machine.execMzero w s
  | .mstRnd w => Sys2Proof.Machine.execMstRnd w s
  | .mstRaw w => Sys2Proof.Machine.execMstRaw w s
  | .mstAdd w => Sys2Proof.Machine.execMstAdd w s
  | .vpjs w => Sys2Proof.Machine.execVpjs w s
  | .vpjr w => Sys2Proof.Machine.execVpjr w s
  | .vpjm w => Sys2Proof.Machine.execVpjm w s
  | .vpjx w => Sys2Proof.Machine.execVpjx w s
  | .vpjb w => Sys2Proof.Machine.execVpjb w s
  | .runStart team grp => Sys2Proof.Machine.execRunStart team grp s
  | .clauseStart team grp => Sys2Proof.Machine.execClauseStart team grp s
  | .loadDataReturn team grp id => Sys2Proof.Machine.execLoadDataReturn team grp id s
  | .storePerformed team grp id => Sys2Proof.Machine.execStorePerformed team grp id s
  | .enginePieceLand team cmd => Sys2Proof.Machine.execEnginePieceLand team cmd s
  | .cpyComplete team cmd => Sys2Proof.Machine.execCpyComplete team cmd s
  | .gathComplete team cmd => Sys2Proof.Machine.execGathComplete team cmd s
  | .partComplete team cmd => Sys2Proof.Machine.execPartComplete team cmd s
  | .putsComplete team cmd => Sys2Proof.Machine.execPutsComplete team cmd s
  | .getComplete team cmd => Sys2Proof.Machine.execGetComplete team cmd s
  | .fabricRaddComplete team cmd => Sys2Proof.Machine.execFabricRaddComplete team cmd s
  | .engineFault team cmd cause addr detail => Sys2Proof.Machine.execEngineFault team cmd cause addr detail s
  | .mmaComplete team grp id => Sys2Proof.Machine.execMmaComplete team grp id s
  | .spireComplete core => Sys2Proof.Machine.execSpireComplete core s
  | .plvalViewWrite team cmd => Sys2Proof.Machine.execPlvalViewWrite team cmd s
  | .parkWake team grp => Sys2Proof.Machine.execParkWake team grp s
  | .waitaTimeout team grp => Sys2Proof.Machine.execWaitaTimeout team grp s
  | .hang team grp => Sys2Proof.Machine.execHang team grp s
  | .orderedOpRelease team grp => Sys2Proof.Machine.execOrderedOpRelease team grp s
  | .handlerEntry team => Sys2Proof.Machine.execHandlerEntry team s
  | .handlerWdogExpiry team => Sys2Proof.Machine.execHandlerWdogExpiry team s
  | .launchAccept ctx queue => Sys2Proof.Machine.execLaunchAccept ctx queue s
  | .teamPlace launch => Sys2Proof.Machine.execTeamPlace launch s
  | .launchEnd launch => Sys2Proof.Machine.execLaunchEnd launch s
  | .swapEligible team => Sys2Proof.Machine.execSwapEligible team s
  | .preempt team => Sys2Proof.Machine.execPreempt team s
  | .restore team core => Sys2Proof.Machine.execRestore team core s
  | .domeTlbi v => Sys2Proof.Machine.execDomeTlbi v s
  | .sweeperPass => Sys2Proof.Machine.execSweeperPass s
  | .l1CleanExpiry core asid line => Sys2Proof.Machine.execL1CleanExpiry core asid line s
  | .hostAccess r => Sys2Proof.Machine.execHostAccess r s
  | .hostSnoop line inval => Sys2Proof.Machine.execHostSnoop line inval s
  | .backInvalidateResponse line data => Sys2Proof.Machine.execBackInvalidateResponse line data s
  | .fabricRequest r => Sys2Proof.Machine.execFabricRequest r s
  | .fabricResponse r => Sys2Proof.Machine.execFabricResponse r s
  | .linkDown x => Sys2Proof.Machine.execLinkDown x s
  | .planeHeader k h => Sys2Proof.Machine.execPlaneHeader k h s
  | .countPlane k plane counts => Sys2Proof.Machine.execCountPlane k plane counts s
  | .gatherPlane k plane vals => Sys2Proof.Machine.execGatherPlane k plane vals s
  | .cancelRequest k c pos detm => Sys2Proof.Machine.execCancelRequest k c pos detm s
  | .freeze k f vals => Sys2Proof.Machine.execFreeze k f vals s
  | .cancelAnswer k r => Sys2Proof.Machine.execCancelAnswer k r s
  | .domeL2quota v => Sys2Proof.Machine.execDomeL2quota v s
  | .cpClasscfg cls v => Sys2Proof.Machine.execCpClasscfg cls v s
  | .domeCls0rsv v => Sys2Proof.Machine.execDomeCls0rsv v s
  | .domeSweep v => Sys2Proof.Machine.execDomeSweep v s
  | .fabPodcfg v => Sys2Proof.Machine.execFabPodcfg v s
  | .domeCntsnap v => Sys2Proof.Machine.execDomeCntsnap v s
  | .cntsnapCopy => Sys2Proof.Machine.execCntsnapCopy s
  | .dbgTracectl v => Sys2Proof.Machine.execDbgTracectl v s
  | .traceSample => Sys2Proof.Machine.execTraceSample s
  | .dbgStopctl v => Sys2Proof.Machine.execDbgStopctl v s
  | .dbgStop => Sys2Proof.Machine.execDbgStop s
  | .pwrClkctl v => Sys2Proof.Machine.execPwrClkctl v s
  | .throttleEval => Sys2Proof.Machine.execThrottleEval s
  | .registerWrite addr v => Sys2Proof.Machine.execRegisterWrite addr v s
  | .devRstN => Sys2Proof.Machine.execDevRstN s
  | .pgDeassert => Sys2Proof.Machine.execPgDeassert s
  | .pgAllAsserted => Sys2Proof.Machine.execPgAllAsserted s
  | .cxlConventionalReset => Sys2Proof.Machine.execCxlConventionalReset s
  | .cxlFlrPort0 => Sys2Proof.Machine.execCxlFlrPort0 s
  | .cxlFlrPort1 => Sys2Proof.Machine.execCxlFlrPort1 s
  | .thermalTrip => Sys2Proof.Machine.execThermalTrip s
  | .thermNDeassert => Sys2Proof.Machine.execThermNDeassert s
  | .doeBegin len hdr => Sys2Proof.Machine.execDoeBegin len hdr s
  | .doeChunk off body => Sys2Proof.Machine.execDoeChunk off body s
  | .doeEnd => Sys2Proof.Machine.execDoeEnd s
  | .doeAttest ctx nonce => Sys2Proof.Machine.execDoeAttest ctx nonce s
  | .doeCommit => Sys2Proof.Machine.execDoeCommit s
  | .firmwareReady => Sys2Proof.Machine.execFirmwareReady s
  | .liveUpdateTimeout => Sys2Proof.Machine.execLiveUpdateTimeout s
  | .confidentialContextCreate ctx key => Sys2Proof.Machine.execConfidentialContextCreate ctx key s
  | .faultRingDrain => Sys2Proof.Machine.execFaultRingDrain s
  | .scrubPass => Sys2Proof.Machine.execScrubPass s
  | .globalTick => Sys2Proof.Machine.execGlobalTick s
  | .coreClockCycle => Sys2Proof.Machine.execCoreClockCycle s
  | .resolutionStep team grp lane acc ctr => Sys2Proof.Machine.execResolutionStep team grp lane acc ctr s
  | .reservedScalarWord => Sys2Proof.Machine.execReservedScalarWord s
  | .reservedLaneWord w => Sys2Proof.Machine.execReservedLaneWord w s
  | .tlbiComplete => Sys2Proof.Machine.execTlbiComplete s
  | .linkRestored port => Sys2Proof.Machine.execLinkRestored port s
  | .vcCreditReturn port vc beats => Sys2Proof.Machine.execVcCreditReturn port vc beats s
  | .driverLaunchEnd launch => Sys2Proof.Machine.execDriverLaunchEnd launch s
  | .confidentialContextEnd ctx => Sys2Proof.Machine.execConfidentialContextEnd ctx s
  | .functionEnable => Sys2Proof.Machine.execFunctionEnable s
  | .eccError u hard => Sys2Proof.Machine.execEccError u hard s
  | .corePowerGating core => Sys2Proof.Machine.execCorePowerGating core s
  | .traceRingSpaceReturn unit records => Sys2Proof.Machine.execTraceRingSpaceReturn unit records s

end Sys2Proof.Machine
end

