-- ==== Sys2Proof/Machine/Events.lean ====
section
/-! DEFINITION. The one match from an event of the agenda to its meaning: the meaning of the opcode row of the same name. -/

namespace Sys2Proof.Machine

/-- The effect of an event in a state. -/
def runEvent (e : Event) (s : State) : Host.Outcome State Fault Refusal :=
  match e with
  | .runStart team grp => Sys2Proof.Machine.execRunStart team grp s
  | .clauseStart team grp => Sys2Proof.Machine.execClauseStart team grp s
  | .loadDataReturn team grp id => Sys2Proof.Machine.execLoadDataReturn team grp id s
  | .storePerformed team grp id => Sys2Proof.Machine.execStorePerformed team grp id s
  | .enginePieceLand team cmd => Sys2Proof.Machine.execEnginePieceLand team cmd s
  | .cpyComplete team cmd => Sys2Proof.Machine.execCpyComplete team cmd s
  | .gathComplete team cmd => Sys2Proof.Machine.execGathComplete team cmd s
  | .partComplete team cmd => Sys2Proof.Machine.execPartComplete team cmd s
  | .putsComplete team cmd => Sys2Proof.Machine.execPutsComplete team cmd s
  | .getComplete team cmd => Sys2Proof.Machine.execGetComplete team cmd s
  | .fabricRaddComplete team cmd => Sys2Proof.Machine.execFabricRaddComplete team cmd s
  | .engineFault team cmd cause addr detail => Sys2Proof.Machine.execEngineFault team cmd cause addr detail s
  | .mmaComplete team grp id => Sys2Proof.Machine.execMmaComplete team grp id s
  | .spireComplete core => Sys2Proof.Machine.execSpireComplete core s
  | .plvalViewWrite team cmd => Sys2Proof.Machine.execPlvalViewWrite team cmd s
  | .parkWake team grp => Sys2Proof.Machine.execParkWake team grp s
  | .waitaTimeout team grp => Sys2Proof.Machine.execWaitaTimeout team grp s
  | .hang team grp => Sys2Proof.Machine.execHang team grp s
  | .orderedOpRelease team grp => Sys2Proof.Machine.execOrderedOpRelease team grp s
  | .handlerEntry team => Sys2Proof.Machine.execHandlerEntry team s
  | .handlerWdogExpiry team => Sys2Proof.Machine.execHandlerWdogExpiry team s
  | .launchAccept ctx queue => Sys2Proof.Machine.execLaunchAccept ctx queue s
  | .teamPlace launch => Sys2Proof.Machine.execTeamPlace launch s
  | .launchEnd launch => Sys2Proof.Machine.execLaunchEnd launch s
  | .swapEligible team => Sys2Proof.Machine.execSwapEligible team s
  | .preempt team => Sys2Proof.Machine.execPreempt team s
  | .restore team core => Sys2Proof.Machine.execRestore team core s
  | .domeTlbi v => Sys2Proof.Machine.execDomeTlbi v s
  | .sweeperPass => Sys2Proof.Machine.execSweeperPass s
  | .l1CleanExpiry core asid line => Sys2Proof.Machine.execL1CleanExpiry core asid line s
  | .hostAccess r => Sys2Proof.Machine.execHostAccess r s
  | .hostSnoop line inval => Sys2Proof.Machine.execHostSnoop line inval s
  | .backInvalidateResponse line data => Sys2Proof.Machine.execBackInvalidateResponse line data s
  | .fabricRequest r => Sys2Proof.Machine.execFabricRequest r s
  | .fabricResponse r => Sys2Proof.Machine.execFabricResponse r s
  | .linkDown x => Sys2Proof.Machine.execLinkDown x s
  | .planeHeader k h => Sys2Proof.Machine.execPlaneHeader k h s
  | .countPlane k plane counts => Sys2Proof.Machine.execCountPlane k plane counts s
  | .gatherPlane k plane vals => Sys2Proof.Machine.execGatherPlane k plane vals s
  | .cancelRequest k c pos detm => Sys2Proof.Machine.execCancelRequest k c pos detm s
  | .freeze k f vals => Sys2Proof.Machine.execFreeze k f vals s
  | .cancelAnswer k r => Sys2Proof.Machine.execCancelAnswer k r s
  | .domeL2quota v => Sys2Proof.Machine.execDomeL2quota v s
  | .cpClasscfg cls v => Sys2Proof.Machine.execCpClasscfg cls v s
  | .domeCls0rsv v => Sys2Proof.Machine.execDomeCls0rsv v s
  | .domeSweep v => Sys2Proof.Machine.execDomeSweep v s
  | .fabPodcfg v => Sys2Proof.Machine.execFabPodcfg v s
  | .domeCntsnap v => Sys2Proof.Machine.execDomeCntsnap v s
  | .cntsnapCopy => Sys2Proof.Machine.execCntsnapCopy s
  | .dbgTracectl v => Sys2Proof.Machine.execDbgTracectl v s
  | .traceSample => Sys2Proof.Machine.execTraceSample s
  | .dbgStopctl v => Sys2Proof.Machine.execDbgStopctl v s
  | .dbgStop => Sys2Proof.Machine.execDbgStop s
  | .pwrClkctl v => Sys2Proof.Machine.execPwrClkctl v s
  | .throttleEval => Sys2Proof.Machine.execThrottleEval s
  | .registerWrite addr v => Sys2Proof.Machine.execRegisterWrite addr v s
  | .devRstN => Sys2Proof.Machine.execDevRstN s
  | .pgDeassert => Sys2Proof.Machine.execPgDeassert s
  | .pgAllAsserted => Sys2Proof.Machine.execPgAllAsserted s
  | .cxlConventionalReset => Sys2Proof.Machine.execCxlConventionalReset s
  | .cxlFlrPort0 => Sys2Proof.Machine.execCxlFlrPort0 s
  | .cxlFlrPort1 => Sys2Proof.Machine.execCxlFlrPort1 s
  | .thermalTrip => Sys2Proof.Machine.execThermalTrip s
  | .thermNDeassert => Sys2Proof.Machine.execThermNDeassert s
  | .doeBegin len hdr => Sys2Proof.Machine.execDoeBegin len hdr s
  | .doeChunk off body => Sys2Proof.Machine.execDoeChunk off body s
  | .doeEnd => Sys2Proof.Machine.execDoeEnd s
  | .doeAttest ctx nonce => Sys2Proof.Machine.execDoeAttest ctx nonce s
  | .doeCommit => Sys2Proof.Machine.execDoeCommit s
  | .firmwareReady => Sys2Proof.Machine.execFirmwareReady s
  | .liveUpdateTimeout => Sys2Proof.Machine.execLiveUpdateTimeout s
  | .confidentialContextCreate ctx key => Sys2Proof.Machine.execConfidentialContextCreate ctx key s
  | .faultRingDrain => Sys2Proof.Machine.execFaultRingDrain s
  | .scrubPass => Sys2Proof.Machine.execScrubPass s
  | .globalTick => Sys2Proof.Machine.execGlobalTick s
  | .coreClockCycle => Sys2Proof.Machine.execCoreClockCycle s
  | .resolutionStep team grp lane acc ctr => Sys2Proof.Machine.execResolutionStep team grp lane acc ctr s
  | .tlbiComplete => Sys2Proof.Machine.execTlbiComplete s
  | .linkRestored port => Sys2Proof.Machine.execLinkRestored port s
  | .vcCreditReturn port vc beats => Sys2Proof.Machine.execVcCreditReturn port vc beats s
  | .driverLaunchEnd launch => Sys2Proof.Machine.execDriverLaunchEnd launch s
  | .confidentialContextEnd ctx => Sys2Proof.Machine.execConfidentialContextEnd ctx s
  | .functionEnable => Sys2Proof.Machine.execFunctionEnable s
  | .eccError u hard => Sys2Proof.Machine.execEccError u hard s
  | .corePowerGating core => Sys2Proof.Machine.execCorePowerGating core s
  | .traceRingSpaceReturn unit records => Sys2Proof.Machine.execTraceRingSpaceReturn unit records s

end Sys2Proof.Machine
end

