-- ==== Sys2Proof/Machine/Turns.lean ====
section
/-! DEFINITION. One turn of the device: an event, a driver's request, or the next instruction of a stream, fetched and executed (R46, R53, R298, R299, R408). -/

namespace Sys2Proof.Machine

/-- The events that act on a device whose clocks are gated: the sources of a full device reset (R408, R414). -/
def resetEvent : Event → Bool
  | .devRstN => true
  | .pgDeassert => true
  | .pgAllAsserted => true
  | .cxlConventionalReset => true
  | .cxlFlrPort0 => true
  | .thermalTrip => true
  | .thermNDeassert => true
  | .globalTick => true
  | _ => false

/-- The instruction that the current stream executes next. -/
def fetchNext (c : Cur) : M Instr := if c.stream = .lane then fetchLane else fetchScalar

/-- A stream's next instruction fetched and executed, its earlier writes being performed: it is the stream that the state names from here on. -/
def streamStep (c : Cur) (s : State) : Answer :=
  let s := s.settleApart fun x => x.isOf c
  match fetchNext c { s with cur := some c } with
  | .ok (i, s') => Issued c (exec i s')
  | .error (h, s') => h.answer s'

/-- A lane stream's turn (R53): it starts the next run, or the next clause, or executes the next word. -/
def laneTurn (t g : Nat) (s : State) : Answer :=
  match s.group? t g with
  | none => .next s
  | some G =>
    if G.run.isNone then execRunStart t g s
    else if G.clause.isNone then execClauseStart t g s
    else streamStep ⟨t, g, .lane⟩ s

/-! ### What the streams would do in a cycle (R297, R299) -/

/-- The state that an answer leaves. -/
def stateAfter (s : State) : Answer → State
  | .next s' => s'
  | _ => s

/-- What a stream's next instruction would leave, its stall marker cleared before; none where the stream may not go on. A lane stream's run is started
where it is not; the header of a clause that has not started is its next word (R238). -/
def State.tried (c : Cur) (s : State) : Option State :=
  match c.stream with
  | .lane =>
    if !s.laneMay c.team c.grp then none
    else
      let go (s : State) : State := if (s.stallOf c).isSome then s else stateAfter s (laneTurn c.team c.grp s)
      let s0 := s.unstall c
      some (go (if ((s.group? c.team c.grp).bind (·.run)).isNone then go s0 else s0))
  | .scalar => if s.scalarMay c.team c.grp then some (stateAfter s (streamStep c (s.unstall c))) else none
  | .handler =>
    if s.handlerMay c.team then
      ((s.team? c.team).bind fun T => T.handler.trap).map fun x => stateAfter s (streamStep { c with grp := x.grp } (s.unstall c))
    else none

/-- The try of a stream that is not chosen: its instruction keeps its marker and what its stall asks for, and has no effect where it would not stall. -/
def State.attempt (c : Cur) (s : State) : State :=
  match s.tried c with
  | some s' => if (s'.stallOf c).isSome then s' else s
  | none => s

/-- A lane stream's next word, tried. -/
def State.tryLane (s : State) (t g : Nat) : Option Trial :=
  (s.tried ⟨t, g, .lane⟩).map fun s' => { stall := s'.stallOf ⟨t, g, .lane⟩, word := s.peekWord t g }

/-- A scalar stream's next instruction, tried. -/
def State.tryScalar (s : State) (t g : Nat) : Option Trial :=
  (s.tried ⟨t, g, .scalar⟩).map fun s' => { stall := s'.stallOf ⟨t, g, .scalar⟩, word := none }

/-- Whether a handler slot's next instruction would not stall. -/
def State.tryHandler (s : State) (t : Nat) : Bool := (s.tried ⟨t, 0, .handler⟩).any fun s' => (s'.stallOf ⟨t, 0, .handler⟩).isNone

/-- The trials of a cycle. -/
def State.trials (s : State) : Trials := { lane := s.tryLane, scalar := s.tryScalar, handler := s.tryHandler }

/-- One turn. A stream that may not issue when its turn comes lets it pass; on a stopped device only a reset acts. -/
def runTurn (x : Turn) (s : State) : Answer :=
  match x with
  | .event e => if s.dome.stopctl.getLsbD 1 && !resetEvent e then .next s else runEvent e s
  | .driver d => if s.dome.stopctl.getLsbD 1 then .next s else .next (s.drive d)
  | .issue => .next (s.issueCycle s.trials)
  | .apart id => if s.dome.stopctl.getLsbD 1 then .next s else .next (s.settleApart fun x => x.id == id)
  | .scalar t g => if s.scalarMay t g then streamStep ⟨t, g, .scalar⟩ s else .next s
  | .lane t g => if s.laneMay t g then laneTurn t g s else .next s
  | .attempt c => .next (s.attempt c)
  | .handler t =>
    match (s.team? t).bind fun T => T.handler.trap with
    | some x => if s.handlerMay t then streamStep ⟨t, x.grp, .handler⟩ s else .next s
    | none => .next s

end Sys2Proof.Machine
end

