-- ==== Sys2Proof/Machine/Step.lean ====
section
/-! DEFINITION. The step: the agenda's next turn, or, when it is empty, the next global tick. Placing an instruction where the next step fetches it. -/

namespace Sys2Proof.Machine

/-- One step of the device (R3, R8): a turn of the agenda; with none left, the tick advances and says what is due. -/
def step (s : State) : Host.Outcome State Fault Refusal :=
  match s.agenda with
  | [] => execGlobalTick s
  | x :: rest => runTurn x { s with agenda := rest }

/-- The instructions that only the trap handler executes (R46, R95). -/
def handlerOnly : Instr → Bool
  | .eret => true
  | .trd _ _ _ => true
  | .twr _ _ _ => true
  | .tres _ _ _ => true
  | .tkil _ => true
  | .dump _ _ _ => true
  | .sset _ _ => true
  | _ => false

/-- A launch of one team of one 8-lane group with 32 v-registers, four accumulators and one tile: its scalar section at 0x40_0000, its lane section at
0x50_0000. -/
def probeLaunch : Launch :=
  { ctx := 0, record := 0, sbase := 0x400000, lbase := 0x500000, ssize := 4096, lsize := 256, entry := 0, restart := 0xFFFFFFFF, refill := 0xFFFFFFFF
    spad := 65536, vregs := 32, width := 8, grps := 1, aregs := 4, tiles := 1, tsaved := true, cw := 1, ch := 1, fuse := false, grpMode := false
    cls := 1, detm := 0, items := [], queue := 0, nitems := 0, seed := 0, arg := 0, maxTeams := 1, completion := 0, vmask := 0, amask := 0, claim := 0
    placed := 1, finished := 0, unfinished := 0, lowest := -1#64, accepted := 0, firstIssue := 0, deps := [], ended := false, killed := false, halted := false
    barren := false, clusters := [List.replicate 4 Barrier.start], replay := none }

/-- Its group: every lane holds an item and is active; a run stands at the first word of a clause. -/
def probeGroup : Group :=
  let g := Group.start probeLaunch (0, 0, 1) 0
  { g with
    lanes := g.lanes.map fun l => { l with nest := 0, item := 0, holds := true }
    run := some ⟨0, Vector.replicate 8 0⟩, clause := some { header := 0, next := 1, stop := 3, tag := 0 }
    tags := [{ id := 0, fa := none, fb := none, loads := 0, stores := 0, lscope := 0, sscope := 0, ended := false }], nextTag := 1 }

/-- Its team; under `handling` its handler slot handles a BREAK of the group. -/
def probeTeam (handling : Bool) : Team :=
  let t := Team.start probeLaunch 0 0 0 0 [(0, 0, 1)] 0
  { t with
    groups := [probeGroup]
    state := if handling then .handling else .running
    handler := { t.handler with
      regs := ScalarRegs.start 0x400000
      trap := if handling then some ⟨cBreak, 0, false, 0, 0, 0, 0, 0, false, none, none⟩ else none } }

/-- Its context: a root table at 0x10_0000 whose first entries map the first GiB of addresses onto itself. -/
def probeContext : Context := { Context.fresh 0 1 0x100000 0 [0] with handler := some ⟨0x400000, 4096, 0, 0⟩ }

/-- The two page-table entries (R317): a pointer to the level-1 table at 0x20_0000, and its first leaf, V, LEAF, R, W, X, shared. -/
def probeTables (m : Cells) : Cells :=
  cellsWrite 0x200000 (toBytes 8 0x1F ++ toBytes 8 2) (cellsWrite 0x100000 (toBytes 8 1 ++ toBytes 8 0x200000) m)

/-- `s` with an instruction where its next step fetches it: a launch is placed (notes/assumptions/20), its stream is next on the agenda, and the words
lie in its code, the operand words above `nbits` zero. -/
def State.withFetchWord (s : State) (nbits w : Nat) : State :=
  let lane := decide (nbits > 64)
  let handling := !lane && (decodeTableWord nbits w).any handlerOnly
  { s with
    mem := cellsWrite (if lane then 0x50000C else 0x400000) (toBytes (if lane then 12 else 8) w) (probeTables s.mem)
    contexts := [probeContext], launches := [probeLaunch], teams := [probeTeam handling]
    agenda := [if lane then .lane 0 0 else if handling then .handler 0 else .scalar 0 0] }

end Sys2Proof.Machine
end

