-- ==== Sys2Proof/Safety.lean ====
section
/-! DEFINITION. What counts as a safe run: the form that the state keeps, and a run of steps that none of them stops. -/

namespace Sys2Proof.Machine

/-- Every memory of the state is in its canonical form: HBM, host memory, every team's scratchpad. -/
def State.memoryWf (s : State) : Bool :=
  Memory.wf s.mem && Memory.wf s.hostMem && s.teams.all fun T => Memory.wf T.scratch

/-- The current stream belongs to a group that the state has, its launch and context included. -/
def State.streamOk (s : State) : Bool :=
  match s.cur with
  | none => false
  | some c => (s.group? c.team c.grp).isSome && (s.contextOf? c.team).isSome

/-- An answer that lets the run go on. -/
def Answer.goesOn : Answer → Bool
  | .next _ => true
  | .fault _ => false
  | .refused _ => false

/-- A safe run of `n` steps: none of them stops. -/
def safeRun (n : Nat) (s : State) : Bool := Answer.goesOn (Sys2Proof.core.run n s)

/-! ### When a word takes effect -/

/-- A stream is in hand: the current stream, its team, group, launch and context, and the scalar registers it works on, as they stand. -/
structure InHand (c : Cur) (T : Team) (G : Group) (L : Launch) (C : Context) (r : ScalarRegs) (s : State) : Prop where
  cur     : s.cur = some c
  team    : s.team? c.team = some T
  group   : s.group? c.team c.grp = some G
  launch  : s.launchOf? c.team = some L
  context : s.contextOf? c.team = some C
  regs    : s.scalarRegs? = some r

/-- One access of a scalar word passes every check of R167 and R83, its page and line are at hand, and no entry of the operand log holds its page; the
walk leaves `s'`. -/
structure Reached (q : Req) (h : Hit) (s s' : State) : Prop where
  checks : checkAccess [q] (fun _ => true) s = .ok ([h], s')
  ready  : ∀ a, hereAgent s' = .ok (a, s') → h.waitsHere s' a = false

/-- A scalar word's request. -/
def scalarReq (scratch : Bool) (ea : Int) (n align : Nat) (acc : Access) : Req :=
  { lane := 0, scratch := scratch, ea := ea, size := n, align := align, acc := acc }

/-- Every byte of a memory outside a range reads as before. -/
def sameOutside (a n : Nat) (m m' : Cells) : Prop := ∀ x, (x < a ∨ a + n ≤ x) → cellGet x m' = cellGet x m

/-- A lane word in hand takes effect (R47, R53, R55): some lane is active and passes its guard, its fields are legal, no register that it uses is the
destination of an outstanding load, and no store of the device is poisoned. -/
structure LaneReady (i : Instr) (w : LaneWord) (x : LaneCtx) (s : State) : Prop where
  cur    : s.cur = some x.c
  team   : s.team? x.c.team = some x.T
  group  : s.group? x.c.team x.c.grp = some x.G
  launch : s.launchOf? x.c.team = some x.L
  guard  : w.guardOk = true
  parts  : x.parts = x.G.active.filter fun j => (x.G.lane j).passes w.guard.toNat w.neg
  acts   : x.parts ≠ []
  form   : ∃ f f', laneForm 64 i = some (f', w) ∧ laneForm x.G.lanes.length i = some (f, w) ∧ f.legal w x.L.vregs x.L.aregs x.L.tiles = true
    ∧ x.G.outstanding (readRegs i f w ++ destRegs f w) = false
  clean  : s.poison = []

/-- The state after a lane word retires: it counts in RIC, and the stream goes on to the next word of its run (R53, R394). -/
def State.laneNext (c : Cur) (s : State) : State := s.modGroup c.team c.grp fun g => (g.countLane s.tick).stepClause

/-- The state after a scalar word of `n` bytes retires with the registers `r`: the next word is `n` bytes on (R71). -/
def State.scalarNext (n : Nat) (r : ScalarRegs) (s : State) : State := s.retireScalar (r.goto (r.pc + BitVec.ofNat 64 n))

end Sys2Proof.Machine
end

