-- ==== Sys2Proof/WellFormed.lean ====
section
/-! DEFINITION. The checks of an instruction's operands that its encoding makes (R46, R47, R56–R58), and what carries each instruction: a scalar word, a
lane word, a reserved word, or no word at all. -/

namespace Sys2Proof

/-- The functions of QOP that read qa alone (R81). -/
def QFun.one : QFun → Bool
  | .and => false
  | .or => false
  | .xor => false
  | .andn => false
  | .not => true
  | .mov => true

/-- A flag field (R181): one of the twelve flags, or 63 for none. -/
def flagNamed (flag : BitVec 6) : Bool := decide (flag.toNat ≤ 11) || flag == 63

/-- Whether an instruction's operands are ones that its encoding admits: a q destination is not q15 (R46), a flag field names a flag (R181), a word
whose selector chooses between two rows of the table has the selector of its row (R104, R109, R124, R160, R198, R201). An event's operands are not
encoded. -/
def Instr.wellFormed : Instr → Bool
  | .add _ _ _ => true
  | .sub _ _ _ => true
  | .mul _ _ _ => true
  | .mulh _ _ _ _ => true
  | .div _ _ _ _ => true
  | .rem _ _ _ _ => true
  | .and _ _ _ => true
  | .or _ _ _ => true
  | .xor _ _ _ => true
  | .shl _ _ _ => true
  | .shr _ _ _ => true
  | .sar _ _ _ => true
  | .min _ _ _ _ => true
  | .max _ _ _ _ => true
  | .bfx _ _ _ => true
  | .bfi _ _ _ => true
  | .addi _ _ _ => true
  | .andi _ _ _ => true
  | .ori _ _ _ => true
  | .xori _ _ _ => true
  | .shli _ _ _ => true
  | .shri _ _ _ => true
  | .sari _ _ _ => true
  | .movi _ _ => true
  | .movhi _ _ => true
  | .cmp _ qd _ _ => qd != 15
  | .cmpi _ qd _ _ => qd != 15
  | .qop f qd _ qb => qd != 15 && (!f.one || qb == 0)
  | .sel _ _ _ _ => true
  | .popc _ _ => true
  | .clz _ _ => true
  | .ctz _ _ => true
  | .brev _ _ => true
  | .ld _ _ _ _ => true
  | .st _ _ _ _ => true
  | .lds _ _ _ _ => true
  | .sts _ _ _ _ => true
  | .ldaq _ _ _ _ => true
  | .strl _ _ _ _ => true
  | .atom _ _ _ _ _ => true
  | .cas _ _ _ _ => true
  | .fence _ => true
  | .br _ _ _ => true
  | .call _ _ _ => true
  | .ret _ _ => true
  | .jmpr _ => true
  | .lrun _ _ _ => true
  | .spop _ => true
  | .lnch _ _ => true
  | .sget _ _ _ => true
  | .sset _ _ => true
  | .mrst _ => true
  | .cpy flag _ => flagNamed flag
  | .gath flag _ => flagNamed flag
  | .part flag _ => flagNamed flag
  | .puts flag _ => flagNamed flag
  | .get flag _ => flagNamed flag
  | .fabricRadd flag _ => flagNamed flag
  | .plcl flag _ => flagNamed flag
  | .plcn _ _ _ => true
  | .plwt _ _ _ => true
  | .plval flag _ _ => flagNamed flag
  | .plcx _ _ _ => true
  | .wflg _ => true
  | .wflgNow _ => true
  | .swini _ _ => true
  | .swait _ _ => true
  | .waita _ _ _ => true
  | .sbara _ _ _ => true
  | .sbarw _ _ => true
  | .obres _ _ _ => true
  | .obrel _ => true
  | .ctab _ _ => true
  | .trap _ _ => true
  | .trd _ _ _ => true
  | .twr _ _ _ => true
  | .tres _ _ _ => true
  | .tkil _ => true
  | .dump _ _ _ => true
  | .pairWord _ => true
  | .laneAdd w => w.md != 1
  | .laneAddi w => w.md == 1
  | .laneSub _ => true
  | .adds _ => true
  | .subs _ => true
  | .neg _ => true
  | .abs _ => true
  | .laneMul _ => true
  | .laneMulh _ => true
  | .muls _ => true
  | .mad _ => true
  | .mads _ => true
  | .laneDiv _ => true
  | .laneRem _ => true
  | .laneMin _ => true
  | .laneMax _ => true
  | .clamp _ => true
  | .laneAnd _ => true
  | .laneOr _ => true
  | .laneXor _ => true
  | .andn _ => true
  | .not _ => true
  | .tern _ => true
  | .laneShl w => w.md != 1
  | .laneShr w => w.md != 1
  | .laneSar w => w.md != 1
  | .rol w => w.md != 1
  | .ror w => w.md != 1
  | .laneShli w => w.md == 1
  | .laneShri w => w.md == 1
  | .laneSari w => w.md == 1
  | .roli w => w.md == 1
  | .rori w => w.md == 1
  | .mov _ => true
  | .laneMovi _ => true
  | .laneSel _ => true
  | .lget _ => true
  | .fadd _ => true
  | .fsub _ => true
  | .fmul _ => true
  | .fdiv _ => true
  | .fsqrt _ => true
  | .fmin _ => true
  | .fmax _ => true
  | .fabs _ => true
  | .fneg _ => true
  | .cpsgn _ => true
  | .fma _ => true
  | .fms _ => true
  | .fnma _ => true
  | .ex2f _ => true
  | .lg2 _ => true
  | .rcp _ => true
  | .rsq _ => true
  | .sinp _ => true
  | .cosp _ => true
  | .rndi _ => true
  | .expi _ => true
  | .cvt _ => true
  | .qnt _ => true
  | .dqnt _ => true
  | .bsAdd _ => true
  | .bsSub _ => true
  | .bsAdds _ => true
  | .bsSubs _ => true
  | .bsMul _ => true
  | .bsMuls _ => true
  | .bsMin _ => true
  | .bsMax _ => true
  | .bscmp _ _ => true
  | .lanePopc _ => true
  | .laneClz _ => true
  | .laneCtz _ => true
  | .laneBrev _ => true
  | .laneBfx w => w.md != 1
  | .laneBfi w => w.md != 1
  | .bfxi w => w.md == 1
  | .bfii w => w.md == 1
  | .hashCrc _ => true
  | .hashMix _ => true
  | .scmp _ => true
  | .sfind _ => true
  | .slen _ => true
  | .rng _ => true
  | .laneCmp _ _ => true
  | .fcmp _ _ => true
  | .pand _ => true
  | .por _ => true
  | .pxor _ => true
  | .pandn _ => true
  | .pnot _ => true
  | .pmov _ => true
  | .pset _ => true
  | .pget _ => true
  | .pput _ => true
  | .laneIf _ => true
  | .laneElse _ => true
  | .laneEndif _ => true
  | .laneLoop _ => true
  | .laneBrk _ => true
  | .laneCont _ => true
  | .laneEndloop _ => true
  | .laneExit _ => true
  | .laneStop _ => true
  | .rfil _ => true
  | .pollThr _ => true
  | .pollMask _ => true
  | .pollRank _ => true
  | .keyg _ => true
  | .lead _ => true
  | .lpush _ => true
  | .xlnGet _ => true
  | .xlnFlip _ => true
  | .xlnRot _ => true
  | .xlnSlide _ => true
  | .bcst _ => true
  | .gred _ _ => true
  | .gscan _ _ _ => true
  | .gsync _ => true
  | .azero _ => true
  | .aadd _ => true
  | .aadda _ => true
  | .aneg _ => true
  | .amac _ => true
  | .adot _ => true
  | .cres _ => true
  | .arnd w => w.md != 1
  | .arndDiv w => w.md == 1
  | .ald _ => true
  | .ast _ => true
  | .aseg _ => true
  | .astat _ => true
  | .ageti _ => true
  | .ared _ => true
  | .laneLd _ => true
  | .laneSt _ => true
  | .laneLds _ => true
  | .laneSts _ => true
  | .laneAtom _ _ => true
  | .laneCas _ => true
  | .radd _ => true
  | .raddAcc _ => true
  | .laneFence _ => true
  | .laneWaita _ => true
  | .bara _ => true
  | .barw _ => true
  | .cbara _ => true
  | .cbarw _ => true
  | .laneSwait _ => true
  | .mma w => !w.kA
  | .mmaKreg w => w.kA
  | .mfen _ => true
  | .mwait w => w.kA
  | .mwaitLast w => !w.kA
  | .mzero _ => true
  | .mstRnd _ => true
  | .mstRaw _ => true
  | .mstAdd _ => true
  | .vpjs _ => true
  | .vpjr _ => true
  | .vpjm _ => true
  | .vpjx _ => true
  | .vpjb _ => true
  | .reservedLaneWord _ => true
  | .reservedScalarWord => true
  | .sdone => true
  | .nop => true
  | .eret => true
  | .runStart _ _ => true
  | .clauseStart _ _ => true
  | .loadDataReturn _ _ _ => true
  | .storePerformed _ _ _ => true
  | .enginePieceLand _ _ => true
  | .cpyComplete _ _ => true
  | .gathComplete _ _ => true
  | .partComplete _ _ => true
  | .putsComplete _ _ => true
  | .getComplete _ _ => true
  | .fabricRaddComplete _ _ => true
  | .engineFault _ _ _ _ _ => true
  | .mmaComplete _ _ _ => true
  | .spireComplete _ => true
  | .plvalViewWrite _ _ => true
  | .parkWake _ _ => true
  | .waitaTimeout _ _ => true
  | .hang _ _ => true
  | .orderedOpRelease _ _ => true
  | .handlerEntry _ => true
  | .handlerWdogExpiry _ => true
  | .launchAccept _ _ => true
  | .teamPlace _ => true
  | .launchEnd _ => true
  | .swapEligible _ => true
  | .preempt _ => true
  | .restore _ _ => true
  | .domeTlbi _ => true
  | .sweeperPass => true
  | .l1CleanExpiry _ _ _ => true
  | .hostAccess _ => true
  | .hostSnoop _ _ => true
  | .backInvalidateResponse _ _ => true
  | .fabricRequest _ => true
  | .fabricResponse _ => true
  | .linkDown _ => true
  | .planeHeader _ _ => true
  | .countPlane _ _ _ => true
  | .gatherPlane _ _ _ => true
  | .cancelRequest _ _ _ _ => true
  | .freeze _ _ _ => true
  | .cancelAnswer _ _ => true
  | .domeL2quota _ => true
  | .cpClasscfg _ _ => true
  | .domeCls0rsv _ => true
  | .domeSweep _ => true
  | .fabPodcfg _ => true
  | .domeCntsnap _ => true
  | .cntsnapCopy => true
  | .dbgTracectl _ => true
  | .traceSample => true
  | .dbgStopctl _ => true
  | .dbgStop => true
  | .pwrClkctl _ => true
  | .throttleEval => true
  | .registerWrite _ _ => true
  | .devRstN => true
  | .pgDeassert => true
  | .pgAllAsserted => true
  | .cxlConventionalReset => true
  | .cxlFlrPort0 => true
  | .cxlFlrPort1 => true
  | .thermalTrip => true
  | .thermNDeassert => true
  | .doeBegin _ _ => true
  | .doeChunk _ _ => true
  | .doeEnd => true
  | .doeAttest _ _ => true
  | .doeCommit => true
  | .firmwareReady => true
  | .liveUpdateTimeout => true
  | .confidentialContextCreate _ _ => true
  | .faultRingDrain => true
  | .scrubPass => true
  | .globalTick => true
  | .coreClockCycle => true
  | .resolutionStep _ _ _ _ _ => true
  | .tlbiComplete => true
  | .linkRestored _ => true
  | .vcCreditReturn _ _ _ => true
  | .driverLaunchEnd _ => true
  | .confidentialContextEnd _ => true
  | .functionEnable => true
  | .eccError _ _ => true
  | .corePowerGating _ => true
  | .traceRingSpaceReturn _ _ => true

/-- What carries an instruction. -/
inductive Carrier where
  /-- A scalar word, or two (R45). -/
  | scalar
  /-- A lane word (R47, R48). -/
  | lane
  /-- A word of a reserved encoding (R46, R57). -/
  | reserved
  /-- Nothing: hardware, host, driver or fabric act. -/
  | event
deriving DecidableEq, Repr

/-- The carrier of each instruction. -/
def Instr.carrier : Instr → Carrier
  | .add _ _ _ => .scalar
  | .sub _ _ _ => .scalar
  | .mul _ _ _ => .scalar
  | .mulh _ _ _ _ => .scalar
  | .div _ _ _ _ => .scalar
  | .rem _ _ _ _ => .scalar
  | .and _ _ _ => .scalar
  | .or _ _ _ => .scalar
  | .xor _ _ _ => .scalar
  | .shl _ _ _ => .scalar
  | .shr _ _ _ => .scalar
  | .sar _ _ _ => .scalar
  | .min _ _ _ _ => .scalar
  | .max _ _ _ _ => .scalar
  | .bfx _ _ _ => .scalar
  | .bfi _ _ _ => .scalar
  | .addi _ _ _ => .scalar
  | .andi _ _ _ => .scalar
  | .ori _ _ _ => .scalar
  | .xori _ _ _ => .scalar
  | .shli _ _ _ => .scalar
  | .shri _ _ _ => .scalar
  | .sari _ _ _ => .scalar
  | .movi _ _ => .scalar
  | .movhi _ _ => .scalar
  | .cmp _ _ _ _ => .scalar
  | .cmpi _ _ _ _ => .scalar
  | .qop _ _ _ _ => .scalar
  | .sel _ _ _ _ => .scalar
  | .popc _ _ => .scalar
  | .clz _ _ => .scalar
  | .ctz _ _ => .scalar
  | .brev _ _ => .scalar
  | .ld _ _ _ _ => .scalar
  | .st _ _ _ _ => .scalar
  | .lds _ _ _ _ => .scalar
  | .sts _ _ _ _ => .scalar
  | .ldaq _ _ _ _ => .scalar
  | .strl _ _ _ _ => .scalar
  | .atom _ _ _ _ _ => .scalar
  | .cas _ _ _ _ => .scalar
  | .fence _ => .scalar
  | .br _ _ _ => .scalar
  | .call _ _ _ => .scalar
  | .ret _ _ => .scalar
  | .jmpr _ => .scalar
  | .lrun _ _ _ => .scalar
  | .spop _ => .scalar
  | .lnch _ _ => .scalar
  | .sget _ _ _ => .scalar
  | .sset _ _ => .scalar
  | .mrst _ => .scalar
  | .cpy _ _ => .scalar
  | .gath _ _ => .scalar
  | .part _ _ => .scalar
  | .puts _ _ => .scalar
  | .get _ _ => .scalar
  | .fabricRadd _ _ => .scalar
  | .plcl _ _ => .scalar
  | .plcn _ _ _ => .scalar
  | .plwt _ _ _ => .scalar
  | .plval _ _ _ => .scalar
  | .plcx _ _ _ => .scalar
  | .wflg _ => .scalar
  | .wflgNow _ => .scalar
  | .swini _ _ => .scalar
  | .swait _ _ => .scalar
  | .waita _ _ _ => .scalar
  | .sbara _ _ _ => .scalar
  | .sbarw _ _ => .scalar
  | .obres _ _ _ => .scalar
  | .obrel _ => .scalar
  | .ctab _ _ => .scalar
  | .trap _ _ => .scalar
  | .trd _ _ _ => .scalar
  | .twr _ _ _ => .scalar
  | .tres _ _ _ => .scalar
  | .tkil _ => .scalar
  | .dump _ _ _ => .scalar
  | .pairWord _ => .lane
  | .laneAdd _ => .lane
  | .laneAddi _ => .lane
  | .laneSub _ => .lane
  | .adds _ => .lane
  | .subs _ => .lane
  | .neg _ => .lane
  | .abs _ => .lane
  | .laneMul _ => .lane
  | .laneMulh _ => .lane
  | .muls _ => .lane
  | .mad _ => .lane
  | .mads _ => .lane
  | .laneDiv _ => .lane
  | .laneRem _ => .lane
  | .laneMin _ => .lane
  | .laneMax _ => .lane
  | .clamp _ => .lane
  | .laneAnd _ => .lane
  | .laneOr _ => .lane
  | .laneXor _ => .lane
  | .andn _ => .lane
  | .not _ => .lane
  | .tern _ => .lane
  | .laneShl _ => .lane
  | .laneShr _ => .lane
  | .laneSar _ => .lane
  | .rol _ => .lane
  | .ror _ => .lane
  | .laneShli _ => .lane
  | .laneShri _ => .lane
  | .laneSari _ => .lane
  | .roli _ => .lane
  | .rori _ => .lane
  | .mov _ => .lane
  | .laneMovi _ => .lane
  | .laneSel _ => .lane
  | .lget _ => .lane
  | .fadd _ => .lane
  | .fsub _ => .lane
  | .fmul _ => .lane
  | .fdiv _ => .lane
  | .fsqrt _ => .lane
  | .fmin _ => .lane
  | .fmax _ => .lane
  | .fabs _ => .lane
  | .fneg _ => .lane
  | .cpsgn _ => .lane
  | .fma _ => .lane
  | .fms _ => .lane
  | .fnma _ => .lane
  | .ex2f _ => .lane
  | .lg2 _ => .lane
  | .rcp _ => .lane
  | .rsq _ => .lane
  | .sinp _ => .lane
  | .cosp _ => .lane
  | .rndi _ => .lane
  | .expi _ => .lane
  | .cvt _ => .lane
  | .qnt _ => .lane
  | .dqnt _ => .lane
  | .bsAdd _ => .lane
  | .bsSub _ => .lane
  | .bsAdds _ => .lane
  | .bsSubs _ => .lane
  | .bsMul _ => .lane
  | .bsMuls _ => .lane
  | .bsMin _ => .lane
  | .bsMax _ => .lane
  | .bscmp _ _ => .lane
  | .lanePopc _ => .lane
  | .laneClz _ => .lane
  | .laneCtz _ => .lane
  | .laneBrev _ => .lane
  | .laneBfx _ => .lane
  | .laneBfi _ => .lane
  | .bfxi _ => .lane
  | .bfii _ => .lane
  | .hashCrc _ => .lane
  | .hashMix _ => .lane
  | .scmp _ => .lane
  | .sfind _ => .lane
  | .slen _ => .lane
  | .rng _ => .lane
  | .laneCmp _ _ => .lane
  | .fcmp _ _ => .lane
  | .pand _ => .lane
  | .por _ => .lane
  | .pxor _ => .lane
  | .pandn _ => .lane
  | .pnot _ => .lane
  | .pmov _ => .lane
  | .pset _ => .lane
  | .pget _ => .lane
  | .pput _ => .lane
  | .laneIf _ => .lane
  | .laneElse _ => .lane
  | .laneEndif _ => .lane
  | .laneLoop _ => .lane
  | .laneBrk _ => .lane
  | .laneCont _ => .lane
  | .laneEndloop _ => .lane
  | .laneExit _ => .lane
  | .laneStop _ => .lane
  | .rfil _ => .lane
  | .pollThr _ => .lane
  | .pollMask _ => .lane
  | .pollRank _ => .lane
  | .keyg _ => .lane
  | .lead _ => .lane
  | .lpush _ => .lane
  | .xlnGet _ => .lane
  | .xlnFlip _ => .lane
  | .xlnRot _ => .lane
  | .xlnSlide _ => .lane
  | .bcst _ => .lane
  | .gred _ _ => .lane
  | .gscan _ _ _ => .lane
  | .gsync _ => .lane
  | .azero _ => .lane
  | .aadd _ => .lane
  | .aadda _ => .lane
  | .aneg _ => .lane
  | .amac _ => .lane
  | .adot _ => .lane
  | .cres _ => .lane
  | .arnd _ => .lane
  | .arndDiv _ => .lane
  | .ald _ => .lane
  | .ast _ => .lane
  | .aseg _ => .lane
  | .astat _ => .lane
  | .ageti _ => .lane
  | .ared _ => .lane
  | .laneLd _ => .lane
  | .laneSt _ => .lane
  | .laneLds _ => .lane
  | .laneSts _ => .lane
  | .laneAtom _ _ => .lane
  | .laneCas _ => .lane
  | .radd _ => .lane
  | .raddAcc _ => .lane
  | .laneFence _ => .lane
  | .laneWaita _ => .lane
  | .bara _ => .lane
  | .barw _ => .lane
  | .cbara _ => .lane
  | .cbarw _ => .lane
  | .laneSwait _ => .lane
  | .mma _ => .lane
  | .mmaKreg _ => .lane
  | .mfen _ => .lane
  | .mwait _ => .lane
  | .mwaitLast _ => .lane
  | .mzero _ => .lane
  | .mstRnd _ => .lane
  | .mstRaw _ => .lane
  | .mstAdd _ => .lane
  | .vpjs _ => .lane
  | .vpjr _ => .lane
  | .vpjm _ => .lane
  | .vpjx _ => .lane
  | .vpjb _ => .lane
  | .reservedLaneWord _ => .reserved
  | .reservedScalarWord => .reserved
  | .sdone => .scalar
  | .nop => .scalar
  | .eret => .scalar
  | .runStart _ _ => .event
  | .clauseStart _ _ => .event
  | .loadDataReturn _ _ _ => .event
  | .storePerformed _ _ _ => .event
  | .enginePieceLand _ _ => .event
  | .cpyComplete _ _ => .event
  | .gathComplete _ _ => .event
  | .partComplete _ _ => .event
  | .putsComplete _ _ => .event
  | .getComplete _ _ => .event
  | .fabricRaddComplete _ _ => .event
  | .engineFault _ _ _ _ _ => .event
  | .mmaComplete _ _ _ => .event
  | .spireComplete _ => .event
  | .plvalViewWrite _ _ => .event
  | .parkWake _ _ => .event
  | .waitaTimeout _ _ => .event
  | .hang _ _ => .event
  | .orderedOpRelease _ _ => .event
  | .handlerEntry _ => .event
  | .handlerWdogExpiry _ => .event
  | .launchAccept _ _ => .event
  | .teamPlace _ => .event
  | .launchEnd _ => .event
  | .swapEligible _ => .event
  | .preempt _ => .event
  | .restore _ _ => .event
  | .domeTlbi _ => .event
  | .sweeperPass => .event
  | .l1CleanExpiry _ _ _ => .event
  | .hostAccess _ => .event
  | .hostSnoop _ _ => .event
  | .backInvalidateResponse _ _ => .event
  | .fabricRequest _ => .event
  | .fabricResponse _ => .event
  | .linkDown _ => .event
  | .planeHeader _ _ => .event
  | .countPlane _ _ _ => .event
  | .gatherPlane _ _ _ => .event
  | .cancelRequest _ _ _ _ => .event
  | .freeze _ _ _ => .event
  | .cancelAnswer _ _ => .event
  | .domeL2quota _ => .event
  | .cpClasscfg _ _ => .event
  | .domeCls0rsv _ => .event
  | .domeSweep _ => .event
  | .fabPodcfg _ => .event
  | .domeCntsnap _ => .event
  | .cntsnapCopy => .event
  | .dbgTracectl _ => .event
  | .traceSample => .event
  | .dbgStopctl _ => .event
  | .dbgStop => .event
  | .pwrClkctl _ => .event
  | .throttleEval => .event
  | .registerWrite _ _ => .event
  | .devRstN => .event
  | .pgDeassert => .event
  | .pgAllAsserted => .event
  | .cxlConventionalReset => .event
  | .cxlFlrPort0 => .event
  | .cxlFlrPort1 => .event
  | .thermalTrip => .event
  | .thermNDeassert => .event
  | .doeBegin _ _ => .event
  | .doeChunk _ _ => .event
  | .doeEnd => .event
  | .doeAttest _ _ => .event
  | .doeCommit => .event
  | .firmwareReady => .event
  | .liveUpdateTimeout => .event
  | .confidentialContextCreate _ _ => .event
  | .faultRingDrain => .event
  | .scrubPass => .event
  | .globalTick => .event
  | .coreClockCycle => .event
  | .resolutionStep _ _ _ _ _ => .event
  | .tlbiComplete => .event
  | .linkRestored _ => .event
  | .vcCreditReturn _ _ _ => .event
  | .driverLaunchEnd _ => .event
  | .confidentialContextEnd _ => .event
  | .functionEnable => .event
  | .eccError _ _ => .event
  | .corePowerGating _ => .event
  | .traceRingSpaceReturn _ _ => .event

end Sys2Proof
end

