-- ==== Sys2Proof/Certificates/Slice0/Obligations.lean ====
section
/-! DEFINITION. The statements for the provers, and the tables and relations they are written with. -/

namespace Sys2Proof.Claims

open Sys2Proof.Machine

/-! ### Scalar words that compute on the scalar registers (R73–R82) -/

/-- The size in bytes and the effect of each scalar word that computes on the stream's own registers, as R73 to R82 and R93 give it. -/
def scalarEffect : Instr → Option (Nat × (ScalarRegs → ScalarRegs))
  | .add d a b => some (4, fun r => r.setS d (r.getS a + r.getS b))
  | .sub d a b => some (4, fun r => r.setS d (r.getS a - r.getS b))
  | .mul d a b => some (4, fun r => r.setS d (r.getS a * r.getS b))
  | .mulh false d a b => some (4, fun r => r.setS d (BitVec.ofInt 64 ((r.getS a).toInt * (r.getS b).toInt / 2 ^ 64)))
  | .mulh true d a b => some (4, fun r => r.setS d (BitVec.ofNat 64 ((r.getS a).toNat * (r.getS b).toNat / 2 ^ 64)))
  | .div false d a b => some (4, fun r =>
      r.setS d (if r.getS b = 0 then -1#64 else BitVec.ofInt 64 ((r.getS a).toInt.tdiv (r.getS b).toInt)))
  | .div true d a b => some (4, fun r => r.setS d (if r.getS b = 0 then -1#64 else r.getS a / r.getS b))
  | .rem false d a b => some (4, fun r =>
      r.setS d (if r.getS b = 0 then r.getS a else BitVec.ofInt 64 ((r.getS a).toInt.tmod (r.getS b).toInt)))
  | .rem true d a b => some (4, fun r => r.setS d (if r.getS b = 0 then r.getS a else r.getS a % r.getS b))
  | .and d a b => some (4, fun r => r.setS d (r.getS a &&& r.getS b))
  | .or d a b => some (4, fun r => r.setS d (r.getS a ||| r.getS b))
  | .xor d a b => some (4, fun r => r.setS d (r.getS a ^^^ r.getS b))
  | .shl d a b => some (4, fun r => r.setS d (r.getS a <<< (r.getS b).toNat))
  | .shr d a b => some (4, fun r => r.setS d (r.getS a >>> (r.getS b).toNat))
  | .sar d a b => some (4, fun r => r.setS d ((r.getS a).sshiftRight (r.getS b).toNat))
  | .min false d a b => some (4, fun r => r.setS d (if (r.getS b).toInt < (r.getS a).toInt then r.getS b else r.getS a))
  | .min true d a b => some (4, fun r => r.setS d (if (r.getS b).toNat < (r.getS a).toNat then r.getS b else r.getS a))
  | .max false d a b => some (4, fun r => r.setS d (if (r.getS a).toInt < (r.getS b).toInt then r.getS b else r.getS a))
  | .max true d a b => some (4, fun r => r.setS d (if (r.getS a).toNat < (r.getS b).toNat then r.getS b else r.getS a))
  | .bfx d a b => some (4, fun r =>
      r.setS d (BitVec.ofNat 64 (((r.getS a).toNat >>> ((r.getS b).toNat % 64)) % 2 ^ min ((r.getS b).toNat / 256 % 128) 64)))
  | .bfi d a b => some (4, fun r =>
      let pos := (r.getS b).toNat % 64
      let mask : Word := BitVec.ofNat 64 (2 ^ min (min ((r.getS b).toNat / 256 % 128) 64) (64 - pos) - 1)
      r.setS d ((r.getS d &&& ~~~(mask <<< pos)) ||| ((r.getS a &&& mask) <<< pos)))
  | .addi d a i => some (4, fun r => r.setS d (r.getS a + i.signExtend 64))
  | .andi d a i => some (4, fun r => r.setS d (r.getS a &&& i.signExtend 64))
  | .ori d a i => some (4, fun r => r.setS d (r.getS a ||| i.signExtend 64))
  | .xori d a i => some (4, fun r => r.setS d (r.getS a ^^^ i.signExtend 64))
  | .shli d a n => some (4, fun r => r.setS d (r.getS a <<< n.toNat))
  | .shri d a n => some (4, fun r => r.setS d (r.getS a >>> n.toNat))
  | .sari d a n => some (4, fun r => r.setS d ((r.getS a).sshiftRight n.toNat))
  | .movi d v => some (8, fun r => r.setS d (v.signExtend 64))
  | .movhi d v => some (8, fun r => r.setS d ((v.setWidth 64 <<< 32) ||| (r.getS d &&& 0xFFFFFFFF#64)))
  | .popc d a => some (4, fun r => r.setS d (BitVec.ofNat 64 ((List.range 64).filter fun i => (r.getS a).getLsbD i).length))
  | .clz d a => some (4, fun r => r.setS d (BitVec.ofNat 64 ((List.range 64).findIdx fun i => (r.getS a).getLsbD (63 - i))))
  | .ctz d a => some (4, fun r => r.setS d (BitVec.ofNat 64 ((List.range 64).findIdx fun i => (r.getS a).getLsbD i)))
  | .brev d a => some (4, fun r => r.setS d (r.getS a).reverse)
  | .cmp .eq q a b => some (4, fun r => r.setQ q (decide (r.getS a = r.getS b)))
  | .cmp .ne q a b => some (4, fun r => r.setQ q (decide (r.getS a ≠ r.getS b)))
  | .cmp .lt q a b => some (4, fun r => r.setQ q (decide ((r.getS a).toInt < (r.getS b).toInt)))
  | .cmp .ge q a b => some (4, fun r => r.setQ q (decide ((r.getS a).toInt ≥ (r.getS b).toInt)))
  | .cmp .ltn q a b => some (4, fun r => r.setQ q (decide ((r.getS a).toNat < (r.getS b).toNat)))
  | .cmp .gen q a b => some (4, fun r => r.setQ q (decide ((r.getS a).toNat ≥ (r.getS b).toNat)))
  | .cmpi .eq q a v => some (8, fun r => r.setQ q (decide (r.getS a = v.signExtend 64)))
  | .cmpi .ne q a v => some (8, fun r => r.setQ q (decide (r.getS a ≠ v.signExtend 64)))
  | .cmpi .lt q a v => some (8, fun r => r.setQ q (decide ((r.getS a).toInt < v.toInt)))
  | .cmpi .ge q a v => some (8, fun r => r.setQ q (decide ((r.getS a).toInt ≥ v.toInt)))
  | .cmpi .ltn q a v => some (8, fun r => r.setQ q (decide ((r.getS a).toNat < (v.signExtend 64).toNat)))
  | .cmpi .gen q a v => some (8, fun r => r.setQ q (decide ((r.getS a).toNat ≥ (v.signExtend 64).toNat)))
  | .qop .and q a b => some (4, fun r => r.setQ q (r.getQ a && r.getQ b))
  | .qop .or q a b => some (4, fun r => r.setQ q (r.getQ a || r.getQ b))
  | .qop .xor q a b => some (4, fun r => r.setQ q (xor (r.getQ a) (r.getQ b)))
  | .qop .andn q a b => some (4, fun r => r.setQ q (r.getQ a && !r.getQ b))
  | .qop .not q a _ => some (4, fun r => r.setQ q (!r.getQ a))
  | .qop .mov q a _ => some (4, fun r => r.setQ q (r.getQ a))
  | .sel d q a b => some (4, fun r => r.setS d (bif r.getQ q then r.getS a else r.getS b))
  | .nop => some (4, fun r => r)
  | _ => none

/-- The s-register that each of these words writes; none for those that write a q-register, and for NOP. -/
def scalarDest : Instr → Option SReg
  | .add d _ _ => some d
  | .sub d _ _ => some d
  | .mul d _ _ => some d
  | .mulh _ d _ _ => some d
  | .div _ d _ _ => some d
  | .rem _ d _ _ => some d
  | .and d _ _ => some d
  | .or d _ _ => some d
  | .xor d _ _ => some d
  | .shl d _ _ => some d
  | .shr d _ _ => some d
  | .sar d _ _ => some d
  | .min _ d _ _ => some d
  | .max _ d _ _ => some d
  | .bfx d _ _ => some d
  | .bfi d _ _ => some d
  | .addi d _ _ => some d
  | .andi d _ _ => some d
  | .ori d _ _ => some d
  | .xori d _ _ => some d
  | .shli d _ _ => some d
  | .shri d _ _ => some d
  | .sari d _ _ => some d
  | .movi d _ => some d
  | .movhi d _ => some d
  | .popc d _ => some d
  | .clz d _ => some d
  | .ctz d _ => some d
  | .brev d _ => some d
  | .sel d _ _ _ => some d
  | _ => none

/-- The q-register that a compare or QOP writes. -/
def scalarDestQ : Instr → Option QReg
  | .cmp _ q _ _ => some q
  | .cmpi _ q _ _ => some q
  | .qop _ q _ _ => some q
  | _ => none

/-- What a word that writes scalar registers of the current stream alone leaves as it was: every store, table, team and group but the current group's
scalar registers, RIC, watchdog tick, stall mark and watchpoint pass, and in the handler slot its registers and stall mark. -/
def OnlyScalar (s t : State) : Prop :=
  t = { s with teams := t.teams } ∧ t.teams.length = s.teams.length
    ∧ (∀ u, s.cur.map (·.team) ≠ some u → t.team? u = s.team? u)
    ∧ (∀ u T T', s.team? u = some T → t.team? u = some T' → T' = { T with groups := T'.groups, handler := { T.handler with regs := T'.handler.regs, stall := T'.handler.stall } }
        ∧ (s.cur.map (·.stream) ≠ some .handler → T'.handler = T.handler) ∧ (s.cur.map (·.stream) = some .handler → T'.groups = T.groups))
    ∧ (∀ u g, s.cur.map (fun c => (c.team, c.grp)) ≠ some (u, g) → t.group? u g = s.group? u g)
    ∧ (∀ u g G G', s.group? u g = some G → t.group? u g = some G' →
        G' = { G with regs := G'.regs, ric := G'.ric, stallS := G'.stallS, ricSeen := G'.ricSeen, skipS := G'.skipS })

/-! ### Scalar memory access (R83–R86, R167, R253) -/

/-- Requests of the current stream fail a check of R167 and pass those before it: alignment, translation, the scratchpad's bounds, the range locks, and
permission, in that order. The trap names the lanes that fail it, the lowest of them gives its address; the last state is what the walk leaves. -/
inductive CheckFails (a : Agent) (T : Team) (reqs : List Req) (s : State) : TrapArgs → State → Prop
  | align (r : Req) (bad : List Req) : reqs.filter (fun (q : Req) => decide (q.ea % (q.align : Int) ≠ 0)) = r :: bad →
      CheckFails a T reqs s { cause := 0x12, tlane := laneMask (r :: bad), taddr := BitVec.ofInt 64 r.ea } s
  | address (found : List (Option Word × Hit)) (m : Word) (r : Req) (bad : List (Word × Req)) (s' : State) : (∀ q ∈ reqs, q.ea % (q.align : Int) = 0) →
      reqs.mapM (locateReq a) s = .ok (found, s') → (found.filterMap fun x => x.1.map fun m => (m, x.2.req)) = (m, r) :: bad →
      CheckFails a T reqs s { cause := 0x10, tlane := laneMask (r :: bad.map (·.2)), taddr := BitVec.ofInt 64 r.ea, tinfo := m } s'
  | bounds (hits : List Hit) (r : Req) (bad : List Req) (s' : State) : (∀ q ∈ reqs, q.ea % (q.align : Int) = 0) →
      reqs.mapM (locateReq a) s = .ok (hits.map fun h => (none, h), s') →
      reqs.filter (fun q => q.scratch && decide (q.ea < 0 ∨ (T.size : Int) < q.ea + q.size)) = r :: bad →
      CheckFails a T reqs s { cause := 0x14, tlane := laneMask (r :: bad), taddr := BitVec.ofInt 64 r.ea } s'
  | range (hits : List Hit) (r : Req) (bad : List Req) (s' : State) : (∀ q ∈ reqs, q.ea % (q.align : Int) = 0) →
      reqs.mapM (locateReq a) s = .ok (hits.map fun h => (none, h), s') →
      (∀ q ∈ reqs, q.scratch = true → 0 ≤ q.ea ∧ q.ea + q.size ≤ (T.size : Int)) →
      reqs.filter (fun q => T.locks.any fun l => l.against T.core (if q.scratch then 1 else 0) 0 q.ea q.size q.acc.writes) = r :: bad →
      CheckFails a T reqs s { cause := 0x13, tlane := laneMask (r :: bad), taddr := BitVec.ofInt 64 r.ea } s'
  | access (hits : List Hit) (h : Hit) (bad : List Hit) (s' : State) : (∀ q ∈ reqs, q.ea % (q.align : Int) = 0) →
      reqs.mapM (locateReq a) s = .ok (hits.map fun h => (none, h), s') →
      (∀ q ∈ reqs, q.scratch = true → 0 ≤ q.ea ∧ q.ea + q.size ≤ (T.size : Int)) →
      (∀ q ∈ reqs, ∀ l ∈ T.locks, l.against T.core (if q.scratch then 1 else 0) 0 q.ea q.size q.acc.writes = false) →
      hits.filter (fun h => h.parts.any fun p => !p.permits h.req.acc || !p.open h.req.acc s') = h :: bad →
      CheckFails a T reqs s { cause := 0x11, tlane := laneMask ((h :: bad).map (·.req)), taddr := BitVec.ofInt 64 h.req.ea
                              tinfo := if h.parts.all fun p => p.permits h.req.acc then 0x200 else 0 } s'

/-- The access of a scalar word (R83 to R85), and whether it is an ordered operation. -/
def scalarAccess (r : ScalarRegs) : Instr → Option (Bool × Req)
  | .ld z _ b o => some (false, scalarReq false ((r.getS b).toNat + o.toNat * loadBytes z) (loadBytes z) 1 .read)
  | .lds z _ b o => some (false, scalarReq true ((r.getS b).toNat + o.toNat * loadBytes z) (loadBytes z) 1 .read)
  | .ldaq _ z _ a => some (true, scalarReq false (r.getS a).toNat (sizeBytes z) (sizeBytes z) .read)
  | .st z _ b o => some (false, scalarReq false ((r.getS b).toNat + o.toNat * sizeBytes z) (sizeBytes z) 1 .write)
  | .sts z _ b o => some (false, scalarReq true ((r.getS b).toNat + o.toNat * sizeBytes z) (sizeBytes z) 1 .write)
  | .strl _ z _ a => some (true, scalarReq false (r.getS a).toNat (sizeBytes z) (sizeBytes z) .write)
  | .atom _ _ _ a _ => some (true, scalarReq false (r.getS a).toNat 8 8 .atomic)
  | .cas _ _ a _ => some (true, scalarReq false (r.getS a).toNat 8 8 .atomic)
  | _ => none

/-- A scalar load's read of a hit, to register `d`, with how the bytes are to land: which of several pieces are read apart is free (R253, the model's
choice, notes/assumptions/4). The state after it, and how many pieces are still to be read. -/
def scalarRead (c : Cur) (h : Hit) (d : SReg) (ext : Nat) (s : State) : State × Nat :=
  s.readsApart false { Apart.of c 0 with sload := some (d.toNat, ext, s.readHit c.team h) } [h.readAt c.team]

/-- The rest of a scalar read, `n` the number of its turn: what is still to be read, over the bytes that its stream has. -/
def scalarRest (c : Cur) (d : SReg) (ext n : Nat) (b : List Byte) (rest : List (Nat × Nat × Block)) : Apart :=
  { Apart.of c 0 with id := n, sload := some (d.toNat, ext, b), reads := rest }
/-- The bytes of a read once the rest of it is read. -/
def bytesRead (b : List Byte) (rest : List (Nat × Nat × Block)) (s : State) : List Byte :=
  rest.foldl (fun b k => patch b k.2.1 (s.readBlock k.2.2)) b

/-- A scalar word after its read: it retires with the registers `r`, or waits for the pieces that are still to be read. -/
def scalarLanded (n : Nat) (r : ScalarRegs) (q : State × Nat) : State := if q.2 = 0 then q.1.scalarNext n r else q.1

/-- The special registers that a group's scalar stream reads with a type of zero (R44), but for SUBN. -/
def specialRead (c : Cur) (T : Team) (G : Group) (L : Launch) (s : State) : Nat → Option Word
  | 0x02 => some (BitVec.ofNat 64 c.grp)
  | 0x03 => some (BitVec.ofNat 64 (T.ordinal % 2 ^ 32))
  | 0x04 => some (BitVec.ofNat 64 T.core)
  | 0x05 => some (BitVec.ofNat 64 (T.cluster % 2 ^ 16))
  | 0x06 => some (BitVec.ofNat 64 (T.core / 48))
  | 0x08 => some G.gitem
  | 0x09 => some (BitVec.ofNat 64 L.nitems)
  | 0x0A => some (BitVec.ofNat 64 s.tick)
  | 0x0B => some G.ric
  | 0x0E => some (BitVec.ofNat 64 L.cls)
  | 0x0F => some (BitVec.ofNat 64 L.ctx)
  | 0x10 => some (BitVec.ofNat 64 L.detm)
  | 0x11 => some (G.batch.setWidth 64)
  | 0x12 => some s.devcap
  | 0x13 => some (BitVec.ofNat 64 G.flagWord)
  | _ => none

/-- The handler registers (R44, R375) while the handler slot handles the trap `x`. -/
def handlerRead (T : Team) (X : Group) (x : Trap) : Nat → Option Word
  | 0x18 => some (x.cause.setWidth 64)
  | 0x19 => some (BitVec.ofNat 64 x.grp)
  | 0x1A => some X.regs.pc
  | 0x1B => some (x.tlpc.setWidth 64)
  | 0x1C => some x.tlane
  | 0x1D => some x.taddr
  | 0x1E => some x.tinfo
  | 0x20 => some T.handler.hs[0]
  | 0x21 => some T.handler.hs[1]
  | 0x22 => some T.handler.hs[2]
  | 0x23 => some T.handler.hs[3]
  | _ => none

/-! ### Commands (R181, R182) -/

/-- The command that an issue puts into flight. -/
def inFlight (c : Cur) (T : Team) (x : Issue) (id stamp : Nat) : Cmd :=
  { id := id, kind := x.kind, grp := c.grp, flag := x.flag, desc := x.desc, arg := x.arg, srec := x.srec, tag := none, lpc := -1#32, pos := 0
    retry := [], held := [], dropped := 0, waiting := 0, got := [], faulted := false, stamp := stamp, scope := x.scope, core := T.core }

/-- The state after an issue: the command is in flight, its ranges are locked, its flag counts one more. -/
def issued (c : Cur) (T : Team) (x : Issue) (stamp : Nat) (s : State) : State :=
  (s.modTeam c.team fun U =>
    { U with cmds := U.cmds ++ [inFlight c T x T.nextCmd stamp], locks := U.locks ++ spanLocks c.grp T.nextCmd x.locks, nextCmd := T.nextCmd + 1 }).modGroup
    c.team c.grp fun g => match x.flag with
      | some n => g.setFlag n (BitVec.ofNat 8 (g.flag n + 1))
      | none => g

/-- Nothing stalls an issue (R181, R182): the core's queue has room, the flag's count is below 255, the table admits the ranges; the stream's stores
to other devices are answered, which its command's accesses come after (R272); and in determinism mode 2 it is the group's turn (R395), the operation
being logged (R399). -/
structure CanIssue (c : Cur) (T : Team) (G : Group) (x : Issue) (stamp : Nat) (s s' : State) : Prop where
  room   : s.queued T.core false < 32
  count  : ∀ n, x.flag = some n → G.flag n < 255
  admits : T.admits x.locks = true
  acked  : s.unacked c.team c.grp = false
  turn   : orderedWait s = .ok (stamp, s)
  logged : orderedLog 8 stamp s = .ok ((), s')

/-- The descriptor that a command word reads whole at issue (R181): aligned, inside the scratchpad, not poisoned; the flag field names a flag or none. -/
structure DescAt (flag : BitVec 6) (off : Word) (T : Team) (d : List Byte) (s : State) : Prop where
  flag   : flag.toNat < 12 ∨ flag = 63
  align  : off.toNat % 64 = 0
  inside : off.toNat + 64 ≤ T.size
  clean  : s.poison = []
  bytes  : d = cellsRead T.scratch off.toNat 64

/-- The flag that a command raises: none in the handler slot, which has no flags (R95). -/
def raised (c : Cur) (flag : BitVec 6) : Option Nat := if c.stream = .handler then none else if flag.toNat < 12 then some flag.toNat else none

/-- The words of the copy engine and the one-sided fabric words, with the checks of their fields and their ranges (R183, R184, R186). -/
def descWord : Instr → Option (CmdKind × BitVec 6 × SReg × (State → Cur → Team → List Byte → List (Nat × Bool)) × (List Byte → List Span))
  | .cpy f a => some (.cpy, f, a, cpyFields, cpySpans)
  | .gath f a => some (.gath, f, a, gathFields, gathSpans)
  | .part f a => some (.part, f, a, partFields, partSpans)
  | .puts f a => some (.puts, f, a, fun _ _ T d => fabricFields .puts d T.size, fabricSpans .puts)
  | .get f a => some (.get, f, a, fun _ _ T d => fabricFields .get d T.size, fabricSpans .get)
  | .fabricRadd f a => some (.radd, f, a, fun _ _ T d => fabricFields .radd d T.size, fabricSpans .radd)
  | _ => none

/-! ### Lane words that compute in each lane by itself (R104–R129, R140, R141, R152–R163) -/

/-- The effect of a word on one participating lane. -/
abbrev LaneFx := LaneCtx → LaneWord → Lane → Lane

/-- VD's element e := f of the elements e of VA, for every element. -/
def each1 (f : ETy → Nat → Nat) : LaneFx := fun x w l =>
  l.setV w.vd.toNat (packElems w.ety.w ((List.range w.ety.subn).map fun e => f w.ety (elemAt w.ety.w e (x.a w l))))
/-- VD's element e := f of the elements e of VA and VB. -/
def each2 (f : ETy → Nat → Nat → Nat) : LaneFx := fun x w l =>
  l.setV w.vd.toNat (packElems w.ety.w ((List.range w.ety.subn).map fun e => f w.ety (elemAt w.ety.w e (x.a w l)) (elemAt w.ety.w e (x.b w l))))
/-- VD's element e := f of the elements e of VA, VB and VC. -/
def each3 (f : ETy → Nat → Nat → Nat → Nat) : LaneFx := fun x w l =>
  l.setV w.vd.toNat (packElems w.ety.w ((List.range w.ety.subn).map fun e =>
    f w.ety (elemAt w.ety.w e (x.a w l)) (elemAt w.ety.w e (x.b w l)) (elemAt w.ety.w e (x.cc w l))))
/-- The same for bit-serial words, whose elements are unsigned when imm[0] is set (R122). -/
def serial (f : ETy → Nat → Nat → Nat) : LaneFx := fun x w l =>
  let t : ETy := if w.bits 0 0 = 1 then { w.ety with kind := .uint } else w.ety
  l.setV w.vd.toNat (packElems t.w ((List.range t.subn).map fun e => f t (elemAt t.w e (x.a w l)) (elemAt t.w e (x.b w l))))
/-- VD := v, the bits that the type leaves unused zero. -/
def used (v : LaneCtx → LaneWord → Lane → Nat) : LaneFx := fun x w l => l.setV w.vd.toNat (v x w l &&& (2 ^ (w.ety.w * w.ety.subn) - 1))
/-- VD := v. -/
def whole (v : LaneCtx → LaneWord → Lane → Nat) : LaneFx := fun x w l => l.setV w.vd.toNat (v x w l)

/-- Wrap and Sat of R16, of a function of two element values. -/
def wraps (f : Int → Int → Int) (t : ETy) (a b : Nat) : Nat := wrapNat t.w (f (t.int a) (t.int b))
def sats (f : Int → Int → Int) (t : ETy) (a b : Nat) : Nat := saturate t.isSigned t.w (f (t.int a) (t.int b))
/-- The lesser and the greater of two elements by value, and the six integer conditions. -/
def lesser (t : ETy) (a b : Nat) : Nat := if t.int b < t.int a then b else a
def greater (t : ETy) (a b : Nat) : Nat := if t.int a < t.int b then b else a
def condition : IntCond → Int → Int → Bool
  | .eq, a, b => a == b
  | .ne, a, b => a != b
  | .lt, a, b => decide (a < b)
  | .le, a, b => decide (a ≤ b)
  | .gt, a, b => decide (b < a)
  | .ge, a, b => decide (b ≤ a)
/-- The predicate VD := a condition on one element of VA and VB, which imm[5:0] names (R140). -/
def compared (f : ETy → Nat → Nat → Bool) : LaneFx := fun x w l =>
  l.setP w.vd.toNat (f w.ety (elemAt w.ety.w (w.bits 5 0) (x.a w l)) (elemAt w.ety.w (w.bits 5 0) (x.b w l)))
/-- The predicate VD := b. -/
def setsP (b : LaneWord → Lane → Bool) : LaneFx := fun _ w l => l.setP w.vd.toNat (b w l)

/-- Integer arithmetic, logic, shifts and moves (R104–R110). -/
def integerFx : Instr → Option LaneFx
  | .laneAdd _ => some (each2 (wraps fun a b => a + b))
  | .laneAddi _ => some fun x w => each1 (fun t a => wrapNat t.w (t.int a + signed 16 (w.bits 15 0))) x w
  | .laneSub _ => some (each2 (wraps fun a b => a - b))
  | .adds _ => some (each2 (sats fun a b => a + b))
  | .subs _ => some (each2 (sats fun a b => a - b))
  | .neg _ => some (each1 fun t a => wrapNat t.w (-t.int a))
  | .abs _ => some (each1 fun t a => wrapNat t.w (t.int a).natAbs)
  | .laneMul _ => some (each2 (wraps fun a b => a * b))
  | .laneMulh _ => some (each2 fun t a b => wrapNat t.w (t.int a * t.int b / 2 ^ t.w))
  | .muls _ => some (each2 (sats fun a b => a * b))
  | .mad _ => some (each3 fun t a b c => wrapNat t.w (t.int a * t.int b + t.int c))
  | .mads _ => some (each3 fun t a b c => saturate t.isSigned t.w (t.int a * t.int b + t.int c))
  | .laneDiv _ => some (each2 fun t a b => divide t.isSigned t.w a b)
  | .laneRem _ => some (each2 fun t a b => remainder t.isSigned t.w a b)
  | .laneMin _ => some (each2 lesser)
  | .laneMax _ => some (each2 greater)
  | .clamp _ => some (each3 fun t a b c => lesser t (greater t a b) c)
  | .laneAnd _ => some (used fun x w l => x.a w l &&& x.b w l)
  | .laneOr _ => some (used fun x w l => x.a w l ||| x.b w l)
  | .laneXor _ => some (used fun x w l => x.a w l ^^^ x.b w l)
  | .andn _ => some (used fun x w l => x.a w l &&& (2 ^ 64 - 1 - x.b w l % 2 ^ 64))
  | .not _ => some (used fun x w l => 2 ^ 64 - 1 - x.a w l % 2 ^ 64)
  | .tern _ => some (used fun x w l => (List.range 64).foldl (fun r j =>
      r + (if natBit (w.bits 7 0) ((x.a w l >>> j) % 2 + 2 * ((x.b w l >>> j) % 2) + 4 * ((x.cc w l >>> j) % 2)) then 1 else 0) <<< j) 0)
  | .laneShl _ => some (each2 fun t a n => shiftLeft t.w a n)
  | .laneShr _ => some (each2 fun t a n => shiftRight t.w a n)
  | .laneSar _ => some (each2 fun t a n => shiftArith t.w a n)
  | .rol _ => some (each2 fun t a n => rotateLeft t.w a n)
  | .ror _ => some (each2 fun t a n => rotateRight t.w a n)
  | .laneShli _ => some fun x w => each1 (fun t a => shiftLeft t.w a (w.bits 5 0)) x w
  | .laneShri _ => some fun x w => each1 (fun t a => shiftRight t.w a (w.bits 5 0)) x w
  | .laneSari _ => some fun x w => each1 (fun t a => shiftArith t.w a (w.bits 5 0)) x w
  | .roli _ => some fun x w => each1 (fun t a => rotateLeft t.w a (w.bits 5 0)) x w
  | .rori _ => some fun x w => each1 (fun t a => rotateRight t.w a (w.bits 5 0)) x w
  | .mov _ => some (used fun x w l => x.a w l)
  | .laneMovi _ => some (whole fun _ w _ => packElems w.ety.w (List.replicate w.ety.subn (w.imm.signExtend 64).toNat))
  | .laneSel _ => some (used fun x w l => if l.getP w.vc.toNat then x.a w l else x.b w l)
  | _ => none

/-- Bit-serial arithmetic, bits, fields, hashes, strings, the lane generator and predicates (R122–R129, R140, R141). -/
def bitFx : Instr → Option LaneFx
  | .bsAdd _ => some (serial (wraps fun a b => a + b))
  | .bsSub _ => some (serial (wraps fun a b => a - b))
  | .bsAdds _ => some (serial (sats fun a b => a + b))
  | .bsSubs _ => some (serial (sats fun a b => a - b))
  | .bsMul _ => some (serial (wraps fun a b => a * b))
  | .bsMuls _ => some (serial (sats fun a b => a * b))
  | .bsMin _ => some (serial lesser)
  | .bsMax _ => some (serial greater)
  | .bscmp c _ => some (serial fun t a b => if condition c (t.int a) (t.int b) then 2 ^ t.w - 1 else 0)
  | .lanePopc _ => some (each1 fun t a => popCount t.w a)
  | .laneClz _ => some (each1 fun t a => clz t.w a)
  | .laneCtz _ => some (each1 fun t a => ctz t.w a)
  | .laneBrev _ => some (each1 fun t a => bitReverse t.w a)
  | .laneBfx _ => some (whole fun x w l => laneExtract w.ty.toNat (x.a w l) (natBits (x.b w l) 5 0) (natBits (x.b w l) 14 8))
  | .bfxi _ => some (whole fun x w l => laneExtract w.ty.toNat (x.a w l) (w.bits 5 0) (w.bits 14 8))
  | .laneBfi _ => some (whole fun x w l => fieldInsert (l.getV w.vd.toNat) (x.a w l) (natBits (x.b w l) 5 0) (natBits (x.b w l) 14 8))
  | .bfii _ => some (whole fun x w l => fieldInsert (l.getV w.vd.toNat) (x.a w l) (w.bits 5 0) (w.bits 14 8))
  | .hashCrc _ => some (whole fun x w l => crcBytes (w.ety.w / 8) (x.a w l) (x.b w l % 2 ^ 32))
  | .hashMix _ => some (each2 fun t a b => if t.w = 64 then mix64 a b else mix32 a b)
  | .scmp _ => some (whole fun x w l => stringCompare (x.a w l) (x.b w l))
  | .sfind _ => some (whole fun x w l =>
      firstByte (fun i => elemAt 8 i (x.a w l) == x.b w l % 256) + 16 * firstByte (fun i => elemAt 8 i (x.a w l) == 0))
  | .slen _ => some (whole fun x w l => firstByte fun i => elemAt 8 i (x.a w l) == 0)
  | .rng _ => some fun _ w l => (Lane.draws w.ety.subn l).2.setV w.vd.toNat
      (packElems w.ety.w ((Lane.draws w.ety.subn l).1.map (drawElem w.ety)))
  | .laneCmp c _ => some (compared fun t a b => condition c (t.int a) (t.int b))
  | .pand _ => some (setsP fun w l => l.getP w.va.toNat && l.getP w.vb.toNat)
  | .por _ => some (setsP fun w l => l.getP w.va.toNat || l.getP w.vb.toNat)
  | .pxor _ => some (setsP fun w l => l.getP w.va.toNat != l.getP w.vb.toNat)
  | .pandn _ => some (setsP fun w l => l.getP w.va.toNat && !l.getP w.vb.toNat)
  | .pnot _ => some (setsP fun w l => !l.getP w.va.toNat)
  | .pmov _ => some (setsP fun w l => l.getP w.va.toNat)
  | .pset _ => some (setsP fun w _ => w.bits 0 0 == 1)
  | .pget _ => some (whole fun _ w l => if w.bits 0 0 = 0 then l.p.toNat % 2 ^ 64 else l.p.toNat / 2 ^ 64)
  | .pput _ => some fun x w l => { l with p := BitVec.ofNat 96 (if w.bits 0 0 = 0 then l.p.toNat / 2 ^ 64 * 2 ^ 64 + x.a w l % 2 ^ 64
      else x.a w l % 2 ^ 32 * 2 ^ 64 + l.p.toNat % 2 ^ 64) }
  | _ => none

/-- VD's element e := f, under the word's rounding mode, of the values of the elements e of VA and VB. -/
def floats (f : FFmt → Rm → FVal → FVal → Nat) : LaneFx := fun x w =>
  each2 (fun t a b => f t.fmt (Rm.ofCode w.rm.toNat) (t.fmt.decode a) (t.fmt.decode b)) x w
/-- The accumulator VD := f of what it held. -/
def accumulates (f : LaneCtx → LaneWord → Lane → Acc → Acc) : LaneFx := fun x w l => l.setA w.vd.toNat (f x w l (l.getA w.vd.toNat))
/-- One element of VD, which imm[4:0] names, := f; the others keep their bits (R160). -/
def oneElement (f : LaneCtx → LaneWord → Lane → Nat) : LaneFx := fun x w l =>
  l.setV w.vd.toNat (setElem w.ety.w (w.bits 4 0) (l.getV w.vd.toNat &&& (2 ^ (w.ety.w * w.ety.subn) - 1)) (f x w l))
/-- The eight floating conditions: one that involves a NaN is unordered (R140). -/
def floatCondition (c : FloatCond) (o : Option Ordering) : Bool :=
  match c with
  | .eq => o == some .eq
  | .ne => o != some .eq
  | .lt => o == some .lt
  | .le => o == some .lt || o == some .eq
  | .gt => o == some .gt
  | .ge => o == some .gt || o == some .eq
  | .un => o == none
  | .ord => o != none

/-- Floating-point words, the transcendentals and conversion (R111–R118, R140). -/
def floatFx : Instr → Option LaneFx
  | .fadd _ => some (floats fun f r a b => f.add r a b)
  | .fsub _ => some (floats fun f r a b => f.add r a b.neg)
  | .fmul _ => some (floats fun f r a b => f.roundVal r (a.mul b))
  | .fdiv _ => some (floats fun f r a b => f.div r a b)
  | .fsqrt _ => some fun x w => each1 (fun t a => t.fmt.sqrt (Rm.ofCode w.rm.toNat) (t.fmt.decode a)) x w
  | .fmin _ => some (each2 fun t a b => t.fmt.minNum a b)
  | .fmax _ => some (each2 fun t a b => t.fmt.maxNum a b)
  | .fabs _ => some (each1 fun t a => t.fmt.absBits a)
  | .fneg _ => some (each1 fun t a => t.fmt.negBits a)
  | .cpsgn _ => some (each2 fun t a b => t.fmt.copySign a b)
  | .fma _ => some fun x w => each3 (fun t a b c => t.fmt.fma (Rm.ofCode w.rm.toNat) (t.fmt.decode a) (t.fmt.decode b) (t.fmt.decode c)) x w
  | .fms _ => some fun x w => each3 (fun t a b c => t.fmt.fma (Rm.ofCode w.rm.toNat) (t.fmt.decode a) (t.fmt.decode b) (t.fmt.decode c).neg) x w
  | .fnma _ => some fun x w => each3 (fun t a b c => t.fmt.fma (Rm.ofCode w.rm.toNat) (t.fmt.decode a).neg (t.fmt.decode b) (t.fmt.decode c)) x w
  | .ex2f _ => some fun x w => each1 (fun _ a => (Machine.ex2f a).getD (Config.hardCase 0 w.rm.toNat a % 2 ^ 32)) x w
  | .lg2 _ => some fun x w => each1 (fun _ a => (Machine.lg2 (Rm.ofCode w.rm.toNat) a).getD (Config.hardCase 1 w.rm.toNat a % 2 ^ 32)) x w
  | .rcp _ => some fun x w => each1 (fun _ a => Machine.rcp (Rm.ofCode w.rm.toNat) a) x w
  | .rsq _ => some fun x w => each1 (fun _ a => Machine.rsq (Rm.ofCode w.rm.toNat) a) x w
  | .sinp _ => some fun x w => each1 (fun _ a => (Machine.sinp a).getD (Config.hardCase 4 w.rm.toNat a % 2 ^ 32)) x w
  | .cosp _ => some fun x w => each1 (fun _ a => (Machine.cosp a).getD (Config.hardCase 5 w.rm.toNat a % 2 ^ 32)) x w
  | .rndi _ => some fun x w => each1 (fun t a => t.fmt.rndi (Rm.ofCode w.rm.toNat) a) x w
  | .expi _ => some fun x w => each2 (fun t a b => t.fmt.expi (Rm.ofCode w.rm.toNat) a b) x w
  | .cvt _ => some (whole fun x w l =>
      convertPart (sty w) w.ety (w.bits 4 0) (convert (sty w) w.ety (Rm.ofCode w.rm.toNat)) (x.a w l) (l.getV w.vd.toNat))
  | .fcmp c _ => some (compared fun t a b => floatCondition c ((t.fmt.decode a).compare (t.fmt.decode b)))
  | _ => none

/-- The words of the long accumulators (R152–R163) but for AADDA, ANEG, ALD and AST. -/
def accFx : Instr → Option LaneFx
  | .azero _ => some (accumulates fun _ _ _ _ => Acc.zero)
  | .aadd _ => some (accumulates fun x w l a =>
      ((List.range w.ety.subn).map fun e => elemAt w.ety.w e (x.a w l)).foldl (fun a e => a.add (w.ety.value e)) a)
  | .amac _ => some (accumulates fun x w l a => (((List.range w.ety.subn).map fun e => elemAt w.ety.w e (x.a w l)).zip
      ((List.range w.ety.subn).map fun e => elemAt w.ety.w e (x.b w l))).foldl (fun a e => a.add ((w.ety.value e.1).mul (w.ety.value e.2))) a)
  | .cres _ => some (accumulates fun _ _ _ a => a.resolve)
  | .adot _ => some (accumulates fun x w l a => a.add (dotProduct w (x.a w l) (x.b w l) (x.cc w l)))
  | .arnd _ => some (oneElement fun _ w l => (l.getA w.va.toNat).round w.ety.fmt (Rm.ofCode w.rm.toNat))
  | .arndDiv _ => some (oneElement fun x w l => (l.getA w.va.toNat).roundDiv w.ety.fmt (Rm.ofCode w.rm.toNat) (x.b w l))
  | .aseg _ => some (whole fun _ w l => (l.getA w.va.toNat).view (w.bits 3 0))
  | .astat _ => some (whole fun _ w l =>
      let a := l.getA w.va.toNat
      a.status + (if inOrdinary a.val then 0 else 16) + (if a.val = 0 then 32 else 0) + (if a.val < 0 then 64 else 0))
  | .ageti _ => some fun _ w l =>
      let a := l.getA w.va.toNat
      let l' := l.setV w.vd.toNat (wrapNat 64 a.content)
      if w.bits 0 0 = 1 then l'.setP w.vc.toNat (!a.fits (w.ty == 6)) else l'
  | .ared _ => some fun x w l =>
      let r := x.parts.foldl (fun r i => (r.1 + ((x.G.lane i).getA w.va.toNat).val, r.2.orStatus ((x.G.lane i).getA w.va.toNat)))
        ((0 : Int), Acc.zero)
      l.setA w.vd.toNat
        (if inExtended r.1 then r.2.canonicalOf r.1 else { (l.getA w.vd.toNat).withStatus r.2.status with ovf := true })
  | _ => none

/-- The state after a word that computes in each lane by itself: each participating lane changed, the word retired. -/
def laneComputed (fx : LaneFx) (x : LaneCtx) (w : LaneWord) (s : State) : State :=
  (s.modGroup x.c.team x.c.grp fun g => g.mapLanes x.parts (fx x w)).laneNext x.c

/-- The file of a word's destination: 0 a v-register, 1 an accumulator, 2 a predicate (PPUT writes several). -/
def destFile : Instr → Nat
  | .azero _ => 1
  | .aadd _ => 1
  | .amac _ => 1
  | .cres _ => 1
  | .adot _ => 1
  | .ared _ => 1
  | .laneCmp _ _ => 2
  | .fcmp _ _ => 2
  | .pand _ => 2
  | .por _ => 2
  | .pxor _ => 2
  | .pandn _ => 2
  | .pnot _ => 2
  | .pmov _ => 2
  | .pset _ => 2
  | .pput _ => 2
  | _ => 0

/-- The words that act although no lane is active (R135). -/
def actsIdle : Instr → Bool
  | .laneIf _ => true
  | .laneElse _ => true
  | .laneEndif _ => true
  | .laneLoop _ => true
  | .laneBrk _ => true
  | .laneCont _ => true
  | .laneEndloop _ => true
  | .laneStop _ => true
  | .rfil _ => true
  | .mfen _ => true
  | .mwait _ => true
  | .mwaitLast _ => true
  | _ => false

/-! ### Lane words that read or write across lanes, the queue, tables or free values (R54, R110, R119–R121, R142–R147, R157) -/

/-- The participants' lanes changed, each by a function of its number; the word retires. -/
def laneWritten (fx : Nat → Lane → Lane) (x : LaneCtx) (s : State) : State :=
  (s.modGroup x.c.team x.c.grp fun g => g.mapLanesI x.parts fx).laneNext x.c

/-- One entry at the end of the lane-to-scalar queue. -/
def pushed (x : LaneCtx) (v : Nat) (s : State) : State :=
  s.modGroup x.c.team x.c.grp fun g => { g with lq := g.lq ++ [BitVec.ofNat 64 v] }

/-- The value that LGET reads in a lane (R44, R110). -/
def laneSpecial (x : LaneCtx) (s : State) (code i : Nat) (l : Lane) : Option Nat :=
  match code with
  | 0x00 => some i
  | 0x07 => some l.item.toNat
  | 0x0C => some l.rngk.toNat
  | 0x0D => some l.rngc.toNat
  | n => (specialRead x.c x.T x.G x.L s n).map BitVec.toNat

/-- The words that push an entry with `.push` (R143, R144, R146): the entry, and VD of a participant. -/
def pollFx (x : LaneCtx) (w : LaneWord) : Instr → Option (Nat × (Nat → Lane → Lane))
  | .pollThr _ =>
    let c := (x.parts.filter fun i => (x.G.lane i).getP w.va.toNat).length
    let r := if w.bits 6 0 = 0 then c == x.parts.length else decide (w.bits 6 0 ≤ c)
    some (if r then 1 else 0, fun _ l => l.setP w.vd.toNat r)
  | .pollMask _ =>
    let m := (x.parts.filter fun i => (x.G.lane i).getP w.va.toNat).foldl (fun m i => m ||| 2 ^ i) 0
    some (m, fun _ l => l.setV w.vd.toNat m)
  | .pollRank _ =>
    let h := x.parts.filter fun i => (x.G.lane i).getP w.va.toNat
    some (h.length, fun i l => l.setV w.vd.toNat (h.filter (· < i)).length)
  | .keyg _ =>
    let lead (i : Nat) : Nat := (x.parts.find? fun j => x.a w (x.G.lane j) == x.a w (x.G.lane i)).getD i
    some ((x.parts.filter fun i => lead i == i).length, fun i l => l.setV w.vd.toNat (lead i))
  | .lead _ => some (x.parts.headD 0, fun i l => l.setP w.vd.toNat (i == x.parts.headD 0))
  | .gred op _ =>
    let v := packElems w.ety.w ((List.range w.ety.subn).map fun e =>
      combine op w.ety (Rm.ofCode w.rm.toNat) (x.parts.map fun i => elemAt w.ety.w e (x.a w (x.G.lane i))))
    some (v, fun _ l => l.setV w.vd.toNat v)
  | _ => none

/-- The number of the element that an XLN moves to element `e` of lane `i`, elements being counted over the whole group (R145). -/
def xlnSource (x : LaneCtx) (w : LaneWord) (i e : Nat) : Instr → Option Int
  | .xlnGet _ => some (Int.ofNat ((x.b w (x.G.lane i) + e) % (x.G.lanes.length * w.ety.subn)))
  | .xlnFlip _ => some (Int.ofNat ((i * w.ety.subn + e) ^^^ w.bits 15 0))
  | .xlnRot _ => some (Int.ofNat ((i * w.ety.subn + e + w.bits 15 0) % (x.G.lanes.length * w.ety.subn)))
  | .xlnSlide _ => some ((i * w.ety.subn + e : Nat) + signed 16 (w.bits 15 0))
  | _ => none

/-! ### Structured control (R134–R136) -/

/-- The nesting counter of an occupied lane after a word of structured control (R134). -/
def counterFx (w : LaneWord) : Instr → Option (Lane → Nat)
  | .laneIf _ => some fun l => if l.nest = 0 then (if l.getP w.va.toNat != (w.bits 8 8 == 1) then 0 else 1) else l.nest.toNat + 1
  | .laneElse _ => some fun l => if l.nest = 0 then 1 else if l.nest = 1 then 0 else l.nest.toNat
  | .laneEndif _ => some fun l => l.nest.toNat - 1
  | .laneLoop _ => some fun l => if l.nest = 0 then 0 else l.nest.toNat + 2
  | .laneBrk _ => some fun l => if l.nest == 0 && l.getP w.va.toNat != (w.bits 8 8 == 1) then w.bits 7 0 + 2 else l.nest.toNat
  | .laneCont _ => some fun l => if l.nest == 0 && l.getP w.va.toNat != (w.bits 8 8 == 1) then w.bits 7 0 + 1 else l.nest.toNat
  | _ => none

/-- The least counter that a word of structured control cannot raise (R136): IF adds one, LOOP two. -/
def counterLimit : Instr → Nat
  | .laneIf _ => 254
  | .laneLoop _ => 253
  | _ => 256

/-- A word of structured control in hand: its form, its group; its fields are legal wherever a lane is active (R136). -/
structure ControlReady (i : Instr) (w : LaneWord) (c : Cur) (T : Team) (G : Group) (L : Launch) (s : State) : Prop where
  cur    : s.cur = some c
  team   : s.team? c.team = some T
  group  : s.group? c.team c.grp = some G
  launch : s.launchOf? c.team = some L
  form   : ∃ f, laneForm 64 i = some (f, w) ∧ (G.active ≠ [] →
    w.guard = 127 ∧ w.neg = false ∧ f.legal w L.vregs L.aregs L.tiles = true)

/-- The occupied lanes whose counter is at least `n`. -/
def deepLanes (G : Group) (n : Nat) : List Nat := G.occupied.filter fun j => decide (n ≤ (G.lane j).nest.toNat)

/-- Every occupied lane's counter changed, the word retired. -/
def counted (c : Cur) (f : Lane → Nat) (s : State) : State :=
  (s.modGroup c.team c.grp fun g =>
    { g with lanes := g.lanes.map fun l => if l.nest != 255 then { l with nest := BitVec.ofNat 8 (f l) } else l }).laneNext c

/-! ### Lane words that access memory (R161, R166–R174) -/

/-- The requests of a lane word pass every check of R167 (the walk leaves `s'`), and every piece of them is at hand: no page is absent, no line is
held, no address is another device's, no piece waits in the operand log; an ordered word finds every earlier access of its lanes performed (R264).
`clocked` is an operation of the logical clock of determinism mode 2 (R395). -/
structure LanesReach (x : LaneCtx) (ordered clocked : Bool) (reqs : List Req) (hits : List Hit) (s s' : State) : Prop where
  checks : checkAccess reqs (fun _ => true) s = .ok (hits, s')
  ready  : prepare x hits ordered clocked s' = .ok ((), s')
  hand   : ∀ h ∈ hits, ∀ p ∈ h.parts, s'.atHand x.L.ctx x.T.core p = true
  asked  : x.asked = false
  clean  : s'.poison = []

/-- The requests, the destination file, register and type of a lane load (R161, R166, R169): LD at VA + imm[23:0], ALD at VA + 128 × imm[15:0]. -/
def loadOf (x : LaneCtx) (w : LaneWord) : Instr → Option (List Req × Bool × Nat)
  | .laneLd _ => some (x.reqs false (w.ety.w / 8 * w.count) (if w.rm = 1 then (if w.count > 1 then 8 else w.ety.w / 8 * w.count) else 1) .read
      fun l => laneEa false (x.a w l) (offOf w), false, w.ty.toNat)
  | .laneLds _ => some (x.reqs true (w.ety.w / 8 * w.count) (if w.rm = 1 then (if w.count > 1 then 8 else w.ety.w / 8 * w.count) else 1) .read
      fun l => laneEa true (x.a w l) (offOf w), false, w.ty.toNat)
  | .ald _ => some (x.reqs (w.md == 1) 128 128 .read fun l => Int.ofNat (x.a w l + 128 * w.bits 15 0), true, 0)
  | _ => none

/-- Whether a lane load acquires, or a lane store releases (R169). -/
def laneAcquires (w : LaneWord) (acc : Bool) : Bool := !acc && w.rm == 1

/-- A load in flight with its data: it joins the group's list and its clause's count, its clause keeps the widest scope of its loads (R264), and once no
piece of it is to be read yet (`late`) its return is due. -/
def loadEntered (x : LaneCtx) (id scope : Nat) (dsts : List LoadDst) (s : State) (late : Nat := 0) : State :=
  let tag := (x.G.clause.map (·.tag)).getD 0
  let s := s.modGroup x.c.team x.c.grp fun g => Group.modTag
    { g with loads := g.loads ++ [{ id := id, tag := tag, dsts := dsts, waiting := late, nacks := [], blocks := false }], nextRec := id + 1 } tag
      fun t => { t with loads := t.loads + 1, lscope := max t.lscope scope }
  if late = 0 then s.post (.loadDataReturn x.c.team x.c.grp id) else s

/-- The reads of a load's hits (R253): which pieces of an access of several are read apart is free, but for an operation of the logical clock, which is read
whole (R395). The state after it, and how many pieces are still to be read. -/
def lanesRead (x : LaneCtx) (clocked : Bool) (hits : List Hit) (s : State) : State × Nat :=
  s.readsApart clocked { Apart.of x.c 0 with load := some x.G.nextRec } (hits.map fun h => h.readAt x.c.team)

/-- A store that is performed, or of which blocks are `late`: it joins the group's list and its clause's count, its clause keeps the widest scope of its
stores (R264), and once nothing of it is to come its completion is due. -/
def storeEntered (x : LaneCtx) (id scope : Nat) (s : State) (late : Bool := false) : State :=
  let tag := (x.G.clause.map (·.tag)).getD 0
  let s := s.modGroup x.c.team x.c.grp fun g => Group.modTag
    { g with stores := g.stores ++ [{ id := id, tag := tag, waiting := late.toNat, nacks := [] }], nextRec := id + 1 } tag
      fun t => { t with stores := t.stores + 1, sscope := max t.sscope scope }
  if late then s else s.post (.storePerformed x.c.team x.c.grp id)

/-- The requests of a lane store, and each lane's bytes (R161, R166, R203). -/
def storeOf (x : LaneCtx) (w : LaneWord) : Instr → Option (List Req × List (List Byte) × Bool)
  | .laneSt _ => some (x.reqs false (w.ety.w / 8 * w.count) (if w.rm = 2 then (if w.count > 1 then 8 else w.ety.w / 8 * w.count) else 1) .write
      fun l => laneEa false (x.a w l) (offOf w), x.parts.map fun i => storeData x w (x.G.lane i), w.rm == 2)
  | .laneSts _ => some (x.reqs true (w.ety.w / 8 * w.count) (if w.rm = 2 then (if w.count > 1 then 8 else w.ety.w / 8 * w.count) else 1) .write
      fun l => laneEa true (x.a w l) (offOf w), x.parts.map fun i => storeData x w (x.G.lane i), w.rm == 2)
  | .ast _ => some (x.reqs (w.md == 1) 128 128 .write fun l => Int.ofNat (x.a w l + 128 * w.bits 15 0),
      x.parts.map fun i => ((x.G.lane i).getA w.vd.toNat).bytes, false)
  | _ => none

/-- The state after a store of every lane, without the bytes that a higher lane stores (R168), and whether blocks of it are still to come (R253); the word
itself waits for those of one that the logical clock of mode 2 orders (`clocked`, R395). -/
def lanesStored (x : LaneCtx) (clocked : Bool) (stamp : Nat) (ds : List (Hit × List Byte)) (s : State) : State × Bool :=
  let own := some x.G.nextRec
  s.putApart false { Apart.of x.c stamp with store := if clocked then none else own, load := if clocked then own else none }
    (storeBlocks x.c.team (s.atHand x.L.ctx x.T.core) ds)

/-- A store's word after its blocks: it retires with the store in flight; one of the logical clock waits for the blocks that are still to come. -/
def lanesStoredNext (x : LaneCtx) (clocked : Bool) (id scope : Nat) (hits : List Hit) (t : State × Bool) : State :=
  if clocked && t.2 then
    (t.1.modGroup x.c.team x.c.grp fun g =>
      { g with nextRec := x.G.nextRec + 1
               loads := g.loads ++ [{ id := x.G.nextRec, tag := 0, waiting := 1, nacks := [], blocks := true
                                      dsts := hits.map fun h => { lane := h.req.lane, acc := false, reg := 0, ty := 0, bytes := [] } }] }).markStall .remote
  else (storeEntered x id scope t.1 t.2).laneNext x.c

/-- An address of HBM or of host memory that no part of the hits reaches; of a range of accumulators a part reaches whole elements (R40), of encrypted
memory whole granules (R389). -/
def untouched (host : Bool) (a : Nat) (hits : List Hit) : Prop :=
  ∀ h ∈ hits, ∀ p ∈ h.parts,
    let z := if p.kind = 1 then 128 else if p.key.isSome then 32 else 1
    match p.place with
    | .hbm pa => host = true ∨ a < pa / z * z ∨ (pa + p.len + z - 1) / z * z ≤ a
    | .host pa => host = false ∨ a < pa / z * z ∨ (pa + p.len + z - 1) / z * z ≤ a
    | _ => True

/-- HBM and host memory stand as they stood at every address that the hits do not reach. -/
def globalKept (hits : List Hit) (s t : State) : Prop :=
  ∀ a, (untouched false a hits → cellGet a t.mem = cellGet a s.mem) ∧ (untouched true a hits → cellGet a t.hostMem = cellGet a s.hostMem)

/-- Every team's scratchpad but one's stands as it stood. -/
def padsKept (but : Option Nat) (s t : State) : Prop :=
  ∀ u T T', some u ≠ but → s.team? u = some T → t.team? u = some T' → T'.scratch = T.scratch

/-- The bytes `b` stored to a team's scratchpad from `ea` up: each reads as stored, or stands in a block of a write that is still to be performed. -/
def padHolds (team ea : Nat) (b : List Byte) (T : Team) (t : State) : Prop :=
  ∀ i < b.length, cellsRead T.scratch (ea + i) 1 = (b.drop i).take 1
    ∨ ∃ x ∈ t.apart, x.team = team ∧ ∃ o d, .pad team o d ∈ x.blocks ∧ o ≤ ea + i ∧ (d.drop (ea + i - o)).take 1 = (b.drop i).take 1

/-- The new value of a lane's element under ATOM or CAS (R171). -/
def atomicOf (x : LaneCtx) (w : LaneWord) : Instr → Option (Nat × (Lane → Nat → Nat))
  | .laneAtom op _ => some (1, fun l old => atomValue op w.ety.isSigned w.ety.w old (x.b w l % 2 ^ w.ety.w))
  | .laneCas _ => some (2, fun l old => if old = x.cc w l % 2 ^ w.ety.w then x.b w l % 2 ^ w.ety.w else old)
  | _ => none

/-- A read-modify-write in each lane, in ascending order, each seeing the lanes before it (R171). -/
def atomicSteps (x : LaneCtx) (w : LaneWord) (stamp : Nat) (f : Lane → Nat → Nat) (hits : List Hit) (s : State) : List LoadDst × State :=
  hits.foldl (fun acc h =>
    let old := acc.2.bytesAtHand x.L.ctx x.T.core x.c.team h
    (acc.1 ++ [{ lane := h.req.lane, acc := false, reg := w.vd.toNat, ty := w.ty.toNat, bytes := old }],
      acc.2.writeAtHand x.L.ctx x.T.core x.c.team h (toBytes (w.ety.w / 8) (f (x.G.lane h.req.lane) (ofBytes old))) stamp)) ([], s)

/-- The addends of RADD in a lane, and their type (R173). -/
def addendsOf (x : LaneCtx) (w : LaneWord) : Instr → Option (Nat × (Lane → List (List Byte)))
  | .radd _ => some (w.ty.toNat, fun l => (w.ety.elems (x.b w l)).map fun e => toBytes ((w.ety.w + 7) / 8) e)
  | .raddAcc _ => some (tyAcc, fun l => [(l.getA w.vb.toNat).bytes])
  | _ => none

/-- The words whose slot of a barrier is a team's (0) or a cluster's (16 and up), and the opcode of their parks (R178). -/
def arriveBase : Instr → Option Nat
  | .bara _ => some 0
  | .cbara _ => some 16
  | _ => none
def waitBase : Instr → Option (Nat × BitVec 8)
  | .barw _ => some (0, 0xE2)
  | .cbarw _ => some (16, 0xE5)
  | _ => none

/-! ### The matrix engine's words (R192–R203) -/

/-- A word of the matrix engine in hand (R198): it carries no guard, every lane of the group is active, its fields are legal. -/
structure MatrixReady (i : Instr) (w : LaneWord) (x : LaneCtx) (s : State) : Prop where
  cur    : s.cur = some x.c
  team   : s.team? x.c.team = some x.T
  group  : s.group? x.c.team x.c.grp = some x.G
  launch : s.launchOf? x.c.team = some x.L
  guard  : w.guard = 127 ∧ w.neg = false
  parts  : x.parts = x.G.active
  whole  : x.G.active.length = x.G.lanes.length ∧ x.parts ≠ []
  form   : ∃ f, laneForm 64 i = some (f, w) ∧ f.legal w x.L.vregs x.L.aregs x.L.tiles = true
    ∧ x.G.outstanding ((readRegs i f w).filter fun q => !q.1) = false
  clean  : s.poison = []

/-- What MMA checks beyond its fields, in the order of R198 to R200: the reservation is live and holds the format named, a full latch holds what the
word names, the block lies inside, the tables named are loaded, the engine and the lock table have room. -/
structure MmaReady (w : LaneWord) (x : LaneCtx) (K : Nat) (r : Reservation) (l : Latch) (s : State) : Prop where
  kind  : mmaK w.ty.toNat (w.bits 28 24) = some K
  live  : x.T.live? w.vb.toNat = some r
  fmt   : fld r.record 4 1 = w.bits 28 24
  latch : (x.G.latch = none ∧ l = readA x w) ∨
    (x.G.latch = some l ∧ l.va = w.va.toNat ∧ l.ty = w.ty.toNat ∧ l.ct = mmaTable w)
  block : 32 * (mmaBlock x w).1 + 32 ≤ fld r.record 16 4 ∧ K * (mmaBlock x w).2 + K ≤ fld r.record 20 4
  scale : ¬(quantA w.ty.toNat = true ∧ fld r.record 6 1 = 1 ∧ 4 < (K + blockLen (fld r.record 5 1) - 1) / blockLen (fld r.record 5 1))
  table : ∀ n, (mmaTable w = some n ∨ recordTable r.record = some n) → ∃ c t, s.cores[x.T.core]? = some c ∧ c.tables[n]? = some (some t)
  room  : s.mmaCount x.T.core < 16
  free  : let y := mmaSpan r.record K (mmaBlock x w).1 (mmaBlock x w).2
    (x.T.locks.any fun k => k.against x.T.core 3 w.vb.toNat y.1 (y.2 - y.1) false) = false
  entry : (x.G.sharedLock w.vb.toNat).isSome = true ∨ x.T.locks.length < 32

/-- The requests of MST.rnd and MST.raw, and each lane's bytes: its row, rounded or as images (R203). -/
def tileStoreOf (x : LaneCtx) (w : LaneWord) : Instr → Option (List Req × List (List Byte))
  | .mstRnd _ => some (x.reqs (w.bits 24 24 == 1) (32 * (w.ety.w / 8)) (w.ety.w / 8) .write fun l => laneEa (w.bits 24 24 == 1) (x.a w l) (offOf w),
      x.parts.map fun l => (tileRow x.G w.vb.toNat l).flatMap fun a => toBytes (w.ety.w / 8) (a.round w.ety.fmt (Rm.ofCode (w.bits 26 25))))
  | .mstRaw _ => some (x.reqs (w.bits 24 24 == 1) 4096 128 .write fun l => laneEa (w.bits 24 24 == 1) (x.a w l) (offOf w),
      x.parts.map fun l => (tileRow x.G w.vb.toNat l).flatMap Acc.bytes)
  | _ => none

/-! ### The Spire's words (R211–R217) -/

/-- What each Spire word reads and checks at issue, given the two offsets of its lane: whether it reads the record at the first, whether it merges a
second record, and the command with its ranges (R212–R217). -/
def spireWord : Instr → Option (Bool × Bool × (LaneCtx → Nat → Nat → M SpireIssue))
  | .vpjs _ => some (false, false, fun x a b => do
      let d ← spireRead x b 64
      let k := fld d 0 4
      spireRegions x [spireReq (x.parts.headD 0) a (recSize k) 64]
      checkFields ([(0, decide (1 ≤ k ∧ k ≤ 65536)), (4, decide (1 ≤ fld d 4 4 ∧ fld d 4 4 ≤ 65536)), (8, fld d 8 1 == 9 || fld d 8 1 == 10)
        , (9, [9, 10, 13].contains (fld d 9 1)), (10, blockOk (fld d 9 1) (fld d 10 1)), (11, decide (fld d 11 1 ≤ 8))
        , (12, spillOk (fld d 12 4) (fld d 16 4) x.T.size), (16, fld d 12 4 == noSpill || decide (k ≤ fld d 16 4 + 64))] ++ zeroFields d 20 12)
      return { kind := .vpjs, desc := d, locks := [padSpan a (recSize k) true] })
  | .vpjr _ => some (true, false, fun x a b => do
      let d ← spireRead x b 64
      let r ← streamChecks x a d false
      require (!(decide (r.k > 64) && r.spill == noSpill && decide (r.heap.length + fld d 16 4 > 64))) 0x20
      return { kind := .vpjr, desc := d, scope := fld d 28 1
               locks := [padSpan a (recSize r.k) true, padSpan (fld d 24 4) (Machine.spireBytes r.hfmt * r.depth) false] ++ spillSpan r })
  | .vpjm _ => some (true, true, fun x a b => do
      let p ← spireRead x a 256
      let q ← spireRead x b 256
      spireRegions x [recordRegion x a p, recordRegion x b q]
      let r ← spireRecord x a p
      let q ← spireRecord x b q
      require (r.agrees q) 0x01
      require (!(decide (r.k > 64) && r.spill == noSpill && decide (r.heap.length + q.heap.length > 64))) 0x20
      return { kind := .vpjm, desc := List.replicate 64 0
               locks := [padSpan a (recSize r.k) true, padSpan b (recSize q.k) false] ++ spillSpan r })
  | .vpjx _ => some (true, false, fun x a b => do
      let d ← spireRead x b 64
      let p ← spireRead x a 256
      let n := extractSize (min (fld p 8 4) (fld p 4 4)) (natBit (fld d 9 1) 0)
      let lane := x.parts.headD 0
      spireRegions x (recordRegion x a p :: if fld d 8 1 = 1 then [spireReq lane (fld d 0 8) n 64] else [])
      let _ ← spireRecord x a p
      checkFields [(8, decide (fld d 8 1 ≤ 1))]
      return { kind := .vpjx, desc := d, locks := [padSpan a (recSize (fld p 4 4)) false, ⟨fld d 8 1, 0, fld d 0 8, n, true⟩] })
  | .vpjb _ => some (true, false, fun x a b => do
      let d ← spireRead x b 64
      let r ← streamChecks x a d true
      return { kind := .vpjb, desc := d, scope := fld d 28 1
               locks := [padSpan a (recSize r.k) false, padSpan (fld d 24 4) (Machine.spireBytes r.hfmt * r.depth) false
                         , padSpan (fld d 48 4) (128 * r.depth) true] })
  | _ => none

/-! ### Events -/

/-- What a resolution step does to its counter (R33): the counter's value joins the next segment, the carry or borrow of that sum joins the next counter,
and the counter is zero; a counter above that would leave its 16 bits is resolved first. -/
def CarryMoved (i : Nat) (a a' : Acc) : Prop :=
  let top := i = 8
  let sum := (if top then (a.seg.getD 9 0).toInt else ((a.seg.getD (i + 1) 0).toNat : Int)) + (a.cnt.getD i 0).toInt
  let next := (a.cnt.getD (i + 1) 0).toInt + (if top then (sum + 2 ^ 63) / 2 ^ 64 else sum / 2 ^ 64)
  a'.cnt.getD i 0 = 0 ∧ ((top ∨ -32768 ≤ next ∧ next ≤ 32767) →
    a'.seg.getD (i + 1) 0 = BitVec.ofInt 64 sum ∧ a'.cnt.getD (i + 1) 0 = BitVec.ofInt 16 next
    ∧ ∀ j : Nat, (j ≠ i + 1 → a'.seg.getD j 0 = a.seg.getD j 0) ∧ (j ≠ i → j ≠ i + 1 → a'.cnt.getD j 0 = a.cnt.getD j 0))

/-- The first group that a core holds, of the first of its teams that has one. -/
def firstGroup (s : State) (core : Nat) : Option (Nat × Nat × Group) :=
  ((indexed 0 s.teams).flatMap fun tT =>
    if tT.2.live && !tT.2.away && tT.2.core == core then
      (indexed 0 tT.2.groups).filterMap fun gG => if gG.2.gone then none else some (tT.1, gG.1, gG.2)
    else []).head?

/-- A core's sample joins the trace (R405): the scalar PC and the lane word address of its first group, unless its context is confidential. -/
def sampled (s : State) (u : State) (core : Nat) : State :=
  match firstGroup s core with
  | some (t, g, G) =>
    match s.launchOf? t with
    | some L =>
      if (s.context? L.ctx).any (·.conf) then u
      else u.traceWrite (core / 48) (traceBytes s.tick 5 (core / 48) core g L.ctx G.regs.pc.toNat G.lanePc.toNat)
    | none => u
  | none => u

/-! ### Decoding, a turn of the device, reset, the form of memory -/

/-- The instruction of the opcode table that an event of the agenda is. -/
def eventIs : Event → Instr → Prop
  | .runStart a b => fun i => i = .runStart a b
  | .clauseStart a b => fun i => i = .clauseStart a b
  | .loadDataReturn a b c => fun i => i = .loadDataReturn a b c
  | .storePerformed a b c => fun i => i = .storePerformed a b c
  | .enginePieceLand a b => fun i => i = .enginePieceLand a b
  | .cpyComplete a b => fun i => i = .cpyComplete a b
  | .gathComplete a b => fun i => i = .gathComplete a b
  | .partComplete a b => fun i => i = .partComplete a b
  | .putsComplete a b => fun i => i = .putsComplete a b
  | .getComplete a b => fun i => i = .getComplete a b
  | .fabricRaddComplete a b => fun i => i = .fabricRaddComplete a b
  | .engineFault a b c d e => fun i => i = .engineFault a b c d e
  | .mmaComplete a b c => fun i => i = .mmaComplete a b c
  | .spireComplete a => fun i => i = .spireComplete a
  | .plvalViewWrite a b => fun i => i = .plvalViewWrite a b
  | .parkWake a b => fun i => i = .parkWake a b
  | .waitaTimeout a b => fun i => i = .waitaTimeout a b
  | .hang a b => fun i => i = .hang a b
  | .orderedOpRelease a b => fun i => i = .orderedOpRelease a b
  | .handlerEntry a => fun i => i = .handlerEntry a
  | .handlerWdogExpiry a => fun i => i = .handlerWdogExpiry a
  | .launchAccept a b => fun i => i = .launchAccept a b
  | .teamPlace a => fun i => i = .teamPlace a
  | .launchEnd a => fun i => i = .launchEnd a
  | .swapEligible a => fun i => i = .swapEligible a
  | .preempt a => fun i => i = .preempt a
  | .restore a b => fun i => i = .restore a b
  | .domeTlbi a => fun i => i = .domeTlbi a
  | .sweeperPass => fun i => i = .sweeperPass
  | .l1CleanExpiry a b c => fun i => i = .l1CleanExpiry a b c
  | .hostAccess a => fun i => i = .hostAccess a
  | .hostSnoop a b => fun i => i = .hostSnoop a b
  | .backInvalidateResponse a b => fun i => i = .backInvalidateResponse a b
  | .fabricRequest a => fun i => i = .fabricRequest a
  | .fabricResponse a => fun i => i = .fabricResponse a
  | .linkDown a => fun i => i = .linkDown a
  | .planeHeader a b => fun i => i = .planeHeader a b
  | .countPlane a b c => fun i => i = .countPlane a b c
  | .gatherPlane a b c => fun i => i = .gatherPlane a b c
  | .cancelRequest a b c d => fun i => i = .cancelRequest a b c d
  | .freeze a b c => fun i => i = .freeze a b c
  | .cancelAnswer a b => fun i => i = .cancelAnswer a b
  | .domeL2quota a => fun i => i = .domeL2quota a
  | .cpClasscfg a b => fun i => i = .cpClasscfg a b
  | .domeCls0rsv a => fun i => i = .domeCls0rsv a
  | .domeSweep a => fun i => i = .domeSweep a
  | .fabPodcfg a => fun i => i = .fabPodcfg a
  | .domeCntsnap a => fun i => i = .domeCntsnap a
  | .cntsnapCopy => fun i => i = .cntsnapCopy
  | .dbgTracectl a => fun i => i = .dbgTracectl a
  | .traceSample => fun i => i = .traceSample
  | .dbgStopctl a => fun i => i = .dbgStopctl a
  | .dbgStop => fun i => i = .dbgStop
  | .pwrClkctl a => fun i => i = .pwrClkctl a
  | .throttleEval => fun i => i = .throttleEval
  | .registerWrite a b => fun i => i = .registerWrite a b
  | .devRstN => fun i => i = .devRstN
  | .pgDeassert => fun i => i = .pgDeassert
  | .pgAllAsserted => fun i => i = .pgAllAsserted
  | .cxlConventionalReset => fun i => i = .cxlConventionalReset
  | .cxlFlrPort0 => fun i => i = .cxlFlrPort0
  | .cxlFlrPort1 => fun i => i = .cxlFlrPort1
  | .thermalTrip => fun i => i = .thermalTrip
  | .thermNDeassert => fun i => i = .thermNDeassert
  | .doeBegin a b => fun i => i = .doeBegin a b
  | .doeChunk a b => fun i => i = .doeChunk a b
  | .doeEnd => fun i => i = .doeEnd
  | .doeAttest a b => fun i => i = .doeAttest a b
  | .doeCommit => fun i => i = .doeCommit
  | .firmwareReady => fun i => i = .firmwareReady
  | .liveUpdateTimeout => fun i => i = .liveUpdateTimeout
  | .confidentialContextCreate a b => fun i => i = .confidentialContextCreate a b
  | .faultRingDrain => fun i => i = .faultRingDrain
  | .scrubPass => fun i => i = .scrubPass
  | .globalTick => fun i => i = .globalTick
  | .coreClockCycle => fun i => i = .coreClockCycle
  | .resolutionStep a b c d e => fun i => i = .resolutionStep a b c d e
  | .tlbiComplete => fun i => i = .tlbiComplete
  | .linkRestored a => fun i => i = .linkRestored a
  | .vcCreditReturn a b c => fun i => i = .vcCreditReturn a b c
  | .driverLaunchEnd a => fun i => i = .driverLaunchEnd a
  | .confidentialContextEnd a => fun i => i = .confidentialContextEnd a
  | .functionEnable => fun i => i = .functionEnable
  | .eccError a b => fun i => i = .eccError a b
  | .corePowerGating a => fun i => i = .corePowerGating a
  | .traceRingSpaceReturn a b => fun i => i = .traceRingSpaceReturn a b

/-- The words that the spec writes out beside their fields (R59, R93, R100, R130, R151, R165, R190, R219, R221, R224, R246, R278, R361): the bits, the word,
and the instruction. -/
def writtenWords : List (Nat × Nat × Instr) :=
  let w : LaneWord := { guard := 127, neg := false, vd := 0, va := 0, vb := 0, vc := 0, ty := 0, md := 0, rm := 0, imm := 0 }
  [ (32, 0x0228C380, .add 5 6 7), (32, 0x76000000, .nop), (32, 0x63E00007, .call 15 false 7), (32, 0x1E38A300, .bfx 7 5 6)
  , (32, 0x42288C04, .st .b64 5 4 4), (32, 0x40494C00, .ld .u64 9 10 0), (32, 0x22410001, .addi 8 8 1), (64, 0x0000000436090002, .cmpi .lt 1 8 4)
  , (32, 0x602FFFFA, .br 1 false 0xFFFFA), (32, 0x65E00000, .ret 15 false), (32, 0x74000000, .sdone), (64, 0x0000000368008003, .lrun 4 3 3)
  , (32, 0x80114000, .cpy 2 10), (32, 0xA6196000, .plcl 3 11), (32, 0xAA218680, .plwt 4 12 13), (32, 0xAC218700, .plval 4 12 14)
  , (32, 0xAE298680, .plcx 5 12 13)
  , (96, 0x110FE08090A0B50000000000, .fma { w with vd := 8, va := 9, vb := 10, vc := 11, ty := 10 })
  , (96, 0xA5E090A0BA0003E040506400, .pairWord
      { slot0 := ⟨0x01, 15, false, 4, 5, 6, 4, 0⟩, mid := false, slot1 := ⟨0x12, 15, false, 9, 10, 11, 10, 0⟩ })
  , (96, 0x012FE0C0D0E0000000000000, .adds { w with vd := 12, va := 13, vb := 14 })
  , (96, 0x210FE1415160060000000A03, .qnt { w with vd := 20, va := 21, vb := 22, ty := 12, imm := 0xA03 })
  , (96, 0x411FE0001000000000000000, .laneBrk { w with va := 1 }), (96, 0x413FE0000000000000000008, .laneEndloop { w with imm := 8 })
  , (96, 0x4B0FE0602000020400000000, .gred .add { w with vd := 6, va := 2, ty := 4, md := 1 })
  , (96, 0x540FE0C030A0058400000000, .arndDiv { w with vd := 12, va := 3, vb := 10, ty := 11, md := 1 })
  , (96, 0x630FE0014150000000000000, .laneSwait { w with va := 20, vb := 21 })
  , (96, 0x680FE011003004840D005002, .mma { w with vd := 1, va := 16, vb := 3, ty := 9, md := 1, imm := 0x0D005002 })
  , (96, 0x6C2FE0028010000C00000000, .mstAdd { w with va := 40, vb := 1, md := 3 })
  , (96, 0x131FE0706040050000000000, .expi { w with vd := 7, va := 6, vb := 4, ty := 10 })
  , (96, 0x380FE0101000020000000000, .laneCmp .eq { w with vd := 1, va := 1, ty := 4 })
  , (96, 0x590FE0001020028E00000000, .laneSt { w with va := 1, vb := 2, ty := 5, md := 3, rm := 2 })
  , (96, 0x5F0FE0000000000C00000000, .laneFence { w with md := 3 }) ]

/-- The current stream's scalar section: the launch's, or in the handler slot the registered handler's (R227, R378). -/
def sectionOf (c : Cur) (s : State) : Option (Nat × Nat) :=
  if c.stream = .handler then ((s.contextOf? c.team).bind (·.handler)).map fun h => (h.base, h.size)
  else (s.launchOf? c.team).map fun L => (L.sbase, L.ssize)

/-- What a stream executes for a word that it has read: the instruction that the word decodes to, or for a reserved word the word itself, which raises
ILLEGAL_OP (notes/assumptions/21). -/
def Reads {ε : Type} (d : Except ε Instr) (reserved i : Instr) : Prop := d = .ok i ∨ (∃ e, d = .error e) ∧ i = reserved

/-- The bytes at the program counter are read as `i` (R46, R71): they lie in the scalar section, they are read as code, and `s'` is the state after. -/
inductive ScalarAt (c : Cur) (i : Instr) : State → State → Prop
  | short (r : ScalarRegs) (base size : Nat) (b : List Byte) (s s' : State) : s.scalarRegs? = some r → sectionOf c s = some (base, size) →
      r.pc.toNat % 4 = 0 → base ≤ r.pc.toNat → r.pc.toNat + 4 ≤ base + size → fetchBytes r.pc.toNat 4 s = .ok (b, s') →
      isWide (BitVec.ofNat 32 (ofBytes b)) = false → Reads (decodeScalar (BitVec.ofNat 32 (ofBytes b)) 0) .reservedScalarWord i → ScalarAt c i s s'
  | wide (r : ScalarRegs) (base size : Nat) (b b' : List Byte) (s s' s'' : State) : s.scalarRegs? = some r → sectionOf c s = some (base, size) →
      r.pc.toNat % 4 = 0 → base ≤ r.pc.toNat → r.pc.toNat + 8 ≤ base + size → fetchBytes r.pc.toNat 4 s = .ok (b, s') →
      isWide (BitVec.ofNat 32 (ofBytes b)) = true → fetchBytes (r.pc.toNat + 4) 4 s' = .ok (b', s'') →
      Reads (decodeScalar (BitVec.ofNat 32 (ofBytes b)) (BitVec.ofNat 32 (ofBytes b'))) .reservedScalarWord i → ScalarAt c i s s''

/-- The twelve bytes of the next word of the clause in progress are read as `i` (R51, R53, R57). -/
def LaneAt (c : Cur) (i : Instr) (s s' : State) : Prop :=
  ∃ T G L k b, s.team? c.team = some T ∧ s.group? c.team c.grp = some G ∧ s.launchOf? c.team = some L ∧ G.clause = some k
    ∧ fetchBytes (L.lbase + 12 * k.next) 12 s = .ok (b, s')
    ∧ Reads (decodeLane (BitVec.ofNat 96 (ofBytes b))) (.reservedLaneWord (BitVec.ofNat 96 (ofBytes b))) i

/-- Where a stream's next word lies, and its bytes: for a scalar stream the first word, where that lies in the section (R46, R51). -/
inductive WordAt (c : Cur) : Nat → Nat → State → Prop
  | scalar (r : ScalarRegs) (base size : Nat) (s : State) : c.stream ≠ .lane → s.scalarRegs? = some r → sectionOf c s = some (base, size) →
      r.pc.toNat % 4 = 0 → base ≤ r.pc.toNat → r.pc.toNat + 4 ≤ base + size → WordAt c r.pc.toNat 4 s
  | lane (T : Team) (G : Group) (L : Launch) (k : Clause) (s : State) : c.stream = .lane → s.team? c.team = some T →
      s.group? c.team c.grp = some G → s.launchOf? c.team = some L → G.clause = some k → WordAt c (L.lbase + 12 * k.next) 12 s

/-- A fetch that gives no word (R46, R319, R326, R430), and the state it leaves: an address outside the section or without translation traps, as a page
does that may not be executed, or that another device holds; for a page that is not resident the stream is reported and stalls. -/
inductive NoWord (c : Cur) : State → State → Prop
  | outside (r : ScalarRegs) (base size : Nat) (s : State) : c.stream ≠ .lane → s.scalarRegs? = some r → sectionOf c s = some (base, size) →
      (r.pc.toNat % 4 ≠ 0 ∨ r.pc.toNat < base ∨ base + size < r.pc.toNat + 4) → NoWord c s (s.takeTrap { cause := 0x10, taddr := r.pc })
  | second (r : ScalarRegs) (base size : Nat) (b : List Byte) (s s' : State) : c.stream ≠ .lane → s.scalarRegs? = some r →
      sectionOf c s = some (base, size) → r.pc.toNat % 4 = 0 → base ≤ r.pc.toNat → r.pc.toNat + 4 ≤ base + size → base + size < r.pc.toNat + 8 →
      fetchBytes r.pc.toNat 4 s = .ok (b, s') → isWide (BitVec.ofNat 32 (ofBytes b)) = true →
      NoWord c s (s'.takeTrap { cause := 0x10, taddr := r.pc + 4 })
  | untranslated (a : Agent) (va n : Nat) (bad : Bool) (s s' : State) : WordAt c va n s → s.agentOf? c.team = some a →
      s.locate { a with l1 := false } va n false = (.fault bad, s') →
      NoWord c s (s'.takeTrap { cause := 0x10, taddr := BitVec.ofNat 64 va, tinfo := if bad then 0x100 else 0 })
  | forbidden (a : Agent) (va n : Nat) (ps : List Part) (s s' : State) : WordAt c va n s → s.agentOf? c.team = some a →
      s.locate { a with l1 := false } va n false = (.parts ps, s') → (∃ p ∈ ps, p.permits .fetch = false ∨ p.isPeer = true) →
      NoWord c s (s'.takeTrap { cause := 0x11, taddr := BitVec.ofNat 64 va })
  | absent (a : Agent) (va n : Nat) (ps : List Part) (s s' : State) : WordAt c va n s → s.agentOf? c.team = some a →
      s.locate { a with l1 := false } va n false = (.parts ps, s') → (∀ p ∈ ps, p.permits .fetch = true ∧ p.isPeer = false ∧ p.open .fetch s' = true) →
      (∃ p ∈ ps, p.isAbsent = true ∨ p.isHeld = true) →
      NoWord c s ((s'.reportParts { a with l1 := false } .fetch ps).markStall .fetch)


end Sys2Proof.Claims

section

open Sys2Proof Sys2Proof.Machine Sys2Proof.Claims

/-- R73 to R82, R93: a scalar word that computes on scalar registers completes from every state whose current stream has registers, in the handler slot
too, and leaves them as its rule says, the program counter past the word. -/
def Obligations.ScalarWordsComplete : Prop :=
  ∀ (i : Instr) (n : Nat) (f : ScalarRegs → ScalarRegs), scalarEffect i = some (n, f) →
    ∀ (s : State) (r : ScalarRegs), s.scalarRegs? = some r → exec i s = .next (s.scalarNext n { f r with pc := r.pc })

/-- The frame of those words: but for the destination no s-register and no q-register changes, and nothing else in the device. -/
def Obligations.ScalarWordsFrame : Prop :=
  ∀ (i : Instr) (n : Nat) (f : ScalarRegs → ScalarRegs), scalarEffect i = some (n, f) →
    ∀ (s t : State) (r r' : ScalarRegs), s.scalarRegs? = some r → exec i s = .next t → t.scalarRegs? = some r' →
      (∀ x, scalarDest i ≠ some x → r'.getS x = r.getS x) ∧ (∀ q, scalarDestQ i ≠ some q → r'.getQ q = r.getQ q)
        ∧ r'.pc = r.pc + BitVec.ofNat 64 n ∧ OnlyScalar s t ∧ (∀ a, cellGet a t.mem = cellGet a s.mem)

/-- R74, R75: division never traps, and each row of its table gives its result; a shift counts by the whole register: 64 and more shift everything out. -/
def Obligations.DivisionAndShiftRules : Prop :=
  ∀ (d a b : SReg) (s : State) (r : ScalarRegs), s.scalarRegs? = some r →
    let x := r.getS a
    let y := r.getS b
    (y = 0 → ∀ u, exec (.div u d a b) s = .next (s.scalarNext 4 (r.setS d (BitVec.allOnes 64)))
      ∧ exec (.rem u d a b) s = .next (s.scalarNext 4 (r.setS d x)))
    ∧ (x = BitVec.intMin 64 → y = -1#64 → exec (.div false d a b) s = .next (s.scalarNext 4 (r.setS d (BitVec.intMin 64)))
      ∧ exec (.rem false d a b) s = .next (s.scalarNext 4 (r.setS d 0)))
    ∧ (y ≠ 0 → ¬(x = BitVec.intMin 64 ∧ y = -1#64) → ∃ q m : BitVec 64, q.toInt = x.toInt.tdiv y.toInt ∧ m.toInt = x.toInt - y.toInt * x.toInt.tdiv y.toInt
      ∧ exec (.div false d a b) s = .next (s.scalarNext 4 (r.setS d q)) ∧ exec (.rem false d a b) s = .next (s.scalarNext 4 (r.setS d m)))
    ∧ (y ≠ 0 → ∃ q m : BitVec 64, q.toNat = x.toNat / y.toNat ∧ m.toNat = x.toNat - y.toNat * (x.toNat / y.toNat)
      ∧ exec (.div true d a b) s = .next (s.scalarNext 4 (r.setS d q)) ∧ exec (.rem true d a b) s = .next (s.scalarNext 4 (r.setS d m)))
    ∧ ∃ l h m : BitVec 64, exec (.shl d a b) s = .next (s.scalarNext 4 (r.setS d l)) ∧ exec (.shr d a b) s = .next (s.scalarNext 4 (r.setS d h))
      ∧ exec (.sar d a b) s = .next (s.scalarNext 4 (r.setS d m))
      ∧ (∀ i < 64, l.getLsbD i = (decide (y.toNat ≤ i) && x.getLsbD (i - y.toNat)) ∧ h.getLsbD i = x.getLsbD (i + y.toNat)
        ∧ m.getLsbD i = if i + y.toNat < 64 then x.getLsbD (i + y.toNat) else x.msb)
      ∧ (64 ≤ y.toNat → l = 0 ∧ h = 0 ∧ m = if x.msb then BitVec.allOnes 64 else 0)

/-- R82: SEL's word carries n in its function bits [3:0], which may be 15, and its bits [6:4] must be zero; it performs sd := qn ? sa : sb. -/
def Obligations.SelRule : Prop :=
  ∀ (d a b : SReg) (fn : BitVec 7) (s : State) (r : ScalarRegs), s.scalarRegs? = some r →
    ((fn.extractLsb' 4 3 = 0#3) → decodeScalar (srWord 0x1D d a b fn) 0 = .ok (.sel d (fn.extractLsb' 0 4) a b))
    ∧ ((fn.extractLsb' 4 3 ≠ 0#3) → ∃ e, decodeScalar (srWord 0x1D d a b fn) 0 = .error e)
    ∧ ∀ n : QReg, exec (.sel d n a b) s = .next (s.scalarNext 4 (r.setS d (if r.getQ n then r.getS a else r.getS b)))

/-- R81: q15 reads 1, so QOP.not of q15 clears its destination, whatever the state. -/
def Obligations.QFifteenReadsOne : Prop :=
  ∀ (q qb : QReg) (s : State) (r : ScalarRegs), s.scalarRegs? = some r → r.getQ 15 = true
    ∧ exec (.qop .not q 15 qb) s = .next (s.scalarNext 4 (r.setQ q false))
    ∧ (q ≠ 15 → (r.setQ q false).getQ q = false)

/-- R83, R253: LD and LDS complete when their access passes its checks and its page is on this device: the whole of sd is written with the bytes read,
extended as the size code says, at once where the access is one piece; which pieces of one that crosses a granule are read apart is free, and the word
retires with the last of them (the model's choice, notes/assumptions/4). A page of another device is asked, and the stream blocks; a page or line that
is not at hand, or whose page has logged accesses before it (R277), is reported, and it stalls. With the last piece of a load its register is written
and the word retires. R167: an access of LD, LDS or LDAQ that fails one of its checks raises that check's trap: ATOMIC_ALIGN (0x12), ADDR_FAULT
(0x10), SCRATCH_BOUNDS (0x14), RANGE_CONFLICT (0x13) or ACCESS_FAULT (0x11), and has no other effect. -/
def Obligations.ScalarLoadsComplete : Prop :=
  (∀ (scratch : Bool) (z : LoadSize) (d base : SReg) (off : BitVec 10) (c : Cur) (T T' : Team) (G G' : Group) (L L' : Launch) (C C' : Context)
    (r : ScalarRegs) (h : Hit) (s s' : State),
    InHand c T G L C r s → waitingRemote s = .ok (false, s) →
    checkAccess [scalarReq scratch ((r.getS base).toNat + off.toNat * loadBytes z) (loadBytes z) 1 .read] (fun _ => true) s = .ok ([h], s') →
    InHand c T' G' L' C' r s' → ∀ a, s'.agentOf? c.team = some a →
    let i : Instr := if scratch then .lds z d base off else .ld z d base off
    let r' := r.setS d (loadValue z (s'.readHit c.team h))
    (h.waitsHere s' a = false → h.remote = false →
      exec i s = .next (scalarLanded 4 r' (scalarRead c h d z.code s'))
      ∧ (onePiece [(h.readAt c.team).blocks] = true → exec i s = .next (s'.scalarNext 4 r')))
    ∧ (∀ p rest dev o, h.waitsHere s' a = false → h.parts = p :: rest → p.place = .peer dev o →
      exec i s = .next ((s'.sendRemote
        { Remote.of c.team c.grp dev o h.req.size G'.lanePc with sreg := some (c.stream, d.toNat, z.code) } (.read (loadBytes z))).markStall .remote))
    ∧ (h.waitsHere s' a = true → exec i s = .next ((s'.reportParts a h.req.acc h.parts).markStall .page)))
  ∧ (∀ (z : LoadSize) (d : SReg) (c : Cur) (n : Nat) (b : List Byte) (rest : List (Nat × Nat × Block)) (r : ScalarRegs) (s : State),
    let u : State := { s with cur := some c }
    u.scalarRegs? = some r → u.leftBy c.team c.grp c.stream = false →
    s.performApart (scalarRest c d z.code n b rest) =
      ({ u.scalarNext 4 (r.setS d (loadValue z (bytesRead b rest u))) with cur := s.cur } : State).settleTeam c.team)
  ∧ (∀ (i : Instr) (ordered : Bool) (q : Req) (c : Cur) (T : Team) (G : Group) (L : Launch) (C : Context) (r : ScalarRegs) (ag : Agent) (stamp : Nat)
    (x : TrapArgs) (s u : State), scalarAccess r i = some (ordered, q) → q.acc = .read → InHand c T G L C r s → hereAgent s = .ok (ag, s) →
    (c.stream = .handler → s.teamBusy c.team = false) → waitingRemote s = .ok (false, s) → (ordered = true → orderedWait s = .ok (stamp, s)) →
    CheckFails ag T [q] s x u → exec i s = .next (u.takeTrap x))

/-- R83, R252, R253, the frame of STS: the bytes stored are those of the scratchpad from U(base) + off × bytes up. Inside one 64-byte granule they
read as the low bytes of ss at once; across granules each of them does, or stands in a block of the store that is still to be performed (the model's
choice of the moment, notes/assumptions/4). Every other byte of the scratchpad reads as before, and so do HBM and host memory. The team is not swapped
out, as no team that executes is. R83, R84, R166, the frame of ST to HBM or host memory: both memories read as before at every address that the parts
of its access do not reach, and every scratchpad stands as it stood. R166, R168, R253, the frame of a lane store, releasing or not, beside what its
log entry writes in mode 2 (R399): a byte of the scratchpad outside every participating lane's range reads as before, and so does every other team's
scratchpad; HBM and host memory do at every address that the lanes' parts do not reach. Inside the lanes' ranges of the scratchpad each byte is the
highest lane's, or is still to be performed (notes/assumptions/4). -/
def Obligations.StoreFrames : Prop :=
  (∀ (z : Size) (ss base : SReg) (off : BitVec 10) (c : Cur) (T T' : Team) (G : Group) (L : Launch) (C : Context) (r : ScalarRegs) (h : Hit)
    (ea : Nat) (s t : State),
    InHand c T G L C r s → T.away = false → (ea : Int) = (r.getS base).toNat + off.toNat * sizeBytes z → Memory.wf T.scratch = true →
    checkAccess [scalarReq true ea (sizeBytes z) 1 .write] (fun _ => true) s = .ok ([h], s) →
    exec (.sts z ss base off) s = .next t → t.team? c.team = some T' →
    let b := toBytes (sizeBytes z) (r.getS ss).toNat
    (ea / 64 = (ea + sizeBytes z - 1) / 64 → t.apart = s.apart ∧ cellsRead T'.scratch ea (sizeBytes z) = b)
      ∧ padHolds c.team ea b T' t ∧ sameOutside ea (sizeBytes z) T.scratch T'.scratch ∧ padsKept (some c.team) s t
      ∧ t.mem = s.mem ∧ t.hostMem = s.hostMem)
  ∧ (∀ (z : Size) (ss base : SReg) (off : BitVec 10) (c : Cur) (T T' : Team) (G G' : Group) (L L' : Launch) (C C' : Context) (r : ScalarRegs) (h : Hit)
    (s s' t : State), InHand c T G L C r s →
    Reached (scalarReq false ((r.getS base).toNat + off.toNat * sizeBytes z) (sizeBytes z) 1 .write) h s s' → InHand c T' G' L' C' r s' →
    s'.memoryWf = true → exec (.st z ss base off) s = .next t → globalKept [h] s' t ∧ padsKept none s' t)
  ∧ (∀ (i : Instr) (reqs : List Req) (data : List (List Byte)) (rel : Bool) (w : LaneWord) (x : LaneCtx) (hits : List Hit) (stamp : Nat) (T T' : Team)
    (s s' s'' t : State), storeOf x w i = some (reqs, data, rel) → LaneReady i w x s → x.T.away = false → LanesReach x rel false reqs hits s s' →
    (rel = false → s'' = s') → (rel = true → orderedWait s = .ok (stamp, s) ∧ orderedLog 4 stamp s' = .ok ((), s'')) →
    (∀ h ∈ hits, ∀ p ∈ h.parts, s''.atHand x.L.ctx x.T.core p = true) → s''.memoryWf = true → s''.team? x.c.team = some T → T.away = false →
    exec i s = .next t → t.team? x.c.team = some T' →
    globalKept hits s'' t ∧ padsKept (some x.c.team) s'' t
      ∧ (∀ a : Nat, (∀ q ∈ reqs, q.scratch = true → (a : Int) < q.ea ∨ q.ea + q.size ≤ a) → cellGet a T'.scratch = cellGet a T.scratch)
      ∧ ∀ hd ∈ topData (hits.zip data), hd.1.req.scratch = true → padHolds x.c.team hd.1.req.ea.toNat hd.2 T' t)

/-- R83, R253: ST and STS complete when their access passes its checks and its page is on this device: the low bytes of ss are written there, block by
block, and the word retires. A store to another device is sent to it and completes too. Which blocks of a store of several are performed at once is
free, the others are performed before the stream's next word (the model's choice, notes/assumptions/4). R167: an access of ST, STS, STRL, ATOM or CAS
that fails one of its checks raises that check's trap likewise, and stores nothing. -/
def Obligations.ScalarStoresComplete : Prop :=
  (∀ (scratch : Bool) (z : Size) (ss base : SReg) (off : BitVec 10) (c : Cur) (T T' : Team) (G G' : Group) (L L' : Launch) (C C' : Context)
    (r : ScalarRegs) (h : Hit) (s s' : State),
    InHand c T G L C r s → waitingRemote s = .ok (false, s) →
    Reached (scalarReq scratch ((r.getS base).toNat + off.toNat * sizeBytes z) (sizeBytes z) 1 .write) h s s' →
    InHand c T' G' L' C' r s' →
    let i : Instr := if scratch then .sts z ss base off else .st z ss base off
    let b := toBytes (sizeBytes z) (r.getS ss).toNat
    ((∀ p rest, h.parts = p :: rest → p.isPeer = false) → (s'.storeHit c h b 0).scalarRegs? = some r →
      exec i s = .next ((s'.storeHit c h b 0).scalarNext 4 r))
    ∧ (∀ p rest dev o t, h.parts = p :: rest → p.place = .peer dev o →
      t = s'.sendRemote (Remote.of c.team c.grp dev o h.req.size G'.lanePc) (.write b) → t.scalarRegs? = some r →
      exec i s = .next (t.scalarNext 4 r)))
  ∧ (∀ (i : Instr) (ordered : Bool) (q : Req) (c : Cur) (T : Team) (G : Group) (L : Launch) (C : Context) (r : ScalarRegs) (ag : Agent) (stamp : Nat)
    (x : TrapArgs) (s u : State), scalarAccess r i = some (ordered, q) → q.acc ≠ .read → InHand c T G L C r s → hereAgent s = .ok (ag, s) →
    (c.stream = .handler → s.teamBusy c.team = false) → waitingRemote s = .ok (false, s) → (ordered = true → orderedWait s = .ok (stamp, s)) →
    (q.acc = .atomic → L.detm ≠ 1) → (q.acc = .write → ordered = true → s.unacked c.team c.grp = false) →
    CheckFails ag T [q] s x u → exec i s = .next (u.takeTrap x))

/-- R84: LDAQ and STRL complete when their access passes its checks on this device: in determinism mode 2 at their turn, and logged (R395, R399). LDAQ
acquires before it reads, and zero-extends (its pieces read as R83's are); STRL first waits for the stream's unanswered stores to other devices
(R264). A word of another device is asked or sent there; LDAQ then acquires with the answer, at pod scope at least (R250), and in mode 2 STRL retires
at its answer (R395). R86, R264, R271: FENCE completes once no store of the stream to another device is unanswered, as an acquire at its scope; until
then the stream waits. -/
def Obligations.AcquireReleaseFenceComplete : Prop :=
  (∀ (sc : Scope) (z : Size) (x sa : SReg) (c : Cur) (T T' : Team) (G G' : Group) (L L' : Launch) (C C' : Context) (r : ScalarRegs) (h : Hit)
    (stamp : Nat) (a : Agent) (s s' s'' t : State), InHand c T G L C r s → orderedWait s = .ok (stamp, s) → InHand c T' G' L' C' r s' →
    (waitingRemote s = .ok (false, s) →
      Reached (scalarReq false (r.getS sa).toNat (sizeBytes z) (sizeBytes z) .read) h s s' → h.remote = false →
      orderedLog 3 stamp s' = .ok ((), s'') → hereAgent s' = .ok (a, s') → t = s''.acquire a sc.code → t.scalarRegs? = some r →
      exec (.ldaq sc z x sa) s =
        .next (scalarLanded 4 (r.setS x (BitVec.ofNat 64 (ofBytes (t.readHit c.team h)))) (scalarRead c h x (Size.load z).code t)))
    ∧ (∀ p rest dev o, waitingRemote s = .ok (false, s) → Reached (scalarReq false (r.getS sa).toNat (sizeBytes z) (sizeBytes z) .read) h s s' →
      h.parts = p :: rest → p.place = .peer dev o → orderedLog 3 stamp s' = .ok ((), s'') → InHand c T' G' L' C' r s'' →
      exec (.ldaq sc z x sa) s = .next ((s''.sendRemote { Remote.of c.team c.grp dev o h.req.size G'.lanePc with
        sreg := some (c.stream, x.toNat, (Size.load z).code), acq := some (max sc.code 4) } (.read (sizeBytes z))).markStall .remote))
    ∧ (waitingRemote s = .ok (false, s) → s.unacked c.team c.grp = true → exec (.strl sc z x sa) s = .next (s.markStall .fence))
    ∧ (∀ p rest dev o, waitingRemote s = .ok (false, s) → s.unacked c.team c.grp = false →
      Reached (scalarReq false (r.getS sa).toNat (sizeBytes z) (sizeBytes z) .write) h s s' →
      h.parts = p :: rest → p.place = .peer dev o → orderedLog 4 stamp s' = .ok ((), s'') → InHand c T' G' L' C' r s'' →
      let b := toBytes (sizeBytes z) (r.getS x).toNat
      let rem := Remote.of c.team c.grp dev o h.req.size G'.lanePc
      (L'.detm ≠ 2 → t = s''.sendRemote rem (.write b) → t.scalarRegs? = some r → exec (.strl sc z x sa) s = .next (t.scalarNext 4 r))
      ∧ (L'.detm = 2 → c.stream ≠ .handler →
        exec (.strl sc z x sa) s = .next ((s''.sendRemote { rem with sreg := some (c.stream, 0, 16) } (.write b)).markStall .remote)))
    ∧ (waitingRemote s = .ok (false, s) → s.unacked c.team c.grp = false → Reached (scalarReq false (r.getS sa).toNat (sizeBytes z) (sizeBytes z) .write) h s s' → h.remote = false →
      orderedLog 4 stamp s' = .ok ((), s'') → t = s''.storeHit c h (toBytes (sizeBytes z) (r.getS x).toNat) stamp → t.scalarRegs? = some r →
      exec (.strl sc z x sa) s = .next (t.scalarNext 4 r)))
  ∧ (∀ (sc : Scope) (c : Cur) (T : Team) (G : Group) (L : Launch) (C : Context) (r : ScalarRegs) (s : State), InHand c T G L C r s →
    (s.unacked c.team c.grp = false → exec (.fence sc) s = .next ((s.acquireFor c.team sc.code).scalarNext 4 r))
    ∧ (s.unacked c.team c.grp = true → exec (.fence sc) s = .next (s.markStall .fence)))

/-- R85, R250: the new value of ATOM's word: add wraps, min and max compare as signed, xchg stores sb; sd gets the old word. A word of another device
is asked to change there, and the stream blocks until its answer comes. R85: under determinism mode 1 the instruction and the mode alone make ATOM and
CAS trap: whatever the address holds, the group takes DETERMINISM_VIOLATION (0x31), before every other check. -/
def Obligations.ScalarAtomics : Prop :=
  (∀ (op : AtomOp) (sc : Scope) (d sa sb : SReg) (c : Cur) (T T' : Team) (G G' : Group) (L L' : Launch) (C C' : Context) (r : ScalarRegs)
    (h : Hit) (stamp : Nat) (s s' s'' : State), InHand c T G L C r s → L.detm ≠ 1 → waitingRemote s = .ok (false, s) →
    orderedWait s = .ok (stamp, s) → Reached (scalarReq false (r.getS sa).toNat 8 8 .atomic) h s s' →
    InHand c T' G' L' C' r s' → InHand c T' G' L' C' r s'' →
    let old : Word := BitVec.ofNat 64 (ofBytes (s''.readHit c.team h))
    let b := r.getS sb
    let new : Word := match op with
      | .add => old + b
      | .min => if b.toInt < old.toInt then b else old
      | .max => if old.toInt < b.toInt then b else old
      | .and => old &&& b
      | .or => old ||| b
      | .xor => old ^^^ b
      | .xchg => b
    let put (v : Word) : State := s''.writeHit c.team h (toBytes 8 v.toNat) stamp
    let asked (op : FabricOp) (dev o : Nat) : State := (s''.sendRemote { Remote.of c.team c.grp dev o h.req.size G'.lanePc with
      sreg := some (c.stream, d.toNat, 3) } op).markStall .remote
    (∀ p rest dev o, h.parts = p :: rest → p.place = .peer dev o → (orderedLog 1 stamp s' = .ok ((), s'') →
        exec (.atom op sc d sa sb) s = .next (asked (.atom op true 8 b) dev o))
      ∧ (orderedLog 2 stamp s' = .ok ((), s'') → exec (.cas sc d sa sb) s = .next (asked (.cas 8 b (r.getS d)) dev o)))
    ∧ (h.remote = false → (s''.readHit c.team h).length = 8 → orderedLog 1 stamp s' = .ok ((), s'') → (put new).scalarRegs? = some r →
      exec (.atom op sc d sa sb) s = .next ((put new).scalarNext 4 (r.setS d old)))
    ∧ (h.remote = false → (s''.readHit c.team h).length = 8 → orderedLog 2 stamp s' = .ok ((), s'') →
      (put (if old = r.getS d then b else old)).scalarRegs? = some r →
      exec (.cas sc d sa sb) s = .next ((put (if old = r.getS d then b else old)).scalarNext 4 (r.setS d old))))
  ∧ (∀ (op : AtomOp) (sc : Scope) (d sa sb : SReg) (c : Cur) (T : Team) (G : Group) (L : Launch) (C : Context) (r : ScalarRegs) (s : State),
    InHand c T G L C r s → L.detm = 1 →
    exec (.atom op sc d sa sb) s = .next (s.takeTrap { cause := 0x31 }) ∧ exec (.cas sc d sa sb) s = .next (s.takeTrap { cause := 0x31 }))

/-- R87: BR, CALL, RET and JMPR. A taken branch goes to its target when that is a multiple of 4 inside the stream's scalar section; CALL leaves the
address of the next word in s63. One that is not taken goes on to the next word, and CALL writes no link. A target outside makes the branch trap with
ADDR_FAULT, TADDR the target, and it has no other effect. -/
def Obligations.BranchesComplete : Prop :=
  ∀ (q : QReg) (neg : Bool) (off : BitVec 20) (sa : SReg) (c : Cur) (T : Team) (G : Group) (L : Launch) (C : Context) (r : ScalarRegs)
    (base size : Nat) (s : State), InHand c T G L C r s → hereSection s = .ok ((base, size), s) →
    let g := xor (r.getQ q) neg
    let near := r.pc + BitVec.ofInt 64 (4 * off.toInt)
    let ok (t : Word) : Prop := t.toNat % 4 = 0 ∧ base ≤ t.toNat ∧ t.toNat < base + size
    let fault (t : Word) : State := s.takeTrap { cause := 0x10, taddr := t }
    (g = false → exec (.br q neg off) s = .next (s.scalarNext 4 r) ∧ exec (.call q neg off) s = .next (s.scalarNext 4 r)
      ∧ exec (.ret q neg) s = .next (s.scalarNext 4 r))
    ∧ (g = true → ok near → exec (.br q neg off) s = .next (s.retireScalar (r.goto near))
      ∧ exec (.call q neg off) s = .next (s.retireScalar ((r.setS 63 (r.pc + 4)).goto near)))
    ∧ (g = true → ¬ok near → exec (.br q neg off) s = .next (fault near) ∧ exec (.call q neg off) s = .next (fault near))
    ∧ (g = true → ok (r.getS 63) → exec (.ret q neg) s = .next (s.retireScalar (r.goto (r.getS 63))))
    ∧ (g = true → ¬ok (r.getS 63) → exec (.ret q neg) s = .next (fault (r.getS 63)))
    ∧ (ok (r.getS sa) → exec (.jmpr sa) s = .next (s.retireScalar (r.goto (r.getS sa))))
    ∧ (¬ok (r.getS sa) → exec (.jmpr sa) s = .next (fault (r.getS sa)))

/-- R88, R72, R264: LRUN enqueues a run with the captured constants, the others zero, and the stream continues at once; illegal counts trap, and with 16
runs enqueued and not finished it waits. It is a release toward the run, and first waits for the stream's unanswered stores to other devices. -/
def Obligations.LrunCompletes : Prop :=
  ∀ (sa : SReg) (n : BitVec 4) (target : BitVec 32) (c : Cur) (T : Team) (G : Group) (L : Launch) (C : Context) (r : ScalarRegs) (s : State),
    InHand c T G L C r s → c.stream ≠ .handler →
    let legal : Prop := n.toNat ≤ 8 ∧ sa.toNat + n.toNat ≤ 64 ∧ ¬(n = 0 ∧ sa ≠ 0)
    (legal → G.pending < 16 → s.unacked c.team c.grp = false → ∃ k : Vector Word 8,
      (∀ j : Fin 8, k[j] = if j.val < n.toNat then r.getS (BitVec.ofNat 6 (sa.toNat + j.val)) else 0)
        ∧ exec (.lrun sa n target) s = .next ((s.modGroup c.team c.grp fun g => { g with runs := g.runs ++ [⟨target, k⟩] }).scalarNext 8 r))
    ∧ (legal → G.pending < 16 → s.unacked c.team c.grp = true → exec (.lrun sa n target) s = .next (s.markStall .fence))
    ∧ (legal → 16 ≤ G.pending → exec (.lrun sa n target) s = .next (s.markStall .queueFull))
    ∧ (¬legal → exec (.lrun sa n target) s = .next (s.takeTrap { cause := 0x01 }))

/-- R89, R90, R93: SPOP, WFLG, WFLG.now and SDONE complete when what they wait for is there, and wait until then; SPOP of a queue that nothing can
fill raises HANG with TINFO 1. A WFLG that goes on acquires at the scope of the completions it observes (R54, R264). SDONE retires the group from its
slot. -/
def Obligations.DrainWordsComplete : Prop :=
  ∀ (d : SReg) (mask : BitVec 12) (c : Cur) (T : Team) (G : Group) (L : Launch) (C : Context) (r : ScalarRegs) (s : State),
    InHand c T G L C r s → c.stream ≠ .handler →
    (∀ v rest, G.lq = v :: rest →
      exec (.spop d) s = .next ((s.modGroup c.team c.grp fun g => { g with lq := rest }).scalarNext 4 (r.setS d v)))
    ∧ (G.lq = [] → G.pending = 0 → exec (.spop d) s = .next (s.takeTrap { cause := 0x38, tinfo := 1 }))
    ∧ (G.lq = [] → G.pending ≠ 0 → exec (.spop d) s = .next (s.markStall .pop))
    ∧ (G.pending = 0 → (∀ n < 12, mask.getLsbD n = true → G.flag n = 0) → exec (.wflg mask) s = .next ((s.acquireFor c.team (G.observed mask)).scalarNext 4 r))
    ∧ (G.pending ≠ 0 → exec (.wflg mask) s = .next (s.markStall .runs))
    ∧ ((∀ n < 12, mask.getLsbD n = true → G.flag n = 0) → exec (.wflgNow mask) s = .next ((s.acquireFor c.team (G.observed mask)).scalarNext 4 r))
    ∧ ((∃ n < 12, mask.getLsbD n = true ∧ G.flag n ≠ 0) → exec (.wflgNow mask) s = .next (s.markStall .flag)
      ∧ (G.pending = 0 → exec (.wflg mask) s = .next (s.markStall .flag)))
    ∧ (G.pending = 0 → (∀ n < 12, G.flag n = 0) →
      exec .sdone s = .next (((s.scalarNext 4 r).retireGroup c.team c.grp).settleTeam c.team))
    ∧ (G.pending ≠ 0 → exec .sdone s = .next (s.markStall .lastRuns))
    ∧ (G.pending = 0 → (∃ n < 12, G.flag n ≠ 0) → exec .sdone s = .next (s.markStall .lastFlags))

/-- R95: LRUN, SPOP, WFLG, LNCH and SDONE raise ILLEGAL_OP in the handler slot, where every trap is a double fault (R384). R46: outside the handler
slot the handler's words raise ILLEGAL_OP. -/
def Obligations.SlotsRefuse : Prop :=
  (∀ (i : Instr), (match i with
      | .lrun _ _ _ => True
      | .spop _ => True
      | .wflg _ => True
      | .wflgNow _ => True
      | .lnch _ _ => True
      | .sdone => True
      | _ => False) →
    ∀ (c : Cur) (s : State), s.cur = some c → c.stream = .handler → exec i s = .next (s.doubleFault c.team 0x01))
  ∧ (∀ (i : Instr), (match i with
      | .eret => True
      | .trd _ _ _ => True
      | .twr _ _ _ => True
      | .tres _ _ _ => True
      | .tkil _ => True
      | .dump _ _ _ => True
      | .sset _ _ => True
      | _ => False) →
    ∀ (c : Cur) (s : State), s.cur = some c → c.stream ≠ .handler → exec i s = .next (s.takeTrap { cause := 0x01 }))

/-- R44, R92: SGET completes with the register that its code names, and SUBN with the elements of its type; SSET writes HSn in the handler slot. R204:
MRST registers a restart address inside the scalar section, or the launch's when its word is all ones. -/
def Obligations.SpecialRegisterWords : Prop :=
  (∀ (d sa : SReg) (ty : BitVec 5) (code : BitVec 8) (n : BitVec 2) (c : Cur) (T : Team) (G : Group) (L : Launch) (C : Context) (r : ScalarRegs)
    (v : Word) (x : Trap) (X : Group) (s : State), InHand c T G L C r s →
    (c.stream = .scalar → specialRead c T G L s code.toNat = some v → exec (.sget d 0 code) s = .next (s.scalarNext 4 (r.setS d v)))
    ∧ (c.stream = .handler → T.handler.trap = some x → s.group? c.team x.grp = some X → handlerRead T X x code.toNat = some v →
      exec (.sget d 0 code) s = .next (s.scalarNext 4 (r.setS d v)))
    ∧ (ty.toNat < 16 → ∃ k, exec (.sget d ty 0x01) s = .next (s.scalarNext 4 (r.setS d (BitVec.ofNat 64 k)))
      ∧ k = 64 / (ETy.get ty.toNat 0).w)
    ∧ (c.stream = .handler → exec (.sset n sa) s = .next ((s.modTeam c.team fun T =>
        { T with handler := { T.handler with hs := T.handler.hs.set n.toNat (r.getS sa) n.isLt } }).scalarNext 4 r))
    ∧ (c.stream = .scalar → exec (.sset n sa) s = .next (s.takeTrap { cause := 0x01 }))
    ∧ (c.stream = .scalar → specialRead c T G L s code.toNat = none → code ≠ 1 → exec (.sget d 0 code) s = .next (s.takeTrap { cause := 0x01 })))
  ∧ (∀ (off : BitVec 32) (c : Cur) (T : Team) (G : Group) (L : Launch) (C : Context) (r : ScalarRegs) (s : State), InHand c T G L C r s →
    (off ≠ -1#32 → off.toNat % 4 = 0 → off.toNat < L.ssize →
      exec (.mrst off) s = .next ((s.modGroup c.team c.grp fun g => { g with restart := BitVec.ofNat 64 (L.sbase + off.toNat) }).scalarNext 8
        r))
    ∧ (off ≠ -1#32 → ¬(off.toNat % 4 = 0 ∧ off.toNat < L.ssize) →
      exec (.mrst off) s = .next (s.takeTrap { cause := 0x10, taddr := off.setWidth 64 }))
    ∧ (L.restart = 0xFFFFFFFF →
      exec (.mrst (-1#32)) s = .next ((s.modGroup c.team c.grp fun g => { g with restart := -1#64 }).scalarNext 8 r))
    ∧ (L.restart ≠ 0xFFFFFFFF →
      exec (.mrst (-1#32)) s = .next ((s.modGroup c.team c.grp fun g => { g with restart := BitVec.ofNat 64 (L.sbase + L.restart) }).scalarNext 8 r)))

/-- R94: TRAP retires, so that TSPC is the following word, is traced with its immediate where tracing is
enabled (R405), and then raises BREAK (0x41) with TINFO the immediate and TADDR sa. With tracing off nothing is traced. -/
def Obligations.TrapCompletes : Prop :=
  ∀ (imm : BitVec 12) (sa : SReg) (c : Cur) (T : Team) (G : Group) (L : Launch) (C : Context) (r : ScalarRegs) (s : State),
    InHand c T G L C r s →
    let x : TrapArgs := { cause := 0x41, taddr := r.getS sa, tinfo := imm.setWidth 64 }
    exec (.trap imm sa) s = .next (((s.scalarNext 4 r).traceGroup c.team c.grp 7 imm.toNat (r.pc + 4).toNat).takeTrap x)
    ∧ (s.dome.tracectl.getLsbD 0 = false → exec (.trap imm sa) s = .next ((s.scalarNext 4 r).takeTrap x))

/-- R46, R95, R375, R380: a trap of a group of a running team, a handler being registered, joins the end of the group's held traps with the handler
registers' values; the team is then stopping; the group's registers and lanes, every other group and both memories stand as they stood, but for what
the trap's entry writes where tracing is enabled (R405). TLANE is zero for a scalar trap. -/
def Obligations.TrapIsHeld : Prop :=
  ∀ (a : TrapArgs) (h : HandlerReg) (c : Cur) (T : Team) (G : Group) (L : Launch) (C : Context) (r : ScalarRegs) (s : State),
    InHand c T G L C r s → c.stream ≠ .handler → T.state = .running → C.handler = some h →
    let v := s.traceGroup c.team c.grp 3 a.cause.toNat G.regs.pc.toNat
    (s.dome.tracectl.getLsbD 0 = false → v = s) ∧ ∃ T' G', (s.takeTrap a).team? c.team = some T' ∧ (s.takeTrap a).group? c.team c.grp = some G' ∧ T'.state = .stopping
      ∧ G'.held = G.held ++ [{ cause := a.cause, grp := c.grp, lane := c.stream == .lane, tlpc := a.tlpc.getD G.lanePc
                               tlane := if c.stream = .lane then a.tlane else 0, taddr := a.taddr, tinfo := a.tinfo, tick := s.tick
                               async := false, cmd := none, lost := none }]
      ∧ G'.regs = G.regs ∧ G'.lanes = G.lanes ∧ G'.tiles = G.tiles ∧ G'.f = G.f ∧ G'.ric = G.ric ∧ G'.run = G.run ∧ G'.clause = G.clause
      ∧ (∀ u g, (u, g) ≠ (c.team, c.grp) → (s.takeTrap a).group? u g = v.group? u g)
      ∧ (s.takeTrap a).mem = v.mem ∧ (s.takeTrap a).hostMem = v.hostMem ∧ T'.scratch = T.scratch ∧ T'.handler = T.handler

/-- R306, R378: without a registered handler a trap of a team that is not being pre-empted ends the team: every group of it is killed unless it had
retired. -/
def Obligations.TrapWithoutHandlerKills : Prop :=
  ∀ (a : TrapArgs) (c : Cur) (T : Team) (G : Group) (L : Launch) (C : Context) (r : ScalarRegs) (s : State),
    InHand c T G L C r s → c.stream ≠ .handler → T.state = .running → T.stop = false → T.away = false → C.handler = none →
    (∃ T', (s.takeTrap a).team? c.team = some T' ∧ T'.state = .ended ∧ T'.handler.trap = none)
      ∧ ∀ g G', (s.takeTrap a).group? c.team g = some G' → G'.killed = true ∨ G'.retired = true

/-- R376, R379, R380: once every group of a stopping team is settled, HANDLER_ENTRY starts the handler for the earliest trap: s0 holds the argument,
s1 to s63 and q0 to q14 are zero, the program counter is the registered entry, and HS0 to HS3 keep their values. The blocks that the stopped groups'
writes still have to come are performed first (R277). -/
def Obligations.HandlerEntryCompletes : Prop :=
  ∀ (t g : Nat) (h : HandlerReg) (T U : Team) (G : Group) (C : Context) (x : Trap) (rest : List Trap) (s u : State),
    s.team? t = some T → s.contextOf? t = some C → C.handler = some h → T.live = true → T.state = .stopping →
    T.stop = false → T.away = false → s.allSettled t T = true → firstHeld T.groups = some g → u = s.settleWrites t → u.team? t = some U →
    u.group? t g = some G → u.contextOf? t = some C → G.held = x :: rest →
    ∃ s' T' G' x', exec (.handlerEntry t) s = .next s' ∧ s'.team? t = some T' ∧ s'.group? t g = some G' ∧ T'.state = .handling
      ∧ G' = { G with held := rest } ∧ T'.handler.trap = some x' ∧ x'.cause = x.cause ∧ x'.grp = x.grp ∧ x'.tlane = x.tlane
      ∧ x'.taddr = x.taddr ∧ x'.tinfo = x.tinfo ∧ (x.lane = false → x.async = false → x'.tlpc = G.lanePc) ∧ (x.lane = true → x'.tlpc = x.tlpc)
      ∧ T'.handler.regs.getS 0 = h.arg ∧ (∀ k, k ≠ 0 → T'.handler.regs.getS k = 0) ∧ (∀ q, q ≠ 15 → T'.handler.regs.getQ q = false)
      ∧ T'.handler.regs.pc = BitVec.ofNat 64 (h.base + h.entry) ∧ T'.handler.hs = U.handler.hs

/-- R98, R380: ERET of a trap that asks for nothing more, with no trap held and no group killed: the team runs again; each group resumes where it
stopped, or at the scalar address that TRES gave it, its other registers unchanged. It first waits for the handler's unanswered stores to other
devices (R277). R95, R376: ERET while a live group holds a trap: the lowest-numbered such group enters the handler with its oldest trap. -/
def Obligations.Eret : Prop :=
  (∀ (c : Cur) (T : Team) (G : Group) (L : Launch) (C : Context) (r : ScalarRegs) (x : Trap) (s : State),
    InHand c T G L C r s → c.stream = .handler →
    (s.teamUnacked c.team = true → exec .eret s = .next (s.markStall .handler))
    ∧ (T.handler.trap = some x → x.cmd = none → x.lost = none → x.cause ≠ 0x40 → s.teamUnacked c.team = false →
    (∀ X ∈ T.groups, X.held = [] ∧ X.killed = false ∧ X.resumeL = none) → (∃ X ∈ T.groups, X.retired = false) →
    ∃ s' T', exec .eret s = .next s' ∧ s'.team? c.team = some T' ∧ T'.state = .running ∧ T'.handler.trap = none ∧ T'.handler.hs = T.handler.hs
      ∧ ∀ g X, s.group? c.team g = some X → ∃ X', s'.group? c.team g = some X' ∧ X'.regs.s = X.regs.s ∧ X'.regs.q = X.regs.q
        ∧ X'.regs.pc = X.resumeS.getD X.regs.pc ∧ X'.resumeS = none ∧ X'.lanes = X.lanes ∧ X'.run = X.run ∧ X'.clause = X.clause ∧ X'.f = X.f))
  ∧ (∀ (c : Cur) (T : Team) (G X : Group) (L : Launch) (C : Context) (h : HandlerReg) (r : ScalarRegs) (x y : Trap) (g : Nat) (rest : List Trap)
    (s : State), InHand c T G L C r s → c.stream = .handler → T.handler.trap = some x → x.cmd = none → x.lost = none → x.cause ≠ 0x40 →
    s.teamUnacked c.team = false → C.handler = some h → (∀ Y ∈ T.groups, Y.killed = false ∧ Y.resumeS = none ∧ Y.resumeL = none) → T.groups[g]? = some X →
    (∀ k Y, k < g → T.groups[k]? = some Y → Y.held = []) → X.held = y :: rest →
    ∃ s' T', exec .eret s = .next s' ∧ s'.team? c.team = some T' ∧ T'.state = .handling ∧ (T'.handler.trap.map fun z => (z.cause, z.grp)) = some (y.cause, y.grp)
      ∧ T'.handler.regs.getS 0 = h.arg ∧ T'.handler.regs.pc = BitVec.ofNat 64 (h.base + h.entry))

/-- R96, R97: the handler's words over a stopped group that is not killed: TRD reads what the selector names (a flag that reads 0 is observed as WFLG
observes it, R264, and a poisoned register is a double fault, R387), TWR writes it (a lane's counter of 255 vacates the lane, a v-register written
whole is poisoned no more), TRES notes the resume addresses, TKIL marks a group. A selector that names nothing, or nothing writable, is a double fault
(R384). -/
def Obligations.HandlerWordsComplete : Prop :=
  ∀ (d sa sb : SReg) (c : Cur) (T : Team) (G X : Group) (L : Launch) (C : Context) (r : ScalarRegs) (y : Selector) (s : State),
    InHand c T G L C r s → c.stream = .handler → T.groups[(r.getS sa).toNat]? = some X →
    let g := (r.getS sa).toNat
    let clean (u : State) : State := if y.file = 2 then { u with poison := u.poison.filter fun p => some p != y.unit? c.team g } else u
    (X.killed = false → selectorOf (r.getS sb) = some y → (∀ v, X.readSel y = some v →
        ((∀ u, y.unit? c.team g = some u → u ∉ s.poison) →
          exec (.trd d sa sb) s = .next ((s.acquireFor c.team (X.trdScope y)).scalarNext 4 (r.setS d v)))
        ∧ ((∃ u ∈ s.poison, y.unit? c.team g = some u) → exec (.trd d sa sb) s = .next (s.doubleFault c.team 0x60)))
      ∧ (X.readSel y = none → exec (.trd d sa sb) s = .next (s.doubleFault c.team 0x01))
      ∧ (∀ X', X.writeSel y (r.getS d) = some X' → (y.file ≠ 4 ∨ (r.getS d).setWidth 8 ≠ (255 : BitVec 8)) →
        exec (.twr d sa sb) s = .next ((clean (s.modGroup c.team g fun _ => X')).scalarNext 4 r))
      ∧ (∀ X', X.writeSel y (r.getS d) = some X' → y.file = 4 → (r.getS d).setWidth 8 = (255 : BitVec 8) →
        exec (.twr d sa sb) s = .next (((State.vacate c.team g y.lane s).modGroup c.team g fun G => (G.writeSel y (r.getS d)).getD G).scalarNext 4 r))
      ∧ (X.writeSel y (r.getS d) = none → exec (.twr d sa sb) s = .next (s.doubleFault c.team 0x01)))
    ∧ (X.killed = false → exec (.tres d sa sb) s = .next ((s.modGroup c.team g fun G =>
        { G with resumeS := if r.getS sb = -1#64 then none else some (r.getS sb)
                 resumeL := if r.getS d = -1#64 then none
                   else some (if (r.getS d).toNat < 2 ^ 32 then (r.getS d).setWidth 32 else -1#32) }).scalarNext 4 r))
    ∧ (X.killed = true → exec (.tres d sa sb) s = .next (s.doubleFault c.team 0x01))
    ∧ exec (.tkil sa) s = .next ((s.modGroup c.team g fun G => { G with killed := true }).scalarNext 4 r)

/-- R99, R381: DUMP into a buffer that is 256-byte aligned: with less than 256 bytes it writes nothing and returns 0; otherwise, the team's work drained,
it writes the dump and returns the bytes written. A misaligned buffer is a fault of the handler slot. -/
def Obligations.DumpCompletes : Prop :=
  ∀ (d sa sb : SReg) (c : Cur) (T T' : Team) (G G' : Group) (L L' : Launch) (C C' : Context) (r : ScalarRegs) (n : Nat) (s s' : State),
    InHand c T G L C r s → c.stream = .handler →
    ((r.getS sa).toNat % 256 = 0 → (r.getS sb).toNat < 256 → exec (.dump d sa sb) s = .next (s.scalarNext 4 (r.setS d 0)))
    ∧ ((r.getS sa).toNat % 256 ≠ 0 → exec (.dump d sa sb) s = .next (s.doubleFault c.team 0x10))
    ∧ ((r.getS sa).toNat % 256 = 0 → 256 ≤ (r.getS sb).toNat → T.state = .dumping → s.drained c.team T = true →
      dumpInto (r.getS sa).toNat (r.getS sb).toNat s = .ok (n, s') → InHand c T' G' L' C' r s' → T'.state = .dumping →
      exec (.dump d sa sb) s = .next ((s'.modTeam c.team fun T => { T with state := .handling }).scalarNext 4 (r.setS d (BitVec.ofNat 64 n))))
    ∧ ((r.getS sa).toNat % 256 = 0 → 256 ≤ (r.getS sb).toNat → T.state = .dumping → s.drained c.team T = false →
      exec (.dump d sa sb) s = .next (s.markStall .handler))

/-- R181 to R186: CPY, GATH, PART, PUTS, GET and RADD complete at issue when the descriptor's fields and ranges are legal and nothing stalls them: the
command is in flight with its descriptor as read, its ranges are locked, its flag counts one more, the word retires, and the engine takes the command
up; a one-sided command whose target is no device of the pod faults there (R343). -/
def Obligations.CommandsIssue : Prop :=
  ∀ (i : Instr) (kind : CmdKind) (flag : BitVec 6) (sa : SReg) (fields : State → Cur → Team → List Byte → List (Nat × Bool))
    (spans : List Byte → List Span) (c : Cur) (T T' : Team) (G G' : Group) (L L' : Launch) (C C' : Context) (r : ScalarRegs) (d : List Byte)
    (stamp : Nat) (s s' : State), descWord i = some (kind, flag, sa, fields, spans) → InHand c T G L C r s → DescAt flag (r.getS sa) T d s →
    (∀ f ∈ fields s c T d, f.2 = true) → (∀ x ∈ spans d, checkSpan x s = .ok ((), s)) →
    let x : Issue := { kind := kind, flag := raised c flag, desc := d, srec := (r.getS sa).toNat, scope := fld d 22 1, locks := spans d }
    CanIssue c T G x stamp s s' → InHand c T' G' L' C' r s' →
    exec i s = .next (((issued c T x stamp s').scalarNext 4 r).beginCmd c.team T.nextCmd)

/-- R181, R183: a descriptor field with a value that its table does not suits raises ILLEGAL_OP; TINFO is the offset of the first such field, and
nothing else happens. A misaligned descriptor raises ATOMIC_ALIGN, one outside the scratchpad SCRATCH_BOUNDS. R182, R95: a command that finds the
queue full, its flag at 255 or its ranges locked stalls, in that order; and it waits for the stream's unanswered stores to other devices (R272). -/
def Obligations.CommandsTrapOrStall : Prop :=
  (∀ (i : Instr) (kind : CmdKind) (flag : BitVec 6) (sa : SReg) (fields : State → Cur → Team → List Byte → List (Nat × Bool))
    (spans : List Byte → List Span) (c : Cur) (T : Team) (G : Group) (L : Launch) (C : Context) (r : ScalarRegs) (d : List Byte)
    (f : Nat × Bool) (s : State), descWord i = some (kind, flag, sa, fields, spans) → InHand c T G L C r s → (flag.toNat < 12 ∨ flag = 63) →
    (DescAt flag (r.getS sa) T d s → (fields s c T d).find? (fun f => !f.2) = some f →
      exec i s = .next (s.takeTrap { cause := 0x01, tinfo := BitVec.ofNat 64 f.1 }))
    ∧ ((r.getS sa).toNat % 64 ≠ 0 → exec i s = .next (s.takeTrap { cause := 0x12, taddr := r.getS sa }))
    ∧ ((r.getS sa).toNat % 64 = 0 → T.size < (r.getS sa).toNat + 64 → exec i s = .next (s.takeTrap { cause := 0x14, taddr := r.getS sa })))
  ∧ (∀ (i : Instr) (kind : CmdKind) (flag : BitVec 6) (sa : SReg) (fields : State → Cur → Team → List Byte → List (Nat × Bool))
    (spans : List Byte → List Span) (c : Cur) (T : Team) (G : Group) (L : Launch) (C : Context) (r : ScalarRegs) (d : List Byte) (s : State),
    descWord i = some (kind, flag, sa, fields, spans) → InHand c T G L C r s → DescAt flag (r.getS sa) T d s →
    (∀ f ∈ fields s c T d, f.2 = true) → (∀ x ∈ spans d, checkSpan x s = .ok ((), s)) →
    (32 ≤ s.queued T.core false → exec i s = .next (s.markStall .queueFull))
    ∧ (s.queued T.core false < 32 → (∃ n, raised c flag = some n ∧ 255 ≤ G.flag n) → exec i s = .next (s.markStall .flag))
    ∧ (s.queued T.core false < 32 → (∀ n, raised c flag = some n → G.flag n < 255) → T.admits (spans d) = false →
      exec i s = .next (s.markStall .lock))
    ∧ (s.queued T.core false < 32 → (∀ n, raised c flag = some n → G.flag n < 255) → T.admits (spans d) = true → s.unacked c.team c.grp = true →
      exec i s = .next (s.markStall .fence)))

/-- R187, R349: PLCL completes at issue when its fields are legal, its state area lies in the scratchpad, and fewer than four collectives of the
communicator are unfinished: the collective joins the team, its state area is written, and the header round begins where this device leads. -/
def Obligations.PlclIssues : Prop :=
  ∀ (flag : BitVec 6) (sa : SReg) (c : Cur) (T T' : Team) (G G' : Group) (L L' : Launch) (C C' : Context) (r : ScalarRegs) (d : List Byte)
    (x : Comm) (stamp : Nat) (s s' t : State), InHand c T G L C r s → DescAt flag (r.getS sa) T d s → plclComm C d = some x →
    (∀ f ∈ plclFields (some x) d, f.2 = true) →
    let k := plclColl T.nextCmd c.grp x d
    let k' : Coll := { k with stamp := stamp }
    let q : Issue := { kind := .plcl, flag := raised c flag, desc := d, srec := k.area, scope := k.scope, locks := k.spans }
    k.area + 16 + 4 * k.stateTiles ≤ T.size → s.liveColls C.id k.handle < 4 → CanIssue c T G q stamp s s' → InHand c T' G' L' C' r s' →
    (∀ y ∈ T'.cmds, y.id ≠ T.nextCmd) → t = (issued c T q stamp s').startColl c.team C.id k' → t.scalarRegs? = some r →
    exec (.plcl flag sa) s = .next ((t.scalarNext 4 r).leadColl C.id k')

/-- R188, R359: PLCN reads a tile's counter word; PLWT goes on once the tile is cancelled or enough planes have landed, as an acquire at the collective's
scope, and parks until then; PLVAL issues its view write; PLCX, of one tile or of all, at a count of the planes or more does nothing; otherwise it first
notes its cancel and sends one for each tile to the tile's owner, and goes on when every tile has settled, raising DETERMINISM_VIOLATION where one was
refused. A determinism mode forbids PLVAL of whatever has landed and PLCX of an immediate cancel, whatever they name (R167). -/
def Obligations.TileWordsComplete : Prop :=
  ∀ (flag : BitVec 6) (d sa sb : SReg) (c : Cur) (T T' : Team) (G G' : Group) (L L' : Launch) (C C' : Context) (r : ScalarRegs) (k : Coll)
    (x : Tile) (a : Agent) (stamp : Nat) (y : Cancel) (s s' : State), InHand c T G L C r s →
    let all : Bool := r.getS sb == -1#64
    let n := (r.getS d).toNat
    let tiles := if all then (List.range k.stateTiles).map (k.firstTile + ·) else [k.firstTile + (r.getS sb).toNat]
    let noted : State := { s.modGroup c.team c.grp fun g =>
      { g with cancel := some { num := s.nextId, coll := k.cmd, tiles := tiles, count := n, refused := [] } } with nextId := s.nextId + 1 }
    let settled : Prop := G.cancel = some y ∧ y.tiles.all (y.settled k L.detm) = true
    let after : State := s.modGroup c.team c.grp fun g => { g with cancel := none }
    (hereTile (r.getS sa) (r.getS sb).toNat s = .ok ((k, x), s) →
      exec (.plcn d sa sb) s = .next (s.scalarNext 4 (r.setS d (BitVec.ofNat 64 (k.counter x))))
      ∧ ((x.canc = true ∨ (r.getS d).toNat ≤ x.landed) → hereAgent s = .ok (a, s) →
        exec (.plwt d sa sb) s = .next ((s.acquire a k.scope).scalarNext 4 r))
      ∧ (x.canc = false → x.landed < (r.getS d).toNat → c.stream = .scalar →
        ∃ t X p, exec (.plwt d sa sb) s = .next t ∧ t.group? c.team c.grp = some X ∧ X.park = some p ∧ p.kind = 0x55 ∧ X.regs = G.regs))
    ∧ (hereTile (r.getS sa) (if all then 0 else (r.getS sb).toNat) s = .ok ((k, x), s) → (n ≠ 0 ∨ L.detm = 0) →
      (k.planes ≤ n → exec (.plcx d sa sb) s = .next (s.scalarNext 4 r))
      ∧ (n < k.planes → G.cancel = none → exec (.plcx d sa sb) s = .next ((tiles.foldl (fun (u : State) j =>
          if k.owner j = k.comm.pos then u.post (.cancelRequest (k.key C.id j) n k.comm.pos (L.detm != 0))
          else u.sendRing k (k.key C.id j) 3 64 (.cancel (k.key C.id j) n k.comm.pos (L.detm != 0))) noted).markStall .engine))
      ∧ (n < k.planes → G.cancel = some y → y.tiles.all (y.settled k L.detm) = false → exec (.plcx d sa sb) s = .next (s.markStall .engine))
      ∧ (n < k.planes → settled → y.refused = [] → exec (.plcx d sa sb) s = .next (after.scalarNext 4 r))
      ∧ (n < k.planes → settled → y.refused ≠ [] → exec (.plcx d sa sb) s = .next (after.takeTrap { cause := 0x31 })))
    ∧ (n = 0 → L.detm ≠ 0 → exec (.plcx d sa sb) s = .next (s.takeTrap { cause := 0x31 }))
    ∧ ((flag.toNat < 12 ∨ flag = 63) → natBits (r.getS sb).toNat 31 24 = 0 → L.detm ≠ 0 →
      exec (.plval flag sa sb) s = .next (s.takeTrap { cause := 0x31 }))
    ∧ ((flag.toNat < 12 ∨ flag = 63) →
      let j := natBits (r.getS sb).toNat 23 0
      let n := natBits (r.getS sb).toNat 31 24
      hereTile (r.getS sa) j s = .ok ((k, x), s) → natBits (r.getS sb).toNat 63 33 = 0 → n ≤ k.planes → (n ≠ 0 ∨ L.detm = 0) →
      let q : Issue :=
        { kind := .plval, flag := raised c flag, desc := [], arg := r.getS sb, srec := k.area, scope := k.scope
          locks := [⟨0, 0, k.view + 256 * planeBytes k.fmt * j, 256 * planeBytes k.fmt, true⟩] }
      CanIssue c T G q stamp s s' → InHand c T' G' L' C' r s' →
      exec (.plval flag sa sb) s = .next (((issued c T q stamp s').scalarNext 4 r).beginCmd c.team T.nextCmd))

/-- R175, R395, R399: the scalar WAITA of an address of this device acquires at its scope and reads the word; it completes with the word read when
that differs from sb, or when the group was woken from this park; otherwise the group parks with its registers as they stand. A word of another device
is asked for; it acquires with the answer, at pod scope at least (R250). R175, R250: the scalar WAITA of a word of another device asks for it, to
acquire with the answer at pod scope at least, and the stream waits for that. R175: a reserved bit of the selector, a scope above 5, or a scratchpad
offset of more than 32 bits raises ILLEGAL_OP; a timeout under determinism mode 2 raises DETERMINISM_VIOLATION (R395). -/
def Obligations.Waita : Prop :=
  (∀ (d sa sb : SReg) (c : Cur) (T T' : Team) (G G' : Group) (L L' : Launch) (C C' : Context) (r : ScalarRegs) (h : Hit) (stamp : Nat)
    (ag : Agent) (s s' s'' : State), InHand c T G L C r s → waitingRemote s = .ok (false, s) → orderedWait s = .ok (stamp, s) →
    let a := (r.getS sa).toNat
    let sp := natBit a 63
    let scope := natBits a 62 60
    let tcode := natBits a 59 57
    let ea := if sp then natBits a 31 0 else natBits a 55 0
    natBit a 56 = false → (sp = true → natBits a 55 32 = 0) → scope < 6 → (L.detm = 2 → tcode = 0) →
    Reached (scalarReq sp ea 8 8 .read) h s s' → h.remote = false → InHand c T G L C r s' →
    (if G.woken then s'' = s' else orderedLog 5 stamp s' = .ok ((), s'')) → hereAgent s' = .ok (ag, s') →
    let t := s''.acquire ag scope
    InHand c T' G' L' C' r t → G'.woken = G.woken →
    let v : Word := BitVec.ofNat 64 (ofBytes (t.readHit c.team h))
    let u := t.modGroup c.team c.grp fun g => { g with woken := false }
    ((v ≠ r.getS sb ∨ G.woken = true) → exec (.waita d sa sb) s = .next (u.scalarNext 4 (r.setS d v)))
    ∧ (v = r.getS sb → G.woken = false → c.stream = .scalar → ∃ (t' : State) (X : Group) (p : Park), exec (.waita d sa sb) s = .next t' ∧ t'.group? c.team c.grp = some X
      ∧ X.park = some p ∧ p.kind = 0x5B ∧ p.space = sp ∧ p.addr = BitVec.ofNat 64 ea ∧ p.value = r.getS sb ∧ p.tcode = tcode
      ∧ p.deadline = (if tcode = 0 then none else some (t.tick + 4 ^ (tcode + 4))) ∧ X.regs = G'.regs ∧ X.lanes = G'.lanes
      ∧ t'.mem = t.mem ∧ t'.hostMem = t.hostMem))
  ∧ (∀ (d sa sb : SReg) (c : Cur) (T T' : Team) (G G' : Group) (L L' : Launch) (C C' : Context) (r : ScalarRegs) (h : Hit) (stamp : Nat)
    (p : Part) (rest : List Part) (dev o : Nat) (s s' s'' : State), InHand c T G L C r s → waitingRemote s = .ok (false, s) →
    orderedWait s = .ok (stamp, s) →
    let a := (r.getS sa).toNat
    let scope := natBits a 62 60
    natBit a 63 = false → natBit a 56 = false → scope < 6 → (L.detm = 2 → natBits a 59 57 = 0) →
    Reached (scalarReq false (natBits a 55 0) 8 8 .read) h s s' → h.parts = p :: rest → p.place = .peer dev o → InHand c T' G' L' C' r s' →
    (if G'.woken then s'' = s' else orderedLog 5 stamp s' = .ok ((), s'')) →
    exec (.waita d sa sb) s = .next ((s''.sendRemote { Remote.of c.team c.grp dev o 8 G'.lanePc with
      sreg := some (c.stream, d.toNat, 32 + sb.toNat + 64 * sa.toNat), acq := some (max scope 4) } (.read 8)).markStall .remote))
  ∧ (∀ (d sa sb : SReg) (c : Cur) (T : Team) (G : Group) (L : Launch) (C : Context) (r : ScalarRegs) (s : State), InHand c T G L C r s →
    let a := (r.getS sa).toNat
    let legal : Prop := natBit a 56 = false ∧ (natBit a 63 = true → natBits a 55 32 = 0) ∧ natBits a 62 60 < 6
    (¬legal → exec (.waita d sa sb) s = .next (s.takeTrap { cause := 0x01 }))
    ∧ (legal → L.detm = 2 → natBits a 59 57 ≠ 0 → exec (.waita d sa sb) s = .next (s.takeTrap { cause := 0x31 })))

/-- R177, R178: SBARA with bit 62 sets a slot up and writes 0 to sd; without it the count is added to the slot's arrivals, each full complement of
which moves the phase on by one, and sd gets the phase before; an arrival is a release, which waits for the stream's unanswered stores to other
devices (R264). SBARW goes on, an acquire at the slot's scope, when the phase is no longer sb's low 32 bits, and parks while it is. A slot that no
word has set up raises ILLEGAL_OP with TINFO its number. -/
def Obligations.BarrierWordsComplete : Prop :=
  ∀ (d sa sb : SReg) (c : Cur) (T : Team) (G : Group) (L : Launch) (C : Context) (r : ScalarRegs) (b : Barrier) (stamp : Nat)
    (s s' : State), InHand c T G L C r s →
    let a := (r.getS sa).toNat
    let v := (r.getS sb).toNat
    let n := natBits a 3 0 + if natBit a 63 then 16 else 0
    natBits a 61 4 = 0 → (natBit a 63 = true → natBits a 3 0 < 4) →
    (natBit a 62 = true → v ≠ 0 → v < 2 ^ 32 → exec (.sbara d sa sb) s = .next
      (((s.setSlot c.team n ⟨BitVec.ofNat 32 v, 0, 0, true, 0⟩).wakeSlot c.team n 0).scalarNext 4 (r.setS d 0)))
    ∧ (natBit a 62 = false → v < 2 ^ 32 → s.slot? c.team n = some b → b.init = true → s.unacked c.team c.grp = false → orderedWait s = .ok (stamp, s) →
      orderedLog 6 stamp s = .ok ((), s') → s'.slot? c.team n = some b →
      ∃ (t : State) (b' : Barrier), exec (.sbara d sa sb) s = .next (t.scalarNext 4 (r.setS d (b.phase.setWidth 64))) ∧ t.slot? c.team n = some b'
        ∧ b'.arrivals = (b.arrivals + v) % b.expected.toNat ∧ b'.phase = b.phase + BitVec.ofNat 32 ((b.arrivals + v) / b.expected.toNat)
        ∧ b'.expected = b.expected ∧ b'.init = true ∧ t.mem = s'.mem ∧ t.hostMem = s'.hostMem)
    ∧ (natBit a 62 = false → v < 2 ^ 32 → s.slot? c.team n = some b → b.init = true → s.unacked c.team c.grp = true →
      exec (.sbara d sa sb) s = .next (s.markStall .fence))
    ∧ (natBit a 62 = false → s.slot? c.team n = some b → b.init = true →
      (b.phase ≠ (r.getS sb).setWidth 32 → exec (.sbarw sa sb) s = .next ((s.acquireFor c.team (slotScope n)).scalarNext 4 r))
      ∧ (b.phase = (r.getS sb).setWidth 32 → c.stream = .scalar → ∃ (t : State) (X : Group) (p : Park), exec (.sbarw sa sb) s = .next t ∧ t.group? c.team c.grp = some X
        ∧ X.park = some p ∧ p.kind = 0x5D ∧ p.addr = BitVec.ofNat 64 n ∧ X.regs = G.regs))
    ∧ (natBit a 62 = false → s.slot? c.team n = some b → b.init = false →
      exec (.sbarw sa sb) s = .next (s.takeTrap { cause := 0x01, tinfo := BitVec.ofNat 64 n })
      ∧ (v < 2 ^ 32 → exec (.sbara d sa sb) s = .next (s.takeTrap { cause := 0x01, tinfo := BitVec.ofNat 64 n })))

/-- R179, R180: SWINI writes the target and zeroes the count and the pad of a 16-byte sync word, its generation kept; SWAIT goes on once the generation
differs from sb's low 32 bits, as an acquire at the widest scope of the commands counted (R264), and parks while it is equal. -/
def Obligations.SyncWordsComplete : Prop :=
  ∀ (sa sb : SReg) (c : Cur) (T : Team) (G : Group) (L : Launch) (C : Context) (r : ScalarRegs) (h : Hit) (s s' : State),
    InHand c T G L C r s →
    let off : Nat := (r.getS sa).toNat % 2 ^ 32
    (checkAccess [scalarReq true off 16 16 .write] (fun _ => true) s = .ok ([h], s') → exec (.swini sa sb) s = .next
      ((((s'.modTeam c.team fun T => { T with syncs := T.syncs.map fun n => if n.off = off then { n with scope := 0, stamp := 0 } else n }).writeScratch
        c.team off (toBytes 4 ((r.getS sb).toNat % 2 ^ 32) ++ toBytes 4 0)).writeScratch c.team (off + 12) (toBytes 4 0)).scalarNext 4 r))
    ∧ (checkSync [scalarReq true off 16 16 .read] s = .ok ((), s) →
      let gen := ofBytes (cellsRead T.scratch (off + 8) 4)
      (gen ≠ (r.getS sb).toNat % 2 ^ 32 → exec (.swait sa sb) s = .next ((s.acquireFor c.team (s.syncNote c.team off).doneScope).scalarNext 4 r))
      ∧ (gen = (r.getS sb).toNat % 2 ^ 32 → c.stream = .scalar → ∃ (t : State) (X : Group) (p : Park), exec (.swait sa sb) s = .next t ∧ t.group? c.team c.grp = some X
        ∧ X.park = some p ∧ p.kind = 0x5A ∧ p.addr = BitVec.ofNat 64 off ∧ p.value = BitVec.ofNat 64 gen ∧ X.regs = G.regs))

/-- R192 to R194: OBRES of a legal record under a free o-number reserves the lowest free run of the core's operand buffer and returns its base, or all
ones where no run is long enough; OBREL of a live one frees it, and waits while a command holds it; CTAB loads a companding table from 68 bytes of
this device, and traps where its knots are no table. Which of the bytes' pieces are read apart is free (R253, the model's choice,
notes/assumptions/4); once the last is read the table is loaded. -/
def Obligations.OperandWordsComplete : Prop :=
  ∀ (d sa sb : SReg) (c : Cur) (T T' : Team) (G G' : Group) (L L' : Launch) (C C' : Context) (r : ScalarRegs) (rec : List Byte) (h : Hit)
    (s s' : State), InHand c T G L C r s →
    (readDesc (r.getS sa) 32 32 s = .ok (rec, s) → (r.getS sb).toNat ≤ 15 → T.live? (r.getS sb).toNat = none →
      (∀ f ∈ recordFields rec, f.2 = true) →
      (freeRun (s.coreResv T.core) (fld rec 0 4) = none → exec (.obres d sa sb) s = .next (s.scalarNext 4 (r.setS d (-1#64))))
      ∧ (∀ base, freeRun (s.coreResv T.core) (fld rec 0 4) = some base → exec (.obres d sa sb) s = .next (
          ({ s.modTeam c.team fun T => { T with resv := T.resv.set (r.getS sb).toNat (some { record := rec, base := base, free := s.free, cells := [] }) }
             with free := s.free + 1 }).scalarNext 4 (r.setS d (BitVec.ofNat 64 base)))))
    ∧ ((r.getS sa).toNat ≤ 15 → (T.live? (r.getS sa).toNat).isSome = true →
      let busy := T.locks.any fun l => l.space == 3 && l.core == (r.getS sa).toNat
      (busy = true → exec (.obrel sa) s = .next (s.markStall .lock))
      ∧ (busy = false → ∃ (t : State) (X : Team), exec (.obrel sa) s = .next (t.scalarNext 4 r) ∧ t.team? c.team = some X
        ∧ X.resv = T.resv.set (r.getS sa).toNat none ∧ X.scratch = T.scratch ∧ t.mem = s.mem))
    ∧ ((r.getS sa).toNat ≤ 7 → (s.remotes.any fun q => q.team == c.team && q.grp == c.grp && q.sreg.any fun x => x.1 == c.stream) = false →
      Reached (scalarReq false (r.getS sb).toNat 68 4 .read) h s s' → h.remote = false → InHand c T' G' L' C' r s' →
      let n := (r.getS sa).toNat
      let q := scalarRead c h 0 (8 + n) s'
      exec (.ctab sa sb) s = .next (if q.2 ≠ 0 then q.1
        else (q.1.loadTable C.id T.core n (q.1.readHit c.team h)).elim (q.1.takeTrap { cause := 0x01 }) (State.scalarNext 4 r)))
    ∧ ((r.getS sa).toNat ≤ 7 → (s.remotes.any fun q => q.team == c.team && q.grp == c.grp && q.sreg.any fun x => x.1 == c.stream) = false →
      Reached (scalarReq false (r.getS sb).toNat 68 4 .read) h s s' → h.remote = false → InHand c T' G' L' C' r s' →
      onePiece [(h.readAt c.team).blocks] = true → ∀ t, s'.loadTable C.id T.core (r.getS sa).toNat (s'.readHit c.team h) = some t →
      exec (.ctab sa sb) s = .next (t.scalarNext 4 r))
    ∧ (∀ (n : Fin 8) (k : Nat) (b : List Byte) (rest : List (Nat × Nat × Block)) (t : State),
      s.loadTable C.id T.core n (bytesRead b rest s) = some t → s.leftBy c.team c.grp c.stream = false →
      s.performApart (scalarRest c 0 (8 + n) k b rest) = ({ t.scalarNext 4 r with cur := s.cur } : State).settleTeam c.team)

/-- R91, R229, R293: LNCH of a record that the command processor takes returns its refusal's code, 1 when the launch queue is full, or 0 when the
launch joins the placement list with its completion word at all ones. A page that the record or what it names lies in and that is not resident is
reported, and the stream waits (R326); it also waits while the firmware does not take launches (R415, R418), and for the stream's unanswered stores to
other devices. A misaligned record is an address fault. The size of the queue, and that an invalid record is found before a full queue, are the model's
choices (notes/assumptions/58, 75). -/
def Obligations.LnchCompletes : Prop :=
  ∀ (d sa : SReg) (c : Cur) (T : Team) (G : Group) (L : Launch) (C : Context) (r : ScalarRegs) (code : Nat) (L' : Launch) (hs : List (Nat × Nat))
    (s u : State), InHand c T G L C r s → c.stream ≠ .handler →
    let va := r.getS sa
    let count := (u.launches.filter fun l => l.ctx == C.id && !l.ended).length
    (va.toNat % 128 = 0 → va.toNat < 2 ^ 56 → s.unacked c.team c.grp = false → s.ready = true →
      (s.takeRecord C va.toNat = (.wait, u) → exec (.lnch d sa) s = .next (u.markStall .page))
      ∧ (s.takeRecord C va.toNat = (.refused code, u) → exec (.lnch d sa) s = .next (u.scalarNext 4 (r.setS d (BitVec.ofNat 64 code))))
      ∧ (s.takeRecord C va.toNat = (.ok L' hs, u) → Config.launchQueueSize ≤ count → exec (.lnch d sa) s = .next (u.scalarNext 4 (r.setS d 1)))
      ∧ (s.takeRecord C va.toNat = (.ok L' hs, u) → count < Config.launchQueueSize →
        exec (.lnch d sa) s = .next (((u.accept L' hs).writeStatus C L'.completion 0xFFFFFFFF).scalarNext 4 (r.setS d 0))))
    ∧ (va.toNat % 128 = 0 → va.toNat < 2 ^ 56 → s.unacked c.team c.grp = false → s.ready = false →
      exec (.lnch d sa) s = .next (s.markStall .engine))
    ∧ (va.toNat % 128 = 0 → va.toNat < 2 ^ 56 → s.unacked c.team c.grp = true → exec (.lnch d sa) s = .next (s.markStall .fence))
    ∧ (¬(va.toNat % 128 = 0 ∧ va.toNat < 2 ^ 56) → exec (.lnch d sa) s = .next (s.takeTrap { cause := 0x10, taddr := va }))

/-- R104 to R110: the integer, logic, shift and move words complete in every lane that executes them, with the results that the rules give element by
element. R122 to R129, R140, R141: the bit-serial, bit, field, hash, string, generator and predicate words complete. R111 to R118, R140, R152 to R163:
the floating-point, transcendental, conversion and accumulator words complete. -/
def Obligations.LaneArithmeticComplete : Prop :=
  (∀ (i : Instr) (fx : LaneFx) (w : LaneWord) (x : LaneCtx) (s : State), integerFx i = some fx → LaneReady i w x s →
    exec i s = .next (laneComputed fx x w s))
  ∧ (∀ (i : Instr) (fx : LaneFx) (w : LaneWord) (x : LaneCtx) (s : State), bitFx i = some fx → LaneReady i w x s →
    exec i s = .next (laneComputed fx x w s))
  ∧ (∀ (i : Instr) (fx : LaneFx) (w : LaneWord) (x : LaneCtx) (s : State), (floatFx i = some fx ∨ accFx i = some fx) → LaneReady i w x s →
    exec i s = .next (laneComputed fx x w s))

/-- R53, R104 to R163, the frame of the words above: only the group that executes changes; of its lanes only those that take part, and of such a lane
only the register VD in the file that the word writes, besides it the predicate VC for AGETI, any predicate for PPUT, and RNGC for RNG. The group's
scalar registers, queues, tiles, accesses and MMAs in flight, latch, batch, run and clause constants, held traps, park and marks, the team's scratchpad,
every other team and every memory stand as they stood. RIC rises by one, the watchdog starts again, the stream's stall and pass are gone, and the clause
goes on to its next word; with its last word the clause ends, and the run goes on to the header that follows (`Group.stepClause`). -/
def Obligations.LaneWordsFrame : Prop :=
  ∀ (i : Instr) (fx : LaneFx) (w : LaneWord) (x : LaneCtx) (s t : State),
    (integerFx i = some fx ∨ bitFx i = some fx ∨ floatFx i = some fx ∨ accFx i = some fx) → LaneReady i w x s → exec i s = .next t →
    t = { s with teams := t.teams }
      ∧ (∀ u g, (u, g) ≠ (x.c.team, x.c.grp) → t.group? u g = s.group? u g)
      ∧ (∀ X, t.team? x.c.team = some X → X = { x.T with groups := X.groups })
      ∧ ∃ X, t.group? x.c.team x.c.grp = some X
        ∧ X = { (x.G.countLane s.tick).stepClause with lanes := X.lanes }
        ∧ (∀ k, x.G.clause = some k → x.G.run.isSome = true → k.next + 1 < k.stop →
          X = { x.G with ric := x.G.ric + 1, stallL := none, ricSeen := s.tick, skipL := false, whole := false
                         clause := some { k with next := k.next + 1 }, lanes := X.lanes })
        ∧ X.ric = x.G.ric + 1 ∧ X.regs = x.G.regs ∧ X.lq = x.G.lq ∧ X.tiles = x.G.tiles
        ∧ X.runs = x.G.runs ∧ X.loads = x.G.loads ∧ X.stores = x.G.stores ∧ X.restart = x.G.restart ∧ X.gitem = x.G.gitem
        ∧ ((∀ k, x.G.clause = some k → k.next + 1 < k.stop) → X.f = x.G.f)
        ∧ X.held = x.G.held ∧ X.park = x.G.park ∧ X.killed = x.G.killed ∧ X.retired = x.G.retired ∧ X.mmas = x.G.mmas ∧ X.batch = x.G.batch
        ∧ X.latch = x.G.latch ∧ X.cancel = x.G.cancel ∧ X.run.map (·.k) = x.G.run.map (·.k) ∧ X.lanes.length = x.G.lanes.length
        ∧ (∀ j, j ∉ x.parts → X.lanes[j]? = x.G.lanes[j]?)
        ∧ ∀ (j : Nat) (l l' : Lane), x.G.lanes[j]? = some l → X.lanes[j]? = some l' →
          l'.nest = l.nest ∧ l'.item = l.item ∧ l'.holds = l.holds ∧ l'.rngk = l.rngk ∧ ((∀ v, i ≠ .rng v) → l'.rngc = l.rngc)
            ∧ (∀ k, k ≠ w.vd.toNat → l'.v[k]? = l.v[k]? ∧ l'.a[k]? = l.a[k]?)
            ∧ (destFile i = 0 → l'.a = l.a ∧ ((∀ v, i ≠ .ageti v) → l'.p = l.p) ∧ ∀ k, k ≠ w.vc.toNat → l'.p.getLsbD k = l.p.getLsbD k)
            ∧ (destFile i = 1 → l'.v = l.v ∧ l'.p = l.p)
            ∧ (destFile i = 2 → l'.v = l.v ∧ l'.a = l.a ∧ ((∀ v, i ≠ .pput v) → ∀ k, k ≠ w.vd.toNat → l'.p.getLsbD k = l.p.getLsbD k))

/-- R47, R57, R135: every long word of the opcode map but the eleven of R135 is skipped, whatever its fields hold, where no lane of the group is
active, and where lanes are active but none passes its guard: it has no effect, and it retires. (`PairAndReservedWords` says the same of pair words
and of words of reserved opcodes.) R47, R57, R58: a long word of the opcode map but the eleven of R135 raises ILLEGAL_OP, and has no other effect,
where a lane of the group is active and its guard field names no predicate, and where a lane executes it and its fields are not those that its form
admits. That the trap has TLANE 0 is the model's choice (notes/assumptions/128). -/
def Obligations.IdleWordsSkip : Prop :=
  (∀ (i : Instr) (c : Cur) (T : Team) (G : Group) (L : Launch) (f : Form) (w : LaneWord) (s : State),
    s.cur = some c → s.team? c.team = some T → s.group? c.team c.grp = some G → s.launchOf? c.team = some L →
    laneForm 64 i = some (f, w) → actsIdle i = false →
    (G.active = [] → exec i s = .next (s.laneNext c))
    ∧ (w.guardOk = true → (∀ j ∈ G.active, (G.lane j).passes w.guard.toNat w.neg = false) → exec i s = .next (s.laneNext c)))
  ∧ (∀ (i : Instr) (c : Cur) (T : Team) (G : Group) (L : Launch) (f f' : Form) (w : LaneWord) (s : State),
    s.cur = some c → s.team? c.team = some T → s.group? c.team c.grp = some G → s.launchOf? c.team = some L →
    laneForm 64 i = some (f', w) → laneForm G.lanes.length i = some (f, w) → actsIdle i = false →
    (G.active ≠ [] → w.guardOk = false → exec i s = .next (s.takeTrap { cause := 0x01 }))
    ∧ ((∃ j ∈ G.active, (G.lane j).passes w.guard.toNat w.neg = true) → f.legal w L.vregs L.aregs L.tiles = false →
      exec i s = .next (s.takeTrap { cause := 0x01 })))

/-- R44, R110, R119 to R121, R157: LGET writes the special register that its code names, lane by lane where it is the lane's own; QNT and DQNT write
the converted elements, QNT counting its NaNs in the core's counter; AADDA and ANEG leave the exact sum or negation, the counters of the raw image
being free values that nothing constrains (the model's free field; notes/assumptions/5, 7). That an AADDA which leaves the range has joined its operand's
status to its destination's is the model's choice (notes/assumptions/122), and so is what QNT and DQNT do where their rules leave a value open
(notes/assumptions/98). -/
def Obligations.OpenLaneWordsComplete : Prop :=
  ∀ (w : LaneWord) (x : LaneCtx) (t : Option CTable) (s : State),
    (LaneReady (.lget w) w x s → (∀ i l, (laneSpecial x s (w.bits 7 0) i l).isSome = true) →
      exec (.lget w) s = .next (laneWritten (fun i l => l.setV w.vd.toNat ((laneSpecial x s (w.bits 7 0) i l).getD 0)) x s))
    ∧ (LaneReady (.lget w) w x s → w.bits 7 0 = 1 →
      exec (.lget w) s = .next (laneWritten (fun _ l => l.setV w.vd.toNat (64 / w.ety.w)) x s))
    ∧ (LaneReady (.qnt w) w x s → wordTable x w s = .ok (t, s) →
      let src := ETy.get (w.bits 12 8) 0
      let code (l : Lane) (e : Nat) : Nat × Bool := quantise w.ty.toNat (scaleOf w (x.b w l)) t (src.value e)
      exec (.qnt w) s = .next (((s.modGroup x.c.team x.c.grp fun g => g.mapLanes x.parts fun l =>
        l.setV w.vd.toNat (convertPart src w.ety (w.bits 4 0) (fun e => (code l e).1) (x.a w l) (l.getV w.vd.toNat))).modCore x.T.core
          (Core.addNans ((x.parts.map fun i => ((partPairs src w.ety (w.bits 4 0)).filter fun ij =>
            (code (x.G.lane i) (elemAt src.w ij.1 (x.a w (x.G.lane i)))).2).length).foldl (· + ·) 0))).laneNext x.c))
    ∧ (LaneReady (.dqnt w) w x s → wordTable x w s = .ok (t, s) →
      exec (.dqnt w) s = .next (laneComputed (fun x w l => l.setV w.vd.toNat (convertPart (ETy.get (w.bits 12 8) 0) w.ety (w.bits 4 0)
        (dequantise w.ety.fmt (Rm.ofCode w.rm.toNat) (w.bits 12 8) (scaleOf w (x.b w l)) t) (x.a w l) (l.getV w.vd.toNat))) x w s))
    ∧ (∀ i, (i = .aadda w ∨ i = .aneg w) → LaneReady i w x s → ∃ counts : Nat → List (BitVec 16),
      exec i s = .next (laneWritten (fun j l => l.setA w.vd.toNat (match i with
        | .aneg _ => (l.getA w.va.toNat).negate (counts j)
        | _ => (l.getA w.vd.toNat).adda (counts j) (l.getA w.va.toNat))) x { s with free := s.free + x.G.lanes.length }))

/-- R53, R54, R142 to R146: POLL, KEYG, LEAD and GRED write their destination in every participant; with `.push` they also put one entry at the end of
the queue. With `.push` and a full queue they wait, and raise HANG where the scalar stream waits for this run or mode 2 is on. LPUSH does the same
with the lowest participant's VA. That the HANG has TLANE 0 is the model's choice (notes/assumptions/128). R145, R146: the XLN words move elements
across the group (one that has no source in the group keeps its own value, and a vacant lane reads as zero), BCST broadcasts a lane's register (of a
vacant lane zero), and GSCAN combines the participants up to each lane. -/
def Obligations.LaneExchangeComplete : Prop :=
  (∀ (i : Instr) (v : Nat) (fx : Nat → Lane → Lane) (w : LaneWord) (x : LaneCtx) (s : State), LaneReady i w x s →
    (pollFx x w i = some (v, fx) →
      (w.md.toNat % 2 = 0 → exec i s = .next (laneWritten fx x s))
      ∧ (w.md.toNat % 2 = 1 → x.G.lq.length < 64 → exec i s = .next (laneWritten fx x (pushed x v s))))
    ∧ (i = .lpush w → x.G.lq.length < 64 → exec i s = .next ((pushed x (x.a w (x.G.lane (x.parts.headD 0))) s).laneNext x.c))
    ∧ (((pollFx x w i).isSome = true ∧ w.md.toNat % 2 = 1 ∨ i = .lpush w) → 64 ≤ x.G.lq.length →
      ((x.L.detm = 2 ∨ x.G.stallS = some .runs) → exec i s = .next (s.takeTrap { cause := 0x38, tinfo := 3 }))
      ∧ (¬(x.L.detm = 2 ∨ x.G.stallS = some .runs) → exec i s = .next (s.markStall .queueFull))))
  ∧ (∀ (i : Instr) (w : LaneWord) (x : LaneCtx) (s : State), LaneReady i w x s →
    ((∀ j e, (xlnSource x w j e i).isSome = true) → exec i s = .next (laneWritten (fun j l => l.setV w.vd.toNat
        (packElems w.ety.w ((List.range w.ety.subn).map fun e =>
          let src := (xlnSource x w j e i).getD 0
          if src < 0 ∨ src ≥ x.G.lanes.length * w.ety.subn then elemAt w.ety.w e (x.a w l)
          else
            let o := x.G.lane (src.toNat / w.ety.subn)
            elemAt w.ety.w (src.toNat % w.ety.subn) (if o.nest != 255 then x.a w o else 0)))) x s))
    ∧ (i = .bcst w → exec i s = .next (laneWritten (fun _ l => l.setV w.vd.toNat
        (if (x.G.lane (w.bits 5 0)).nest != 255 then x.a w (x.G.lane (w.bits 5 0)) else 0)) x s))
    ∧ (∀ op excl, i = .gscan op excl w → exec i s = .next (laneWritten (fun j l => l.setV w.vd.toNat
        (packElems w.ety.w ((List.range w.ety.subn).map fun e => combine op w.ety (Rm.ofCode w.rm.toNat)
          ((x.parts.filter fun k => decide (k < j) || (k == j && !excl)).map fun k => elemAt w.ety.w e (x.a w (x.G.lane k)))))) x s)))

/-- R147: GSYNC takes each participant's mask of the occupied lanes. Where every participant names exactly the participants it goes on once every
access of theirs is performed, waiting until then; masks that differ among the participants, or that leave one of them out, raise SYNC_MASK_MISMATCH;
a mask that names a lane which does not take part raises ILLEGAL_CONVERGENCE. -/
def Obligations.GsyncCompletes : Prop :=
  ∀ (w : LaneWord) (x : LaneCtx) (s : State), LaneReady (.gsync w) w x s →
    let named (j : Nat) : Nat := x.a w (x.G.lane j) &&& maskLanes x.G.occupied
    let p := maskLanes x.parts
    let m := named (x.parts.headD 0)
    let busy := s.laneBusy x.c.team x.c.grp x.T.core x.parts
    ((∀ j ∈ x.parts, named j = p) → busy = false → exec (.gsync w) s = .next (s.laneNext x.c))
    ∧ ((∀ j ∈ x.parts, named j = p) → busy = true → exec (.gsync w) s = .next (s.markStall .fence))
    ∧ ((∃ j ∈ x.parts, named j ≠ m) → exec (.gsync w) s = .next (s.takeTrap { cause := 0x04, tlane := BitVec.ofNat 64 p }))
    ∧ ((∀ j ∈ x.parts, named j = m) → p &&& m ≠ p → exec (.gsync w) s = .next (s.takeTrap { cause := 0x04, tlane := BitVec.ofNat 64 p }))
    ∧ ((∀ j ∈ x.parts, named j = m) → p &&& m = p → m ≠ p →
      exec (.gsync w) s = .next (s.takeTrap { cause := 0x03, tlane := BitVec.ofNat 64 p, tinfo := 1 }))

/-- R132 to R136: the words of structured control change the counter of every occupied lane, active or not, as R134 gives; a counter that would pass
254 traps. At ENDLOOP with no lane left in the loop every counter falls by two; with one left the run goes on at the target. STOP ends the run, and
traps with a lane still nested. R135, R136: a word of structured control, MFEN or MWAIT raises ILLEGAL_OP, and has no other effect, where a lane is
active and its fields are not those that its form admits: a guard is one such. An ENDLOOP that takes its run to an address where no legal header lies
raises ILLEGAL_HEADER (0x06), TLPC that address. That these traps have TLANE 0 is the model's choice (notes/assumptions/128). -/
def Obligations.ControlWordsComplete : Prop :=
  (∀ (i : Instr) (f : Lane → Nat) (w : LaneWord) (c : Cur) (T : Team) (G : Group) (L : Launch) (s s' : State), ControlReady i w c T G L s →
    (counterFx w i = some f → deepLanes G (counterLimit i) = [] → exec i s = .next (counted c f s))
    ∧ (counterFx w i = some f → deepLanes G (counterLimit i) ≠ [] → counterLimit i < 256 → exec i s = .next (s.takeTrap
        { cause := 0x03, tlane := BitVec.ofNat 64 (maskLanes (deepLanes G (counterLimit i))), tinfo := 2 }))
    ∧ (i = .laneEndloop w → (∀ j ∈ G.occupied, 2 ≤ (G.lane j).nest.toNat) → exec i s = .next (counted c (fun l => l.nest.toNat - 2) s))
    ∧ (i = .laneEndloop w → (∃ j ∈ G.occupied, (G.lane j).nest.toNat ≤ 1) →
      (∀ h X, headerAt w.imm.toNat s = .ok (some h, s') → s'.group? c.team c.grp = some X →
        ∃ X', exec i s = .next (s'.modGroup c.team c.grp fun _ => X') ∧ X'.lanes = X.lanes.map (fun l => if l.nest = 1 then { l with nest := 0 } else l)
        ∧ X'.clause = none ∧ X'.run = X.run.map (fun r => { r with target := w.imm }) ∧ X'.ric = X.ric + 1 ∧ X'.regs = X.regs))
    ∧ (i = .laneStop w → deepLanes G 1 = [] → ∃ X, exec i s = .next (s.modGroup c.team c.grp fun _ => X) ∧ X.run = none ∧ X.clause = none
      ∧ X.ric = G.ric + 1 ∧ X.lanes = G.lanes ∧ X.regs = G.regs ∧ X.runs = G.runs)
    ∧ (i = .laneStop w → deepLanes G 1 ≠ [] → exec i s = .next (s.takeTrap
        { cause := 0x03, tlane := BitVec.ofNat 64 (maskLanes (deepLanes G 1)), tinfo := 3 })))
  ∧ (∀ (i : Instr) (f : Form) (w : LaneWord) (c : Cur) (T : Team) (G : Group) (L : Launch) (s s' : State),
    (s.cur = some c → s.team? c.team = some T → s.group? c.team c.grp = some G → s.launchOf? c.team = some L → laneForm 64 i = some (f, w) →
      actsIdle i = true → (∀ v, i ≠ .rfil v) → G.active ≠ [] → ¬(w.guard = 127 ∧ w.neg = false ∧ f.legal w L.vregs L.aregs L.tiles = true) →
      exec i s = .next (s.takeTrap { cause := 0x01 }))
    ∧ (i = .laneEndloop w → ControlReady i w c T G L s → (∃ j ∈ G.occupied, (G.lane j).nest.toNat ≤ 1) →
      (headerAt w.imm.toNat s = .ok (none, s') → exec i s = .next (s'.takeTrap { cause := 0x06, tlpc := some w.imm }))
      ∧ (L.lsize ≤ w.imm.toNat → exec i s = .next (s.takeTrap { cause := 0x06, tlpc := some w.imm }))))

/-- R133, R138, R139, R231, R242, R243: EXIT vacates the lanes that take part and counts the items they finish. RFIL, in its clause and at depth zero,
fills the vacant lanes in ascending order while items remain (or the whole of an empty group from one item), and pushes the number of occupied lanes,
with 256 added once none remains. Outside the refill clause it raises ILLEGAL_OP, with a lane nested REFILL_DEPTH, TLANE the nested lanes; with a full
queue it waits, or raises HANG. That ILLEGAL_OP and HANG have TLANE 0 is the model's choice (notes/assumptions/128). -/
def Obligations.ItemWordsComplete : Prop :=
  ∀ (w : LaneWord) (x : LaneCtx) (c : Cur) (T : Team) (G : Group) (L : Launch) (stamp : Nat) (plan : List (Nat × Barge)) (s s' s'' : State),
    (LaneReady (.laneExit w) w x s →
      let holding := x.parts.filter fun i => (x.G.lane i).holds
      let done := if x.L.grpMode then
          (if !holding.isEmpty && !x.G.gunfin && ((indexed 0 x.G.lanes).all fun l => x.parts.contains l.1 || !l.2.holds) then 1 else 0)
        else holding.length
      exec (.laneExit w) s = .next (((s.modLaunch x.T.launch fun l => { l with finished := l.finished + done }).modGroup x.c.team
        x.c.grp fun g => g.mapLanes x.parts fun l => l.setNest 255).laneNext x.c))
    ∧ (s.cur = some c → s.team? c.team = some T → s.group? c.team c.grp = some G → s.launchOf? c.team = some L →
      (∃ k, G.clause = some k ∧ k.header = L.refill ∧ L.refill ≠ 0xFFFFFFFF) → (G.active ≠ [] → w.guard = 127 ∧ w.neg = false ∧
        fNone.legal w L.vregs L.aregs L.tiles = true) → deepLanes G 1 = [] → G.lq.length < 64 → G.outstanding
          (((List.range L.vregs).map fun i => (false, i)) ++ ((List.range L.aregs).map fun i => (true, i))) = false →
      orderedWait s = .ok (stamp, s) → refillPlan { c := c, T := T, G := G, L := L, parts := G.active } s = .ok (plan, s') →
      orderedLog 7 stamp s' = .ok ((), s'') → s''.poison = [] → s''.group? c.team c.grp = some G →
      let filled : Group := match L.grpMode, plan with
        | true, [] => G
        | true, ib :: _ => L.fillGroup ib.2 G
        | false, _ => L.fillLanes plan G
      exec (.rfil w) s = .next ((pushed { c := c, T := T, G := G, L := L, parts := G.active }
        (filled.occupied.length + if L.nitems ≤ L.claim + plan.length then 256 else 0)
        (((s''.modGroup c.team c.grp fun _ => filled).modLaunch T.launch fun l => { l with claim := l.claim + plan.length }).modTeam c.team
          fun T => { T with claimed := T.claimed || decide (plan.length > 0) })).laneNext c))
    ∧ (s.cur = some c → s.team? c.team = some T → s.group? c.team c.grp = some G → s.launchOf? c.team = some L →
      let placed : Prop := ∃ k, G.clause = some k ∧ k.header = L.refill ∧ L.refill ≠ 0xFFFFFFFF
      let legal : Prop := G.active ≠ [] → w.guard = 127 ∧ w.neg = false ∧ fNone.legal w L.vregs L.aregs L.tiles = true
      (¬placed → exec (.rfil w) s = .next (s.takeTrap { cause := 0x01 }))
      ∧ (placed → ¬legal → exec (.rfil w) s = .next (s.takeTrap { cause := 0x01 }))
      ∧ (placed → legal → deepLanes G 1 ≠ [] →
        exec (.rfil w) s = .next (s.takeTrap { cause := 0x05, tlane := BitVec.ofNat 64 (maskLanes (deepLanes G 1)) }))
      ∧ (placed → legal → deepLanes G 1 = [] → 64 ≤ G.lq.length → (L.detm = 2 ∨ G.stallS = some .runs) →
        exec (.rfil w) s = .next (s.takeTrap { cause := 0x38, tinfo := 3 }))
      ∧ (placed → legal → deepLanes G 1 = [] → 64 ≤ G.lq.length → ¬(L.detm = 2 ∨ G.stallS = some .runs) →
        exec (.rfil w) s = .next (s.markStall .queueFull)))

/-- R161, R166 to R169, R175, R253: LD, LDS and ALD of addresses at hand complete: the load is in flight with the bytes that each lane's address holds
(an acquiring one reads after its acquire, at its turn), its return due, and the word retires. Which pieces of an access of several are read apart is
free, and the load's return waits for them (the model's choice, notes/assumptions/4); one of the logical clock is read whole (R395). R167: an access
of the lane words LD, LDS or ALD that fails a check in some lane raises that check's trap, TLANE the lanes that fail it and TADDR the lowest one's
address, and has no other effect. -/
def Obligations.LaneLoadsComplete : Prop :=
  (∀ (i : Instr) (reqs : List Req) (acc : Bool) (ty : Nat) (w : LaneWord) (x : LaneCtx) (hits : List Hit) (stamp : Nat) (ag : Agent) (X : Group)
    (s s' s'' t : State), loadOf x w i = some (reqs, acc, ty) → LaneReady i w x s → LanesReach x (laneAcquires w acc) false reqs hits s s' →
    (laneAcquires w acc = false → t = s') →
    (laneAcquires w acc = true → orderedWait s = .ok (stamp, s) ∧ orderedLog 3 stamp s' = .ok ((), s'') ∧ hereAgent s'' = .ok (ag, s'')
      ∧ t = s''.acquire ag (scopeOf w) ∧ (∀ h ∈ hits, ∀ p ∈ h.parts, t.atHand x.L.ctx x.T.core p = true) ∧ t.poison = []) →
    t.group? x.c.team x.c.grp = some X →
    let q := lanesRead x (laneAcquires w acc && x.L.detm == 2) hits t
    exec i s = .next ((loadEntered x X.nextRec (if laneAcquires w acc then scopeOf w else 0) (hits.map fun h =>
      { lane := h.req.lane, acc := acc, reg := w.vd.toNat, ty := ty, bytes := t.readHit x.c.team h }) q.1 q.2).laneNext x.c))
  ∧ (∀ (i : Instr) (reqs : List Req) (acc : Bool) (ty : Nat) (w : LaneWord) (x : LaneCtx) (stamp : Nat) (ag : Agent) (tr : TrapArgs) (s u : State),
    loadOf x w i = some (reqs, acc, ty) → LaneReady i w x s → hereAgent s = .ok (ag, s) → (x.c.stream = .handler → s.teamBusy x.c.team = false) →
    (laneAcquires w acc = true → orderedWait s = .ok (stamp, s)) → CheckFails ag x.T reqs s tr u → exec i s = .next (u.takeTrap tr))

/-- R171, R173, R174, R264, R334: ATOM and CAS of addresses at hand read, change and write each lane's element in ascending lane order and return the
old values; RADD enters its addends into the elements' partials in its core's L1, a releasing one once every earlier access of its lanes is performed;
the lane FENCE goes on then, as an acquire at its scope. Under determinism mode 1 ATOM and CAS trap (R85), with TLANE 0 by the model's choice
(notes/assumptions/128). -/
def Obligations.LaneAtomicsComplete : Prop :=
  ∀ (i : Instr) (f : Lane → Nat → Nat) (k ty : Nat) (add : Lane → List (List Byte)) (w : LaneWord) (x : LaneCtx) (reqs : List Req) (hits : List Hit)
    (stamp : Nat) (ag : Agent) (X : Group) (s s' s'' t : State), LaneReady i w x s →
    let busy := s.laneBusy x.c.team x.c.grp x.T.core x.parts
    (atomicOf x w i = some (k, f) → x.L.detm ≠ 1 → orderedWait s = .ok (stamp, s) → LanesReach x (w.rm != 0) (x.L.detm == 2) (atomReqs x w) hits s s' →
      orderedLog k stamp s' = .ok ((), s'') → hereAgent s'' = .ok (ag, s'') →
      t = (if w.rm = 1 ∨ w.rm = 3 then s''.acquire ag (scopeOf w) else s'') → (∀ h ∈ hits, ∀ p ∈ h.parts, t.atHand x.L.ctx x.T.core p = true) →
      let r := atomicSteps x w stamp f hits t
      r.2.poison = [] → r.2.group? x.c.team x.c.grp = some X →
      exec i s = .next ((loadEntered x X.nextRec (if w.rm ≠ 0 then scopeOf w else 0) r.1 r.2).laneNext x.c))
    ∧ ((atomicOf x w i).isSome = true → x.L.detm = 1 → exec i s = .next (s.takeTrap { cause := 0x31 }))
    ∧ (addendsOf x w i = some (ty, add) → (w.rm = 2 → busy = false) → hereAgent s = .ok (ag, s) →
      (x.parts.mapM fun j => raddReq ag j (laneEa false (x.a w (x.G.lane j)) (offOf w))) s = .ok (reqs, s') →
      checkAccess reqs (takesType ty) s' = .ok (hits, s'') → reportHits hits s'' = .ok ((), s'') →
      (∀ h ∈ hits, h.waitsHere s'' ag = false ∧ h.remote = false) →
      t = (hits.zip x.parts).foldl (fun u hj => hj.1.parts.foldl (fun u p => u.enterAdd ag p ty (add (x.G.lane hj.2))) u) s'' →
      t.poison = [] → t.group? x.c.team x.c.grp = some X →
      exec i s = .next ((storeEntered x X.nextRec (if w.rm = 2 then scopeOf w else 0) t).laneNext x.c))
    ∧ ((addendsOf x w i).isSome = true → w.rm = 2 → busy = true → exec i s = .next (s.markStall .fence))
    ∧ (i = .laneFence w → (busy = false → exec i s = .next ((s.acquireFor x.c.team (scopeOf w)).laneNext x.c))
      ∧ (busy = true → exec i s = .next (s.markStall .fence)))

/-- R53, R166 to R169, R203, R253: ST, STS and AST to addresses at hand complete: every lane's bytes are stored, where lanes overlap those of the
highest, and the word retires. Which blocks of an access of several are performed at once is free, the others are performed later, and the store is done
with them (the model's choice, notes/assumptions/4); the word of a releasing store in mode 2 waits for them itself, and retires once they are performed
(R395). R167: the same of the lane words ST, STS, AST, ATOM and CAS, which then store nothing. -/
def Obligations.LaneStoresComplete : Prop :=
  (∀ (i : Instr) (reqs : List Req) (data : List (List Byte)) (rel : Bool) (w : LaneWord) (x : LaneCtx) (hits : List Hit) (stamp : Nat) (X : Group)
    (rc : LoadRec) (s s' s'' : State), storeOf x w i = some (reqs, data, rel) → LaneReady i w x s →
    let clocked := rel && x.L.detm == 2
    let scope := if rel then scopeOf w else 0
    (LanesReach x rel false reqs hits s s' →
      (rel = false → stamp = 0 ∧ s'' = s') → (rel = true → orderedWait s = .ok (stamp, s) ∧ orderedLog 4 stamp s' = .ok ((), s'')) →
      (∀ h ∈ hits, ∀ p ∈ h.parts, s''.atHand x.L.ctx x.T.core p = true) →
      let t := lanesStored x clocked stamp (hits.zip data) s''
      t.1.poison = [] → t.1.group? x.c.team x.c.grp = some X → exec i s = .next (lanesStoredNext x clocked X.nextRec scope hits t))
    ∧ (clocked = true → x.G.loads.find? (·.blocks) = some rc → rc.nacks = [] → orderedWait s = .ok (stamp, s) →
      checkAccess reqs (fun _ => true) s = .ok (hits, s') → prepare x hits true false s' = .ok ((), s') →
      (∀ h ∈ hits, ∀ p ∈ h.parts, s'.atHand x.L.ctx x.T.core p = true) → s'.poison = [] → s'.group? x.c.team x.c.grp = some X →
      (rc.waiting ≠ 0 → exec i s = .next (s'.markStall .remote))
      ∧ (rc.waiting = 0 → exec i s = .next ((storeEntered x X.nextRec scope
          (s'.modGroup x.c.team x.c.grp fun g => { g with loads := g.loads.filter fun l => l.id != rc.id })).laneNext x.c))))
  ∧ (∀ (i : Instr) (reqs : List Req) (data : List (List Byte)) (rel : Bool) (k : Nat) (f : Lane → Nat → Nat) (w : LaneWord) (x : LaneCtx) (stamp : Nat)
    (ag : Agent) (tr : TrapArgs) (s u : State), LaneReady i w x s → hereAgent s = .ok (ag, s) → (x.c.stream = .handler → s.teamBusy x.c.team = false) →
    (storeOf x w i = some (reqs, data, rel) ∧ (rel = true → orderedWait s = .ok (stamp, s))
      ∨ atomicOf x w i = some (k, f) ∧ reqs = atomReqs x w ∧ x.L.detm ≠ 1 ∧ orderedWait s = .ok (stamp, s)) →
    CheckFails ag x.T reqs s tr u → exec i s = .next (u.takeTrap tr))

/-- R175 to R180, R264: the lane words that wait. WAITA of addresses at hand writes each lane's word and goes on when no lane reads its compare value, and
when the group was woken from this park, by a write or by its timeout (the mark is then taken away, and the word is not logged again);
BARA and CBARA, once every earlier access of their lanes is performed, add each lane's count and write the phase before; BARW and CBARW go on when no
lane's phase is the slot's, SWAIT when no lane's generation is the sync word's, each as an acquire; and where one is, the group parks at the word. -/
def Obligations.LaneWaitsComplete : Prop :=
  ∀ (i : Instr) (base : Nat) (kind : BitVec 8) (w : LaneWord) (x : LaneCtx) (hits : List Hit) (b : Barrier) (stamp : Nat) (ag : Agent) (T' : Team)
    (X : Group) (s s' s'' : State), LaneReady i w x s →
    let parked (G : Group) (k : BitVec 8) (n : Word) (v : Word) : Prop := ∃ (t : State) (X : Group) (p : Park), exec i s = .next t
      ∧ t.group? x.c.team x.c.grp = some X ∧ X.park = some p ∧ p.kind = k ∧ p.addr = n ∧ p.value = v ∧ X.lanes = G.lanes ∧ X.regs = G.regs
    let busy := s.laneBusy x.c.team x.c.grp x.T.core x.parts
    let sp := w.bits 24 24 == 1
    (i = .laneWaita w → (x.L.detm = 2 → w.bits 2 0 = 0) → orderedWait s = .ok (stamp, s) →
      LanesReach x true false (x.reqs sp 8 8 .read fun l => laneEa sp (x.a w l) 0) hits s s' →
      (if x.G.woken then s'' = s' else orderedLog 5 stamp s' = .ok ((), s'')) → hereAgent s'' = .ok (ag, s'') →
      let t := s''.acquire ag (scopeOf w)
      (∀ h ∈ hits, ∀ p ∈ h.parts, t.atHand x.L.ctx x.T.core p = true) → t.cur = some x.c → t.team? x.c.team = some T' →
      t.group? x.c.team x.c.grp = some X → X.woken = x.G.woken → t.poison = [] →
      (((∀ h ∈ hits, ofBytes (t.readHit x.c.team h) ≠ x.b w (x.G.lane h.req.lane)) ∨ x.G.woken = true) →
        exec i s = .next (laneWritten (fun j l => l.setV w.vd.toNat
          (((hits.find? fun h => h.req.lane == j).map fun h => ofBytes (t.readHit x.c.team h)).getD 0)) x
            (t.modGroup x.c.team x.c.grp fun g => { g with woken := false })))
      ∧ ((∃ h ∈ hits, ofBytes (t.readHit x.c.team h) = x.b w (x.G.lane h.req.lane)) → x.G.woken = false → x.c.stream = .lane →
        let low := x.G.lane (x.parts.headD 0)
        parked X 0xE0 (BitVec.ofNat 64 (x.a w low)) (BitVec.ofNat 64 (x.b w low))))
    ∧ (arriveBase i = some base → s.slot? x.c.team (base + w.bits 3 0) = some b → b.init = true → busy = false →
      orderedWait s = .ok (stamp, s) → orderedLog 6 stamp s = .ok ((), s') →
      let t := s'.arriveAll x.c.team (base + w.bits 3 0) (x.parts.map fun j => x.a w (x.G.lane j) % 2 ^ 32) stamp
      t.poison = [] → exec i s = .next (laneWritten (fun _ l => l.setV w.vd.toNat b.phase.toNat) x t))
    ∧ (arriveBase i = some base → s.slot? x.c.team (base + w.bits 3 0) = some b → b.init = true → busy = true → exec i s = .next (s.markStall .fence))
    ∧ (waitBase i = some (base, kind) → s.slot? x.c.team (base + w.bits 3 0) = some b → b.init = true →
      ((∀ j ∈ x.parts, x.a w (x.G.lane j) % 2 ^ 32 ≠ b.phase.toNat) →
        exec i s = .next ((s.acquireFor x.c.team (slotScope (base + w.bits 3 0))).laneNext x.c))
      ∧ ((∃ j ∈ x.parts, x.a w (x.G.lane j) % 2 ^ 32 = b.phase.toNat) → x.c.stream = .lane →
        parked x.G kind (BitVec.ofNat 64 (base + w.bits 3 0)) (b.phase.setWidth 64)))
    ∧ (i = .laneSwait w →
      let off (j : Nat) : Nat := x.a w (x.G.lane j) % 2 ^ 32
      let gen (j : Nat) : Nat := x.b w (x.G.lane j) % 2 ^ 32
      checkSync (x.parts.map fun j => { lane := j, scratch := true, ea := off j, size := 16, align := 16, acc := .read }) s = .ok ((), s) →
      ((∀ j ∈ x.parts, s.generation x.c.team (off j) ≠ gen j) →
        exec i s = .next ((s.acquireFor x.c.team ((x.parts.map fun j => (s.syncNote x.c.team (off j)).doneScope).foldl max 0)).laneNext x.c))
      ∧ (∀ j rest, (x.parts.filter fun j => s.generation x.c.team (off j) == gen j) = j :: rest → x.c.stream = .lane →
        parked x.G 0xE3 (BitVec.ofNat 64 (off j)) (BitVec.ofNat 64 (gen j))))

/-- R196 to R200: MMA completes when its checks pass: it joins the engine's work with the operand A that the latch or the registers hold, the latch
keeps or drops that operand as MD's bit 0 says, and the engine's completion is due. No register, tile or memory byte changes yet. R198, R202, R203: a
word over a tile that some lane executes raises ILLEGAL_OP where it carries a guard, where its fields are not those that its form admits, and, for
MMA, where the reservation is not live or holds another format, or a full latch holds another operand; then ILLEGAL_CONVERGENCE (0x03) with TINFO 4
where a lane of the group is not active. MMA then raises OBUF_BOUNDS (0x15) where the block passes the reservation's bounds, and ILLEGAL_OP where VC
cannot carry the scales of the block, or a table that it uses has never been loaded. It has no other effect; that the traps have TLANE 0 is the
model's choice (notes/assumptions/128). -/
def Obligations.MmaIssues : Prop :=
  (∀ (i : Instr) (K : Nat) (r : Reservation) (l : Latch) (w : LaneWord) (x : LaneCtx) (s : State), (i = .mma w ∨ i = .mmaKreg w) →
    MatrixReady i w x s → MmaReady w x K r l s →
    ∃ (t : State) (X : Group) (m : Mma), exec i s = .next t ∧ t.group? x.c.team x.c.grp = some X ∧ X.mmas = x.G.mmas ++ [m]
      ∧ m.tile = w.vd.toNat ∧ m.o = w.vb.toNat ∧ m.ta = w.ty.toNat ∧ (m.cb, m.ks) = mmaBlock x w ∧ m.aregs = l.aregs ∧ m.scales = l.scales
      ∧ m.fenced = false ∧ X.latch = (if natBit w.md.toNat 0 then some l else none) ∧ X.lanes = x.G.lanes ∧ X.tiles = x.G.tiles
      ∧ X.regs = x.G.regs ∧ X.ric = x.G.ric + 1 ∧ t.mem = s.mem ∧ t.hostMem = s.hostMem
      ∧ t.agenda = s.agenda ++ [.event (.mmaComplete x.c.team x.c.grp m.id)])
  ∧ (∀ (i : Instr) (f : Form) (K : Nat) (r : Reservation) (w : LaneWord) (x : LaneCtx) (s : State),
    s.cur = some x.c → s.team? x.c.team = some x.T → s.group? x.c.team x.c.grp = some x.G → s.launchOf? x.c.team = some x.L →
    x.parts = (x.G.active.filter fun j => (x.G.lane j).passes w.guard.toNat w.neg) → x.parts ≠ [] → w.guardOk = true → laneForm 64 i = some (f, w) →
    let mma : Bool := decide (i = .mma w ∨ i = .mmaKreg w)
    let tiled : Prop := mma = true ∨ i = .mzero w ∨ i = .mstRnd w ∨ i = .mstRaw w ∨ i = .mstAdd w
    let fits : Prop := (∃ v, x.T.live? w.vb.toNat = some v ∧ fld v.record 4 1 = w.bits 28 24)
      ∧ ∀ l, x.G.latch = some l → l.va = w.va.toNat ∧ l.ty = w.ty.toNat ∧ l.ct = mmaTable w
    let legal : Prop := w.guard = 127 ∧ f.legal w x.L.vregs x.L.aregs x.L.tiles = true ∧ (mma = true → fits)
    let whole : Prop := x.G.active.length = x.G.lanes.length
    let inside : Prop := 32 * (mmaBlock x w).1 + 32 ≤ fld r.record 16 4 ∧ K * (mmaBlock x w).2 + K ≤ fld r.record 20 4
    let blocks := (K + blockLen (fld r.record 5 1) - 1) / blockLen (fld r.record 5 1)
    let wide : Prop := quantA w.ty.toNat = true ∧ fld r.record 6 1 = 1 ∧ 4 < blocks
    let empty : Prop := ∃ n, (mmaTable w = some n ∨ recordTable r.record = some n) ∧ ∀ y t, s.cores[x.T.core]? = some y → y.tables[n]? ≠ some (some t)
    (tiled → ¬legal → exec i s = .next (s.takeTrap { cause := 0x01 }))
    ∧ (tiled → legal → ¬whole → exec i s = .next (s.takeTrap { cause := 0x03, tinfo := 4 }))
    ∧ (mma = true → legal → whole → mmaK w.ty.toNat (w.bits 28 24) = some K → x.T.live? w.vb.toNat = some r →
      (¬inside → exec i s = .next (s.takeTrap { cause := 0x15 }))
      ∧ (inside → (wide ∨ empty) → exec i s = .next (s.takeTrap { cause := 0x01 }))))

/-- R201 to R203: MFEN closes a batch and pushes its number; MWAIT goes on when no MMA of the batch or of an earlier one is in flight; MZERO clears a
tile; MST.rnd and MST.raw store a tile's rows, lane by lane, and MST.add merges them into the elements of memory. A word over a tile waits for the
MMAs into it. Which blocks of a row's store are performed at once is free (the model's choice, notes/assumptions/4); that the traps of MFEN and MWAIT have
TLANE 0 is too (notes/assumptions/128). -/
def Obligations.TileMatrixWordsComplete : Prop :=
  ∀ (i : Instr) (c : Cur) (T : Team) (G : Group) (L : Launch) (reqs : List Req) (data : List (List Byte)) (hits rows : List Hit) (stamp : Nat)
    (ag : Agent) (X : Group) (w : LaneWord) (x : LaneCtx) (late : Bool) (s u s' s'' t : State),
    (i = .mfen w → ControlReady i w c T G L s → 64 ≤ G.lq.length →
      ((L.detm = 2 ∨ G.stallS = some .runs) → exec i s = .next (s.takeTrap { cause := 0x38, tinfo := 3 }))
      ∧ (¬(L.detm = 2 ∨ G.stallS = some .runs) → exec i s = .next (s.markStall .queueFull)))
    ∧ (i = .mfen w → ControlReady i w c T G L s → G.lq.length < 64 →
      exec i s = .next ((s.modGroup c.team c.grp fun g => { g with
        batch := G.batch + 1, lq := g.lq ++ [BitVec.ofNat 64 (G.batch + 1).toNat]
        mmas := g.mmas.map fun m => if m.fenced then m else { m with fenced := true, batch := (G.batch + 1).toNat } }).laneNext c))
    ∧ ((i = .mwait w ∨ i = .mwaitLast w) → ControlReady i w c T G L s →
      let b : BitVec 32 := if i = .mwaitLast w then G.batch else BitVec.ofNat 32 (G.kreg (w.va.toNat % 8)).toNat
      let ahead := (b - G.batch).toNat
      (¬(1 ≤ ahead ∧ ahead < 2 ^ 31) → G.mmas.any (mwaitHolds G b) = false → exec i s = .next (s.laneNext c))
      ∧ (¬(1 ≤ ahead ∧ ahead < 2 ^ 31) → G.mmas.any (mwaitHolds G b) = true → exec i s = .next (s.markStall .batch))
      ∧ (1 ≤ ahead → ahead < 2 ^ 31 → exec i s = .next (s.takeTrap { cause := 0x01 })))
    ∧ (i = .mzero w → MatrixReady i w x s →
      ((∀ m ∈ x.G.mmas, m.tile ≠ w.vd.toNat) → exec i s = .next ((s.modGroup x.c.team x.c.grp fun g =>
        { g with tiles := modifyAt (fun t => t.map fun _ => Acc.zero) w.vd.toNat g.tiles }).laneNext x.c))
      ∧ ((∃ m ∈ x.G.mmas, m.tile = w.vd.toNat) → exec i s = .next (s.markStall .engine)))
    ∧ (((tileStoreOf x w i).isSome = true ∨ i = .mstAdd w) → MatrixReady i w x s → (∃ m ∈ x.G.mmas, m.tile = w.vb.toNat) →
      exec i s = .next (s.markStall .engine))
    ∧ (tileStoreOf x w i = some (reqs, data) → MatrixReady i w x s → (∀ m ∈ x.G.mmas, m.tile ≠ w.vb.toNat) →
      LanesReach x (w.rm == 2) false reqs hits s s' → (w.rm ≠ 2 → stamp = 0 ∧ s'' = s') →
      (w.rm = 2 → orderedWait s = .ok (stamp, s) ∧ orderedLog 4 stamp s' = .ok ((), s'')) →
      (∀ h ∈ hits, ∀ p ∈ h.parts, s''.atHand x.L.ctx x.T.core p = true) → (t, late) = lanesStored x (w.rm == 2 && x.L.detm == 2) stamp (hits.zip data) s'' →
      t.group? x.c.team x.c.grp = some X →
      exec i s = .next (lanesStoredNext x (w.rm == 2 && x.L.detm == 2) X.nextRec (if w.rm = 2 then scopeOf w else 0) hits (t, late)))
    ∧ (i = .mstAdd w → MatrixReady i w x s → (∀ m ∈ x.G.mmas, m.tile ≠ w.vb.toNat) → w.rm = 2 → s.laneBusy x.c.team x.c.grp x.T.core x.parts = true →
      exec i s = .next (s.markStall .fence))
    ∧ (i = .mstAdd w → MatrixReady i w x s → (∀ m ∈ x.G.mmas, m.tile ≠ w.vb.toNat) →
      (w.rm = 2 → s.laneBusy x.c.team x.c.grp x.T.core x.parts = false) →
      checkAccess (x.reqs false 4096 128 .radd fun l => laneEa false (x.a w l) (offOf w)) (takesType tyAcc) s = .ok (rows, u) → hereAgent u = .ok (ag, u) →
      let adds := x.parts.flatMap fun l => (List.range 32).map fun (k : Nat) =>
        (l, laneEa false (x.a w (x.G.lane l)) (offOf w) + 128 * k, [(tileElem x.G w.vb.toNat l k).bytes])
      (adds.mapM fun ad => raddReq ag ad.1 ad.2.1) u = .ok (reqs, s') → checkAccess reqs (takesType tyAcc) s' = .ok (hits, s'') →
      reportHits hits s'' = .ok ((), s'') → (∀ h ∈ hits, h.waitsHere s'' ag = false ∧ h.remote = false) →
      t = (hits.zip adds).foldl (fun y ha => ha.1.parts.foldl (fun y p => y.enterAdd ag p tyAcc ha.2.2.2) y) s'' →
      t.group? x.c.team x.c.grp = some X → exec i s = .next ((storeEntered x X.nextRec (if w.rm = 2 then scopeOf w else 0) t).laneNext x.c))

/-- R211 to R217: a Spire word whose offsets, records, descriptor and regions pass their checks, in the lowest lane that executes it, joins the
Spire's queue with its ranges locked, counts as a store of its clause, and retires; a full queue of four, ranges that the table does not take, or
accesses of its lane that are not performed (R287) make it wait. Its command has the scope of its descriptor; that the words whose descriptor holds
none act at team scope, and that the offsets are taken modulo 2^32, are the model's choices (notes/assumptions/113, 67). -/
def Obligations.SpireWordsIssue : Prop :=
  ∀ (i : Instr) (reads merge : Bool) (checks : LaneCtx → Nat → Nat → M SpireIssue) (a b : Nat) (y : SpireIssue) (w : LaneWord) (x : LaneCtx)
    (s s' s'' : State), spireWord i = some (reads, merge, checks) → LaneReady i w x s →
    let x' : LaneCtx := { x with parts := x.parts.take 1 }
    spireOffsets x' w reads merge s = .ok ((a, b), s') → checks x' a b s' = .ok (y, s'') →
    a = x.a w (x.G.lane (x.parts.headD 0)) % 2 ^ 32 ∧ b = x.b w (x.G.lane (x.parts.headD 0)) % 2 ^ 32
    ∧ (s''.queued x.T.core true < 4 → x.T.admits y.locks = true → s''.laneBusy x.c.team x.c.grp x.T.core (x.parts.take 1) = false →
      let tag := x.G.clause.map (·.tag)
      let cmd : Cmd :=
        { id := x.T.nextCmd, kind := y.kind, grp := x.c.grp, flag := none, desc := y.desc, arg := BitVec.ofNat 64 b, srec := a, tag := tag
          lpc := x.G.lanePc, pos := 0, retry := [], held := [], dropped := 0, waiting := 0, got := [], faulted := false, stamp := x.G.ric.toNat
          scope := y.scope, core := x.T.core }
      exec i s = .next ((((((s''.modTeam x.c.team fun T =>
          { T with cmds := T.cmds ++ [cmd], locks := T.locks ++ spanLocks x.c.grp x.T.nextCmd y.locks, nextCmd := x.T.nextCmd + 1 }).modGroup
        x.c.team x.c.grp fun g => match tag with
          | some n => Group.modTag g n fun t => { t with stores := t.stores + 1 }
          | none => g).modCore x.T.core fun k => { k with spire := k.spire ++ [(x.c.team, x.T.nextCmd)] }).post (.spireComplete x.T.core)).laneNext x.c)))
    ∧ (4 ≤ s''.queued x.T.core true → exec i s = .next (s''.markStall .queueFull))
    ∧ (s''.queued x.T.core true < 4 → x.T.admits y.locks = false → exec i s = .next (s''.markStall .lock))
    ∧ (s''.queued x.T.core true < 4 → x.T.admits y.locks = true → s''.laneBusy x.c.team x.c.grp x.T.core (x.parts.take 1) = true →
      exec i s = .next (s''.markStall .fence))

/-- R48 to R50, R57: a pair word whose slots are legal and may be paired executes slot 0, then slot 1, each in the lanes that pass its own guard, the
lanes being found before either writes, and retires; a computing slot does what its long form does. A pair that is not allowed raises ILLEGAL_PAIR,
and one with an illegal field ILLEGAL_OP. A reserved scalar word raises ILLEGAL_OP, and so does a lane word of opcode 0x00; a lane word of another
reserved opcode or function raises it wherever an active lane's guard is true, and is skipped elsewhere. That a NOP slot executes in no lane, which
slots are legal, and that the traps by encoding have TLANE 0 are the model's choices (notes/assumptions/102, 41, 128). -/
def Obligations.PairAndReservedWords : Prop :=
  ∀ (p : PairWord) (o : ShortOp) (i : Instr) (fx : LaneFx) (w : LaneWord) (f : Form) (b : BitVec 96) (c : Cur) (T : Team) (G : Group) (L : Launch)
    (C : Context) (r : ScalarRegs) (s s' s'' : State), InHand c T G L C r s →
    let at' (o : ShortOp) : LaneCtx := { c := c, T := T, G := G, L := L, parts := slotLanes G o }
    (G.active = [] → exec (.pairWord p) s = .next (s.laneNext c))
    ∧ (G.active ≠ [] → (p.slot0.guard = 15 → p.slot0.neg = false) → (p.slot1.guard = 15 → p.slot1.neg = false) →
      ((at' p.slot0).parts = [] → (at' p.slot1).parts = [] → exec (.pairWord p) s = .next (s.laneNext c))
      ∧ (((at' p.slot0).parts ≠ [] ∨ (at' p.slot1).parts ≠ []) →
        ¬(p.mid = false ∧ p.slot0.legal L.vregs L.aregs = true ∧ p.slot1.legal L.vregs L.aregs = true) →
        exec (.pairWord p) s = .next (s.takeTrap { cause := 0x01 }))
      ∧ (((at' p.slot0).parts ≠ [] ∨ (at' p.slot1).parts ≠ []) → p.mid = false → p.slot0.legal L.vregs L.aregs = true →
        p.slot1.legal L.vregs L.aregs = true →
        (p.pairable = true → slotChecks (at' p.slot0) p.slot0 s = .ok ((), s) → slotChecks (at' p.slot1) p.slot1 s = .ok ((), s) →
          slotFx (at' p.slot0) p.slot0 s = .ok ((), s') → slotFx (at' p.slot1) p.slot1 s' = .ok ((), s'') →
          exec (.pairWord p) s = .next (s''.laneNext c))
        ∧ (p.pairable = false → exec (.pairWord p) s = .next (s.takeTrap { cause := 0x02 }))))
    ∧ (G.active ≠ [] → (p.slot0.guard = 15 ∧ p.slot0.neg = true ∨ p.slot1.guard = 15 ∧ p.slot1.neg = true) →
      exec (.pairWord p) s = .next (s.takeTrap { cause := 0x01 }))
    ∧ (o.long = some i → (integerFx i = some fx ∨ bitFx i = some fx ∨ floatFx i = some fx ∨ accFx i = some fx) → laneForm 64 i = some (f, w) →
      s.poison = [] → (at' o).parts ≠ [] →
      slotFx (at' o) o s = .ok ((), s.modGroup c.team c.grp fun g => g.mapLanes (at' o).parts (fx (at' o) w)))
    ∧ exec .reservedScalarWord s = .next (s.takeTrap { cause := 0x01 })
    ∧ (let h := laneFields b
      (b.extractLsb' 88 7 = 0 → exec (.reservedLaneWord b) s = .next (s.takeTrap { cause := 0x01 }))
      ∧ (G.active ≠ [] → h.guardOk = false → exec (.reservedLaneWord b) s = .next (s.takeTrap { cause := 0x01 }))
      ∧ ((∃ j ∈ G.active, (G.lane j).passes h.guard.toNat h.neg = true) → exec (.reservedLaneWord b) s = .next (s.takeTrap { cause := 0x01 }))
      ∧ (b.extractLsb' 88 7 ≠ 0 → (G.active = [] ∨ (h.guardOk = true ∧ ∀ j ∈ G.active, (G.lane j).passes h.guard.toNat h.neg = false)) →
        exec (.reservedLaneWord b) s = .next (s.laneNext c)))

/-- R52 to R54, R176, R200, R305, R384, R395: what falls due for a group. A run starts when none is in progress; a clause begins at a legal header
once its wait mask is met and its flags can rise, as an acquire of the completions it observes; a load's data lands in its registers and a store is
done; an MMA's products join its tile; a parked group wakes and completes its word, or stays parked; an ordered operation is released, so that the
issue choice may take its stream (R297, R299); a stream that has stalled for longer than its watchdog's interval raises HANG, and a handler that has
run for longer is a double fault, which ends a dump in progress where it stands. A wake counts as the word's own execution over again (`waitAgain`);
that a stopped team keeps it, and that HANG of a lane word has TLANE 0, are the model's choices (notes/assumptions/77, 128). -/
def Obligations.GroupEventsComplete : Prop :=
  ∀ (t g id : Nat) (T : Team) (G : Group) (L : Launch) (h : Header) (r : Run) (rest : List Run) (ld : LoadRec) (st : StoreRec) (m : Mma)
    (v : Reservation) (p : Park) (s s' : State), s.team? t = some T → s.group? t g = some G → s.launchOf? t = some L → G.gone = false →
    let lane : State := { s with cur := some ⟨t, g, .lane⟩ }
    (G.run = none → G.runs = r :: rest → exec (.runStart t g) s = .next (s.modGroup t g fun _ => { G with run := some r, runs := rest }))
    ∧ (G.clause = none → G.run = some r →
      (headerAt r.target.toNat lane = .ok (some h, s') → (∀ n < 12, h.wait.getLsbD n = true → G.flag n = 0) →
        (∀ n, (h.fa = some n ∨ h.fb = some n) → G.flag n < 255) →
        exec (.clauseStart t g) s = .next (((s'.acquireFor t (G.observed h.wait)).modGroup t g fun X =>
          X.beginClause r.target.toNat h).traceGroup t g 2 h.id.toNat G.ric.toNat))
      ∧ (headerAt r.target.toNat lane = .ok (some h, s') → (∃ n < 12, h.wait.getLsbD n = true ∧ G.flag n ≠ 0) →
        exec (.clauseStart t g) s = .next (s'.markStall .flag))
      ∧ (headerAt r.target.toNat lane = .ok (none, s') → exec (.clauseStart t g) s = .next (s'.takeTrap { cause := 0x06 })))
    ∧ ((G.loads.find? fun l => l.id == id && !l.blocks && l.waiting == 0) = some ld → s.poison = [] →
      exec (.loadDataReturn t g id) s = .next ((s.modGroup t g fun X => (Group.modTag
        { X with lanes := ld.dsts.foldl (fun ls d => modifyAt (fun l => Lane.land l d) d.lane ls) X.lanes, loads := X.loads.filter fun l => l.id != ld.id }
        ld.tag fun y => { y with loads := y.loads - 1 }).settleTags).settleTeam t))
    ∧ ((G.stores.find? fun x => x.id == id && x.waiting == 0) = some st → exec (.storePerformed t g id) s = .next ((s.modGroup t g fun X =>
        (Group.modTag { X with stores := X.stores.filter fun x => x.id != st.id } st.tag fun y => { y with stores := y.stores - 1 }).settleTags).settleTeam t))
    ∧ ((G.mmas.find? fun x => x.id == id) = some m → (G.mmas.find? fun x => x.tile == m.tile) = some m → T.live? m.o = some v → s.poison = [] →
      exec (.mmaComplete t g id) s = .next ((s.modGroup t g fun X =>
        { X with tiles := modifyAt (mmaTile v m X.lanes.length) m.tile X.tiles }).dropMma t g m))
    ∧ (G.park = some p → (p.isWaita = true → L.detm = 2 → p.written = true ∨ p.polls = true) →
      let woken : State := { s.modGroup t g fun X => X.afterPark L.detm p with cur := some ⟨t, g, p.stream⟩ }
      (T.state = .running → T.away = false → T.stop = false → T.live = true → waitAgain p.word woken = .next s' →
        exec (.parkWake t g) s = .next (if ((s'.group? t g).bind (·.park)).isSome then s else s')
        ∧ (p.isWaita = true → (∃ d, p.deadline = some d ∧ d ≤ s.tick) →
          exec (.waitaTimeout t g) s = .next (if ((s'.group? t g).bind (·.park)).isSome then s else s')))
      ∧ ((T.state ≠ .running ∨ T.away = true ∨ T.stop = true ∨ T.live = false) → exec (.parkWake t g) s =
        .next (s.modGroup t g fun X => { X with park := X.park.map fun p => { p with written := true } })))
    ∧ (s.isLeast T.launch L t g G.ric.toNat = true →
      (G.stallL = some .ordered → exec (.orderedOpRelease t g) s = .next (s.modGroup t g fun X => { X with stallL := none }))
      ∧ (G.stallL ≠ some .ordered → G.stallS = some .ordered →
        exec (.orderedOpRelease t g) s = .next (s.modGroup t g fun X => { X with stallS := none })))
    ∧ (T.live = true → T.away = false → T.state = .running → G.park = none → s.watchdog L.cls < s.tick - G.ricSeen →
      ((∃ k, G.stallL = some k ∧ k.hangs = true) → exec (.hang t g) s = .next (lane.takeTrap { cause := 0x38 }))
      ∧ ((∀ k, G.stallL = some k → k.hangs = false) → (∃ k, G.stallS = some k ∧ k.hangs = true) →
        exec (.hang t g) s = .next ({ s with cur := some ⟨t, g, .scalar⟩ }.takeTrap { cause := 0x38, tinfo := 2 })))
    ∧ (T.live = true → s.watchdog L.cls < s.tick - T.handler.since →
      ((T.state = .handling ∨ (T.state = .dumping ∧ T.handler.dump = none)) → exec (.handlerWdogExpiry t) s = .next (s.doubleFault t 0x38))
      ∧ (∀ buf made, T.state = .dumping → T.handler.dump = some (buf, made) → exec (.handlerWdogExpiry t) s =
        .next ((s.cutDump t buf made).doubleFault t 0x38 (if made = 0 then 0 else 2))))

/-- R179, R183 to R188, R211, R377: the engines' events. A command takes up its next piece, one that waited before; when every piece is performed it
is done, its result word written where it has one, its flag lowered and its locks released; a fault stops it and is held for its group with TINFO[63]
set; the oldest command of a Spire has its effect; a PLVAL waits for the tile's exponent, and writes its view once the tile also has the planes asked
for or is cancelled; where pieces of the view are still to be performed, it is done with the last of them (R253; which they are is free, the model's
choice, notes/assumptions/4). That the command of a killed group or an ended team is dropped at its fault, and that of a retired group raises it, is
the model's choice (notes/assumptions/46). -/
def Obligations.EngineEventsComplete : Prop :=
  ∀ (t id core : Nat) (c : Cmd) (ag : Agent) (G : Group) (k : Coll) (x : Tile) (cause : BitVec 8) (addr : Word) (detail : BitVec 32) (n : Nat)
    (rest : List Nat) (can : Agent) (late : Bool) (s s' s'' : State), s.cmd? t id = some c → c.faulted = false → s.agentOf? t = some ag →
    (c.retry = n :: rest → exec (.enginePieceLand t id) s =
      .next (((s.modCmd t id fun c => { c with retry := rest }).takePiece ag.engine t c n).advanceCmd t id))
    ∧ (c.retry = [] → c.pos < c.pieces → c.canTake = true → exec (.enginePieceLand t id) s =
      .next (((s.modCmd t id fun c => { c with pos := c.pos + 1 }).takePiece ag.engine t c c.pos).advanceCmd t id))
    ∧ (c.pieces ≤ c.pos → c.held = [] → c.retry = [] → c.waiting = 0 →
      (c.kind = .cpy → exec (.cpyComplete t id) s = .next (s.dropCmd t id)) ∧ (c.kind = .puts → exec (.putsComplete t id) s = .next (s.dropCmd t id))
      ∧ (c.kind = .get → exec (.getComplete t id) s = .next (s.dropCmd t id))
      ∧ (c.kind = .radd → exec (.fabricRaddComplete t id) s = .next (s.dropCmd t id))
      ∧ (c.kind = .gath → exec (.gathComplete t id) s =
        .next ((s.writeScratch t (c.srec + 56) (toBytes 8 (gathMissed s t c)) c.stamp).dropCmd t id))
      ∧ (c.kind = .part → exec (.partComplete t id) s =
        .next ((s.writeScratch t (c.srec + 56) (toBytes 8 c.dropped) c.stamp).dropCmd t id)))
    ∧ (s.group? t c.grp = some G →
      let stopped := s.modCmd t id fun c => { c with faulted := true, retry := [], held := [], waiting := 0 }
      let past := (s.team? t).any fun T => T.state == .ended
      (G.killed = true ∨ past = true → exec (.engineFault t id cause addr detail) s = .next (stopped.dropCmd t id))
      ∧ (G.killed = false → past = false → exec (.engineFault t id cause addr detail) s = .next ((stopped.modGroup t c.grp Group.unpark).holdTrap t
          { cause := cause, grp := c.grp, lane := false, tlpc := G.lanePc, tlane := 0, taddr := addr, tinfo := BitVec.ofNat 64 (2 ^ 63 + detail.toNat)
            tick := s.tick, async := true, cmd := some id, lost := none })))
    ∧ ((s.cores[core]?).bind (fun y => y.spire.head?) = some (t, id) → c.waiting = 0 → c.held = [] →
      s' = s.runSpire ag.engine core t c →
      exec (.spireComplete core) s = .next (if (s'.cores[core]?).any fun y => y.spire.head? != some (t, id) && !y.spire.isEmpty
        then s'.post (.spireComplete core) else s'))
    ∧ (c.kind = .plval → c.waiting = 0 → s.canal? t = some can → (s.team? t).bind (fun T => T.collAt c.srec) = some k →
      k.tile (k.firstTile + natBits c.arg.toNat 23 0) = some x →
      let e := planeBytes k.fmt
      let want := natBits c.arg.toNat 31 24
      let half := natBit c.arg.toNat 32
      let n := if want = 0 then x.landed else min want x.landed
      (∀ E vs, (x.canc = true ∨ want ≤ x.landed) → c.pos ≠ 1 → x.exp = some E →
        vs = (k.valueAt x n).map (fun (z : Int) => if half then 2 * z + (k.comm.n : Int) * (2 ^ (k.planes - n) - 1) else z) →
        s.landLoc can { Apart.of ⟨t, c.grp, .scalar⟩ c.stamp with piece := some (id, 0, 256 * e) }
          (.global (k.view + 256 * e * natBits c.arg.toNat 23 0)) (encodeTile k.fmt k.planes E x.flags half vs) = (.ok (s', late), s'') →
        exec (.plvalViewWrite t id) s =
          .next (if late then s'.modCmd t id fun c => { c with pos := 1, waiting := c.waiting + 1 } else s'.dropCmd t id))
      ∧ (x.exp = none → exec (.plvalViewWrite t id) s = .next s)
      ∧ (x.exp.isSome = true → (x.canc = true ∨ want ≤ x.landed) → c.pos = 1 → exec (.plvalViewWrite t id) s = .next (s.dropCmd t id)))

/-- R253, R341, R344 to R348, R360: the fabric's events. A request, once every earlier one of its sender is performed, is performed and answered,
refused with its NACK code, or parked until its page is resident, or behind a parked one of its sender to the same bytes; an answer, or the failure it
brings, reaches the stream, the access, the command or the collective that waits for it, no request waits for it any more, and its beats are returned,
as are those of an answer that nobody waits for; credits return to their pool, never past its size; a link that goes down answers everything that
waits on it with NACK 4; where a ring crosses the port its collectives end, and its devices are told; a fallen port of another device of a ring ends
its collectives here and is passed on; a link restored starts anew, and sends what has been given to it since it fell. That a request waits behind a
parked one of its sender to the same bytes, the moments at which beats are returned, and which pieces of a request are performed apart are the model's
choices (notes/assumptions/115, 50, 4); so are the port in the address of a LINK_DOWN's fault record, with the store code of a canal
(notes/assumptions/120), and how the devices of a ring are told of a fall (notes/assumptions/49). -/
def Obligations.FabricEventsComplete : Prop :=
  ∀ (r : FabricReq) (f : FabricResp) (x : Remote) (code port vc n : Nat) (ps : List Part) (c : Cmd) (ag : Agent) (id : Nat) (k : Canal) (s s' : State),
    (let q := s.settleApart fun x => x.reply.any fun y => y.1.port == r.port && y.1.src == r.src;
      (q.behindParked r = true → exec (.fabricRequest r) s = .next (q.park r))
      ∧ (q.behindParked r = false → q.resolve r = (.inl code, s') → exec (.fabricRequest r) s = .next (s'.reply r (some code) []))
      ∧ (q.behindParked r = false → q.resolve r = (.inr none, s') → exec (.fabricRequest r) s = .next (s'.park r))
      ∧ (q.behindParked r = false → q.resolve r = (.inr (some ps), s') →
        let base := (ps.head?.map (·.va)).getD 0
        let pieces (b : List Byte) : List Block := ps.flatMap fun p => p.blocksOf p.peerUnit ((b.drop (p.va - base)).take p.len)
        let whose (got : List Byte) : Apart := { Apart.of ⟨0, 0, .scalar⟩ 0 with reply := some (r, got) }
        (∀ b, r.op = .write b → let x := (s'.dropLines ps).putApart false (whose []) [pieces b]
          exec (.fabricRequest r) s = .next (if x.2 then x.1 else x.1.reply r none []))
        ∧ (∀ n, r.op = .read n →
          let x := s'.readsApart false (whose (s'.readParts ps)) [{ lane := 0, ea := base, blocks := pieces (List.replicate n 0) }]
          exec (.fabricRequest r) s = .next (if x.2 = 0 then x.1.reply r none (s'.readParts ps) else x.1))
        ∧ ((∀ b, r.op ≠ .write b) → (∀ n, r.op ≠ .read n) →
          exec (.fabricRequest r) s = .next ((s'.perform r.op ps).2.reply r none (s'.perform r.op ps).1))))
    ∧ ((s.remotes.find? fun y => y.id == f.id) = none → (s.dome.orphans.find? fun y => y.1 == f.id) = none → exec (.fabricResponse f) s = .next s)
    ∧ (∀ y, (s.remotes.find? fun y => y.id == f.id) = none → (s.dome.orphans.find? fun y => y.1 == f.id) = some y →
      let u := s.modDome fun d => { d with orphans := d.orphans.filter fun y => y.1 != f.id }
      exec (.fabricResponse f) s =
        .next (if (s.dome.canals[y.2]?).any (·.up) then u.send (.credit y.2 1 (beats f.data.length)) else u))
    ∧ ((s.remotes.find? fun y => y.id == f.id) = some x →
      let u₀ : State := { s with remotes := s.remotes.filter fun y => y.id != f.id }
      let u := if (s.dome.canals[x.port]?).any (·.up) then u₀.send (.credit x.port 1 (beats f.data.length)) else u₀
      let lost (m : Nat) : Nack :=
        { lane := x.lane, cause := nackCause m, addr := BitVec.ofNat 64 (heapVa x.dev x.off), info := nackInfo x.dev m, lpc := x.lpc }
      let ends (v : State) : Prop := exec (.fabricResponse f) s = .next (v.settleTeam x.team)
      (∀ y, x.sreg = some y → ends (if u.leftBy x.team x.grp y.1 then u else u.answerScalar x y f))
      ∧ (∀ l lane off, x.sreg = none → x.cmd = none → x.load = some (l, lane, off) →
        (f.nack = none → ends (u.pieceLoaded x.team x.grp l lane off f.data)) ∧ ∀ m, f.nack = some m → ends (u.pieceLost x.team x.grp l (lost m)))
      ∧ (∀ l, x.sreg = none → x.cmd = none → x.load = none → x.store = some l →
        (f.nack = none → ends (u.pieceStored x.team x.grp l)) ∧ ∀ m, f.nack = some m → ends (u.storeLost x.team x.grp l (lost m)))
      ∧ (x.sreg = none → x.cmd = none → x.load = none → x.store = none → (f.nack = none → ends u)
        ∧ ∀ m X, f.nack = some m → u.group? x.team x.grp = some X →
          ends (if X.killed then u else (u.modGroup x.team x.grp Group.unpark).holdTrap x.team
            { cause := nackCause m, grp := x.grp, lane := false, tlpc := X.lanePc, tlane := 0, taddr := BitVec.ofNat 64 (heapVa x.dev x.off)
              tinfo := BitVec.ofNat 64 (2 ^ 62 + nackInfo x.dev m), tick := u.tick, async := true, cmd := none, lost := none }))
      ∧ (x.sreg = none → x.cmd = some id → (u.coll? x.team id = none → u.cmd? x.team id = some c → u.agentOf? x.team = some ag → c.faulted = false →
        c.kind.isSpire = false →
        let w := u.modCmd x.team id fun c => { c with waiting := c.waiting - 1 }
        (f.nack = none → x.rd = true → ends ((w.deliver ag.engine x.team c x.lane (c.piece w x.team x.lane) f.data).advanceCmd x.team id))
        ∧ (f.nack = none → x.rd = false →
          let v := if c.kind = .part then w.advanceCursor x.team c (partIndex w x.team c.desc x.lane) else w
          ends ((v.landed x.team c (c.piece v x.team x.lane).len).advanceCmd x.team id))
        ∧ ∀ m, f.nack = some m → ends (w.post (.engineFault x.team id (nackCause m)
          (BitVec.ofNat 64 (heapVa x.dev x.off)) (BitVec.ofNat 32 (nackInfo x.dev m + c.kind.opcode)))))
        ∧ ∀ C, u.coll? x.team id = some C → ends (u.answerColl x C f)))
    ∧ (s.dome.canals[port]? = some k → exec (.vcCreditReturn port vc n) s = .next ((s.modDome fun d => { d with
        canals := d.canals.set port ({ k with credits := modifyAt (fun x => min (x + n) (vcPools.getD vc 0)) vc k.credits }) }).flush port))
    ∧ (let u := (s.remotes.filter fun r => r.port == port).foldl (fun (u : State) r => u.post (.fabricResponse { id := r.id, nack := some 4, data := [] }))
        (((s.modDome fun d => { d with canals := modifyAt (fun c => { c with up := false, waiting := [] }) port d.canals }).report
          { kind := 5, cause := 0x61, store := 7, addr := port }).modDome fun d => { d with orphans := d.orphans.filter fun y => y.2 != port })
      let fallen (C : Context) (v : State) (y : Comm) : State :=
        if v.crosses port y then (v.breakComm (v.ringNotice C.id y)).tellRing y (v.ringNotice C.id y) y.pos else v
      exec (.linkDown (.own port)) s = .next (u.contexts.foldl (fun v C => C.comms.foldl (fallen C) v) u)
      ∧ ((∀ C ∈ s.contexts, ∀ y ∈ C.comms, y.n ≤ 1 ∨ (y.canal ≠ port ∧ s.ringIn y ≠ port)) → exec (.linkDown (.own port)) s = .next u))
    ∧ (∀ pk pos,
      let e : Event := .linkDown (.ring pk pos)
      let v := if s.dome.credited.contains e then s.modDome fun d => { d with credited := d.credited.erase e } else s.ringCredit pk 3 64
      (s.commOf? pk = none → exec (.linkDown (.ring pk pos)) s = .next v)
      ∧ ∀ y, s.commOf? pk = some y →
        let pk' : PlaneKey := { pk with seq := if pk.tile = 0 then pk.seq else max pk.seq y.issued }
        let w := v.breakComm pk'
        let w := if pos = y.pos then w else w.tellRing y pk' pos
        exec (.linkDown (.ring pk pos)) s = .next (if y.issued < pk.seq then w.later (.linkDown (.ring { pk with tile := 0 } y.pos)) else w))
    ∧ exec (.linkRestored port) s =
      .next ((s.modDome fun d =>
        { d with canals := modifyAt (fun c => if c.up then c else { Canal.start with waiting := c.waiting }) port d.canals }).flush port)

/-- R322, R323, R332 to R336, R385 to R388, R405, R420, R429, R431: the memory's events and the host's. An invalidation drops the matching
translations and lines, once the commutative adds under way are combined, and GO falls once it is done, every waiting access walking again and the
monitors of parked waits following their words (R176; notes/assumptions/14); the sweeper lowers the heat of every leaf; a clean line expires; the host
reads and writes HBM, snoops its lines and gives lines back; a core without teams may lose power; an error that is corrected counts, one that is not
poisons its unit, and both are reported; a resolution step moves one counter's carry, never the accumulator's sum. Which lines an invalidation of SIZE
3 takes is the model's (notes/assumptions/78), and so are which flipped bits a code corrects (notes/assumptions/31, DESIGN CHOICE) and that flipped
bits change nothing until they are met (notes/assumptions/55), that an access of the host by port 1 while its function is off is answered as one before
the device is ready (notes/assumptions/129), and that a kind-4 record which has coalesced none counts 1 (notes/assumptions/59). -/
def Obligations.MemoryEventsComplete : Prop :=
  ∀ (v : Word) (core asid line unit records t g lane acc ctr : Nat) (r : HostReq) (b data : List Byte) (inval hard : Bool)
    (u : EccUnit) (G : Group) (l : Lane) (a : Acc) (as : List Acc) (s : State),
    (s.dome.tlbi.getLsbD 63 = false → v.getLsbD 63 = true → ∃ s', exec (.domeTlbi v) s = .next s' ∧ s'.dome.tlbi = v &&& 0xF0FFFFFFFFFFFFFF#64
      ∧ (∀ (j : Nat) (q : Quad), s'.quads[j]? = some q → ∀ e ∈ q.tlb, e.matches v.toNat = false)
      ∧ (∀ (j : Nat) (c : Core), s'.cores[j]? = some c → ∀ l ∈ c.l1, l.matches v.toNat = false) ∧ s'.partials = []
      ∧ (∃ es, s'.agenda = s.agenda ++ es ++ [.event .tlbiComplete])
      ∧ s'.apart = [] ∧ (s.partials = [] → s.apart = [] → s'.mem = s.mem ∧ s'.agenda = s.agenda ++ [.event .tlbiComplete]))
    ∧ (s.dome.tlbi.getLsbD 63 = true → exec (.domeTlbi v) s = .next s
      ∧ (let u := s.modDome fun d =>
          { d with tlbi := d.tlbi &&& 0x7FFFFFFFFFFFFFFF#64, reported := d.reported.filter fun k => !coveredPage s.dome.tlbi.toNat k }
        let asid := some (natBits s.dome.tlbi.toNat 15 0)
        exec .tlbiComplete s = .next (((List.range s.teams.length).foldl (fun (u : State) t => if u.ofAsid asid t then u.rearmTeam t else u) u).retryWaits
          asid)))
    ∧ (s.dome.sweep.getLsbD 31 = true →
      let leaves := (s.contexts.flatMap fun C => (C.leaves s).map (·.1)).eraseDups
      let held := leaves.filterMap fun a => s.heldLine a 8
      (held = [] → exec .sweeperPass s = .next
        ((leaves.foldl sweepLeaf s).modDome fun d => { d with sweepAt := s.tick + natBits d.sweep.toNat 23 0 * 1000 }))
      ∧ (held ≠ [] → exec .sweeperPass s = .next (held.foldl (fun (u : State) x => u.askBack x) s)))
    ∧ exec (.l1CleanExpiry core asid line) s = .next (s.modCore core fun c =>
        { c with l1 := c.l1.filter fun l => !(l.asid == asid && l.vline == line && !l.dirty && (l.share != 1 || l.host)) })
    ∧ (s.hostServed = true → (r.port = 1 → s.plat.port1Off = false) → s.hostMay r.addr b.length true = true → r.write = some b → ∃ s', exec (.hostAccess r) s = .next s'
      ∧ s'.outbox.getLast? = some (.hostReply r.addr false []) ∧ (Memory.wf s.mem = true → r.addr + b.length ≤ 2 ^ 40 → ∀ i < b.length,
        cellGet (r.addr + i) s'.mem = b.getD i 0))
    ∧ (s.hostServed = true → (r.port = 1 → s.plat.port1Off = false) → s.hostMay r.addr r.len false = true → r.write = none → ∃ s',
      exec (.hostAccess r) s = .next s' ∧ (let bad := (s'.poisonAt false r.addr r.len).isSome
        s'.outbox.getLast? = some (.hostReply r.addr bad (if bad then [] else cellsRead s'.mem r.addr r.len)))
      ∧ ((∀ p ∈ s.partials, p.meets false r.addr r.len = false) → (∀ C ∈ s.contexts, C.leavesIn s r.addr r.len = []) →
        (r.take = false ∨ s.apart = []) → s'.mem = s.mem ∧ s'.poison = s.poison)
      ∧ (r.take = true → ∃ d ∈ s'.dome.dir, d.line = r.addr / 128 ∧ d.hostHas = true))
    ∧ ((s.hostServed = false ∨ r.port = 1 ∧ s.plat.port1Off = true ∨ s.hostMay r.addr r.len false = false) → r.write = none →
      exec (.hostAccess r) s = .next (s.send (.hostReply r.addr true [])))
    ∧ (s.hostServed = true → ∃ s', exec (.hostSnoop line inval) s = .next s'
      ∧ (let bad := (s'.poisonAt true (128 * line) 128).isSome
        s'.outbox.getLast? = some (.hostReply (128 * line) bad (if bad then [] else cellsRead s'.hostMem (128 * line) 128)))
      ∧ (∀ p ∈ s'.partials, p.meets true (128 * line) 128 = false)
      ∧ ((∀ p ∈ s.partials, p.meets true (128 * line) 128 = false) → s'.mem = s.mem ∧ s'.hostMem = s.hostMem ∧ s'.poison = s.poison)
      ∧ (inval = true → (∀ x ∈ s'.l2, (x.host && x.line == line) = false) ∧ ∀ c ∈ s'.cores, ∀ x ∈ c.l1, (x.host && x.pline == 128 * line) = false))
    ∧ ((s.heldLine (128 * line) 128).isSome = true → exec (.backInvalidateResponse line data) s = .next
      (((if data.isEmpty then s else s.writeMem false (128 * line) (data.take 128)).modDome fun d =>
        { d with dir := d.dir.filter fun x => x.line != line }).retryWaits none))
    ∧ ((∀ T ∈ s.teams, T.live = false ∨ T.away = true ∨ T.core ≠ core) →
      let u := s.combine fun p => p.core == core
      exec (.corePowerGating core) s =
        .next ((u.writeBack (u.linesOf core fun _ => true)).modCore core fun c => { c with l1 := [], gated := true }))
    ∧ ((∃ T ∈ s.teams, T.live = true ∧ T.away = false ∧ T.core = core) → exec (.corePowerGating core) s = .next s)
    ∧ (s.dome.ring = none → let bad := ((s.upsets.find? fun x => x.1 == u).map fun x => !correctable u x.2).getD hard
      ∃ s', exec (.eccError u hard) s = .next s' ∧ s'.mem = s.mem ∧ (bad = true → u ∈ s'.poison)
        ∧ (bad = false → s'.poison = s.poison ∧ s'.dome.corrected = modifyAt (· + 1) (unitStore u).1 s.dome.corrected)
        ∧ (let C := s.unitContext u
          let T := (unitOwner u).1.bind s.team?
          let r : FaultRec :=
            { kind := if bad then 3 else 4, cause := if bad then 0x60 else 0x62, store := (unitStore u).1, addr := (unitStore u).2 % 2 ^ 52
              count := if bad then 0 else 1, ctx := (C.map (·.id)).getD 0, core := s.unitCore u, grp := (unitOwner u).2
              team := (T.map (·.ordinal)).getD 0 }
          s.dome.held.length < 256 → (s.context? ((C.map (·.id)).getD 0)).any (·.conf) = false →
            s'.dome.held = s.dome.held ++ [(if bad then none else some (unitStore u).1, r.bytes s.tick)]))
    ∧ exec .scrubPass s = .next (((s.upsets.filter fun x => isScrubbed x.1).foldl (fun (u : State) x =>
        u.meetError x.1 (!correctable x.1 x.2)) s).modDome fun d => { d with scrubAt := s.tick + 86400000000000 })
    ∧ exec .faultRingDrain s = .next (s.drainRing s.dome.held.length)
    ∧ (∀ w size, s.dome.trace = some (w, size) → (∀ k < 5, s.dome.lost.getD k 0 = 0) → exec (.traceRingSpaceReturn unit records) s =
      .next (s.modDome fun d => { d with traceFree := min size (d.traceFree + records) }))
    ∧ (ctr ≤ 8 → ∃ s', exec (.resolutionStep t g lane acc ctr) s = .next s' ∧ ∀ G G', s.group? t g = some G → s'.group? t g = some G' →
      ∀ (j : Nat) (l l' : Lane), G.lanes[j]? = some l → G'.lanes[j]? = some l' → l'.v = l.v ∧ l'.p = l.p
        ∧ ∀ (i : Nat) (a a' : Acc), l.a[i]? = some a → l'.a[i]? = some a' → a.seg.length = 10 → a.cnt.length = 10 →
          -32768 < (a.cnt.getD 9 0).toInt → (a.cnt.getD 9 0).toInt < 32767 → a'.val = a.val ∧ a'.status = a.status)
    ∧ (ctr ≤ 8 → ∃ s', exec (.resolutionStep t g lane acc ctr) s = .next s' ∧ ∀ G G', s.group? t g = some G → s'.group? t g = some G' →
      ∀ (j i : Nat) (as as' : List Acc) (a a' : Acc), G.tiles[j]? = some as → G'.tiles[j]? = some as' → as[i]? = some a → as'[i]? = some a' →
        a.seg.length = 10 → a.cnt.length = 10 → -32768 < (a.cnt.getD 9 0).toInt → (a.cnt.getD 9 0).toInt < 32767 →
          a'.val = a.val ∧ a'.status = a.status)
    ∧ (ctr ≤ 8 → s.group? t g = some G → a.seg.length = 10 → a.cnt.length = 10 →
      (acc < 256 → G.lanes[lane]? = some l → l.a[acc]? = some a → ∃ s' G' l' a', exec (.resolutionStep t g lane acc ctr) s = .next s'
        ∧ s'.group? t g = some G' ∧ G'.lanes[lane]? = some l' ∧ l'.a[acc]? = some a' ∧ CarryMoved ctr a a')
      ∧ (256 ≤ acc → G.tiles[acc - 256]? = some as → as[lane]? = some a → ∃ s' G' as' a', exec (.resolutionStep t g lane acc ctr) s = .next s'
        ∧ s'.group? t g = some G' ∧ G'.tiles[acc - 256]? = some as' ∧ as'[lane]? = some a' ∧ CarryMoved ctr a a'))

/-- R341, R350 to R359: the events of a collective. A header is compared with this device's entry; one that agrees is carried on, this device's
exponent and flags joined to it, and fixes the tile once it is final; one that differs ends the collective here and carries the device that differs
on. The header of an all-gather tile goes round the whole ring before its owner gives the tile's exponent out and converts the tile. Which devices a
header names, what each message holds, what of it waits here, and that a header that this device forms itself shows only an entry that names another
next device than its count has, are the model's (notes/assumptions/49). A plane of counts takes this device's bits and goes on, or lands at its owner;
a gathered plane lands and goes on; a cancel reaches the tile's owner, which decides it; a freeze fixes the tile and goes on with its gather planes;
an answer goes on to the position that asked, and there a refused cancel is kept for the PLCX that waits. The beats of what has arrived are returned,
but for what this device made itself or what goes on waiting; those of VC 3 are returned as it comes, once. R350: a collective tile whose header
differs from this device's parameters is known at once: the mismatch ends the collective here with every tile cancelled and nothing landed. -/
def Obligations.CollectiveEventsComplete : Prop :=
  (∀ (k : PlaneKey) (h : HeaderBody) (t plane f n pos bad : Nat) (c : Coll) (x y : Tile) (E : Int) (counts bits : List Nat) (vals : List Int)
    (vs : List FVal) (g : Nat) (detm violation : Bool) (s s' : State), s.collOf? k = some (t, c) → c.odd = false →
    let dev := natBits s.dome.podcfg.toNat 9 0
    let own := formedHere h
    let pass (h : HeaderBody) (u : State) : State :=
      if c.comm.n > 1 ∨ own = false ∨ c.comm.stray dev = true then u.sendRing c k 2 64 (.header k { h with sender := dev, next := c.comm.next }) else u
    let came (mine : Bool) (e : Event) : State :=
      if s.dome.credited.contains e then s.modDome fun d => { d with credited := d.credited.erase e } else if mine then s else s.ringCredit k 3 64
    let paid (mine : Bool) (credit : State → State) (u : State) : State :=
      if mine || decide (s.dome.later.length < u.dome.later.length) then u else credit u
    (h.mismatch = none →
      ((own = true ∧ c.comm.stray dev = false ∨ own = false ∧ c.mismatch dev h = none) → c.op ≠ 2 →
        (h.final = true → let u := s.fixTile k.ctx t c k.tile (h.exp.getD 0) h.flags
          exec (.planeHeader k h) s = .next (paid own (State.ringCredit k 2 64) (if c.comm.pos + 2 = c.comm.n then u else pass h u)))
        ∧ (h.final = false → s.sourceTile t c k.tile = (.vals vs, s') →
          let u := s'.forgetTile t c.cmd k.tile
          let e := maxExp h.exp (tileExp vs)
          let fl := h.flags ||| tileFlags vs
          exec (.planeHeader k h) s = .next (paid own (State.ringCredit k 2 64) (if c.comm.pos + 1 = c.comm.n
            then pass { h with exp := some (e.getD 0), flags := fl, final := true } (u.fixTile k.ctx t c k.tile (e.getD 0) fl)
            else pass { h with exp := e, flags := fl } u))))
      ∧ ((own = true ∧ c.comm.stray dev = true ∧ bad = dev ∨ own = false ∧ c.mismatch dev h = some bad) → exec (.planeHeader k h) s =
        .next (paid own (State.ringCredit k 2 64) (pass { h with mismatch := some bad } (s.endOdd t c bad))))
      ∧ (own = false → c.mismatch dev h = none → c.op = 2 →
        let u := s.fixTile k.ctx t c k.tile (h.exp.getD 0) h.flags
        (h.final = true → exec (.planeHeader k h) s = .next (paid false (State.ringCredit k 2 64) (if c.next = c.owner k.tile then u else pass h u)))
        ∧ (h.final = false → c.owner k.tile ≠ c.comm.pos → exec (.planeHeader k h) s = .next (paid false (State.ringCredit k 2 64)
          (pass h (if c.owner k.tile = 0 then s.modColl t c.cmd fun c => { c with first := c.first.or (some h) } else s))))
        ∧ (h.final = false → c.owner k.tile = c.comm.pos → (∀ x, c.tile k.tile = some x → x.exp = none) →
          exec (.planeHeader k h) s = .next (paid false (State.ringCredit k 2 64)
            ((pass { h with final := true } u).post (.planeHeader k { h with sender := 1024 })))))
      ∧ (own = true → c.comm.stray dev = false → c.op = 2 → h.final = false → (c.comm.pos = 0 ∨ c.first.isSome = true) →
        c.tile k.tile = some x → x.exp = some E → s.sourceTile t c k.tile = (.vals vs, s') →
        exec (.planeHeader k h) s = .next ((s'.forgetTile t c.cmd k.tile).convertOwn k.ctx t c k.tile
          (vs.map fun v => signed c.planes (wrapNat c.planes (planeInt c.planes E v))))))
    ∧ (c.tile k.tile = some x → x.canc = false → x.fixed = none → x.exp = some E →
      (s.ownBits t c k.tile plane E = (some bits, s') →
        let sum := (counts.zip bits).map fun ab => ab.1 + ab.2
        let paidCount := paid (c.comm.pos == (c.owner k.tile + 1) % max 1 c.comm.n) (State.ringCredit k 2 (countBytes c.comm.n))
        (c.owner k.tile ≠ c.comm.pos → exec (.countPlane k plane counts) s =
          .next (paidCount (s'.sendRing c k 2 (32 * (Nat.log2 c.comm.n + 1)) (.count k plane sum))))
        ∧ (c.owner k.tile = c.comm.pos → plane = x.landed + 1 → c.broken = false →
          let u := (((s'.modTile t c.cmd k.tile fun x => { x with counts := x.counts ++ [sum], landed := x.landed + 1 }).touch t c.cmd k.tile).checkWant
            k.ctx t c.cmd k.tile)
          (u.coll? t c.cmd).bind (fun c => c.tile k.tile) = some y → (y.landed ≠ c.planes → exec (.countPlane k plane counts) s = .next (paidCount u))
          ∧ (y.landed = c.planes → y.fixed = none → let w := u.finishTile t c.cmd k.tile
            exec (.countPlane k plane counts) s =
              .next (paidCount (if c.op = 0 then w.sendGathers k.ctx c k.tile (c.valueAt y c.planes) else w)))))
      ∧ (plane = x.gathers.length + 1 → c.broken = false →
        let u := ((if c.next = c.owner k.tile then s
          else s.sendRing c k 2 (32 * if plane ≠ 1 ∨ c.op = 2 ∨ c.comm.n ≤ 1 then 1 else Nat.log2 (c.comm.n - 1) + 2) (.gather k plane false vals)).modTile
            t c.cmd k.tile fun x => { x with gathers := x.gathers ++ [vals], landed := x.landed + 1 }).touch t c.cmd k.tile
        exec (.gatherPlane k plane vals) s =
          .next (paid false (State.ringCredit k 2 (c.gatherBytes plane)) (if plane = c.planes then u.finishTile t c.cmd k.tile else u)))
      ∧ (c.broken = false → let v := came false (.freeze k f vals)
        exec (.freeze k f vals) s = .next (paid false
          (fun u => (if c.op = 1 then [] else (List.range f).map fun j => c.gatherBytes (j + 1)).foldl (fun u n => u.ringCredit k 2 n) u)
          (((if c.next = c.owner k.tile then v else v.sendFreeze c k f vals).modTile t c.cmd k.tile
            fun x => { x with want := some f, fixed := some vals }).finishTile t c.cmd k.tile)))
      ∧ (let v := came ((s.commOf? k).any (·.pos == pos)) (.cancelRequest k n pos detm)
        (c.owner k.tile = c.comm.pos → exec (.cancelRequest k n pos detm) s = .next (v.arbitrate k.ctx t c.cmd k.tile n pos detm))
        ∧ (c.owner k.tile ≠ c.comm.pos → exec (.cancelRequest k n pos detm) s = .next (v.sendRing c k 3 64 (.cancel k n pos detm)))))
    ∧ (let v (violation : Bool) := came (c.owner k.tile == c.comm.pos) (.cancelAnswer k ⟨n, pos, violation⟩)
      (c.comm.pos ≠ pos → exec (.cancelAnswer k ⟨n, pos, violation⟩) s =
        .next ((v violation).sendRing c k 3 64 (.cancelAnswer k ⟨n, pos, violation⟩)))
      ∧ (c.comm.pos = pos → (s.team? t).bind (fun T => T.asker c.cmd k.tile n) = some g →
        exec (.cancelAnswer k ⟨n, pos, true⟩) s =
          .next ((v true).modGroup t g fun G => { G with cancel := G.cancel.map fun x => { x with refused := x.refused ++ [k.tile] } })
        ∧ exec (.cancelAnswer k ⟨n, pos, false⟩) s = .next (v false))))
  ∧ (∀ (k : PlaneKey) (h : HeaderBody) (t : Nat) (c : Coll) (bad : Nat) (s : State), s.collOf? k = some (t, c) → c.odd = false → h.mismatch = some bad →
    ∃ s', exec (.planeHeader k h) s = .next s' ∧ ∀ c', s'.coll? t c.cmd = some c' → c'.cmd = c.cmd →
      c'.odd = true ∧ c'.broken = true ∧ ∀ x ∈ c'.tiles, x.canc = true ∧ x.landed = 0)

/-- R229, R233 to R236, R293, R296, R304 to R316, R402 to R405, R408, R413: what the command processor and the Dome do when it falls due. A class-0
team that fits nowhere takes a core, whose teams are pre-empted (R303). Where a cluster is placed or restored is the model's (notes/assumptions/18,
DESIGN CHOICE), as are when held traps enter the handler of a team that is saved (notes/assumptions/32), which of two waiting teams comes first
(notes/assumptions/33), the order in which a launch record is checked and when it waits (notes/assumptions/75), and which group a sample shows
(notes/assumptions/56, DESIGN CHOICE). -/
def Obligations.SchedulingEventsComplete : Prop :=
  ∀ (ctx queue l t core : Nat) (C : Context) (q : Queue) (L M : Launch) (hs : List (Nat × Nat)) (T : Team) (n : Nat) (seats : List Seat)
    (ps : List (List (Nat × List (Nat × Nat × Nat)))) (d : List Byte) (s s' w : State),
    let kept (s : State) : State := s.modContext ctx fun C =>
      { C with queues := modifyAt (fun q => { q with waiting := q.waiting + 1 }) queue C.queues }
    (s.context? ctx = some C → C.queues[queue]? = some q → s.ready = false → exec (.launchAccept ctx queue) s = .next (kept s))
    ∧ (s.context? ctx = some C → C.queues[queue]? = some q → s.ready = true →
      let slot := q.base + 32 * (if q.size = 0 then 0 else q.next % q.size)
      let u := s.combine (Partial.meets false slot 32)
      let e := u.devRead slot 32
      let done (s : State) : State := s.modContext ctx fun C =>
        { C with queues := modifyAt (fun q => { q with next := q.next + 1 }) queue C.queues }
      (∀ line, s.heldLine slot 32 = some line → exec (.launchAccept ctx queue) s = .next (kept (s.askBack line)))
      ∧ (s.heldLine slot 32 = none → fld e 8 1 = 1 → allZero (e.drop 9) = true →
        (u.takeRecord C (fld e 0 8) = (.ok M hs, s') →
          exec (.launchAccept ctx queue) s = .next ((done (s'.accept M hs)).writeStatus C M.completion 0xFFFFFFFF))
        ∧ (u.takeRecord C (fld e 0 8) = (.refused n, s') → s'.vread C.agent (fld e 0 8) 256 = (some d, w) → fld d 112 8 % 64 = 0 →
          exec (.launchAccept ctx queue) s = .next (done (w.writeStatus C (fld d 112 8) (n - 1))))
        ∧ (u.takeRecord C (fld e 0 8) = (.wait, s') → exec (.launchAccept ctx queue) s = .next (kept s')))
      ∧ (s.heldLine slot 32 = none → (fld e 8 1 ≠ 1 ∨ allZero (e.drop 9) = false) →
        exec (.launchAccept ctx queue) s = .next (done (u.send (.skipped ctx queue)))))
    ∧ (s.launches[l]? = some L → s.ready = true → s.othersFirst l L = false → s.mateFirst l L.clusters.length = false → s.planFor l = some ps →
      exec (.teamPlace l) s = .next (ps.foldl (fun s p => s.startCluster l p) s))
    ∧ (s.launches[l]? = some L → s.ready = true → s.othersFirst l L = false → s.mateFirst l L.clusters.length = false → s.planFor l = none →
      s.context? L.ctx = some C → L.cls = 0 → L.wants = true → s.depsMet L = true → s.victim L C.cores = some core →
      exec (.teamPlace l) s = .next ((indexed 0 s.teams).foldl (fun u tT =>
          if tT.2.live = true ∧ tT.2.away = false ∧ tT.2.core = core ∧ tT.2.stop = false then
            (u.modTeam tT.1 fun T => { T with stop := true }).post (.preempt tT.1) else u)
        (s.modCore core fun c => { c with taking := some l })))
    ∧ (s.launches[l]? = some L → s.launchOver l L = true → exec (.launchEnd l) s = .next (s.finishLaunch l))
    ∧ (s.launches[l]? = some L → L.ended = false → exec (.driverLaunchEnd l) s = .next
      (((indexed 0 s.teams).foldl (fun u tT => if tT.2.launch = l ∧ tT.2.live = true then u.killTeam tT.1 else u)
        (s.modLaunch l fun L => { L with killed := true, halted := true })).post (.launchEnd l)))
    ∧ (s.swappable t = false → exec (.swapEligible t) s =
      .next ((s.cluster t false).foldl (fun (x : State) u => x.modTeam u fun T => { T with elig := false }) s))
    ∧ (s.swappable t = true → let u := (s.cluster t false).foldl (fun (x : State) u => x.modTeam u fun T => { T with elig := true }) s
      ((u.wanted t = false ∨ s.plat.phase = .live) → exec (.swapEligible t) s = .next u)
      ∧ (u.wanted t = true → s.plat.phase ≠ .live → exec (.swapEligible t) s =
        .next (((u.cluster t false).foldl (fun (x : State) u => x.modTeam u fun T => { T with stop := true, yields := true }) u).post (.preempt t))))
    ∧ (s.launchOf? t = some L → s.plat.phase ≠ .live →
      let u := (s.cluster t false).foldl (fun (x : State) u => x.modTeam u fun T => { T with stop := true }) s
      exec (.preempt t) s = .next (if (s.cluster t false).all (fun w => (u.team? w).any fun U => u.canSave w U L)
        then (s.cluster t false).foldl (fun x w => x.saveTeam w) ((s.cluster t false).foldl (fun x w => x.settleAll w) u) else u))
    ∧ (s.launchOf? t = some L → s.plat.phase = .live → s.team? t = some T →
      (T.stop = true → exec (.preempt t) s = .next s)
      ∧ (T.stop = false → exec (.preempt t) s = .next (s.modDome fun d => { d with later := d.later ++ [.preempt t] })))
    ∧ (s.team? t = some T → s.launchOf? t = some L → s.contextOf? t = some C → T.live = true → T.away = true → s.ready = true →
      s.seatsAt t core = some (n, seats) → s.givesWay t = false → s.othersFirst T.launch L = false → s.mateFirst T.launch T.cluster = false →
      exec (.restore t core) s = .next (seats.foldl (fun s x => s.resumeTeam x.team) (seats.foldl (fun s x => s.seatTeam x) (s.takeRoom (seats.map (·.core))))))
    ∧ (s.dome.stopctl.getLsbD 1 = true → s.plat.phase ≠ .draining → exec .globalTick s = .next { s with tick := s.tick + 1 })
    ∧ ((s.plat.phase = .draining ∨ s.plat.phase = .held ∧ s.dome.stopctl.getLsbD 1 = false) →
      exec .globalTick s = .next { s with tick := s.tick + 1 }.advancePlatform)
    ∧ ((s.dome.stopctl.getLsbD 1 = false ∨ s.plat.phase = .draining) → ∃ s', exec .globalTick s = .next s'
      ∧ (s.plat.phase = .ready → s'.tick = s.tick + 1 ∧ s'.mem = s.mem ∧ s'.hostMem = s.hostMem ∧ ∃ es, s'.agenda = s.agenda ++ es))
    ∧ (s.stopped = false → ∃ s', exec .coreClockCycle s = .next s' ∧ s'.plat.cycles = s.plat.cycles + 1 ∧ s'.mem = s.mem ∧ s'.tick = s.tick
      ∧ s'.agenda = .issue :: s.agenda)
    ∧ (s.dome.cntsnap.getLsbD 63 = true → ∃ s', exec .cntsnapCopy s = .next s' ∧ s'.dome.cntsnap = BitVec.ofNat 64 (s.tick % 2 ^ 63)
      ∧ ∀ (j : Nat) (c c' : Core), s.cores[j]? = some c → s'.cores[j]? = some c' → c'.snap = c.leaves ∧ c'.leaves = c.leaves)
    ∧ (s.dome.tracectl.getLsbD 0 = false → exec .traceSample s = .next s)
    ∧ (s.dome.tracectl.getLsbD 0 = true → s.dome.tracectl.getLsbD 5 = true → exec .traceSample s = .next ((List.range 192).foldl (sampled s) s))
    ∧ (s.dome.stopctl.getLsbD 0 = true → s.dome.stoptick.toNat ≤ s.tick → ∃ s', exec .dbgStop s = .next s' ∧ s'.dome.stopctl = s.dome.stopctl ||| 2#64
      ∧ (∀ c ∈ s'.dome.canals, c.up = false)
      ∧ s'.outbox = s.outbox ++ ((List.range 24).filter fun p => (s.dome.canals[p]?).any (·.up)).map Msg.linkDown ++ [.cxlDown 0, .cxlDown 1])
    ∧ (let v := s.plat.clkctl.toNat
      let hot : Prop := natBits v 43 32 < s.plat.current ∨ natBits v 31 24 < s.plat.junction ∨ s.plat.thermN = false
      let cool : Prop := 10 * s.plat.current ≤ 9 * natBits v 43 32 ∧ s.plat.junction + 5 ≤ natBits v 31 24 ∧ s.plat.thermN = true
      ∃ s', exec .throttleEval s = .next s' ∧ natBits s'.plat.clkctl.toNat 43 8 = natBits v 43 8
      ∧ (let step := natBits s'.plat.clkctl.toNat 3 0
        (hot → step = min (natBits v 11 8) (natBits v 3 0 + 1) ∧ s'.plat.quiet = 0)
        ∧ (¬hot → cool → 99 ≤ s.plat.quiet → step = min (natBits v 11 8) (natBits v 3 0 - 1) ∧ s'.plat.quiet = 100)
        ∧ (¬hot → ¬cool → step = min (natBits v 11 8) (natBits v 3 0) ∧ s'.plat.quiet = 0)
        ∧ (cool → s.plat.quiet < 99 → step = min (natBits v 11 8) (natBits v 3 0) ∧ s'.plat.quiet = s.plat.quiet + 1)))

/-- R11, R260, R301, R302, R322, R343, R404, R405, R408, R412: the writes of the control registers. A legal value is taken with its reserved fields
reading zero, and changes that register alone; that a legal write of CLS0RSV makes the accesses which wait for an entry again is the model's choice
(notes/assumptions/84). An illegal value is discarded whole.
REGISTER_WRITE at a register's address is that register's write, at DBG.STOPTICK it sets the tick, and elsewhere it has no effect: what that word does,
in every phase, is the model's reading (notes/assumptions/79). -/
def Obligations.RegisterEventsComplete : Prop :=
  ∀ (v : Word) (cls : BitVec 2) (addr : Nat) (s : State),
    let n := v.toNat
    (quotaBad n = false → exec (.domeL2quota v) s = .next (s.modDome fun d => { d with l2quota := v &&& 0x1F1F1F1F1F1F1F1F#64 }))
    ∧ (quotaBad n = true → exec (.domeL2quota v) s = .next s)
    ∧ (1 ≤ natBits n 19 0 → natBits n 19 0 ≤ 1000000 → 1 ≤ natBits n 47 32 →
      exec (.cpClasscfg cls v) s = .next (s.modDome fun d => { d with classcfg := d.classcfg.set cls.toNat (v &&& 0x0000FFFF200FFFFF#64) }))
    ∧ ((natBits n 19 0 = 0 ∨ 1000000 < natBits n 19 0 ∨ natBits n 47 32 = 0) → exec (.cpClasscfg cls v) s = .next s)
    ∧ (natBits n 3 0 ≤ 8 → natBits n 7 4 ≤ 8 → natBits n 11 8 ≤ 8 →
      exec (.domeCls0rsv v) s = .next ((s.modDome fun d => { d with cls0rsv := v &&& 0xFFF#64 }).retryWaits none))
    ∧ ((8 < natBits n 3 0 ∨ 8 < natBits n 7 4 ∨ 8 < natBits n 11 8) → exec (.domeCls0rsv v) s = .next s)
    ∧ ((v.getLsbD 31 = true → natBits n 23 0 ≠ 0) → exec (.domeSweep v) s =
      .next (s.modDome fun d => { d with sweep := v &&& 0x80FFFFFF#64, sweepAt := s.tick + natBits n 23 0 * 1000 }))
    ∧ ((v.getLsbD 31 = true ∧ natBits n 23 0 = 0) → exec (.domeSweep v) s = .next s)
    ∧ (natBits n 9 0 < natBits n 26 16 → natBits n 26 16 ≤ 1024 → (∀ C ∈ s.contexts, C.podTag = none) →
      exec (.fabPodcfg v) s = .next (s.modDome fun d => { d with podcfg := v &&& 0x87FF03FF#64 }))
    ∧ ((natBits n 26 16 ≤ natBits n 9 0 ∨ 1024 < natBits n 26 16 ∨ ∃ C ∈ s.contexts, C.podTag ≠ none) → exec (.fabPodcfg v) s = .next s)
    ∧ (v.getLsbD 63 = true →
      exec (.domeCntsnap v) s = .next (s.modDome fun d => { d with cntsnap := d.cntsnap ||| 0x8000000000000000#64 }))
    ∧ (v.getLsbD 63 = false → exec (.domeCntsnap v) s = .next s)
    ∧ exec (.dbgTracectl v) s = .next (s.modDome fun d => { d with tracectl := v &&& 0x000000F8000001FF#64 })
    ∧ (v.getLsbD 0 = true → (s.dome.stoptick.toNat ≤ s.tick ∨ ∃ C ∈ s.contexts, C.conf = true) → exec (.dbgStopctl v) s = .next s)
    ∧ ((v.getLsbD 0 = false ∨ (s.tick < s.dome.stoptick.toNat ∧ ∀ C ∈ s.contexts, C.conf = false)) →
      exec (.dbgStopctl v) s = .next (s.modDome fun d => { d with stopctl := (d.stopctl &&& 2#64) ||| (v &&& 1#64) }))
    ∧ (let legal : Prop := 400 ≤ natBits n 43 32 ∧ natBits n 43 32 ≤ 3600 ∧ 70 ≤ natBits n 31 24 ∧ natBits n 31 24 ≤ 105 ∧ natBits n 11 8 ≤ 8
      (legal → exec (.pwrClkctl v) s = .next (s.modPlat fun p => { p with clkctl := (v &&& 0x00000FFFFF000F00#64) ||| (p.clkctl &&& 0x1F#64) }))
      ∧ (¬legal → exec (.pwrClkctl v) s = .next s))
    ∧ exec (.registerWrite 0x1F018 v) s = .next (s.modDome fun d => { d with stoptick := v })
    ∧ exec (.registerWrite 0x2000 v) s = exec (.domeL2quota v) s ∧ exec (.registerWrite 0x2010 v) s = exec (.domeCls0rsv v) s
    ∧ exec (.registerWrite 0x2018 v) s = exec (.domeSweep v) s ∧ exec (.registerWrite 0x2020 v) s = exec (.domeTlbi v) s
    ∧ exec (.registerWrite 0x4000 v) s = exec (.fabPodcfg v) s ∧ exec (.registerWrite 0x5000 v) s = exec (.pwrClkctl v) s
    ∧ exec (.registerWrite 0x1F000 v) s = exec (.domeCntsnap v) s ∧ exec (.registerWrite 0x1F010 v) s = exec (.dbgTracectl v) s
    ∧ exec (.registerWrite 0x1F020 v) s = exec (.dbgStopctl v) s
    ∧ exec (.registerWrite (0x3000 + 8 * cls.toNat) v) s = exec (.cpClasscfg cls v) s
    ∧ (addr ∉ [0x1F018, 0x2000, 0x2010, 0x2018, 0x2020, 0x4000, 0x5000, 0x1F000, 0x1F010, 0x1F020, 0x3000, 0x3008, 0x3010, 0x3018] →
      exec (.registerWrite addr v) s = .next s)

/-- R410, R414 to R419, R389, R408: reset, firmware and attestation. A reset request begins the draining of the device, once; a pin is noted; an image
is taken in the phases that take one, chunk by chunk, and started when its digest is right; COMMIT raises the fused minimums; a report is signed; a
confidential context is made with a key that lies on the curve and no stop armed, and its end leaves no context of that number. The report's signature
is the model's ECDSA with the device's identity key, under a nonce that is free. The curve's constants and byte order (notes/assumptions/74), the
identity key (notes/assumptions/88), where an image is placed and what the firewall's entries cover (notes/assumptions/129), and which registers a
start initialises (notes/assumptions/79) are the model's, as is that a context which is confidential already keeps its key (notes/assumptions/100,
DESIGN CHOICE). -/
def Obligations.PlatformEventsComplete : Prop :=
  ∀ (len off : BitVec 32) (hdr body : List Byte) (i : Image) (kind ctx : Nat) (c : BitVec 32) (nonce key : List Byte) (x y : Nat) (s : State),
    let abandoned (trip : Bool) (u : State) : State := u.portsDown.modPlat fun p =>
      { p with phase := .draining, served := u.hostServed, loading := none, oldOps := none, liveDue := none, trip := trip, pulsed := false }
    let idle : Prop := s.plat.phase ≠ .draining ∧ s.plat.phase ≠ .held
    let busy : Prop := s.plat.phase = .draining ∨ s.plat.phase = .held
    (idle → exec .devRstN s = .next (abandoned false s) ∧ exec .cxlConventionalReset s = .next (abandoned false s)
      ∧ exec .cxlFlrPort0 s = .next (abandoned false s) ∧ exec .thermalTrip s = .next (abandoned true s)
      ∧ exec .pgDeassert s = .next (abandoned false (s.modPlat fun p => { p with pgOk := false })))
    ∧ (busy → exec .cxlConventionalReset s = .next s ∧ exec .cxlFlrPort0 s = .next s ∧ exec .thermalTrip s = .next s
      ∧ exec .pgDeassert s = .next (s.modPlat fun p => { p with pgOk := false }))
    ∧ (s.plat.phase = .held → exec .devRstN s = .next (s.modPlat fun p => { p with pulsed := true }))
    ∧ exec .pgAllAsserted s = .next (s.modPlat fun p => { p with pgOk := true })
    ∧ exec .cxlFlrPort1 s = .next (s.modPlat fun p => { p with port1Off := true })
    ∧ exec .functionEnable s = .next (s.modPlat fun p => { p with port1Off := false })
    ∧ exec .thermNDeassert s = .next (s.modPlat fun p => { p with thermN := true })
    ∧ (s.plat.phase.takes = none → exec (.doeBegin len hdr) s = .next (s.send (.doe 1 [])))
    ∧ (s.plat.phase.takes = some kind →
      let st := headerStatus kind len.toNat (if kind = 1 then s.plat.minRoot else s.plat.minOps) hdr
      exec (.doeBegin len hdr) s = .next ((s.modPlat fun p => { p with loading := if st = 0 then some ⟨hdr, []⟩ else none }).send (.doe st [])))
    ∧ (s.plat.loading = some i → off.toNat = i.body.length → off.toNat % 4096 = 0 → body.length ≤ 4096 →
      let j : Image := { i with body := i.body ++ body }
      (j.body.length < fld i.header 12 4 ∨ (j.body.length = fld i.header 12 4 ∧ j.good = true) →
        exec (.doeChunk off body) s = .next ((s.modPlat fun p => { p with loading := some j }).send (.doe 0 [])))
      ∧ (j.body.length = fld i.header 12 4 → j.good = false →
        exec (.doeChunk off body) s = .next ((s.modPlat fun p => { p with loading := none }).send (.doe 3 []))))
    ∧ (s.plat.loading = none → exec (.doeChunk off body) s = .next (s.send (.doe 1 [])) ∧ exec .doeEnd s = .next (s.send (.doe 1 [])))
    ∧ (s.plat.loading = some i → i.good = true →
      (s.plat.phase = .rootLoad → exec .doeEnd s =
        .next ((s.modPlat fun p => { p with loading := none, phase := .rootRun, root := some i }).send (.doe 0 [])))
      ∧ (s.plat.phase = .opsLoad → exec .doeEnd s =
        .next (((s.modPlat fun p => { p with loading := none, phase := .opsStart, ops := some i }).placeOps (some i)).send (.doe 0 [])))
      ∧ (s.plat.phase = .ready → exec .doeEnd s = .next ((s.modPlat fun p =>
          { p with loading := none, phase := .live, oldOps := p.ops, ops := some i, liveDue := some (s.tick + 1000000000) }).placeOps (some i))))
    ∧ (let base := (blocks Config.opsRegion).1
      Memory.wf s.mem = true → ∀ j < (i.header ++ i.body).length,
        cellGet (base + j) (s.placeOps (some i)).mem = (i.header ++ i.body).getD j 0)
    ∧ (s.plat.phase = .opsStart → exec .firmwareReady s = .next ((s.modPlat fun p => { p with phase := .ready }).initControl))
    ∧ (s.plat.phase = .live → s.plat.liveDue.isSome = true → exec .firmwareReady s =
      .next ((((s.modPlat fun p => { p with phase := .ready, oldOps := none, liveDue := none }).retryQueues none).post .faultRingDrain).send
        (.doe 0 [])))
    ∧ (s.plat.phase = .live → (∃ d, s.plat.liveDue = some d ∧ d ≤ s.tick) → exec .liveUpdateTimeout s =
      .next (((s.modPlat fun p => { p with ops := p.oldOps, oldOps := none, liveDue := none }).placeOps s.plat.oldOps).send (.doe 1 [])))
    ∧ (s.plat.phase.late = true → exec .doeCommit s = .next ((s.modPlat fun p =>
        { p with minRoot := max p.minRoot ((p.root.map Image.version).getD 0), minOps := max p.minOps ((p.ops.map Image.version).getD 0) }).send
          (.doe 0 [])))
    ∧ (s.plat.phase.late = true → (c = 0 ∨ (s.context? c.toNat).isSome = true) → ∃ k, 0 < k ∧ k < ecQ ∧
      exec (.doeAttest c nonce) s = .next ({ s with free := s.free + 1 }.send (.doe 0
        (s.report256 c.toNat nonce ++ ecdsaSign identityKey k (sha384 (s.report256 c.toNat nonce))))))
    ∧ (s.plat.phase.late = false → exec .doeCommit s = .next (s.send (.doe 1 [])) ∧ exec (.doeAttest c nonce) s = .next (s.send (.doe 1 [])))
    ∧ (ecDecode key = some (x, y) → ecOn x y = true → key.length = 97 → s.dome.stopctl.getLsbD 0 = false → s.ready = true →
      exec (.confidentialContextCreate ctx key) s =
        .next ({ s with free := s.free + 1 }.modContext ctx fun C =>
          if C.conf then C else { C with conf := true, tenant := key, memKey := some s.free }).programFirewall)
    ∧ (ecDecode key = none → exec (.confidentialContextCreate ctx key) s = .next s)
    ∧ (∀ C, s.context? ctx = some C → C.conf = true → ∃ s', exec (.confidentialContextEnd ctx) s = .next s' ∧ s'.context? ctx = none
      ∧ (s.partials = [] → s.apart = [] → s'.hostMem = s.hostMem) ∧ ∀ D ∈ s.contexts, D.id ≠ ctx → D ∈ s'.contexts)

/-- R59, R93, R100 and the encodings written out beside the programs: each word decodes to the instruction that its fields name. -/
def Obligations.WrittenWordsDecode : Prop := ∀ x ∈ writtenWords, decodeTableWord x.1 x.2.1 = some x.2.2

/-- R45 to R48, R55 to R58: a well-formed instruction of the scalar or lane stream has a word (two in the SX format), which decodes to it; and a word
that decodes gives a well-formed instruction, whose word it is: no bit of a word is ignored. -/
def Obligations.EncodeDecodeAgree : Prop :=
  (∀ (i : Instr), i.wellFormed = true → i.carrier = .scalar → ∃ (w : ScalarBits) (v : Option ScalarBits), encodeScalar i = some (w, v)
      ∧ isWide w = v.isSome ∧ (∀ x, v = some x → decodeScalar w x = .ok i) ∧ (v = none → ∀ x, decodeScalar w x = .ok i)
      ∧ encode i = some (toBytes 4 w.toNat ++ match v with | some x => toBytes 4 x.toNat | none => []))
  ∧ (∀ (i : Instr), i.wellFormed = true → i.carrier = .lane → ∃ (w : LaneBits), encodeLane i = some w ∧ decodeLane w = .ok i
      ∧ encode i = some (toBytes 12 w.toNat))
  ∧ (∀ (w v : ScalarBits) (i : Instr), decodeScalar w v = .ok i → i.wellFormed = true ∧ i.carrier = .scalar
      ∧ encodeScalar i = some (w, if isWide w then some v else none))
  ∧ (∀ (w : LaneBits) (i : Instr), decodeLane w = .ok i → i.wellFormed = true ∧ i.carrier = .lane ∧ encodeLane i = some w)

/-- R8, R46, R53, R299, R408: a step runs the turn that the agenda names. A scalar stream, a handler slot or a lane stream that may issue executes the
instruction that the bytes at its place decode to, the stream's earlier accesses being performed and the stream being the current one; an instruction
that does not stall has issued, and the launch's first issue is noted (R229); bytes that decode to nothing are executed as the reserved word; a fetch
that gives no word traps or stalls. An event is its instruction; the issue of a clock cycle chooses what issues in it; a stream that a cycle did not
choose tries its instruction, and keeps what that leaves only where it stalls; with no turn left the global tick advances. On a stopped device an
event that resets nothing passes. The agenda and its order are the model's (notes/assumptions/9, DESIGN CHOICE), so are the inputs that it lists
(notes/assumptions/86, DESIGN CHOICE), the trials by which a cycle chooses, and those of the streams it did not choose (notes/assumptions/114), the
reserved word that is executed (notes/assumptions/21), and the turn in which the rest of an access in pieces is performed (notes/assumptions/4). -/
def Obligations.StepRunsDecoded : Prop :=
  ∀ (t g n : Nat) (i : Instr) (e : Event) (d : DriverCmd) (x : Trap) (T : Team) (G : Group) (st : Stream) (rest : List Turn) (s s' : State),
    let u : State := { s with agenda := rest }
    let on (st : Stream) (g : Nat) : State :=
      { u.settleApart fun x => x.isOf ⟨t, g, st⟩ with cur := some ⟨t, g, st⟩ }
    let runs (st : Stream) (g : Nat) : Prop :=
      (ScalarAt ⟨t, g, st⟩ i (on st g) s' ∧ st ≠ .lane ∨ LaneAt ⟨t, g, st⟩ i (on st g) s' ∧ st = .lane →
        step s = match exec i s' with
          | .next w => .next (if (w.stallOf ⟨t, g, st⟩).isSome then w else w.noteIssue t)
          | w => w)
      ∧ (NoWord ⟨t, g, st⟩ (on st g) s' → step s = .next s')
    (s.agenda = .scalar t g :: rest → u.scalarMay t g = true → runs .scalar g)
    ∧ (s.agenda = .scalar t g :: rest → u.scalarMay t g = false → step s = .next u)
    ∧ (s.agenda = .handler t :: rest → s.team? t = some T → T.handler.trap = some x → u.handlerMay t = true → runs .handler x.grp)
    ∧ (s.agenda = .lane t g :: rest → u.laneMay t g = true → s.group? t g = some G → (G.run = none → step s = exec (.runStart t g) u)
      ∧ (G.run.isSome = true → G.clause = none → step s = exec (.clauseStart t g) u)
      ∧ (G.run.isSome = true → G.clause.isSome = true → runs .lane g))
    ∧ (s.agenda = .attempt ⟨t, g, st⟩ :: rest → (u.tried ⟨t, g, st⟩ = none → step s = .next u)
      ∧ ∀ v, u.tried ⟨t, g, st⟩ = some v → step s = .next (if (v.stallOf ⟨t, g, st⟩).isSome then v else u))
    ∧ (s.agenda = .event e :: rest → eventIs e i → (s.dome.stopctl.getLsbD 1 = false ∨ resetEvent e = true) → step s = exec i u)
    ∧ (s.agenda = .event e :: rest → s.dome.stopctl.getLsbD 1 = true → resetEvent e = false → step s = .next u)
    ∧ (s.agenda = .issue :: rest → step s = .next (u.issueCycle u.trials))
    ∧ (s.agenda = .apart n :: rest → step s = .next (if s.dome.stopctl.getLsbD 1 then u else u.settleApart fun x => x.id == n))
    ∧ (s.agenda = .driver d :: rest → step s = .next (if s.dome.stopctl.getLsbD 1 then u else u.drive d))
    ∧ (s.agenda = [] → step s = exec .globalTick s)

/-- R3, R11, R260, R301, R302, R322, R323, R343, R404, R405, R408, R412, R414: what reset leaves, field by field of the control registers; nothing is
loaded and nothing runs. -/
def Obligations.ResetValues : Prop :=
  let s := State.reset
  s.tick = 0 ∧ s.contexts = [] ∧ s.launches = [] ∧ s.teams = [] ∧ s.agenda = [] ∧ s.cores.length = 192 ∧ s.quads.length = 48 ∧ s.dome.canals.length = 24
    ∧ s.dome.l2quota = 0x1000100010001000#64
    ∧ s.dome.classcfg.length = 4 ∧ (∀ v ∈ s.dome.classcfg, natBits v.toNat 47 32 = 500 ∧ natBits v.toNat 29 29 = 1 ∧ natBits v.toNat 19 0 = 200)
    ∧ natBits s.dome.cls0rsv.toNat 3 0 = 1 ∧ natBits s.dome.cls0rsv.toNat 7 4 = 1 ∧ natBits s.dome.cls0rsv.toNat 11 8 = 1
    ∧ natBits s.dome.sweep.toNat 31 31 = 1 ∧ natBits s.dome.sweep.toNat 23 0 = 100000 ∧ s.dome.tlbi = 0
    ∧ natBits s.dome.podcfg.toNat 31 31 = 0 ∧ natBits s.dome.podcfg.toNat 26 16 = 1 ∧ natBits s.dome.podcfg.toNat 9 0 = 0
    ∧ s.dome.cntsnap = 0 ∧ natBits s.dome.tracectl.toNat 39 35 = 20 ∧ natBits s.dome.tracectl.toNat 8 0 = 0 ∧ s.dome.stoptick = 0 ∧ s.dome.stopctl = 0
    ∧ natBits s.plat.clkctl.toNat 43 32 = 3600 ∧ natBits s.plat.clkctl.toNat 31 24 = 100 ∧ natBits s.plat.clkctl.toNat 11 8 = 8
    ∧ natBits s.plat.clkctl.toNat 4 0 = 0 ∧ s.plat.rstDone = true ∧ s.plat.phase = .rom ∧ s.memoryWf = true

/-- Every step keeps the canonical form of every memory: HBM, host memory, each team's scratchpad. -/
def Obligations.StepKeepsMemoryForm : Prop :=
  ∀ (s s' : State), s.memoryWf = true → step s = .next s' → s'.memoryWf = true

end
end

