-- ==== Sys2Proof/Laws/State.lean ====
section
/-! SUPPORT. What each record update of the state leaves in each field, and how reads of the records see it. -/

namespace Sys2Proof.Laws

open Machine

/-! ### Fields -/

@[simp] theorem modTeam_cur (s : State) (t : Nat) (f : Team → Team) : (s.modTeam t f).cur = s.cur := rfl
@[simp] theorem modTeam_agenda (s : State) (t : Nat) (f : Team → Team) : (s.modTeam t f).agenda = s.agenda := rfl
@[simp] theorem modTeam_free (s : State) (t : Nat) (f : Team → Team) : (s.modTeam t f).free = s.free := rfl
@[simp] theorem modTeam_tick (s : State) (t : Nat) (f : Team → Team) : (s.modTeam t f).tick = s.tick := rfl
@[simp] theorem modTeam_mem (s : State) (t : Nat) (f : Team → Team) : (s.modTeam t f).mem = s.mem := rfl
@[simp] theorem modTeam_hostMem (s : State) (t : Nat) (f : Team → Team) : (s.modTeam t f).hostMem = s.hostMem := rfl
@[simp] theorem modTeam_poison (s : State) (t : Nat) (f : Team → Team) : (s.modTeam t f).poison = s.poison := rfl
@[simp] theorem modTeam_upsets (s : State) (t : Nat) (f : Team → Team) : (s.modTeam t f).upsets = s.upsets := rfl
@[simp] theorem modTeam_partials (s : State) (t : Nat) (f : Team → Team) : (s.modTeam t f).partials = s.partials := rfl
@[simp] theorem modTeam_apart (s : State) (t : Nat) (f : Team → Team) : (s.modTeam t f).apart = s.apart := rfl
@[simp] theorem modTeam_contexts (s : State) (t : Nat) (f : Team → Team) : (s.modTeam t f).contexts = s.contexts := rfl
@[simp] theorem modTeam_launches (s : State) (t : Nat) (f : Team → Team) : (s.modTeam t f).launches = s.launches := rfl
@[simp] theorem modTeam_teams (s : State) (t : Nat) (f : Team → Team) : (s.modTeam t f).teams = modifyAt f t s.teams := rfl
@[simp] theorem modTeam_cores (s : State) (t : Nat) (f : Team → Team) : (s.modTeam t f).cores = s.cores := rfl
@[simp] theorem modTeam_quads (s : State) (t : Nat) (f : Team → Team) : (s.modTeam t f).quads = s.quads := rfl
@[simp] theorem modTeam_l2 (s : State) (t : Nat) (f : Team → Team) : (s.modTeam t f).l2 = s.l2 := rfl
@[simp] theorem modTeam_dome (s : State) (t : Nat) (f : Team → Team) : (s.modTeam t f).dome = s.dome := rfl
@[simp] theorem modTeam_plat (s : State) (t : Nat) (f : Team → Team) : (s.modTeam t f).plat = s.plat := rfl
@[simp] theorem modTeam_remotes (s : State) (t : Nat) (f : Team → Team) : (s.modTeam t f).remotes = s.remotes := rfl
@[simp] theorem modTeam_nextId (s : State) (t : Nat) (f : Team → Team) : (s.modTeam t f).nextId = s.nextId := rfl
@[simp] theorem modTeam_outbox (s : State) (t : Nat) (f : Team → Team) : (s.modTeam t f).outbox = s.outbox := rfl

@[simp] theorem modGroup_cur (s : State) (t g : Nat) (f : Group → Group) : (s.modGroup t g f).cur = s.cur := rfl
@[simp] theorem modGroup_agenda (s : State) (t g : Nat) (f : Group → Group) : (s.modGroup t g f).agenda = s.agenda := rfl
@[simp] theorem modGroup_free (s : State) (t g : Nat) (f : Group → Group) : (s.modGroup t g f).free = s.free := rfl
@[simp] theorem modGroup_tick (s : State) (t g : Nat) (f : Group → Group) : (s.modGroup t g f).tick = s.tick := rfl
@[simp] theorem modGroup_mem (s : State) (t g : Nat) (f : Group → Group) : (s.modGroup t g f).mem = s.mem := rfl
@[simp] theorem modGroup_hostMem (s : State) (t g : Nat) (f : Group → Group) : (s.modGroup t g f).hostMem = s.hostMem := rfl
@[simp] theorem modGroup_poison (s : State) (t g : Nat) (f : Group → Group) : (s.modGroup t g f).poison = s.poison := rfl
@[simp] theorem modGroup_upsets (s : State) (t g : Nat) (f : Group → Group) : (s.modGroup t g f).upsets = s.upsets := rfl
@[simp] theorem modGroup_partials (s : State) (t g : Nat) (f : Group → Group) : (s.modGroup t g f).partials = s.partials := rfl
@[simp] theorem modGroup_apart (s : State) (t g : Nat) (f : Group → Group) : (s.modGroup t g f).apart = s.apart := rfl
@[simp] theorem modGroup_contexts (s : State) (t g : Nat) (f : Group → Group) : (s.modGroup t g f).contexts = s.contexts := rfl
@[simp] theorem modGroup_launches (s : State) (t g : Nat) (f : Group → Group) : (s.modGroup t g f).launches = s.launches := rfl
@[simp] theorem modGroup_teams (s : State) (t g : Nat) (f : Group → Group) : (s.modGroup t g f).teams = modifyAt (fun T => { T with groups := modifyAt f g T.groups }) t s.teams := rfl
@[simp] theorem modGroup_cores (s : State) (t g : Nat) (f : Group → Group) : (s.modGroup t g f).cores = s.cores := rfl
@[simp] theorem modGroup_quads (s : State) (t g : Nat) (f : Group → Group) : (s.modGroup t g f).quads = s.quads := rfl
@[simp] theorem modGroup_l2 (s : State) (t g : Nat) (f : Group → Group) : (s.modGroup t g f).l2 = s.l2 := rfl
@[simp] theorem modGroup_dome (s : State) (t g : Nat) (f : Group → Group) : (s.modGroup t g f).dome = s.dome := rfl
@[simp] theorem modGroup_plat (s : State) (t g : Nat) (f : Group → Group) : (s.modGroup t g f).plat = s.plat := rfl
@[simp] theorem modGroup_remotes (s : State) (t g : Nat) (f : Group → Group) : (s.modGroup t g f).remotes = s.remotes := rfl
@[simp] theorem modGroup_nextId (s : State) (t g : Nat) (f : Group → Group) : (s.modGroup t g f).nextId = s.nextId := rfl
@[simp] theorem modGroup_outbox (s : State) (t g : Nat) (f : Group → Group) : (s.modGroup t g f).outbox = s.outbox := rfl

@[simp] theorem modCore_cur (s : State) (c : Nat) (f : Machine.Core → Machine.Core) : (s.modCore c f).cur = s.cur := rfl
@[simp] theorem modCore_agenda (s : State) (c : Nat) (f : Machine.Core → Machine.Core) : (s.modCore c f).agenda = s.agenda := rfl
@[simp] theorem modCore_free (s : State) (c : Nat) (f : Machine.Core → Machine.Core) : (s.modCore c f).free = s.free := rfl
@[simp] theorem modCore_tick (s : State) (c : Nat) (f : Machine.Core → Machine.Core) : (s.modCore c f).tick = s.tick := rfl
@[simp] theorem modCore_mem (s : State) (c : Nat) (f : Machine.Core → Machine.Core) : (s.modCore c f).mem = s.mem := rfl
@[simp] theorem modCore_hostMem (s : State) (c : Nat) (f : Machine.Core → Machine.Core) : (s.modCore c f).hostMem = s.hostMem := rfl
@[simp] theorem modCore_poison (s : State) (c : Nat) (f : Machine.Core → Machine.Core) : (s.modCore c f).poison = s.poison := rfl
@[simp] theorem modCore_upsets (s : State) (c : Nat) (f : Machine.Core → Machine.Core) : (s.modCore c f).upsets = s.upsets := rfl
@[simp] theorem modCore_partials (s : State) (c : Nat) (f : Machine.Core → Machine.Core) : (s.modCore c f).partials = s.partials := rfl
@[simp] theorem modCore_apart (s : State) (c : Nat) (f : Machine.Core → Machine.Core) : (s.modCore c f).apart = s.apart := rfl
@[simp] theorem modCore_contexts (s : State) (c : Nat) (f : Machine.Core → Machine.Core) : (s.modCore c f).contexts = s.contexts := rfl
@[simp] theorem modCore_launches (s : State) (c : Nat) (f : Machine.Core → Machine.Core) : (s.modCore c f).launches = s.launches := rfl
@[simp] theorem modCore_teams (s : State) (c : Nat) (f : Machine.Core → Machine.Core) : (s.modCore c f).teams = s.teams := rfl
@[simp] theorem modCore_cores (s : State) (c : Nat) (f : Machine.Core → Machine.Core) : (s.modCore c f).cores = modifyAt f c s.cores := rfl
@[simp] theorem modCore_quads (s : State) (c : Nat) (f : Machine.Core → Machine.Core) : (s.modCore c f).quads = s.quads := rfl
@[simp] theorem modCore_l2 (s : State) (c : Nat) (f : Machine.Core → Machine.Core) : (s.modCore c f).l2 = s.l2 := rfl
@[simp] theorem modCore_dome (s : State) (c : Nat) (f : Machine.Core → Machine.Core) : (s.modCore c f).dome = s.dome := rfl
@[simp] theorem modCore_plat (s : State) (c : Nat) (f : Machine.Core → Machine.Core) : (s.modCore c f).plat = s.plat := rfl
@[simp] theorem modCore_remotes (s : State) (c : Nat) (f : Machine.Core → Machine.Core) : (s.modCore c f).remotes = s.remotes := rfl
@[simp] theorem modCore_nextId (s : State) (c : Nat) (f : Machine.Core → Machine.Core) : (s.modCore c f).nextId = s.nextId := rfl
@[simp] theorem modCore_outbox (s : State) (c : Nat) (f : Machine.Core → Machine.Core) : (s.modCore c f).outbox = s.outbox := rfl

@[simp] theorem modLaunch_cur (s : State) (l : Nat) (f : Launch → Launch) : (s.modLaunch l f).cur = s.cur := rfl
@[simp] theorem modLaunch_agenda (s : State) (l : Nat) (f : Launch → Launch) : (s.modLaunch l f).agenda = s.agenda := rfl
@[simp] theorem modLaunch_free (s : State) (l : Nat) (f : Launch → Launch) : (s.modLaunch l f).free = s.free := rfl
@[simp] theorem modLaunch_tick (s : State) (l : Nat) (f : Launch → Launch) : (s.modLaunch l f).tick = s.tick := rfl
@[simp] theorem modLaunch_mem (s : State) (l : Nat) (f : Launch → Launch) : (s.modLaunch l f).mem = s.mem := rfl
@[simp] theorem modLaunch_hostMem (s : State) (l : Nat) (f : Launch → Launch) : (s.modLaunch l f).hostMem = s.hostMem := rfl
@[simp] theorem modLaunch_poison (s : State) (l : Nat) (f : Launch → Launch) : (s.modLaunch l f).poison = s.poison := rfl
@[simp] theorem modLaunch_upsets (s : State) (l : Nat) (f : Launch → Launch) : (s.modLaunch l f).upsets = s.upsets := rfl
@[simp] theorem modLaunch_partials (s : State) (l : Nat) (f : Launch → Launch) : (s.modLaunch l f).partials = s.partials := rfl
@[simp] theorem modLaunch_apart (s : State) (l : Nat) (f : Launch → Launch) : (s.modLaunch l f).apart = s.apart := rfl
@[simp] theorem modLaunch_contexts (s : State) (l : Nat) (f : Launch → Launch) : (s.modLaunch l f).contexts = s.contexts := rfl
@[simp] theorem modLaunch_launches (s : State) (l : Nat) (f : Launch → Launch) : (s.modLaunch l f).launches = modifyAt f l s.launches := rfl
@[simp] theorem modLaunch_teams (s : State) (l : Nat) (f : Launch → Launch) : (s.modLaunch l f).teams = s.teams := rfl
@[simp] theorem modLaunch_cores (s : State) (l : Nat) (f : Launch → Launch) : (s.modLaunch l f).cores = s.cores := rfl
@[simp] theorem modLaunch_quads (s : State) (l : Nat) (f : Launch → Launch) : (s.modLaunch l f).quads = s.quads := rfl
@[simp] theorem modLaunch_l2 (s : State) (l : Nat) (f : Launch → Launch) : (s.modLaunch l f).l2 = s.l2 := rfl
@[simp] theorem modLaunch_dome (s : State) (l : Nat) (f : Launch → Launch) : (s.modLaunch l f).dome = s.dome := rfl
@[simp] theorem modLaunch_plat (s : State) (l : Nat) (f : Launch → Launch) : (s.modLaunch l f).plat = s.plat := rfl
@[simp] theorem modLaunch_remotes (s : State) (l : Nat) (f : Launch → Launch) : (s.modLaunch l f).remotes = s.remotes := rfl
@[simp] theorem modLaunch_nextId (s : State) (l : Nat) (f : Launch → Launch) : (s.modLaunch l f).nextId = s.nextId := rfl
@[simp] theorem modLaunch_outbox (s : State) (l : Nat) (f : Launch → Launch) : (s.modLaunch l f).outbox = s.outbox := rfl

@[simp] theorem modDome_cur (s : State) (f : Dome → Dome) : (s.modDome f).cur = s.cur := rfl
@[simp] theorem modDome_agenda (s : State) (f : Dome → Dome) : (s.modDome f).agenda = s.agenda := rfl
@[simp] theorem modDome_free (s : State) (f : Dome → Dome) : (s.modDome f).free = s.free := rfl
@[simp] theorem modDome_tick (s : State) (f : Dome → Dome) : (s.modDome f).tick = s.tick := rfl
@[simp] theorem modDome_mem (s : State) (f : Dome → Dome) : (s.modDome f).mem = s.mem := rfl
@[simp] theorem modDome_hostMem (s : State) (f : Dome → Dome) : (s.modDome f).hostMem = s.hostMem := rfl
@[simp] theorem modDome_poison (s : State) (f : Dome → Dome) : (s.modDome f).poison = s.poison := rfl
@[simp] theorem modDome_upsets (s : State) (f : Dome → Dome) : (s.modDome f).upsets = s.upsets := rfl
@[simp] theorem modDome_partials (s : State) (f : Dome → Dome) : (s.modDome f).partials = s.partials := rfl
@[simp] theorem modDome_apart (s : State) (f : Dome → Dome) : (s.modDome f).apart = s.apart := rfl
@[simp] theorem modDome_contexts (s : State) (f : Dome → Dome) : (s.modDome f).contexts = s.contexts := rfl
@[simp] theorem modDome_launches (s : State) (f : Dome → Dome) : (s.modDome f).launches = s.launches := rfl
@[simp] theorem modDome_teams (s : State) (f : Dome → Dome) : (s.modDome f).teams = s.teams := rfl
@[simp] theorem modDome_cores (s : State) (f : Dome → Dome) : (s.modDome f).cores = s.cores := rfl
@[simp] theorem modDome_quads (s : State) (f : Dome → Dome) : (s.modDome f).quads = s.quads := rfl
@[simp] theorem modDome_l2 (s : State) (f : Dome → Dome) : (s.modDome f).l2 = s.l2 := rfl
@[simp] theorem modDome_dome (s : State) (f : Dome → Dome) : (s.modDome f).dome = f s.dome := rfl
@[simp] theorem modDome_plat (s : State) (f : Dome → Dome) : (s.modDome f).plat = s.plat := rfl
@[simp] theorem modDome_remotes (s : State) (f : Dome → Dome) : (s.modDome f).remotes = s.remotes := rfl
@[simp] theorem modDome_nextId (s : State) (f : Dome → Dome) : (s.modDome f).nextId = s.nextId := rfl
@[simp] theorem modDome_outbox (s : State) (f : Dome → Dome) : (s.modDome f).outbox = s.outbox := rfl

@[simp] theorem modPlat_cur (s : State) (f : Platform → Platform) : (s.modPlat f).cur = s.cur := rfl
@[simp] theorem modPlat_agenda (s : State) (f : Platform → Platform) : (s.modPlat f).agenda = s.agenda := rfl
@[simp] theorem modPlat_free (s : State) (f : Platform → Platform) : (s.modPlat f).free = s.free := rfl
@[simp] theorem modPlat_tick (s : State) (f : Platform → Platform) : (s.modPlat f).tick = s.tick := rfl
@[simp] theorem modPlat_mem (s : State) (f : Platform → Platform) : (s.modPlat f).mem = s.mem := rfl
@[simp] theorem modPlat_hostMem (s : State) (f : Platform → Platform) : (s.modPlat f).hostMem = s.hostMem := rfl
@[simp] theorem modPlat_poison (s : State) (f : Platform → Platform) : (s.modPlat f).poison = s.poison := rfl
@[simp] theorem modPlat_upsets (s : State) (f : Platform → Platform) : (s.modPlat f).upsets = s.upsets := rfl
@[simp] theorem modPlat_partials (s : State) (f : Platform → Platform) : (s.modPlat f).partials = s.partials := rfl
@[simp] theorem modPlat_apart (s : State) (f : Platform → Platform) : (s.modPlat f).apart = s.apart := rfl
@[simp] theorem modPlat_contexts (s : State) (f : Platform → Platform) : (s.modPlat f).contexts = s.contexts := rfl
@[simp] theorem modPlat_launches (s : State) (f : Platform → Platform) : (s.modPlat f).launches = s.launches := rfl
@[simp] theorem modPlat_teams (s : State) (f : Platform → Platform) : (s.modPlat f).teams = s.teams := rfl
@[simp] theorem modPlat_cores (s : State) (f : Platform → Platform) : (s.modPlat f).cores = s.cores := rfl
@[simp] theorem modPlat_quads (s : State) (f : Platform → Platform) : (s.modPlat f).quads = s.quads := rfl
@[simp] theorem modPlat_l2 (s : State) (f : Platform → Platform) : (s.modPlat f).l2 = s.l2 := rfl
@[simp] theorem modPlat_dome (s : State) (f : Platform → Platform) : (s.modPlat f).dome = s.dome := rfl
@[simp] theorem modPlat_plat (s : State) (f : Platform → Platform) : (s.modPlat f).plat = f s.plat := rfl
@[simp] theorem modPlat_remotes (s : State) (f : Platform → Platform) : (s.modPlat f).remotes = s.remotes := rfl
@[simp] theorem modPlat_nextId (s : State) (f : Platform → Platform) : (s.modPlat f).nextId = s.nextId := rfl
@[simp] theorem modPlat_outbox (s : State) (f : Platform → Platform) : (s.modPlat f).outbox = s.outbox := rfl

@[simp] theorem modContext_cur (s : State) (i : Nat) (f : Context → Context) : (s.modContext i f).cur = s.cur := rfl
@[simp] theorem modContext_agenda (s : State) (i : Nat) (f : Context → Context) : (s.modContext i f).agenda = s.agenda := rfl
@[simp] theorem modContext_free (s : State) (i : Nat) (f : Context → Context) : (s.modContext i f).free = s.free := rfl
@[simp] theorem modContext_tick (s : State) (i : Nat) (f : Context → Context) : (s.modContext i f).tick = s.tick := rfl
@[simp] theorem modContext_mem (s : State) (i : Nat) (f : Context → Context) : (s.modContext i f).mem = s.mem := rfl
@[simp] theorem modContext_hostMem (s : State) (i : Nat) (f : Context → Context) : (s.modContext i f).hostMem = s.hostMem := rfl
@[simp] theorem modContext_poison (s : State) (i : Nat) (f : Context → Context) : (s.modContext i f).poison = s.poison := rfl
@[simp] theorem modContext_upsets (s : State) (i : Nat) (f : Context → Context) : (s.modContext i f).upsets = s.upsets := rfl
@[simp] theorem modContext_partials (s : State) (i : Nat) (f : Context → Context) : (s.modContext i f).partials = s.partials := rfl
@[simp] theorem modContext_apart (s : State) (i : Nat) (f : Context → Context) : (s.modContext i f).apart = s.apart := rfl
@[simp] theorem modContext_contexts (s : State) (i : Nat) (f : Context → Context) : (s.modContext i f).contexts = s.contexts.map fun c => if c.id = i then f c else c := rfl
@[simp] theorem modContext_launches (s : State) (i : Nat) (f : Context → Context) : (s.modContext i f).launches = s.launches := rfl
@[simp] theorem modContext_teams (s : State) (i : Nat) (f : Context → Context) : (s.modContext i f).teams = s.teams := rfl
@[simp] theorem modContext_cores (s : State) (i : Nat) (f : Context → Context) : (s.modContext i f).cores = s.cores := rfl
@[simp] theorem modContext_quads (s : State) (i : Nat) (f : Context → Context) : (s.modContext i f).quads = s.quads := rfl
@[simp] theorem modContext_l2 (s : State) (i : Nat) (f : Context → Context) : (s.modContext i f).l2 = s.l2 := rfl
@[simp] theorem modContext_dome (s : State) (i : Nat) (f : Context → Context) : (s.modContext i f).dome = s.dome := rfl
@[simp] theorem modContext_plat (s : State) (i : Nat) (f : Context → Context) : (s.modContext i f).plat = s.plat := rfl
@[simp] theorem modContext_remotes (s : State) (i : Nat) (f : Context → Context) : (s.modContext i f).remotes = s.remotes := rfl
@[simp] theorem modContext_nextId (s : State) (i : Nat) (f : Context → Context) : (s.modContext i f).nextId = s.nextId := rfl
@[simp] theorem modContext_outbox (s : State) (i : Nat) (f : Context → Context) : (s.modContext i f).outbox = s.outbox := rfl

@[simp] theorem post_cur (s : State) (e : Event) : (s.post e).cur = s.cur := rfl
@[simp] theorem post_agenda (s : State) (e : Event) : (s.post e).agenda = s.agenda ++ [.event e] := rfl
@[simp] theorem post_free (s : State) (e : Event) : (s.post e).free = s.free := rfl
@[simp] theorem post_tick (s : State) (e : Event) : (s.post e).tick = s.tick := rfl
@[simp] theorem post_mem (s : State) (e : Event) : (s.post e).mem = s.mem := rfl
@[simp] theorem post_hostMem (s : State) (e : Event) : (s.post e).hostMem = s.hostMem := rfl
@[simp] theorem post_poison (s : State) (e : Event) : (s.post e).poison = s.poison := rfl
@[simp] theorem post_upsets (s : State) (e : Event) : (s.post e).upsets = s.upsets := rfl
@[simp] theorem post_partials (s : State) (e : Event) : (s.post e).partials = s.partials := rfl
@[simp] theorem post_apart (s : State) (e : Event) : (s.post e).apart = s.apart := rfl
@[simp] theorem post_contexts (s : State) (e : Event) : (s.post e).contexts = s.contexts := rfl
@[simp] theorem post_launches (s : State) (e : Event) : (s.post e).launches = s.launches := rfl
@[simp] theorem post_teams (s : State) (e : Event) : (s.post e).teams = s.teams := rfl
@[simp] theorem post_cores (s : State) (e : Event) : (s.post e).cores = s.cores := rfl
@[simp] theorem post_quads (s : State) (e : Event) : (s.post e).quads = s.quads := rfl
@[simp] theorem post_l2 (s : State) (e : Event) : (s.post e).l2 = s.l2 := rfl
@[simp] theorem post_dome (s : State) (e : Event) : (s.post e).dome = s.dome := rfl
@[simp] theorem post_plat (s : State) (e : Event) : (s.post e).plat = s.plat := rfl
@[simp] theorem post_remotes (s : State) (e : Event) : (s.post e).remotes = s.remotes := rfl
@[simp] theorem post_nextId (s : State) (e : Event) : (s.post e).nextId = s.nextId := rfl
@[simp] theorem post_outbox (s : State) (e : Event) : (s.post e).outbox = s.outbox := rfl

@[simp] theorem send_cur (s : State) (m : Msg) : (s.send m).cur = s.cur := rfl
@[simp] theorem send_agenda (s : State) (m : Msg) : (s.send m).agenda = s.agenda := rfl
@[simp] theorem send_free (s : State) (m : Msg) : (s.send m).free = s.free := rfl
@[simp] theorem send_tick (s : State) (m : Msg) : (s.send m).tick = s.tick := rfl
@[simp] theorem send_mem (s : State) (m : Msg) : (s.send m).mem = s.mem := rfl
@[simp] theorem send_hostMem (s : State) (m : Msg) : (s.send m).hostMem = s.hostMem := rfl
@[simp] theorem send_poison (s : State) (m : Msg) : (s.send m).poison = s.poison := rfl
@[simp] theorem send_upsets (s : State) (m : Msg) : (s.send m).upsets = s.upsets := rfl
@[simp] theorem send_partials (s : State) (m : Msg) : (s.send m).partials = s.partials := rfl
@[simp] theorem send_apart (s : State) (m : Msg) : (s.send m).apart = s.apart := rfl
@[simp] theorem send_contexts (s : State) (m : Msg) : (s.send m).contexts = s.contexts := rfl
@[simp] theorem send_launches (s : State) (m : Msg) : (s.send m).launches = s.launches := rfl
@[simp] theorem send_teams (s : State) (m : Msg) : (s.send m).teams = s.teams := rfl
@[simp] theorem send_cores (s : State) (m : Msg) : (s.send m).cores = s.cores := rfl
@[simp] theorem send_quads (s : State) (m : Msg) : (s.send m).quads = s.quads := rfl
@[simp] theorem send_l2 (s : State) (m : Msg) : (s.send m).l2 = s.l2 := rfl
@[simp] theorem send_dome (s : State) (m : Msg) : (s.send m).dome = s.dome := rfl
@[simp] theorem send_plat (s : State) (m : Msg) : (s.send m).plat = s.plat := rfl
@[simp] theorem send_remotes (s : State) (m : Msg) : (s.send m).remotes = s.remotes := rfl
@[simp] theorem send_nextId (s : State) (m : Msg) : (s.send m).nextId = s.nextId := rfl
@[simp] theorem send_outbox (s : State) (m : Msg) : (s.send m).outbox = s.outbox ++ [m] := rfl

/-! ### Lists changed at an index -/

@[simp] theorem modifyAt_length {α : Type} (f : α → α) (i : Nat) (l : List α) : (modifyAt f i l).length = l.length := by
  induction l generalizing i with
  | nil => simp [modifyAt]
  | cons x l ih => cases i <;> simp [modifyAt, ih]

theorem modifyAt_get {α : Type} (f : α → α) (i j : Nat) (l : List α) :
    (modifyAt f i l)[j]? = if j = i then l[j]?.map f else l[j]? := by
  induction l generalizing i j with
  | nil => simp [modifyAt]
  | cons x l ih => cases i <;> cases j <;> simp [modifyAt, ih]

@[simp] theorem modifyAt_get_same {α : Type} (f : α → α) (i : Nat) (l : List α) : (modifyAt f i l)[i]? = l[i]?.map f := by
  simp [modifyAt_get]

@[simp] theorem modifyAt_get_other {α : Type} (f : α → α) {i j : Nat} (l : List α) (h : j ≠ i) : (modifyAt f i l)[j]? = l[j]? := by
  simp [modifyAt_get, h]

/-- Two changes at one index are one. -/
theorem modifyAt_modifyAt {α : Type} (f g : α → α) (i : Nat) (l : List α) :
    modifyAt g i (modifyAt f i l) = modifyAt (fun x => g (f x)) i l := by
  induction l generalizing i with
  | nil => simp [modifyAt]
  | cons x l ih => cases i <;> simp [modifyAt, ih]

/-! ### Records -/

@[simp] theorem team?_modTeam_same (s : State) (t : Nat) (f : Team → Team) : (s.modTeam t f).team? t = (s.team? t).map f := by
  simp [State.team?]

@[simp] theorem team?_modTeam_other (s : State) {t u : Nat} (f : Team → Team) (h : u ≠ t) : (s.modTeam t f).team? u = s.team? u := by
  simp [State.team?, h]

@[simp] theorem group?_modGroup_same (s : State) (t g : Nat) (f : Group → Group) :
    (s.modGroup t g f).group? t g = (s.group? t g).map f := by
  simp only [State.group?, modGroup_teams, modifyAt_get_same, Option.bind_map, Option.map_bind]
  cases s.teams[t]? <;> simp

@[simp] theorem group?_modGroup_other (s : State) {t g u h : Nat} (f : Group → Group) (hne : ¬(u = t ∧ h = g)) :
    (s.modGroup t g f).group? u h = s.group? u h := by
  simp only [State.group?, modGroup_teams, modifyAt_get]
  by_cases hu : u = t
  · subst hu
    cases s.teams[u]? with
    | none => simp
    | some T =>
      have hg : h ≠ g := fun e => hne ⟨rfl, e⟩
      simp [hg]
  · simp [hu]

@[simp] theorem launchOf?_modGroup (s : State) (t g u : Nat) (f : Group → Group) : (s.modGroup t g f).launchOf? u = s.launchOf? u := by
  simp only [State.launchOf?, modGroup_teams, modGroup_launches, modifyAt_get]
  split
  · cases s.teams[u]? <;> simp
  · rfl

@[simp] theorem context?_modGroup (s : State) (t g i : Nat) (f : Group → Group) : (s.modGroup t g f).context? i = s.context? i := rfl

@[simp] theorem contextOf?_modGroup (s : State) (t g u : Nat) (f : Group → Group) : (s.modGroup t g f).contextOf? u = s.contextOf? u := by
  simp [State.contextOf?]

/-- Two changes of one group are one. -/
theorem modGroup_modGroup (s : State) (t g : Nat) (f h : Group → Group) :
    (s.modGroup t g f).modGroup t g h = s.modGroup t g fun G => h (f G) := by
  simp [State.modGroup, State.modTeam, modifyAt_modifyAt]

/-! ### Scalar registers -/

@[simp] theorem getS_setS_same (r : ScalarRegs) (x : SReg) (v : Word) : (r.setS x v).getS x = v := by
  simp [ScalarRegs.getS, ScalarRegs.setS]

@[simp] theorem getS_setS_other (r : ScalarRegs) {x y : SReg} (v : Word) (h : y ≠ x) : (r.setS x v).getS y = r.getS y := by
  simp only [ScalarRegs.getS, ScalarRegs.setS]
  rw [Vector.getElem_set_ne]
  exact fun e => h (BitVec.eq_of_toNat_eq e.symm)

@[simp] theorem setS_q (r : ScalarRegs) (x : SReg) (v : Word) : (r.setS x v).q = r.q := rfl
@[simp] theorem setS_pc (r : ScalarRegs) (x : SReg) (v : Word) : (r.setS x v).pc = r.pc := rfl
@[simp] theorem goto_s (r : ScalarRegs) (pc : Word) : (r.goto pc).s = r.s := rfl
@[simp] theorem goto_q (r : ScalarRegs) (pc : Word) : (r.goto pc).q = r.q := rfl
@[simp] theorem goto_pc (r : ScalarRegs) (pc : Word) : (r.goto pc).pc = pc := rfl
@[simp] theorem goto_getS (r : ScalarRegs) (pc : Word) (x : SReg) : (r.goto pc).getS x = r.getS x := rfl
@[simp] theorem setQ_s (r : ScalarRegs) (x : QReg) (b : Bool) : (r.setQ x b).s = r.s := by unfold ScalarRegs.setQ; split <;> rfl
@[simp] theorem setQ_pc (r : ScalarRegs) (x : QReg) (b : Bool) : (r.setQ x b).pc = r.pc := by unfold ScalarRegs.setQ; split <;> rfl

end Sys2Proof.Laws
end

