-- ==== Sys2Proof/Laws/Apart.lean ====
section
/-! SUPPORT. What performing a write block by block can do: its blocks fall into those performed at once and those to come, and settling performs the latter. -/

namespace Sys2Proof.Laws

open Machine

theorem splitBlocks_mem_aux (free : Nat) (l : List (Nat × List Block)) (r : List Block × List Block) (k : Block) :
    let late (ia : Nat × List Block) (k : Block) : Bool :=
      ia.2.any (fun j => j.granule != k.granule) && natBit (Config.freeNat (free + ia.1)) k.granule
    let q := l.foldl (fun r ia => (r.1 ++ ia.2.filter (!late ia ·), r.2 ++ ia.2.filter (late ia))) r
    (k ∈ q.1 ∨ k ∈ q.2) ↔ (k ∈ r.1 ∨ k ∈ r.2 ∨ ∃ ia ∈ l, k ∈ ia.2) := by
  intro late
  induction l generalizing r with
  | nil => simp
  | cons x l ih =>
    simp only [List.foldl_cons, ih, List.mem_append, List.mem_filter, List.mem_cons, exists_eq_or_imp]
    cases h : late x k <;> simp only [Bool.not_true, Bool.not_false, and_true, Bool.false_eq_true, and_false, or_false, or_assoc]
    rw [or_left_comm (a := k ∈ x.2)]

theorem indexed_mem {α : Type} (n : Nat) (l : List α) (x : α) : (∃ i, (i, x) ∈ indexed n l) ↔ x ∈ l := by
  induction l generalizing n with
  | nil => simp [indexed]
  | cons a l ih =>
    simp only [indexed, List.mem_cons, Prod.mk.injEq, exists_or, ih]
    constructor
    · rintro (⟨_, _, h⟩ | h)
      · exact .inl h
      · exact .inr h
    · rintro (h | h)
      · exact .inl ⟨n, rfl, h⟩
      · exact .inr h

/-- No block is lost and none is made up: each is performed at once or is still to come. -/
theorem splitBlocks_mem (free : Nat) (accs : List (List Block)) (k : Block) :
    (k ∈ (splitBlocks free accs).1 ∨ k ∈ (splitBlocks free accs).2) ↔ ∃ ks ∈ accs, k ∈ ks := by
  have h := splitBlocks_mem_aux free (indexed 0 accs) ([], []) k
  simp only [List.not_mem_nil, false_or] at h
  refine Iff.trans h ⟨?_, ?_⟩
  · rintro ⟨⟨i, ks⟩, hm, hk⟩
    exact ⟨ks, (indexed_mem 0 accs ks).1 ⟨i, hm⟩, hk⟩
  · rintro ⟨ks, hm, hk⟩
    obtain ⟨i, hi⟩ := (indexed_mem 0 accs ks).2 hm
    exact ⟨(i, ks), hi, hk⟩

/-- A write that is to be whole is performed at once, in order. -/
theorem putApart_whole (x : Apart) (accs : List (List Block)) (s : State) :
    s.putApart true x accs = (accs.flatten.foldl (State.putBlock x.stamp) s, false) := by
  simp [State.putApart]

/-- Everything that performing accesses can do: all their blocks at once; or some of them, the rest entered as a write of its own with a turn of its own. -/
theorem putApart_cases (whole : Bool) (x : Apart) (accs : List (List Block)) (s : State) :
    s.putApart whole x accs = (accs.flatten.foldl (State.putBlock x.stamp) s, false)
    ∨ whole = false ∧ (
      let u := (splitBlocks s.free accs).1.foldl (State.putBlock x.stamp) { s with free := s.free + accs.length }
      let late := (splitBlocks s.free accs).2
      late = [] ∧ s.putApart whole x accs = (u, false)
      ∨ late ≠ [] ∧ s.putApart whole x accs = (u.enterApart { x with blocks := late }, true)) := by
  unfold State.putApart
  split
  · exact .inl rfl
  · rename_i h
    have hw : whole = false := by cases whole <;> simp_all
    refine .inr ⟨hw, ?_⟩
    by_cases hl : (splitBlocks s.free accs).2 = []
    · exact .inl ⟨hl, by simp [hl]⟩
    · exact .inr ⟨hl, by simp [hl]⟩

/-! Entering what is still to come of an access changes the list of such accesses, the agenda and the counter of numbers, and nothing else. -/

@[simp] theorem enterApart_cur (x : Apart) (s : State) : (s.enterApart x).cur = s.cur := rfl
@[simp] theorem enterApart_free (x : Apart) (s : State) : (s.enterApart x).free = s.free := rfl
@[simp] theorem enterApart_tick (x : Apart) (s : State) : (s.enterApart x).tick = s.tick := rfl
@[simp] theorem enterApart_mem (x : Apart) (s : State) : (s.enterApart x).mem = s.mem := rfl
@[simp] theorem enterApart_hostMem (x : Apart) (s : State) : (s.enterApart x).hostMem = s.hostMem := rfl
@[simp] theorem enterApart_poison (x : Apart) (s : State) : (s.enterApart x).poison = s.poison := rfl
@[simp] theorem enterApart_upsets (x : Apart) (s : State) : (s.enterApart x).upsets = s.upsets := rfl
@[simp] theorem enterApart_partials (x : Apart) (s : State) : (s.enterApart x).partials = s.partials := rfl
@[simp] theorem enterApart_contexts (x : Apart) (s : State) : (s.enterApart x).contexts = s.contexts := rfl
@[simp] theorem enterApart_launches (x : Apart) (s : State) : (s.enterApart x).launches = s.launches := rfl
@[simp] theorem enterApart_teams (x : Apart) (s : State) : (s.enterApart x).teams = s.teams := rfl
@[simp] theorem enterApart_cores (x : Apart) (s : State) : (s.enterApart x).cores = s.cores := rfl
@[simp] theorem enterApart_quads (x : Apart) (s : State) : (s.enterApart x).quads = s.quads := rfl
@[simp] theorem enterApart_l2 (x : Apart) (s : State) : (s.enterApart x).l2 = s.l2 := rfl
@[simp] theorem enterApart_dome (x : Apart) (s : State) : (s.enterApart x).dome = s.dome := rfl
@[simp] theorem enterApart_plat (x : Apart) (s : State) : (s.enterApart x).plat = s.plat := rfl
@[simp] theorem enterApart_remotes (x : Apart) (s : State) : (s.enterApart x).remotes = s.remotes := rfl
@[simp] theorem enterApart_outbox (x : Apart) (s : State) : (s.enterApart x).outbox = s.outbox := rfl
@[simp] theorem enterApart_agenda (x : Apart) (s : State) : (s.enterApart x).agenda = s.agenda ++ [.apart s.nextId] := rfl
@[simp] theorem enterApart_nextId (x : Apart) (s : State) : (s.enterApart x).nextId = s.nextId + 1 := rfl
@[simp] theorem enterApart_apart (x : Apart) (s : State) : (s.enterApart x).apart = s.apart ++ [{ x with id := s.nextId }] := rfl

/-- Everything that reading accesses can do: all is read at once; or some pieces are entered, to be read in a turn of their own. -/
theorem readsApart_cases (whole : Bool) (x : Apart) (accs : List ReadAt) (s : State) :
    s.readsApart whole x accs = (s, 0)
    ∨ whole = false ∧ (
      let u : State := { s with free := s.free + accs.length }
      let late := lateReads s.free accs
      late = [] ∧ s.readsApart whole x accs = (u, 0)
      ∨ late ≠ [] ∧ s.readsApart whole x accs = (u.enterApart { x with reads := late }, late.length)) := by
  unfold State.readsApart
  split
  · exact .inl rfl
  · rename_i h
    have hw : whole = false := by cases whole <;> simp_all
    refine .inr ⟨hw, ?_⟩
    by_cases hl : lateReads s.free accs = []
    · exact .inl ⟨hl, by simp [hl]⟩
    · exact .inr ⟨hl, by simp [hl]⟩

/-- Where nothing selected is still to come, settling does nothing. -/
theorem settleApart_none {p : Apart → Bool} {s : State} (h : ∀ x ∈ s.apart, p x = false) : s.settleApart p = s := by
  have h1 : s.apart.filter p = [] := List.filter_eq_nil_iff.2 fun x hx => by simp [h x hx]
  have h2 : (s.apart.filter fun x => !p x) = s.apart := List.filter_eq_self.2 fun x hx => by simp [h x hx]
  simp [State.settleApart, h1, h2]

@[simp] theorem settleApart_empty {p : Apart → Bool} {s : State} (h : s.apart = []) : s.settleApart p = s :=
  settleApart_none (by simp [h])

end Sys2Proof.Laws
end

