-- ==== Sys2Proof/Laws/Exec.lean ====
section
/-! SUPPORT. What `exec` calls for each instruction. -/

namespace Sys2Proof.Laws

open Machine

theorem exec_add (sd : SReg) (sa : SReg) (sb : SReg) (s : State) : exec (.add sd sa sb) s = execAdd sd sa sb s := rfl
theorem exec_sub (sd : SReg) (sa : SReg) (sb : SReg) (s : State) : exec (.sub sd sa sb) s = execSub sd sa sb s := rfl
theorem exec_mul (sd : SReg) (sa : SReg) (sb : SReg) (s : State) : exec (.mul sd sa sb) s = execMul sd sa sb s := rfl
theorem exec_mulh (u : Bool) (sd : SReg) (sa : SReg) (sb : SReg) (s : State) : exec (.mulh u sd sa sb) s = execMulh u sd sa sb s := rfl
theorem exec_div (u : Bool) (sd : SReg) (sa : SReg) (sb : SReg) (s : State) : exec (.div u sd sa sb) s = execDiv u sd sa sb s := rfl
theorem exec_rem (u : Bool) (sd : SReg) (sa : SReg) (sb : SReg) (s : State) : exec (.rem u sd sa sb) s = execRem u sd sa sb s := rfl
theorem exec_and (sd : SReg) (sa : SReg) (sb : SReg) (s : State) : exec (.and sd sa sb) s = execAnd sd sa sb s := rfl
theorem exec_or (sd : SReg) (sa : SReg) (sb : SReg) (s : State) : exec (.or sd sa sb) s = execOr sd sa sb s := rfl
theorem exec_xor (sd : SReg) (sa : SReg) (sb : SReg) (s : State) : exec (.xor sd sa sb) s = execXor sd sa sb s := rfl
theorem exec_shl (sd : SReg) (sa : SReg) (sb : SReg) (s : State) : exec (.shl sd sa sb) s = execShl sd sa sb s := rfl
theorem exec_shr (sd : SReg) (sa : SReg) (sb : SReg) (s : State) : exec (.shr sd sa sb) s = execShr sd sa sb s := rfl
theorem exec_sar (sd : SReg) (sa : SReg) (sb : SReg) (s : State) : exec (.sar sd sa sb) s = execSar sd sa sb s := rfl
theorem exec_min (u : Bool) (sd : SReg) (sa : SReg) (sb : SReg) (s : State) : exec (.min u sd sa sb) s = execMin u sd sa sb s := rfl
theorem exec_max (u : Bool) (sd : SReg) (sa : SReg) (sb : SReg) (s : State) : exec (.max u sd sa sb) s = execMax u sd sa sb s := rfl
theorem exec_bfx (sd : SReg) (sa : SReg) (sb : SReg) (s : State) : exec (.bfx sd sa sb) s = execBfx sd sa sb s := rfl
theorem exec_bfi (sd : SReg) (sa : SReg) (sb : SReg) (s : State) : exec (.bfi sd sa sb) s = execBfi sd sa sb s := rfl
theorem exec_addi (sd : SReg) (sa : SReg) (imm : BitVec 13) (s : State) : exec (.addi sd sa imm) s = execAddi sd sa imm s := rfl
theorem exec_andi (sd : SReg) (sa : SReg) (imm : BitVec 13) (s : State) : exec (.andi sd sa imm) s = execAndi sd sa imm s := rfl
theorem exec_ori (sd : SReg) (sa : SReg) (imm : BitVec 13) (s : State) : exec (.ori sd sa imm) s = execOri sd sa imm s := rfl
theorem exec_xori (sd : SReg) (sa : SReg) (imm : BitVec 13) (s : State) : exec (.xori sd sa imm) s = execXori sd sa imm s := rfl
theorem exec_shli (sd : SReg) (sa : SReg) (cnt : BitVec 6) (s : State) : exec (.shli sd sa cnt) s = execShli sd sa cnt s := rfl
theorem exec_shri (sd : SReg) (sa : SReg) (cnt : BitVec 6) (s : State) : exec (.shri sd sa cnt) s = execShri sd sa cnt s := rfl
theorem exec_sari (sd : SReg) (sa : SReg) (cnt : BitVec 6) (s : State) : exec (.sari sd sa cnt) s = execSari sd sa cnt s := rfl
theorem exec_movi (sd : SReg) (v : BitVec 32) (s : State) : exec (.movi sd v) s = execMovi sd v s := rfl
theorem exec_movhi (sd : SReg) (v : BitVec 32) (s : State) : exec (.movhi sd v) s = execMovhi sd v s := rfl
theorem exec_cmp (c : ScalarCond) (qd : QReg) (sa : SReg) (sb : SReg) (s : State) : exec (.cmp c qd sa sb) s = execCmp c qd sa sb s := rfl
theorem exec_cmpi (c : ScalarCond) (qd : QReg) (sa : SReg) (v : BitVec 32) (s : State) : exec (.cmpi c qd sa v) s = execCmpi c qd sa v s := rfl
theorem exec_qop (f : QFun) (qd : QReg) (qa : QReg) (qb : QReg) (s : State) : exec (.qop f qd qa qb) s = execQop f qd qa qb s := rfl
theorem exec_sel (sd : SReg) (q : QReg) (sa : SReg) (sb : SReg) (s : State) : exec (.sel sd q sa sb) s = execSel sd q sa sb s := rfl
theorem exec_popc (sd : SReg) (sa : SReg) (s : State) : exec (.popc sd sa) s = execPopc sd sa s := rfl
theorem exec_clz (sd : SReg) (sa : SReg) (s : State) : exec (.clz sd sa) s = execClz sd sa s := rfl
theorem exec_ctz (sd : SReg) (sa : SReg) (s : State) : exec (.ctz sd sa) s = execCtz sd sa s := rfl
theorem exec_brev (sd : SReg) (sa : SReg) (s : State) : exec (.brev sd sa) s = execBrev sd sa s := rfl
theorem exec_ld (sz : LoadSize) (sd : SReg) (base : SReg) (off : BitVec 10) (s : State) : exec (.ld sz sd base off) s = execLd sz sd base off s := rfl
theorem exec_st (sz : Size) (ss : SReg) (base : SReg) (off : BitVec 10) (s : State) : exec (.st sz ss base off) s = execSt sz ss base off s := rfl
theorem exec_lds (sz : LoadSize) (sd : SReg) (base : SReg) (off : BitVec 10) (s : State) : exec (.lds sz sd base off) s = execLds sz sd base off s := rfl
theorem exec_sts (sz : Size) (ss : SReg) (base : SReg) (off : BitVec 10) (s : State) : exec (.sts sz ss base off) s = execSts sz ss base off s := rfl
theorem exec_ldaq (sc : Scope) (sz : Size) (sd : SReg) (sa : SReg) (s : State) : exec (.ldaq sc sz sd sa) s = execLdaq sc sz sd sa s := rfl
theorem exec_strl (sc : Scope) (sz : Size) (ss : SReg) (sa : SReg) (s : State) : exec (.strl sc sz ss sa) s = execStrl sc sz ss sa s := rfl
theorem exec_atom (op : AtomOp) (sc : Scope) (sd : SReg) (sa : SReg) (sb : SReg) (s : State) : exec (.atom op sc sd sa sb) s = execAtom op sc sd sa sb s := rfl
theorem exec_cas (sc : Scope) (sd : SReg) (sa : SReg) (sb : SReg) (s : State) : exec (.cas sc sd sa sb) s = execCas sc sd sa sb s := rfl
theorem exec_fence (sc : Scope) (s : State) : exec (.fence sc) s = execFence sc s := rfl
theorem exec_br (q : QReg) (neg : Bool) (off : BitVec 20) (s : State) : exec (.br q neg off) s = execBr q neg off s := rfl
theorem exec_call (q : QReg) (neg : Bool) (off : BitVec 20) (s : State) : exec (.call q neg off) s = execCall q neg off s := rfl
theorem exec_ret (q : QReg) (neg : Bool) (s : State) : exec (.ret q neg) s = execRet q neg s := rfl
theorem exec_jmpr (sa : SReg) (s : State) : exec (.jmpr sa) s = execJmpr sa s := rfl
theorem exec_lrun (sa : SReg) (n : BitVec 4) (target : BitVec 32) (s : State) : exec (.lrun sa n target) s = execLrun sa n target s := rfl
theorem exec_spop (sd : SReg) (s : State) : exec (.spop sd) s = execSpop sd s := rfl
theorem exec_lnch (sd : SReg) (sa : SReg) (s : State) : exec (.lnch sd sa) s = execLnch sd sa s := rfl
theorem exec_sget (sd : SReg) (ty : BitVec 5) (code : BitVec 8) (s : State) : exec (.sget sd ty code) s = execSget sd ty code s := rfl
theorem exec_sset (hs : BitVec 2) (sa : SReg) (s : State) : exec (.sset hs sa) s = execSset hs sa s := rfl
theorem exec_mrst (off : BitVec 32) (s : State) : exec (.mrst off) s = execMrst off s := rfl
theorem exec_sdone (s : State) : exec (.sdone) s = execSdone s := rfl
theorem exec_nop (s : State) : exec (.nop) s = execNop s := rfl
theorem exec_cpy (flag : BitVec 6) (sa : SReg) (s : State) : exec (.cpy flag sa) s = execCpy flag sa s := rfl
theorem exec_gath (flag : BitVec 6) (sa : SReg) (s : State) : exec (.gath flag sa) s = execGath flag sa s := rfl
theorem exec_part (flag : BitVec 6) (sa : SReg) (s : State) : exec (.part flag sa) s = execPart flag sa s := rfl
theorem exec_puts (flag : BitVec 6) (sa : SReg) (s : State) : exec (.puts flag sa) s = execPuts flag sa s := rfl
theorem exec_get (flag : BitVec 6) (sa : SReg) (s : State) : exec (.get flag sa) s = execGet flag sa s := rfl
theorem exec_fabricRadd (flag : BitVec 6) (sa : SReg) (s : State) : exec (.fabricRadd flag sa) s = execFabricRadd flag sa s := rfl
theorem exec_plcl (flag : BitVec 6) (sa : SReg) (s : State) : exec (.plcl flag sa) s = execPlcl flag sa s := rfl
theorem exec_plcn (sd : SReg) (sa : SReg) (sb : SReg) (s : State) : exec (.plcn sd sa sb) s = execPlcn sd sa sb s := rfl
theorem exec_plwt (sd : SReg) (sa : SReg) (sb : SReg) (s : State) : exec (.plwt sd sa sb) s = execPlwt sd sa sb s := rfl
theorem exec_plval (flag : BitVec 6) (sa : SReg) (sb : SReg) (s : State) : exec (.plval flag sa sb) s = execPlval flag sa sb s := rfl
theorem exec_plcx (sd : SReg) (sa : SReg) (sb : SReg) (s : State) : exec (.plcx sd sa sb) s = execPlcx sd sa sb s := rfl
theorem exec_wflg (mask : BitVec 12) (s : State) : exec (.wflg mask) s = execWflg mask s := rfl
theorem exec_wflgNow (mask : BitVec 12) (s : State) : exec (.wflgNow mask) s = execWflgNow mask s := rfl
theorem exec_swini (sa : SReg) (sb : SReg) (s : State) : exec (.swini sa sb) s = execSwini sa sb s := rfl
theorem exec_swait (sa : SReg) (sb : SReg) (s : State) : exec (.swait sa sb) s = execSwait sa sb s := rfl
theorem exec_waita (sd : SReg) (sa : SReg) (sb : SReg) (s : State) : exec (.waita sd sa sb) s = execWaita sd sa sb s := rfl
theorem exec_sbara (sd : SReg) (sa : SReg) (sb : SReg) (s : State) : exec (.sbara sd sa sb) s = execSbara sd sa sb s := rfl
theorem exec_sbarw (sa : SReg) (sb : SReg) (s : State) : exec (.sbarw sa sb) s = execSbarw sa sb s := rfl
theorem exec_obres (sd : SReg) (sa : SReg) (sb : SReg) (s : State) : exec (.obres sd sa sb) s = execObres sd sa sb s := rfl
theorem exec_obrel (sa : SReg) (s : State) : exec (.obrel sa) s = execObrel sa s := rfl
theorem exec_ctab (sa : SReg) (sb : SReg) (s : State) : exec (.ctab sa sb) s = execCtab sa sb s := rfl
theorem exec_trap (imm : BitVec 12) (sa : SReg) (s : State) : exec (.trap imm sa) s = execTrap imm sa s := rfl
theorem exec_eret (s : State) : exec (.eret) s = execEret s := rfl
theorem exec_trd (sd : SReg) (sa : SReg) (sb : SReg) (s : State) : exec (.trd sd sa sb) s = execTrd sd sa sb s := rfl
theorem exec_twr (ss : SReg) (sa : SReg) (sb : SReg) (s : State) : exec (.twr ss sa sb) s = execTwr ss sa sb s := rfl
theorem exec_tres (sl : SReg) (sa : SReg) (sb : SReg) (s : State) : exec (.tres sl sa sb) s = execTres sl sa sb s := rfl
theorem exec_tkil (sa : SReg) (s : State) : exec (.tkil sa) s = execTkil sa s := rfl
theorem exec_dump (sd : SReg) (sa : SReg) (sb : SReg) (s : State) : exec (.dump sd sa sb) s = execDump sd sa sb s := rfl
theorem exec_pairWord (w : PairWord) (s : State) : exec (.pairWord w) s = execPairWord w s := rfl
theorem exec_laneAdd (w : LaneWord) (s : State) : exec (.laneAdd w) s = execLaneAdd w s := rfl
theorem exec_laneAddi (w : LaneWord) (s : State) : exec (.laneAddi w) s = execLaneAddi w s := rfl
theorem exec_laneSub (w : LaneWord) (s : State) : exec (.laneSub w) s = execLaneSub w s := rfl
theorem exec_adds (w : LaneWord) (s : State) : exec (.adds w) s = execAdds w s := rfl
theorem exec_subs (w : LaneWord) (s : State) : exec (.subs w) s = execSubs w s := rfl
theorem exec_neg (w : LaneWord) (s : State) : exec (.neg w) s = execNeg w s := rfl
theorem exec_abs (w : LaneWord) (s : State) : exec (.abs w) s = execAbs w s := rfl
theorem exec_laneMul (w : LaneWord) (s : State) : exec (.laneMul w) s = execLaneMul w s := rfl
theorem exec_laneMulh (w : LaneWord) (s : State) : exec (.laneMulh w) s = execLaneMulh w s := rfl
theorem exec_muls (w : LaneWord) (s : State) : exec (.muls w) s = execMuls w s := rfl
theorem exec_mad (w : LaneWord) (s : State) : exec (.mad w) s = execMad w s := rfl
theorem exec_mads (w : LaneWord) (s : State) : exec (.mads w) s = execMads w s := rfl
theorem exec_laneDiv (w : LaneWord) (s : State) : exec (.laneDiv w) s = execLaneDiv w s := rfl
theorem exec_laneRem (w : LaneWord) (s : State) : exec (.laneRem w) s = execLaneRem w s := rfl
theorem exec_laneMin (w : LaneWord) (s : State) : exec (.laneMin w) s = execLaneMin w s := rfl
theorem exec_laneMax (w : LaneWord) (s : State) : exec (.laneMax w) s = execLaneMax w s := rfl
theorem exec_clamp (w : LaneWord) (s : State) : exec (.clamp w) s = execClamp w s := rfl
theorem exec_laneAnd (w : LaneWord) (s : State) : exec (.laneAnd w) s = execLaneAnd w s := rfl
theorem exec_laneOr (w : LaneWord) (s : State) : exec (.laneOr w) s = execLaneOr w s := rfl
theorem exec_laneXor (w : LaneWord) (s : State) : exec (.laneXor w) s = execLaneXor w s := rfl
theorem exec_andn (w : LaneWord) (s : State) : exec (.andn w) s = execAndn w s := rfl
theorem exec_not (w : LaneWord) (s : State) : exec (.not w) s = execNot w s := rfl
theorem exec_tern (w : LaneWord) (s : State) : exec (.tern w) s = execTern w s := rfl
theorem exec_laneShl (w : LaneWord) (s : State) : exec (.laneShl w) s = execLaneShl w s := rfl
theorem exec_laneShr (w : LaneWord) (s : State) : exec (.laneShr w) s = execLaneShr w s := rfl
theorem exec_laneSar (w : LaneWord) (s : State) : exec (.laneSar w) s = execLaneSar w s := rfl
theorem exec_rol (w : LaneWord) (s : State) : exec (.rol w) s = execRol w s := rfl
theorem exec_ror (w : LaneWord) (s : State) : exec (.ror w) s = execRor w s := rfl
theorem exec_laneShli (w : LaneWord) (s : State) : exec (.laneShli w) s = execLaneShli w s := rfl
theorem exec_laneShri (w : LaneWord) (s : State) : exec (.laneShri w) s = execLaneShri w s := rfl
theorem exec_laneSari (w : LaneWord) (s : State) : exec (.laneSari w) s = execLaneSari w s := rfl
theorem exec_roli (w : LaneWord) (s : State) : exec (.roli w) s = execRoli w s := rfl
theorem exec_rori (w : LaneWord) (s : State) : exec (.rori w) s = execRori w s := rfl
theorem exec_mov (w : LaneWord) (s : State) : exec (.mov w) s = execMov w s := rfl
theorem exec_laneMovi (w : LaneWord) (s : State) : exec (.laneMovi w) s = execLaneMovi w s := rfl
theorem exec_laneSel (w : LaneWord) (s : State) : exec (.laneSel w) s = execLaneSel w s := rfl
theorem exec_lget (w : LaneWord) (s : State) : exec (.lget w) s = execLget w s := rfl
theorem exec_fadd (w : LaneWord) (s : State) : exec (.fadd w) s = execFadd w s := rfl
theorem exec_fsub (w : LaneWord) (s : State) : exec (.fsub w) s = execFsub w s := rfl
theorem exec_fmul (w : LaneWord) (s : State) : exec (.fmul w) s = execFmul w s := rfl
theorem exec_fdiv (w : LaneWord) (s : State) : exec (.fdiv w) s = execFdiv w s := rfl
theorem exec_fsqrt (w : LaneWord) (s : State) : exec (.fsqrt w) s = execFsqrt w s := rfl
theorem exec_fmin (w : LaneWord) (s : State) : exec (.fmin w) s = execFmin w s := rfl
theorem exec_fmax (w : LaneWord) (s : State) : exec (.fmax w) s = execFmax w s := rfl
theorem exec_fabs (w : LaneWord) (s : State) : exec (.fabs w) s = execFabs w s := rfl
theorem exec_fneg (w : LaneWord) (s : State) : exec (.fneg w) s = execFneg w s := rfl
theorem exec_cpsgn (w : LaneWord) (s : State) : exec (.cpsgn w) s = execCpsgn w s := rfl
theorem exec_fma (w : LaneWord) (s : State) : exec (.fma w) s = execFma w s := rfl
theorem exec_fms (w : LaneWord) (s : State) : exec (.fms w) s = execFms w s := rfl
theorem exec_fnma (w : LaneWord) (s : State) : exec (.fnma w) s = execFnma w s := rfl
theorem exec_ex2f (w : LaneWord) (s : State) : exec (.ex2f w) s = execEx2f w s := rfl
theorem exec_lg2 (w : LaneWord) (s : State) : exec (.lg2 w) s = execLg2 w s := rfl
theorem exec_rcp (w : LaneWord) (s : State) : exec (.rcp w) s = execRcp w s := rfl
theorem exec_rsq (w : LaneWord) (s : State) : exec (.rsq w) s = execRsq w s := rfl
theorem exec_sinp (w : LaneWord) (s : State) : exec (.sinp w) s = execSinp w s := rfl
theorem exec_cosp (w : LaneWord) (s : State) : exec (.cosp w) s = execCosp w s := rfl
theorem exec_rndi (w : LaneWord) (s : State) : exec (.rndi w) s = execRndi w s := rfl
theorem exec_expi (w : LaneWord) (s : State) : exec (.expi w) s = execExpi w s := rfl
theorem exec_cvt (w : LaneWord) (s : State) : exec (.cvt w) s = execCvt w s := rfl
theorem exec_qnt (w : LaneWord) (s : State) : exec (.qnt w) s = execQnt w s := rfl
theorem exec_dqnt (w : LaneWord) (s : State) : exec (.dqnt w) s = execDqnt w s := rfl
theorem exec_bsAdd (w : LaneWord) (s : State) : exec (.bsAdd w) s = execBsAdd w s := rfl
theorem exec_bsSub (w : LaneWord) (s : State) : exec (.bsSub w) s = execBsSub w s := rfl
theorem exec_bsAdds (w : LaneWord) (s : State) : exec (.bsAdds w) s = execBsAdds w s := rfl
theorem exec_bsSubs (w : LaneWord) (s : State) : exec (.bsSubs w) s = execBsSubs w s := rfl
theorem exec_bsMul (w : LaneWord) (s : State) : exec (.bsMul w) s = execBsMul w s := rfl
theorem exec_bsMuls (w : LaneWord) (s : State) : exec (.bsMuls w) s = execBsMuls w s := rfl
theorem exec_bsMin (w : LaneWord) (s : State) : exec (.bsMin w) s = execBsMin w s := rfl
theorem exec_bsMax (w : LaneWord) (s : State) : exec (.bsMax w) s = execBsMax w s := rfl
theorem exec_bscmp (c : IntCond) (w : LaneWord) (s : State) : exec (.bscmp c w) s = execBscmp c w s := rfl
theorem exec_lanePopc (w : LaneWord) (s : State) : exec (.lanePopc w) s = execLanePopc w s := rfl
theorem exec_laneClz (w : LaneWord) (s : State) : exec (.laneClz w) s = execLaneClz w s := rfl
theorem exec_laneCtz (w : LaneWord) (s : State) : exec (.laneCtz w) s = execLaneCtz w s := rfl
theorem exec_laneBrev (w : LaneWord) (s : State) : exec (.laneBrev w) s = execLaneBrev w s := rfl
theorem exec_laneBfx (w : LaneWord) (s : State) : exec (.laneBfx w) s = execLaneBfx w s := rfl
theorem exec_laneBfi (w : LaneWord) (s : State) : exec (.laneBfi w) s = execLaneBfi w s := rfl
theorem exec_bfxi (w : LaneWord) (s : State) : exec (.bfxi w) s = execBfxi w s := rfl
theorem exec_bfii (w : LaneWord) (s : State) : exec (.bfii w) s = execBfii w s := rfl
theorem exec_hashCrc (w : LaneWord) (s : State) : exec (.hashCrc w) s = execHashCrc w s := rfl
theorem exec_hashMix (w : LaneWord) (s : State) : exec (.hashMix w) s = execHashMix w s := rfl
theorem exec_scmp (w : LaneWord) (s : State) : exec (.scmp w) s = execScmp w s := rfl
theorem exec_sfind (w : LaneWord) (s : State) : exec (.sfind w) s = execSfind w s := rfl
theorem exec_slen (w : LaneWord) (s : State) : exec (.slen w) s = execSlen w s := rfl
theorem exec_rng (w : LaneWord) (s : State) : exec (.rng w) s = execRng w s := rfl
theorem exec_laneCmp (c : IntCond) (w : LaneWord) (s : State) : exec (.laneCmp c w) s = execLaneCmp c w s := rfl
theorem exec_fcmp (c : FloatCond) (w : LaneWord) (s : State) : exec (.fcmp c w) s = execFcmp c w s := rfl
theorem exec_pand (w : LaneWord) (s : State) : exec (.pand w) s = execPand w s := rfl
theorem exec_por (w : LaneWord) (s : State) : exec (.por w) s = execPor w s := rfl
theorem exec_pxor (w : LaneWord) (s : State) : exec (.pxor w) s = execPxor w s := rfl
theorem exec_pandn (w : LaneWord) (s : State) : exec (.pandn w) s = execPandn w s := rfl
theorem exec_pnot (w : LaneWord) (s : State) : exec (.pnot w) s = execPnot w s := rfl
theorem exec_pmov (w : LaneWord) (s : State) : exec (.pmov w) s = execPmov w s := rfl
theorem exec_pset (w : LaneWord) (s : State) : exec (.pset w) s = execPset w s := rfl
theorem exec_pget (w : LaneWord) (s : State) : exec (.pget w) s = execPget w s := rfl
theorem exec_pput (w : LaneWord) (s : State) : exec (.pput w) s = execPput w s := rfl
theorem exec_laneIf (w : LaneWord) (s : State) : exec (.laneIf w) s = execLaneIf w s := rfl
theorem exec_laneElse (w : LaneWord) (s : State) : exec (.laneElse w) s = execLaneElse w s := rfl
theorem exec_laneEndif (w : LaneWord) (s : State) : exec (.laneEndif w) s = execLaneEndif w s := rfl
theorem exec_laneLoop (w : LaneWord) (s : State) : exec (.laneLoop w) s = execLaneLoop w s := rfl
theorem exec_laneBrk (w : LaneWord) (s : State) : exec (.laneBrk w) s = execLaneBrk w s := rfl
theorem exec_laneCont (w : LaneWord) (s : State) : exec (.laneCont w) s = execLaneCont w s := rfl
theorem exec_laneEndloop (w : LaneWord) (s : State) : exec (.laneEndloop w) s = execLaneEndloop w s := rfl
theorem exec_laneExit (w : LaneWord) (s : State) : exec (.laneExit w) s = execLaneExit w s := rfl
theorem exec_laneStop (w : LaneWord) (s : State) : exec (.laneStop w) s = execLaneStop w s := rfl
theorem exec_rfil (w : LaneWord) (s : State) : exec (.rfil w) s = execRfil w s := rfl
theorem exec_pollThr (w : LaneWord) (s : State) : exec (.pollThr w) s = execPollThr w s := rfl
theorem exec_pollMask (w : LaneWord) (s : State) : exec (.pollMask w) s = execPollMask w s := rfl
theorem exec_pollRank (w : LaneWord) (s : State) : exec (.pollRank w) s = execPollRank w s := rfl
theorem exec_keyg (w : LaneWord) (s : State) : exec (.keyg w) s = execKeyg w s := rfl
theorem exec_lead (w : LaneWord) (s : State) : exec (.lead w) s = execLead w s := rfl
theorem exec_lpush (w : LaneWord) (s : State) : exec (.lpush w) s = execLpush w s := rfl
theorem exec_xlnGet (w : LaneWord) (s : State) : exec (.xlnGet w) s = execXlnGet w s := rfl
theorem exec_xlnFlip (w : LaneWord) (s : State) : exec (.xlnFlip w) s = execXlnFlip w s := rfl
theorem exec_xlnRot (w : LaneWord) (s : State) : exec (.xlnRot w) s = execXlnRot w s := rfl
theorem exec_xlnSlide (w : LaneWord) (s : State) : exec (.xlnSlide w) s = execXlnSlide w s := rfl
theorem exec_bcst (w : LaneWord) (s : State) : exec (.bcst w) s = execBcst w s := rfl
theorem exec_gred (op : RedOp) (w : LaneWord) (s : State) : exec (.gred op w) s = execGred op w s := rfl
theorem exec_gscan (op : RedOp) (excl : Bool) (w : LaneWord) (s : State) : exec (.gscan op excl w) s = execGscan op excl w s := rfl
theorem exec_gsync (w : LaneWord) (s : State) : exec (.gsync w) s = execGsync w s := rfl
theorem exec_azero (w : LaneWord) (s : State) : exec (.azero w) s = execAzero w s := rfl
theorem exec_aadd (w : LaneWord) (s : State) : exec (.aadd w) s = execAadd w s := rfl
theorem exec_aadda (w : LaneWord) (s : State) : exec (.aadda w) s = execAadda w s := rfl
theorem exec_aneg (w : LaneWord) (s : State) : exec (.aneg w) s = execAneg w s := rfl
theorem exec_amac (w : LaneWord) (s : State) : exec (.amac w) s = execAmac w s := rfl
theorem exec_adot (w : LaneWord) (s : State) : exec (.adot w) s = execAdot w s := rfl
theorem exec_cres (w : LaneWord) (s : State) : exec (.cres w) s = execCres w s := rfl
theorem exec_arnd (w : LaneWord) (s : State) : exec (.arnd w) s = execArnd w s := rfl
theorem exec_arndDiv (w : LaneWord) (s : State) : exec (.arndDiv w) s = execArndDiv w s := rfl
theorem exec_ald (w : LaneWord) (s : State) : exec (.ald w) s = execAld w s := rfl
theorem exec_ast (w : LaneWord) (s : State) : exec (.ast w) s = execAst w s := rfl
theorem exec_aseg (w : LaneWord) (s : State) : exec (.aseg w) s = execAseg w s := rfl
theorem exec_astat (w : LaneWord) (s : State) : exec (.astat w) s = execAstat w s := rfl
theorem exec_ageti (w : LaneWord) (s : State) : exec (.ageti w) s = execAgeti w s := rfl
theorem exec_ared (w : LaneWord) (s : State) : exec (.ared w) s = execAred w s := rfl
theorem exec_laneLd (w : LaneWord) (s : State) : exec (.laneLd w) s = execLaneLd w s := rfl
theorem exec_laneSt (w : LaneWord) (s : State) : exec (.laneSt w) s = execLaneSt w s := rfl
theorem exec_laneLds (w : LaneWord) (s : State) : exec (.laneLds w) s = execLaneLds w s := rfl
theorem exec_laneSts (w : LaneWord) (s : State) : exec (.laneSts w) s = execLaneSts w s := rfl
theorem exec_laneAtom (op : AtomOp) (w : LaneWord) (s : State) : exec (.laneAtom op w) s = execLaneAtom op w s := rfl
theorem exec_laneCas (w : LaneWord) (s : State) : exec (.laneCas w) s = execLaneCas w s := rfl
theorem exec_radd (w : LaneWord) (s : State) : exec (.radd w) s = execRadd w s := rfl
theorem exec_raddAcc (w : LaneWord) (s : State) : exec (.raddAcc w) s = execRaddAcc w s := rfl
theorem exec_laneFence (w : LaneWord) (s : State) : exec (.laneFence w) s = execLaneFence w s := rfl
theorem exec_laneWaita (w : LaneWord) (s : State) : exec (.laneWaita w) s = execLaneWaita w s := rfl
theorem exec_bara (w : LaneWord) (s : State) : exec (.bara w) s = execBara w s := rfl
theorem exec_barw (w : LaneWord) (s : State) : exec (.barw w) s = execBarw w s := rfl
theorem exec_cbara (w : LaneWord) (s : State) : exec (.cbara w) s = execCbara w s := rfl
theorem exec_cbarw (w : LaneWord) (s : State) : exec (.cbarw w) s = execCbarw w s := rfl
theorem exec_laneSwait (w : LaneWord) (s : State) : exec (.laneSwait w) s = execLaneSwait w s := rfl
theorem exec_mma (w : LaneWord) (s : State) : exec (.mma w) s = execMma w s := rfl
theorem exec_mmaKreg (w : LaneWord) (s : State) : exec (.mmaKreg w) s = execMmaKreg w s := rfl
theorem exec_mfen (w : LaneWord) (s : State) : exec (.mfen w) s = execMfen w s := rfl
theorem exec_mwait (w : LaneWord) (s : State) : exec (.mwait w) s = execMwait w s := rfl
theorem exec_mwaitLast (w : LaneWord) (s : State) : exec (.mwaitLast w) s = execMwaitLast w s := rfl
theorem exec_mzero (w : LaneWord) (s : State) : exec (.mzero w) s = execMzero w s := rfl
theorem exec_mstRnd (w : LaneWord) (s : State) : exec (.mstRnd w) s = execMstRnd w s := rfl
theorem exec_mstRaw (w : LaneWord) (s : State) : exec (.mstRaw w) s = execMstRaw w s := rfl
theorem exec_mstAdd (w : LaneWord) (s : State) : exec (.mstAdd w) s = execMstAdd w s := rfl
theorem exec_vpjs (w : LaneWord) (s : State) : exec (.vpjs w) s = execVpjs w s := rfl
theorem exec_vpjr (w : LaneWord) (s : State) : exec (.vpjr w) s = execVpjr w s := rfl
theorem exec_vpjm (w : LaneWord) (s : State) : exec (.vpjm w) s = execVpjm w s := rfl
theorem exec_vpjx (w : LaneWord) (s : State) : exec (.vpjx w) s = execVpjx w s := rfl
theorem exec_vpjb (w : LaneWord) (s : State) : exec (.vpjb w) s = execVpjb w s := rfl
theorem exec_runStart (team : Nat) (grp : Nat) (s : State) : exec (.runStart team grp) s = execRunStart team grp s := rfl
theorem exec_clauseStart (team : Nat) (grp : Nat) (s : State) : exec (.clauseStart team grp) s = execClauseStart team grp s := rfl
theorem exec_loadDataReturn (team : Nat) (grp : Nat) (id : Nat) (s : State) : exec (.loadDataReturn team grp id) s = execLoadDataReturn team grp id s := rfl
theorem exec_storePerformed (team : Nat) (grp : Nat) (id : Nat) (s : State) : exec (.storePerformed team grp id) s = execStorePerformed team grp id s := rfl
theorem exec_enginePieceLand (team : Nat) (cmd : Nat) (s : State) : exec (.enginePieceLand team cmd) s = execEnginePieceLand team cmd s := rfl
theorem exec_cpyComplete (team : Nat) (cmd : Nat) (s : State) : exec (.cpyComplete team cmd) s = execCpyComplete team cmd s := rfl
theorem exec_gathComplete (team : Nat) (cmd : Nat) (s : State) : exec (.gathComplete team cmd) s = execGathComplete team cmd s := rfl
theorem exec_partComplete (team : Nat) (cmd : Nat) (s : State) : exec (.partComplete team cmd) s = execPartComplete team cmd s := rfl
theorem exec_putsComplete (team : Nat) (cmd : Nat) (s : State) : exec (.putsComplete team cmd) s = execPutsComplete team cmd s := rfl
theorem exec_getComplete (team : Nat) (cmd : Nat) (s : State) : exec (.getComplete team cmd) s = execGetComplete team cmd s := rfl
theorem exec_fabricRaddComplete (team : Nat) (cmd : Nat) (s : State) : exec (.fabricRaddComplete team cmd) s = execFabricRaddComplete team cmd s := rfl
theorem exec_engineFault (team : Nat) (cmd : Nat) (cause : BitVec 8) (addr : Word) (detail : BitVec 32) (s : State) : exec (.engineFault team cmd cause addr detail) s = execEngineFault team cmd cause addr detail s := rfl
theorem exec_mmaComplete (team : Nat) (grp : Nat) (id : Nat) (s : State) : exec (.mmaComplete team grp id) s = execMmaComplete team grp id s := rfl
theorem exec_spireComplete (core : Nat) (s : State) : exec (.spireComplete core) s = execSpireComplete core s := rfl
theorem exec_plvalViewWrite (team : Nat) (cmd : Nat) (s : State) : exec (.plvalViewWrite team cmd) s = execPlvalViewWrite team cmd s := rfl
theorem exec_parkWake (team : Nat) (grp : Nat) (s : State) : exec (.parkWake team grp) s = execParkWake team grp s := rfl
theorem exec_waitaTimeout (team : Nat) (grp : Nat) (s : State) : exec (.waitaTimeout team grp) s = execWaitaTimeout team grp s := rfl
theorem exec_hang (team : Nat) (grp : Nat) (s : State) : exec (.hang team grp) s = execHang team grp s := rfl
theorem exec_orderedOpRelease (team : Nat) (grp : Nat) (s : State) : exec (.orderedOpRelease team grp) s = execOrderedOpRelease team grp s := rfl
theorem exec_handlerEntry (team : Nat) (s : State) : exec (.handlerEntry team) s = execHandlerEntry team s := rfl
theorem exec_handlerWdogExpiry (team : Nat) (s : State) : exec (.handlerWdogExpiry team) s = execHandlerWdogExpiry team s := rfl
theorem exec_launchAccept (ctx : Nat) (queue : Nat) (s : State) : exec (.launchAccept ctx queue) s = execLaunchAccept ctx queue s := rfl
theorem exec_teamPlace (launch : Nat) (s : State) : exec (.teamPlace launch) s = execTeamPlace launch s := rfl
theorem exec_launchEnd (launch : Nat) (s : State) : exec (.launchEnd launch) s = execLaunchEnd launch s := rfl
theorem exec_swapEligible (team : Nat) (s : State) : exec (.swapEligible team) s = execSwapEligible team s := rfl
theorem exec_preempt (team : Nat) (s : State) : exec (.preempt team) s = execPreempt team s := rfl
theorem exec_restore (team : Nat) (core : Nat) (s : State) : exec (.restore team core) s = execRestore team core s := rfl
theorem exec_domeTlbi (v : Word) (s : State) : exec (.domeTlbi v) s = execDomeTlbi v s := rfl
theorem exec_sweeperPass (s : State) : exec (.sweeperPass) s = execSweeperPass s := rfl
theorem exec_l1CleanExpiry (core : Nat) (asid : Nat) (line : Nat) (s : State) : exec (.l1CleanExpiry core asid line) s = execL1CleanExpiry core asid line s := rfl
theorem exec_hostAccess (r : HostReq) (s : State) : exec (.hostAccess r) s = execHostAccess r s := rfl
theorem exec_hostSnoop (line : Nat) (inval : Bool) (s : State) : exec (.hostSnoop line inval) s = execHostSnoop line inval s := rfl
theorem exec_backInvalidateResponse (line : Nat) (data : List Byte) (s : State) : exec (.backInvalidateResponse line data) s = execBackInvalidateResponse line data s := rfl
theorem exec_fabricRequest (r : FabricReq) (s : State) : exec (.fabricRequest r) s = execFabricRequest r s := rfl
theorem exec_fabricResponse (r : FabricResp) (s : State) : exec (.fabricResponse r) s = execFabricResponse r s := rfl
theorem exec_linkDown (x : LinkLoss) (s : State) : exec (.linkDown x) s = execLinkDown x s := rfl
theorem exec_planeHeader (k : PlaneKey) (h : HeaderBody) (s : State) : exec (.planeHeader k h) s = execPlaneHeader k h s := rfl
theorem exec_countPlane (k : PlaneKey) (plane : Nat) (counts : List Nat) (s : State) : exec (.countPlane k plane counts) s = execCountPlane k plane counts s := rfl
theorem exec_gatherPlane (k : PlaneKey) (plane : Nat) (vals : List Int) (s : State) : exec (.gatherPlane k plane vals) s = execGatherPlane k plane vals s := rfl
theorem exec_cancelRequest (k : PlaneKey) (c : Nat) (pos : Nat) (detm : Bool) (s : State) : exec (.cancelRequest k c pos detm) s = execCancelRequest k c pos detm s := rfl
theorem exec_freeze (k : PlaneKey) (f : Nat) (vals : List Int) (s : State) : exec (.freeze k f vals) s = execFreeze k f vals s := rfl
theorem exec_cancelAnswer (k : PlaneKey) (r : CancelReply) (s : State) : exec (.cancelAnswer k r) s = execCancelAnswer k r s := rfl
theorem exec_domeL2quota (v : Word) (s : State) : exec (.domeL2quota v) s = execDomeL2quota v s := rfl
theorem exec_cpClasscfg (cls : BitVec 2) (v : Word) (s : State) : exec (.cpClasscfg cls v) s = execCpClasscfg cls v s := rfl
theorem exec_domeCls0rsv (v : Word) (s : State) : exec (.domeCls0rsv v) s = execDomeCls0rsv v s := rfl
theorem exec_domeSweep (v : Word) (s : State) : exec (.domeSweep v) s = execDomeSweep v s := rfl
theorem exec_fabPodcfg (v : Word) (s : State) : exec (.fabPodcfg v) s = execFabPodcfg v s := rfl
theorem exec_domeCntsnap (v : Word) (s : State) : exec (.domeCntsnap v) s = execDomeCntsnap v s := rfl
theorem exec_cntsnapCopy (s : State) : exec (.cntsnapCopy) s = execCntsnapCopy s := rfl
theorem exec_dbgTracectl (v : Word) (s : State) : exec (.dbgTracectl v) s = execDbgTracectl v s := rfl
theorem exec_traceSample (s : State) : exec (.traceSample) s = execTraceSample s := rfl
theorem exec_dbgStopctl (v : Word) (s : State) : exec (.dbgStopctl v) s = execDbgStopctl v s := rfl
theorem exec_dbgStop (s : State) : exec (.dbgStop) s = execDbgStop s := rfl
theorem exec_pwrClkctl (v : Word) (s : State) : exec (.pwrClkctl v) s = execPwrClkctl v s := rfl
theorem exec_throttleEval (s : State) : exec (.throttleEval) s = execThrottleEval s := rfl
theorem exec_registerWrite (addr : Nat) (v : Word) (s : State) : exec (.registerWrite addr v) s = execRegisterWrite addr v s := rfl
theorem exec_devRstN (s : State) : exec (.devRstN) s = execDevRstN s := rfl
theorem exec_pgDeassert (s : State) : exec (.pgDeassert) s = execPgDeassert s := rfl
theorem exec_pgAllAsserted (s : State) : exec (.pgAllAsserted) s = execPgAllAsserted s := rfl
theorem exec_cxlConventionalReset (s : State) : exec (.cxlConventionalReset) s = execCxlConventionalReset s := rfl
theorem exec_cxlFlrPort0 (s : State) : exec (.cxlFlrPort0) s = execCxlFlrPort0 s := rfl
theorem exec_cxlFlrPort1 (s : State) : exec (.cxlFlrPort1) s = execCxlFlrPort1 s := rfl
theorem exec_thermalTrip (s : State) : exec (.thermalTrip) s = execThermalTrip s := rfl
theorem exec_thermNDeassert (s : State) : exec (.thermNDeassert) s = execThermNDeassert s := rfl
theorem exec_doeBegin (len : BitVec 32) (hdr : List Byte) (s : State) : exec (.doeBegin len hdr) s = execDoeBegin len hdr s := rfl
theorem exec_doeChunk (off : BitVec 32) (body : List Byte) (s : State) : exec (.doeChunk off body) s = execDoeChunk off body s := rfl
theorem exec_doeEnd (s : State) : exec (.doeEnd) s = execDoeEnd s := rfl
theorem exec_doeAttest (ctx : BitVec 32) (nonce : List Byte) (s : State) : exec (.doeAttest ctx nonce) s = execDoeAttest ctx nonce s := rfl
theorem exec_doeCommit (s : State) : exec (.doeCommit) s = execDoeCommit s := rfl
theorem exec_firmwareReady (s : State) : exec (.firmwareReady) s = execFirmwareReady s := rfl
theorem exec_liveUpdateTimeout (s : State) : exec (.liveUpdateTimeout) s = execLiveUpdateTimeout s := rfl
theorem exec_confidentialContextCreate (ctx : Nat) (key : List Byte) (s : State) : exec (.confidentialContextCreate ctx key) s = execConfidentialContextCreate ctx key s := rfl
theorem exec_faultRingDrain (s : State) : exec (.faultRingDrain) s = execFaultRingDrain s := rfl
theorem exec_scrubPass (s : State) : exec (.scrubPass) s = execScrubPass s := rfl
theorem exec_globalTick (s : State) : exec (.globalTick) s = execGlobalTick s := rfl
theorem exec_coreClockCycle (s : State) : exec (.coreClockCycle) s = execCoreClockCycle s := rfl
theorem exec_resolutionStep (team : Nat) (grp : Nat) (lane : Nat) (acc : Nat) (ctr : Nat) (s : State) : exec (.resolutionStep team grp lane acc ctr) s = execResolutionStep team grp lane acc ctr s := rfl
theorem exec_reservedScalarWord (s : State) : exec (.reservedScalarWord) s = execReservedScalarWord s := rfl
theorem exec_reservedLaneWord (w : LaneBits) (s : State) : exec (.reservedLaneWord w) s = execReservedLaneWord w s := rfl
theorem exec_tlbiComplete (s : State) : exec (.tlbiComplete) s = execTlbiComplete s := rfl
theorem exec_linkRestored (port : Nat) (s : State) : exec (.linkRestored port) s = execLinkRestored port s := rfl
theorem exec_vcCreditReturn (port : Nat) (vc : Nat) (beats : Nat) (s : State) : exec (.vcCreditReturn port vc beats) s = execVcCreditReturn port vc beats s := rfl
theorem exec_driverLaunchEnd (launch : Nat) (s : State) : exec (.driverLaunchEnd launch) s = execDriverLaunchEnd launch s := rfl
theorem exec_confidentialContextEnd (ctx : Nat) (s : State) : exec (.confidentialContextEnd ctx) s = execConfidentialContextEnd ctx s := rfl
theorem exec_functionEnable (s : State) : exec (.functionEnable) s = execFunctionEnable s := rfl
theorem exec_eccError (u : EccUnit) (hard : Bool) (s : State) : exec (.eccError u hard) s = execEccError u hard s := rfl
theorem exec_corePowerGating (core : Nat) (s : State) : exec (.corePowerGating core) s = execCorePowerGating core s := rfl
theorem exec_traceRingSpaceReturn (unit : Nat) (records : Nat) (s : State) : exec (.traceRingSpaceReturn unit records) s = execTraceRingSpaceReturn unit records s := rfl

end Sys2Proof.Laws
end

