-- ==== Sys2Proof/Laws/Run.lean ====
section
/-! SUPPORT. What a computation that may halt does: its steps one after another, its checks, the records it starts from, and its answer. -/

namespace Sys2Proof.Laws

open Machine

/-- A sequence runs its second part where the first ends. -/
theorem bind_run {α β : Type} (x : M α) (f : α → M β) (s : State) :
    (x >>= f) s = match x s with
      | .ok (a, s') => f a s'
      | .error e => .error e := by
  show (StateT.bind x f) s = _
  unfold StateT.bind
  cases h : x s <;> simp [bind, Except.bind]

theorem bind_ok {α β : Type} {x : M α} {f : α → M β} {s s' : State} {a : α} (h : x s = .ok (a, s')) : (x >>= f) s = f a s' := by
  rw [bind_run, h]

theorem bind_error {α β : Type} {x : M α} {f : α → M β} {s : State} {e : Halt × State} (h : x s = .error e) :
    (x >>= f) s = .error e := by
  rw [bind_run, h]

/-- A result mapped. -/
theorem map_run {α β : Type} (f : α → β) (x : M α) (s : State) :
    (f <$> x) s = match x s with
      | .ok (a, s') => .ok (f a, s')
      | .error e => .error e := by
  show (StateT.map f x) s = _
  unfold StateT.map
  cases h : x s <;> simp [bind, Except.bind, pure, Except.pure]

/-- A loop over one thing. -/
theorem forIn_one {α β : Type} (a : α) (b : β) (f : α → β → M (ForInStep β)) (s : State) :
    (forIn (m := M) [a] b f) s = match f a b s with
      | .ok (.done x, s') => .ok (x, s')
      | .ok (.yield x, s') => .ok (x, s')
      | .error e => .error e := by
  simp only [List.forIn_cons, List.forIn_nil, bind_run]
  cases f a b s with
  | error e => rfl
  | ok x =>
    obtain ⟨x, s'⟩ := x
    cases x <;> rfl

/-- What a meaning answers. -/
theorem answer_eq (m : M Unit) (s : State) : M.answer m s = match m s with
    | .ok (_, s') => .next s'
    | .error (h, s') => h.answer s' := rfl

@[simp] theorem pure_run {α : Type} (a : α) (s : State) : (pure a : M α) s = .ok (a, s) := rfl
@[simp] theorem upd_run (f : State → State) (s : State) : upd f s = .ok ((), f s) := rfl
@[simp] theorem get_run (s : State) : (get : M State) s = .ok (s, s) := rfl
@[simp] theorem set_run (s s' : State) : (set s' : M PUnit) s = .ok ((), s') := rfl
@[simp] theorem halt_run {α : Type} (h : Halt) (s : State) : (halt h : M α) s = .error (h, s) := rfl
@[simp] theorem stallOn_run {α : Type} (k : Stall) (s : State) : (stallOn k : M α) s = .error (.stall k, s) := rfl
@[simp] theorem trap_run {α : Type} (c : Cause) (l a i : Word) (s : State) :
    (trap c l a i : M α) s = .error (.trap { cause := c, tlane := l, taddr := a, tinfo := i }, s) := rfl

/-- A condition that holds lets the computation go on. -/
theorem require_ok {b : Bool} (h : b = true) (c : Cause) (l a i : Word) (s : State) : require b c l a i s = .ok ((), s) := by
  simp [require, h]

/-- A condition that fails raises its trap. -/
theorem require_fail {b : Bool} (h : b = false) (c : Cause) (l a i : Word) (s : State) :
    require b c l a i s = .error (.trap { cause := c, tlane := l, taddr := a, tinfo := i }, s) := by
  simp [require, h]

theorem here_ok {s : State} {c : Cur} {T : Team} {G : Group} (hc : s.cur = some c) (ht : s.team? c.team = some T)
    (hg : s.group? c.team c.grp = some G) : here s = .ok ((c, T, G), s) := by
  simp [here, hc, ht, hg]

theorem hereLaunch_ok {s : State} {c : Cur} {L : Launch} (hc : s.cur = some c) (hl : s.launchOf? c.team = some L) :
    hereLaunch s = .ok (L, s) := by
  simp [hereLaunch, hc, hl]

theorem hereContext_ok {s : State} {c : Cur} {C : Context} (hc : s.cur = some c) (h : s.contextOf? c.team = some C) :
    hereContext s = .ok (C, s) := by
  simp [hereContext, hc, h]

theorem hereScalar_ok {s : State} {r : ScalarRegs} (h : s.scalarRegs? = some r) : hereScalar s = .ok (r, s) := by
  simp [hereScalar, h]

@[simp] theorem inHandler_run (s : State) : inHandler s = .ok (s.cur.any (fun c => c.stream == .handler), s) := rfl

theorem notInHandler_ok {s : State} {c : Cur} (hc : s.cur = some c) (h : c.stream ≠ .handler) : notInHandler s = .ok ((), s) := by
  cases c with
  | mk t g st => cases st <;> simp_all [notInHandler, bind_run]

theorem onlyInHandler_ok {s : State} {c : Cur} (hc : s.cur = some c) (h : c.stream = .handler) : onlyInHandler s = .ok ((), s) := by
  cases c with
  | mk t g st => cases st <;> simp_all [onlyInHandler, bind_run]

@[simp] theorem doneScalar_run (n : Nat) (r : ScalarRegs) (s : State) :
    doneScalar n r s = .ok ((), s.retireScalar (r.goto (r.pc + BitVec.ofNat 64 n))) := rfl

/-- A computation that ends answers its last state. -/
theorem answer_ok {m : M Unit} {s s' : State} (h : m s = .ok ((), s')) : M.answer m s = .next s' := by
  simp [M.answer, h]

theorem answer_trap {m : M Unit} {s s' : State} {a : TrapArgs} (h : m s = .error (.trap a, s')) : M.answer m s = .next (s'.takeTrap a) := by
  simp [M.answer, h, Halt.answer]

theorem answer_stall {m : M Unit} {s s' : State} {k : Stall} (h : m s = .error (.stall k, s')) :
    M.answer m s = .next (s'.markStall k) := by
  simp [M.answer, h, Halt.answer]

/-- A scalar word that computes on the scalar registers answers the next state. -/
theorem scalarStep_next {s : State} {r : ScalarRegs} (h : s.scalarRegs? = some r) (n : Nat) (f : ScalarRegs → ScalarRegs) :
    scalarStep n f s = .next (s.retireScalar ((f r).goto (r.pc + BitVec.ofNat 64 n))) := by
  simp [scalarStep, h]

/-- What retiring a scalar instruction leaves in the state: only the teams change. -/
theorem retireScalar_frame (s : State) (r : ScalarRegs) : s.retireScalar r = { s with teams := (s.retireScalar r).teams } := by
  unfold State.retireScalar
  split
  · rfl
  · split <;> rfl

/-- The scalar registers after retiring are those written. -/
theorem scalarRegs_retire {s : State} {r r' : ScalarRegs} (h : s.scalarRegs? = some r) : (s.retireScalar r').scalarRegs? = some r' := by
  unfold State.scalarRegs? State.retireScalar at *
  cases hc : s.cur with
  | none => simp [hc] at h
  | some c =>
    rw [hc] at h
    cases hst : c.stream <;> simp only [hst, Option.bind_some] at h ⊢
    · simp only [modGroup_cur, hc, Option.bind_some, hst, group?_modGroup_same]
      cases hg : s.group? c.team c.grp <;> simp_all
    · simp only [modGroup_cur, hc, Option.bind_some, hst, group?_modGroup_same]
      cases hg : s.group? c.team c.grp <;> simp_all
    · simp only [modTeam_cur, hc, Option.bind_some, hst, modTeam_teams, modifyAt_get_same]
      cases ht : s.teams[c.team]? <;> simp_all

end Sys2Proof.Laws
end

