-- ==== Sys2Proof/Laws/Lane.lean ====
section
/-! SUPPORT. What every lane word does: its entry, its checks, its effect, its retirement. -/

namespace Sys2Proof.Laws

open Machine

theorem laneCtx_ok {s : State} {x : LaneCtx} (hc : s.cur = some x.c) (ht : s.team? x.c.team = some x.T)
    (hg : s.group? x.c.team x.c.grp = some x.G) (hl : s.launchOf? x.c.team = some x.L) : laneCtx x.parts s = .ok (x, s) := by
  unfold laneCtx
  rw [bind_ok (here_ok hc ht hg)]
  simp only [bind_ok (hereLaunch_ok hc hl), pure_run]

/-- A word that some lane executes enters with its participants. -/
theorem laneEnter_ok {i : Instr} {w : LaneWord} {x : LaneCtx} {s : State} (h : LaneReady i w x s) :
    laneEnter w.guard.toNat w.neg w.guardOk s = .ok (some x, s) := by
  have hp := h.acts
  unfold laneEnter
  rw [bind_ok (here_ok h.cur h.team h.group)]
  have hact : x.G.active.isEmpty = false := by
    cases hx : x.G.active with
    | nil => rw [h.parts, hx] at hp; simp at hp
    | cons a l => rfl
  simp only [hact, Bool.false_eq_true, if_false]
  rw [bind_ok (require_ok h.guard ..)]
  rw [← h.parts]
  have : x.parts.isEmpty = false := by cases hx : x.parts <;> simp_all
  simp only [this, Bool.false_eq_true, if_false]
  rw [bind_ok (laneCtx_ok h.cur h.team h.group h.launch), pure_run]

theorem checkRegs_clean {s : State} (h : s.poison = []) (t g : Nat) (r : List (Nat × Nat × (Bool × Nat))) :
    checkRegs t g r s = .ok ((), s) := by
  unfold checkRegs
  rw [bind_ok (get_run s)]
  simp [h]

/-- Its checks pass. -/
theorem laneChecks_ok {i : Instr} {w : LaneWord} {x : LaneCtx} {s : State} (h : LaneReady i w x s) : laneChecks x i s = .ok ((), s) := by
  obtain ⟨f, f', -, hf, hleg, hout⟩ := h.form
  unfold laneChecks
  simp only [hf]
  rw [bind_ok (require_ok hleg ..), bind_ok (checkRegs_clean h.clean ..)]
  simp [hout]

theorem clearRegs_clean {s : State} (h : s.poison = []) (x : LaneCtx) (r : List (Bool × Nat)) : clearRegs x r s = .ok ((), s) := by
  simp [clearRegs, h]

/-- A lane word whose effect ends retires after it. -/
theorem laneRun_next {i : Instr} {w : LaneWord} {x : LaneCtx} {s s' : State} {eff : LaneCtx → LaneWord → M Unit} (h : LaneReady i w x s)
    (he : eff x w s = .ok ((), s')) (hp : s'.poison = []) : laneRun i eff s = .next (s'.laneNext x.c) := by
  obtain ⟨f, f', hf', -, -, -⟩ := h.form
  unfold laneRun
  apply answer_ok
  simp only [hf']
  rw [bind_ok (laneEnter_ok h)]
  simp only
  rw [bind_ok (laneChecks_ok h), bind_ok he]
  split
  · rw [bind_ok (clearRegs_clean hp ..)]; rfl
  · rfl

/-- A word that computes in each lane by itself changes the participants' lanes. -/
theorem computes_run (f : LaneCtx → LaneWord → Lane → Lane) (x : LaneCtx) (w : LaneWord) (s : State) :
    computes f x w s = .ok ((), s.modGroup x.c.team x.c.grp fun g => g.mapLanes x.parts (f x w)) := rfl

theorem computes_next {i : Instr} {w : LaneWord} {x : LaneCtx} {s : State} (f : LaneCtx → LaneWord → Lane → Lane) (h : LaneReady i w x s) :
    laneRun i (computes f) s = .next ((s.modGroup x.c.team x.c.grp fun g => g.mapLanes x.parts (f x w)).laneNext x.c) :=
  laneRun_next h (computes_run f x w s) h.clean

/-- A word with no active lane is skipped, unchecked, and retires (R55). -/
theorem laneRun_idle {i : Instr} {w : LaneWord} {x : LaneCtx} {s : State} {f : Form} (eff : LaneCtx → LaneWord → M Unit)
    (hc : s.cur = some x.c) (ht : s.team? x.c.team = some x.T) (hg : s.group? x.c.team x.c.grp = some x.G)
    (hf : laneForm 64 i = some (f, w)) (hidle : x.G.active = []) : laneRun i eff s = .next (s.laneNext x.c) := by
  unfold laneRun
  apply answer_ok
  simp only [hf]
  have : laneEnter w.guard.toNat w.neg w.guardOk s = .ok (none, s) := by
    unfold laneEnter
    rw [bind_ok (here_ok hc ht hg)]
    simp [hidle]
  rw [bind_ok this]
  simp only
  rw [bind_ok (here_ok hc ht hg)]
  rfl

end Sys2Proof.Laws
end

