-- ==== Sys2Proof/Laws/Memory.lean ====
section
/-! SUPPORT. Laws of memory: every write keeps the canonical form, a read after a write, and equal memories read equal. -/

namespace Sys2Proof.Laws

open Machine

/-- Every listed address is at least `k`. -/
def Above (k : Nat) : Cells → Prop
  | [] => True
  | c :: _ => k ≤ c.1

theorem wf_cons {k : Nat} {b : Byte} {r : Cells} :
    Memory.wf ((k, b) :: r) = true ↔ b ≠ 0 ∧ Above (k + 1) r ∧ Memory.wf r = true := by
  cases r with
  | nil => simp [Memory.wf, Above]
  | cons c r =>
    simp only [Memory.wf, Above, Bool.and_eq_true, bne_iff_ne, ne_eq, decide_eq_true_eq, and_assoc]
    exact Iff.rfl

theorem above_mono {i j : Nat} {r : Cells} (h : Above j r) (hij : i ≤ j) : Above i r := by
  cases r with
  | nil => trivial
  | cons c r => exact Nat.le_trans hij h

theorem above_cellSet {k a : Nat} {b : Byte} {r : Cells} (h : Above k r) (ha : k ≤ a) (hw : Memory.wf r = true) :
    Above k (cellSet a b r) := by
  cases r with
  | nil => unfold cellSet; split <;> simp [Above, ha]
  | cons c r =>
    obtain ⟨j, x⟩ := c
    simp only [Above] at h
    unfold cellSet
    split
    · simpa [Above] using h
    · split
      · split
        · exact above_mono (wf_cons.1 hw).2.1 (by omega)
        · simpa [Above] using ha
      · split
        · simpa [Above] using h
        · simpa [Above] using ha

/-- A write of one byte keeps the canonical form. -/
theorem cellSet_wf (a : Nat) (b : Byte) {m : Cells} (hw : Memory.wf m = true) : Memory.wf (cellSet a b m) = true := by
  induction m with
  | nil => unfold cellSet; split <;> simp_all [Memory.wf]
  | cons c r ih =>
    obtain ⟨j, x⟩ := c
    obtain ⟨hx, hr, hwr⟩ := wf_cons.1 hw
    unfold cellSet
    split
    · exact wf_cons.2 ⟨hx, above_cellSet hr (by omega) hwr, ih hwr⟩
    · split
      · split
        · exact hwr
        · exact wf_cons.2 ⟨by assumption, above_mono hr (by omega), hwr⟩
      · split
        · exact hw
        · exact wf_cons.2 ⟨by assumption, by simp [Above]; omega, hw⟩

/-- A write of bytes keeps the canonical form. -/
theorem cellsWrite_wf (a : Nat) (bs : List Byte) {m : Cells} (hw : Memory.wf m = true) : Memory.wf (cellsWrite a bs m) = true := by
  induction bs generalizing a m with
  | nil => exact hw
  | cons b bs ih => exact ih (a + 1) (cellSet_wf a b hw)

theorem writeLE_wf (a n v : Nat) {m : Cells} (hw : Memory.wf m = true) : Memory.wf (writeLE a n v m) = true :=
  cellsWrite_wf a _ hw

theorem cellGet_above {k a : Nat} {m : Cells} (h : Above k m) (ha : a < k) : cellGet a m = 0 := by
  cases m with
  | nil => rfl
  | cons c r =>
    simp only [Above] at h
    simp only [cellGet]
    rw [if_neg (by omega), if_neg (by omega)]

/-- A byte reads as it was written. -/
theorem cellGet_set_same (a : Nat) (b : Byte) {m : Cells} (hw : Memory.wf m = true) : cellGet a (cellSet a b m) = b := by
  induction m with
  | nil =>
    unfold cellSet
    split
    · simp_all [cellGet]
    · simp [cellGet]
  | cons c r ih =>
    obtain ⟨j, x⟩ := c
    obtain ⟨-, hr, hwr⟩ := wf_cons.1 hw
    unfold cellSet
    split
    · simp only [cellGet]; rw [if_pos (by assumption)]; exact ih hwr
    · split
      · split
        · rw [cellGet_above hr (by omega)]; simp_all
        · simp [cellGet]
      · split
        · rw [cellGet_above (k := j)]
          · simp_all
          · simp [Above]
          · omega
        · simp [cellGet]

/-- Every other byte reads as before. -/
theorem cellGet_set_other {a a' : Nat} (b : Byte) {m : Cells} (hne : a' ≠ a) (hw : Memory.wf m = true) :
    cellGet a' (cellSet a b m) = cellGet a' m := by
  induction m with
  | nil =>
    by_cases h : b = 0
    · simp [cellSet, h]
    · simp only [cellSet, h, if_false, cellGet]
      split
      · rfl
      · split
        · omega
        · rfl
  | cons c r ih =>
    obtain ⟨j, x⟩ := c
    obtain ⟨-, hr, hwr⟩ := wf_cons.1 hw
    unfold cellSet
    split
    · simp only [cellGet]; rw [ih hwr]
    · split
      · have : j = a := by assumption
        subst this
        split
        · simp only [cellGet]
          by_cases h1 : j < a'
          · simp [h1]
          · rw [if_neg h1, if_neg (fun e => hne e.symm), cellGet_above hr (by omega)]
        · simp only [cellGet]
          by_cases h1 : j < a'
          · simp [h1]
          · simp [h1, Ne.symm hne]
      · split
        · rfl
        · by_cases h1 : a < a'
          · simp [cellGet, h1]
          · rw [cellGet_above (k := a)]
            · rw [cellGet_above (k := j)]
              · exact Nat.le_refl j
              · omega
            · exact Nat.le_refl a
            · omega

/-- A byte outside the bytes written reads as before. -/
theorem cellGet_write_other (a : Nat) (bs : List Byte) {m : Cells} {x : Nat} (hw : Memory.wf m = true) (h : x < a ∨ a + bs.length ≤ x) :
    cellGet x (cellsWrite a bs m) = cellGet x m := by
  induction bs generalizing a m with
  | nil => rfl
  | cons b bs ih =>
    simp only [List.length_cons] at h
    rw [cellsWrite, ih (a + 1) (cellSet_wf a b hw) (by omega), cellGet_set_other b (by omega) hw]

/-- A byte written reads as written. -/
theorem cellGet_write (a : Nat) (bs : List Byte) {m : Cells} {i : Nat} (hw : Memory.wf m = true) (h : i < bs.length) :
    cellGet (a + i) (cellsWrite a bs m) = bs[i] := by
  induction bs generalizing a m i with
  | nil => simp at h
  | cons b bs ih =>
    cases i with
    | zero =>
      rw [cellsWrite, Nat.add_zero, cellGet_write_other (a + 1) bs (cellSet_wf a b hw) (by omega), cellGet_set_same a b hw]; rfl
    | succ i =>
      have := ih (a + 1) (m := cellSet a b m) (i := i) (cellSet_wf a b hw) (by simpa using h)
      rw [cellsWrite, show a + (i + 1) = a + 1 + i by omega, this]; rfl

theorem cellsRead_length (m : Cells) (a n : Nat) : (cellsRead m a n).length = n := by
  induction n generalizing a with
  | zero => rfl
  | succ n ih => simp [cellsRead, ih]

theorem cellsRead_get (m : Cells) (a n i : Nat) (h : i < n) : (cellsRead m a n)[i]? = some (cellGet (a + i) m) := by
  induction n generalizing a i with
  | zero => omega
  | succ n ih =>
    cases i with
    | zero => rfl
    | succ i => simp only [cellsRead, List.getElem?_cons_succ]; rw [ih (a + 1) i (by omega)]; congr 2; omega

/-- What was written is what is read. -/
theorem cellsRead_write (a : Nat) (bs : List Byte) {m : Cells} (hw : Memory.wf m = true) :
    cellsRead (cellsWrite a bs m) a bs.length = bs := by
  apply List.ext_getElem?
  intro i
  by_cases h : i < bs.length
  · rw [cellsRead_get _ _ _ _ h, cellGet_write a bs hw h]; simp [h]
  · rw [List.getElem?_eq_none (by simpa [cellsRead_length] using h), List.getElem?_eq_none (by omega)]

end Sys2Proof.Laws
end

