-- ==== Sys2Proof/Laws/PerInstr.lean ====
section
/-! SUPPORT. What holds of every instruction as syntax, constructor by constructor: `Words` says which instructions have a word of which stream. -/

namespace Sys2Proof.Laws.Words

/-- R45, R47: an instruction has a scalar word exactly where the scalar stream carries it, a lane word exactly where the lane stream does. -/
def Statement (i : Instr) : Prop :=
  (encodeScalar i).isSome = (i.carrier == .scalar) ∧ (encodeLane i).isSome = (i.carrier == .lane)

theorem add (sd : SReg) (sa : SReg) (sb : SReg) : Statement (.add sd sa sb) := ⟨rfl, rfl⟩
theorem sub (sd : SReg) (sa : SReg) (sb : SReg) : Statement (.sub sd sa sb) := ⟨rfl, rfl⟩
theorem mul (sd : SReg) (sa : SReg) (sb : SReg) : Statement (.mul sd sa sb) := ⟨rfl, rfl⟩
theorem mulh (u : Bool) (sd : SReg) (sa : SReg) (sb : SReg) : Statement (.mulh u sd sa sb) := ⟨rfl, rfl⟩
theorem div (u : Bool) (sd : SReg) (sa : SReg) (sb : SReg) : Statement (.div u sd sa sb) := ⟨rfl, rfl⟩
theorem rem (u : Bool) (sd : SReg) (sa : SReg) (sb : SReg) : Statement (.rem u sd sa sb) := ⟨rfl, rfl⟩
theorem and (sd : SReg) (sa : SReg) (sb : SReg) : Statement (.and sd sa sb) := ⟨rfl, rfl⟩
theorem or (sd : SReg) (sa : SReg) (sb : SReg) : Statement (.or sd sa sb) := ⟨rfl, rfl⟩
theorem xor (sd : SReg) (sa : SReg) (sb : SReg) : Statement (.xor sd sa sb) := ⟨rfl, rfl⟩
theorem shl (sd : SReg) (sa : SReg) (sb : SReg) : Statement (.shl sd sa sb) := ⟨rfl, rfl⟩
theorem shr (sd : SReg) (sa : SReg) (sb : SReg) : Statement (.shr sd sa sb) := ⟨rfl, rfl⟩
theorem sar (sd : SReg) (sa : SReg) (sb : SReg) : Statement (.sar sd sa sb) := ⟨rfl, rfl⟩
theorem min (u : Bool) (sd : SReg) (sa : SReg) (sb : SReg) : Statement (.min u sd sa sb) := ⟨rfl, rfl⟩
theorem max (u : Bool) (sd : SReg) (sa : SReg) (sb : SReg) : Statement (.max u sd sa sb) := ⟨rfl, rfl⟩
theorem bfx (sd : SReg) (sa : SReg) (sb : SReg) : Statement (.bfx sd sa sb) := ⟨rfl, rfl⟩
theorem bfi (sd : SReg) (sa : SReg) (sb : SReg) : Statement (.bfi sd sa sb) := ⟨rfl, rfl⟩
theorem addi (sd : SReg) (sa : SReg) (imm : BitVec 13) : Statement (.addi sd sa imm) := ⟨rfl, rfl⟩
theorem andi (sd : SReg) (sa : SReg) (imm : BitVec 13) : Statement (.andi sd sa imm) := ⟨rfl, rfl⟩
theorem ori (sd : SReg) (sa : SReg) (imm : BitVec 13) : Statement (.ori sd sa imm) := ⟨rfl, rfl⟩
theorem xori (sd : SReg) (sa : SReg) (imm : BitVec 13) : Statement (.xori sd sa imm) := ⟨rfl, rfl⟩
theorem shli (sd : SReg) (sa : SReg) (cnt : BitVec 6) : Statement (.shli sd sa cnt) := ⟨rfl, rfl⟩
theorem shri (sd : SReg) (sa : SReg) (cnt : BitVec 6) : Statement (.shri sd sa cnt) := ⟨rfl, rfl⟩
theorem sari (sd : SReg) (sa : SReg) (cnt : BitVec 6) : Statement (.sari sd sa cnt) := ⟨rfl, rfl⟩
theorem movi (sd : SReg) (v : BitVec 32) : Statement (.movi sd v) := ⟨rfl, rfl⟩
theorem movhi (sd : SReg) (v : BitVec 32) : Statement (.movhi sd v) := ⟨rfl, rfl⟩
theorem cmp (c : ScalarCond) (qd : QReg) (sa : SReg) (sb : SReg) : Statement (.cmp c qd sa sb) := ⟨rfl, rfl⟩
theorem cmpi (c : ScalarCond) (qd : QReg) (sa : SReg) (v : BitVec 32) : Statement (.cmpi c qd sa v) := ⟨rfl, rfl⟩
theorem qop (f : QFun) (qd : QReg) (qa : QReg) (qb : QReg) : Statement (.qop f qd qa qb) := ⟨rfl, rfl⟩
theorem sel (sd : SReg) (q : QReg) (sa : SReg) (sb : SReg) : Statement (.sel sd q sa sb) := ⟨rfl, rfl⟩
theorem popc (sd : SReg) (sa : SReg) : Statement (.popc sd sa) := ⟨rfl, rfl⟩
theorem clz (sd : SReg) (sa : SReg) : Statement (.clz sd sa) := ⟨rfl, rfl⟩
theorem ctz (sd : SReg) (sa : SReg) : Statement (.ctz sd sa) := ⟨rfl, rfl⟩
theorem brev (sd : SReg) (sa : SReg) : Statement (.brev sd sa) := ⟨rfl, rfl⟩
theorem ld (sz : LoadSize) (sd : SReg) (base : SReg) (off : BitVec 10) : Statement (.ld sz sd base off) := ⟨rfl, rfl⟩
theorem st (sz : Size) (ss : SReg) (base : SReg) (off : BitVec 10) : Statement (.st sz ss base off) := ⟨rfl, rfl⟩
theorem lds (sz : LoadSize) (sd : SReg) (base : SReg) (off : BitVec 10) : Statement (.lds sz sd base off) := ⟨rfl, rfl⟩
theorem sts (sz : Size) (ss : SReg) (base : SReg) (off : BitVec 10) : Statement (.sts sz ss base off) := ⟨rfl, rfl⟩
theorem ldaq (sc : Scope) (sz : Size) (sd : SReg) (sa : SReg) : Statement (.ldaq sc sz sd sa) := ⟨rfl, rfl⟩
theorem strl (sc : Scope) (sz : Size) (ss : SReg) (sa : SReg) : Statement (.strl sc sz ss sa) := ⟨rfl, rfl⟩
theorem atom (op : AtomOp) (sc : Scope) (sd : SReg) (sa : SReg) (sb : SReg) : Statement (.atom op sc sd sa sb) := ⟨rfl, rfl⟩
theorem cas (sc : Scope) (sd : SReg) (sa : SReg) (sb : SReg) : Statement (.cas sc sd sa sb) := ⟨rfl, rfl⟩
theorem fence (sc : Scope) : Statement (.fence sc) := ⟨rfl, rfl⟩
theorem br (q : QReg) (neg : Bool) (off : BitVec 20) : Statement (.br q neg off) := ⟨rfl, rfl⟩
theorem call (q : QReg) (neg : Bool) (off : BitVec 20) : Statement (.call q neg off) := ⟨rfl, rfl⟩
theorem ret (q : QReg) (neg : Bool) : Statement (.ret q neg) := ⟨rfl, rfl⟩
theorem jmpr (sa : SReg) : Statement (.jmpr sa) := ⟨rfl, rfl⟩
theorem lrun (sa : SReg) (n : BitVec 4) (target : BitVec 32) : Statement (.lrun sa n target) := ⟨rfl, rfl⟩
theorem spop (sd : SReg) : Statement (.spop sd) := ⟨rfl, rfl⟩
theorem lnch (sd : SReg) (sa : SReg) : Statement (.lnch sd sa) := ⟨rfl, rfl⟩
theorem sget (sd : SReg) (ty : BitVec 5) (code : BitVec 8) : Statement (.sget sd ty code) := ⟨rfl, rfl⟩
theorem sset (hs : BitVec 2) (sa : SReg) : Statement (.sset hs sa) := ⟨rfl, rfl⟩
theorem mrst (off : BitVec 32) : Statement (.mrst off) := ⟨rfl, rfl⟩
theorem cpy (flag : BitVec 6) (sa : SReg) : Statement (.cpy flag sa) := ⟨rfl, rfl⟩
theorem gath (flag : BitVec 6) (sa : SReg) : Statement (.gath flag sa) := ⟨rfl, rfl⟩
theorem part (flag : BitVec 6) (sa : SReg) : Statement (.part flag sa) := ⟨rfl, rfl⟩
theorem puts (flag : BitVec 6) (sa : SReg) : Statement (.puts flag sa) := ⟨rfl, rfl⟩
theorem get (flag : BitVec 6) (sa : SReg) : Statement (.get flag sa) := ⟨rfl, rfl⟩
theorem fabricRadd (flag : BitVec 6) (sa : SReg) : Statement (.fabricRadd flag sa) := ⟨rfl, rfl⟩
theorem plcl (flag : BitVec 6) (sa : SReg) : Statement (.plcl flag sa) := ⟨rfl, rfl⟩
theorem plcn (sd : SReg) (sa : SReg) (sb : SReg) : Statement (.plcn sd sa sb) := ⟨rfl, rfl⟩
theorem plwt (sd : SReg) (sa : SReg) (sb : SReg) : Statement (.plwt sd sa sb) := ⟨rfl, rfl⟩
theorem plval (flag : BitVec 6) (sa : SReg) (sb : SReg) : Statement (.plval flag sa sb) := ⟨rfl, rfl⟩
theorem plcx (sd : SReg) (sa : SReg) (sb : SReg) : Statement (.plcx sd sa sb) := ⟨rfl, rfl⟩
theorem wflg (mask : BitVec 12) : Statement (.wflg mask) := ⟨rfl, rfl⟩
theorem wflgNow (mask : BitVec 12) : Statement (.wflgNow mask) := ⟨rfl, rfl⟩
theorem swini (sa : SReg) (sb : SReg) : Statement (.swini sa sb) := ⟨rfl, rfl⟩
theorem swait (sa : SReg) (sb : SReg) : Statement (.swait sa sb) := ⟨rfl, rfl⟩
theorem waita (sd : SReg) (sa : SReg) (sb : SReg) : Statement (.waita sd sa sb) := ⟨rfl, rfl⟩
theorem sbara (sd : SReg) (sa : SReg) (sb : SReg) : Statement (.sbara sd sa sb) := ⟨rfl, rfl⟩
theorem sbarw (sa : SReg) (sb : SReg) : Statement (.sbarw sa sb) := ⟨rfl, rfl⟩
theorem obres (sd : SReg) (sa : SReg) (sb : SReg) : Statement (.obres sd sa sb) := ⟨rfl, rfl⟩
theorem obrel (sa : SReg) : Statement (.obrel sa) := ⟨rfl, rfl⟩
theorem ctab (sa : SReg) (sb : SReg) : Statement (.ctab sa sb) := ⟨rfl, rfl⟩
theorem trap (imm : BitVec 12) (sa : SReg) : Statement (.trap imm sa) := ⟨rfl, rfl⟩
theorem trd (sd : SReg) (sa : SReg) (sb : SReg) : Statement (.trd sd sa sb) := ⟨rfl, rfl⟩
theorem twr (ss : SReg) (sa : SReg) (sb : SReg) : Statement (.twr ss sa sb) := ⟨rfl, rfl⟩
theorem tres (sl : SReg) (sa : SReg) (sb : SReg) : Statement (.tres sl sa sb) := ⟨rfl, rfl⟩
theorem tkil (sa : SReg) : Statement (.tkil sa) := ⟨rfl, rfl⟩
theorem dump (sd : SReg) (sa : SReg) (sb : SReg) : Statement (.dump sd sa sb) := ⟨rfl, rfl⟩
theorem pairWord (w : PairWord) : Statement (.pairWord w) := ⟨rfl, rfl⟩
theorem laneAdd (w : LaneWord) : Statement (.laneAdd w) := ⟨rfl, rfl⟩
theorem laneAddi (w : LaneWord) : Statement (.laneAddi w) := ⟨rfl, rfl⟩
theorem laneSub (w : LaneWord) : Statement (.laneSub w) := ⟨rfl, rfl⟩
theorem adds (w : LaneWord) : Statement (.adds w) := ⟨rfl, rfl⟩
theorem subs (w : LaneWord) : Statement (.subs w) := ⟨rfl, rfl⟩
theorem neg (w : LaneWord) : Statement (.neg w) := ⟨rfl, rfl⟩
theorem abs (w : LaneWord) : Statement (.abs w) := ⟨rfl, rfl⟩
theorem laneMul (w : LaneWord) : Statement (.laneMul w) := ⟨rfl, rfl⟩
theorem laneMulh (w : LaneWord) : Statement (.laneMulh w) := ⟨rfl, rfl⟩
theorem muls (w : LaneWord) : Statement (.muls w) := ⟨rfl, rfl⟩
theorem mad (w : LaneWord) : Statement (.mad w) := ⟨rfl, rfl⟩
theorem mads (w : LaneWord) : Statement (.mads w) := ⟨rfl, rfl⟩
theorem laneDiv (w : LaneWord) : Statement (.laneDiv w) := ⟨rfl, rfl⟩
theorem laneRem (w : LaneWord) : Statement (.laneRem w) := ⟨rfl, rfl⟩
theorem laneMin (w : LaneWord) : Statement (.laneMin w) := ⟨rfl, rfl⟩
theorem laneMax (w : LaneWord) : Statement (.laneMax w) := ⟨rfl, rfl⟩
theorem clamp (w : LaneWord) : Statement (.clamp w) := ⟨rfl, rfl⟩
theorem laneAnd (w : LaneWord) : Statement (.laneAnd w) := ⟨rfl, rfl⟩
theorem laneOr (w : LaneWord) : Statement (.laneOr w) := ⟨rfl, rfl⟩
theorem laneXor (w : LaneWord) : Statement (.laneXor w) := ⟨rfl, rfl⟩
theorem andn (w : LaneWord) : Statement (.andn w) := ⟨rfl, rfl⟩
theorem not (w : LaneWord) : Statement (.not w) := ⟨rfl, rfl⟩
theorem tern (w : LaneWord) : Statement (.tern w) := ⟨rfl, rfl⟩
theorem laneShl (w : LaneWord) : Statement (.laneShl w) := ⟨rfl, rfl⟩
theorem laneShr (w : LaneWord) : Statement (.laneShr w) := ⟨rfl, rfl⟩
theorem laneSar (w : LaneWord) : Statement (.laneSar w) := ⟨rfl, rfl⟩
theorem rol (w : LaneWord) : Statement (.rol w) := ⟨rfl, rfl⟩
theorem ror (w : LaneWord) : Statement (.ror w) := ⟨rfl, rfl⟩
theorem laneShli (w : LaneWord) : Statement (.laneShli w) := ⟨rfl, rfl⟩
theorem laneShri (w : LaneWord) : Statement (.laneShri w) := ⟨rfl, rfl⟩
theorem laneSari (w : LaneWord) : Statement (.laneSari w) := ⟨rfl, rfl⟩
theorem roli (w : LaneWord) : Statement (.roli w) := ⟨rfl, rfl⟩
theorem rori (w : LaneWord) : Statement (.rori w) := ⟨rfl, rfl⟩
theorem mov (w : LaneWord) : Statement (.mov w) := ⟨rfl, rfl⟩
theorem laneMovi (w : LaneWord) : Statement (.laneMovi w) := ⟨rfl, rfl⟩
theorem laneSel (w : LaneWord) : Statement (.laneSel w) := ⟨rfl, rfl⟩
theorem lget (w : LaneWord) : Statement (.lget w) := ⟨rfl, rfl⟩
theorem fadd (w : LaneWord) : Statement (.fadd w) := ⟨rfl, rfl⟩
theorem fsub (w : LaneWord) : Statement (.fsub w) := ⟨rfl, rfl⟩
theorem fmul (w : LaneWord) : Statement (.fmul w) := ⟨rfl, rfl⟩
theorem fdiv (w : LaneWord) : Statement (.fdiv w) := ⟨rfl, rfl⟩
theorem fsqrt (w : LaneWord) : Statement (.fsqrt w) := ⟨rfl, rfl⟩
theorem fmin (w : LaneWord) : Statement (.fmin w) := ⟨rfl, rfl⟩
theorem fmax (w : LaneWord) : Statement (.fmax w) := ⟨rfl, rfl⟩
theorem fabs (w : LaneWord) : Statement (.fabs w) := ⟨rfl, rfl⟩
theorem fneg (w : LaneWord) : Statement (.fneg w) := ⟨rfl, rfl⟩
theorem cpsgn (w : LaneWord) : Statement (.cpsgn w) := ⟨rfl, rfl⟩
theorem fma (w : LaneWord) : Statement (.fma w) := ⟨rfl, rfl⟩
theorem fms (w : LaneWord) : Statement (.fms w) := ⟨rfl, rfl⟩
theorem fnma (w : LaneWord) : Statement (.fnma w) := ⟨rfl, rfl⟩
theorem ex2f (w : LaneWord) : Statement (.ex2f w) := ⟨rfl, rfl⟩
theorem lg2 (w : LaneWord) : Statement (.lg2 w) := ⟨rfl, rfl⟩
theorem rcp (w : LaneWord) : Statement (.rcp w) := ⟨rfl, rfl⟩
theorem rsq (w : LaneWord) : Statement (.rsq w) := ⟨rfl, rfl⟩
theorem sinp (w : LaneWord) : Statement (.sinp w) := ⟨rfl, rfl⟩
theorem cosp (w : LaneWord) : Statement (.cosp w) := ⟨rfl, rfl⟩
theorem rndi (w : LaneWord) : Statement (.rndi w) := ⟨rfl, rfl⟩
theorem expi (w : LaneWord) : Statement (.expi w) := ⟨rfl, rfl⟩
theorem cvt (w : LaneWord) : Statement (.cvt w) := ⟨rfl, rfl⟩
theorem qnt (w : LaneWord) : Statement (.qnt w) := ⟨rfl, rfl⟩
theorem dqnt (w : LaneWord) : Statement (.dqnt w) := ⟨rfl, rfl⟩
theorem bsAdd (w : LaneWord) : Statement (.bsAdd w) := ⟨rfl, rfl⟩
theorem bsSub (w : LaneWord) : Statement (.bsSub w) := ⟨rfl, rfl⟩
theorem bsAdds (w : LaneWord) : Statement (.bsAdds w) := ⟨rfl, rfl⟩
theorem bsSubs (w : LaneWord) : Statement (.bsSubs w) := ⟨rfl, rfl⟩
theorem bsMul (w : LaneWord) : Statement (.bsMul w) := ⟨rfl, rfl⟩
theorem bsMuls (w : LaneWord) : Statement (.bsMuls w) := ⟨rfl, rfl⟩
theorem bsMin (w : LaneWord) : Statement (.bsMin w) := ⟨rfl, rfl⟩
theorem bsMax (w : LaneWord) : Statement (.bsMax w) := ⟨rfl, rfl⟩
theorem bscmp (c : IntCond) (w : LaneWord) : Statement (.bscmp c w) := ⟨rfl, rfl⟩
theorem lanePopc (w : LaneWord) : Statement (.lanePopc w) := ⟨rfl, rfl⟩
theorem laneClz (w : LaneWord) : Statement (.laneClz w) := ⟨rfl, rfl⟩
theorem laneCtz (w : LaneWord) : Statement (.laneCtz w) := ⟨rfl, rfl⟩
theorem laneBrev (w : LaneWord) : Statement (.laneBrev w) := ⟨rfl, rfl⟩
theorem laneBfx (w : LaneWord) : Statement (.laneBfx w) := ⟨rfl, rfl⟩
theorem laneBfi (w : LaneWord) : Statement (.laneBfi w) := ⟨rfl, rfl⟩
theorem bfxi (w : LaneWord) : Statement (.bfxi w) := ⟨rfl, rfl⟩
theorem bfii (w : LaneWord) : Statement (.bfii w) := ⟨rfl, rfl⟩
theorem hashCrc (w : LaneWord) : Statement (.hashCrc w) := ⟨rfl, rfl⟩
theorem hashMix (w : LaneWord) : Statement (.hashMix w) := ⟨rfl, rfl⟩
theorem scmp (w : LaneWord) : Statement (.scmp w) := ⟨rfl, rfl⟩
theorem sfind (w : LaneWord) : Statement (.sfind w) := ⟨rfl, rfl⟩
theorem slen (w : LaneWord) : Statement (.slen w) := ⟨rfl, rfl⟩
theorem rng (w : LaneWord) : Statement (.rng w) := ⟨rfl, rfl⟩
theorem laneCmp (c : IntCond) (w : LaneWord) : Statement (.laneCmp c w) := ⟨rfl, rfl⟩
theorem fcmp (c : FloatCond) (w : LaneWord) : Statement (.fcmp c w) := ⟨rfl, rfl⟩
theorem pand (w : LaneWord) : Statement (.pand w) := ⟨rfl, rfl⟩
theorem por (w : LaneWord) : Statement (.por w) := ⟨rfl, rfl⟩
theorem pxor (w : LaneWord) : Statement (.pxor w) := ⟨rfl, rfl⟩
theorem pandn (w : LaneWord) : Statement (.pandn w) := ⟨rfl, rfl⟩
theorem pnot (w : LaneWord) : Statement (.pnot w) := ⟨rfl, rfl⟩
theorem pmov (w : LaneWord) : Statement (.pmov w) := ⟨rfl, rfl⟩
theorem pset (w : LaneWord) : Statement (.pset w) := ⟨rfl, rfl⟩
theorem pget (w : LaneWord) : Statement (.pget w) := ⟨rfl, rfl⟩
theorem pput (w : LaneWord) : Statement (.pput w) := ⟨rfl, rfl⟩
theorem laneIf (w : LaneWord) : Statement (.laneIf w) := ⟨rfl, rfl⟩
theorem laneElse (w : LaneWord) : Statement (.laneElse w) := ⟨rfl, rfl⟩
theorem laneEndif (w : LaneWord) : Statement (.laneEndif w) := ⟨rfl, rfl⟩
theorem laneLoop (w : LaneWord) : Statement (.laneLoop w) := ⟨rfl, rfl⟩
theorem laneBrk (w : LaneWord) : Statement (.laneBrk w) := ⟨rfl, rfl⟩
theorem laneCont (w : LaneWord) : Statement (.laneCont w) := ⟨rfl, rfl⟩
theorem laneEndloop (w : LaneWord) : Statement (.laneEndloop w) := ⟨rfl, rfl⟩
theorem laneExit (w : LaneWord) : Statement (.laneExit w) := ⟨rfl, rfl⟩
theorem laneStop (w : LaneWord) : Statement (.laneStop w) := ⟨rfl, rfl⟩
theorem rfil (w : LaneWord) : Statement (.rfil w) := ⟨rfl, rfl⟩
theorem pollThr (w : LaneWord) : Statement (.pollThr w) := ⟨rfl, rfl⟩
theorem pollMask (w : LaneWord) : Statement (.pollMask w) := ⟨rfl, rfl⟩
theorem pollRank (w : LaneWord) : Statement (.pollRank w) := ⟨rfl, rfl⟩
theorem keyg (w : LaneWord) : Statement (.keyg w) := ⟨rfl, rfl⟩
theorem lead (w : LaneWord) : Statement (.lead w) := ⟨rfl, rfl⟩
theorem lpush (w : LaneWord) : Statement (.lpush w) := ⟨rfl, rfl⟩
theorem xlnGet (w : LaneWord) : Statement (.xlnGet w) := ⟨rfl, rfl⟩
theorem xlnFlip (w : LaneWord) : Statement (.xlnFlip w) := ⟨rfl, rfl⟩
theorem xlnRot (w : LaneWord) : Statement (.xlnRot w) := ⟨rfl, rfl⟩
theorem xlnSlide (w : LaneWord) : Statement (.xlnSlide w) := ⟨rfl, rfl⟩
theorem bcst (w : LaneWord) : Statement (.bcst w) := ⟨rfl, rfl⟩
theorem gred (op : RedOp) (w : LaneWord) : Statement (.gred op w) := ⟨rfl, rfl⟩
theorem gscan (op : RedOp) (excl : Bool) (w : LaneWord) : Statement (.gscan op excl w) := ⟨rfl, rfl⟩
theorem gsync (w : LaneWord) : Statement (.gsync w) := ⟨rfl, rfl⟩
theorem azero (w : LaneWord) : Statement (.azero w) := ⟨rfl, rfl⟩
theorem aadd (w : LaneWord) : Statement (.aadd w) := ⟨rfl, rfl⟩
theorem aadda (w : LaneWord) : Statement (.aadda w) := ⟨rfl, rfl⟩
theorem aneg (w : LaneWord) : Statement (.aneg w) := ⟨rfl, rfl⟩
theorem amac (w : LaneWord) : Statement (.amac w) := ⟨rfl, rfl⟩
theorem adot (w : LaneWord) : Statement (.adot w) := ⟨rfl, rfl⟩
theorem cres (w : LaneWord) : Statement (.cres w) := ⟨rfl, rfl⟩
theorem arnd (w : LaneWord) : Statement (.arnd w) := ⟨rfl, rfl⟩
theorem arndDiv (w : LaneWord) : Statement (.arndDiv w) := ⟨rfl, rfl⟩
theorem ald (w : LaneWord) : Statement (.ald w) := ⟨rfl, rfl⟩
theorem ast (w : LaneWord) : Statement (.ast w) := ⟨rfl, rfl⟩
theorem aseg (w : LaneWord) : Statement (.aseg w) := ⟨rfl, rfl⟩
theorem astat (w : LaneWord) : Statement (.astat w) := ⟨rfl, rfl⟩
theorem ageti (w : LaneWord) : Statement (.ageti w) := ⟨rfl, rfl⟩
theorem ared (w : LaneWord) : Statement (.ared w) := ⟨rfl, rfl⟩
theorem laneLd (w : LaneWord) : Statement (.laneLd w) := ⟨rfl, rfl⟩
theorem laneSt (w : LaneWord) : Statement (.laneSt w) := ⟨rfl, rfl⟩
theorem laneLds (w : LaneWord) : Statement (.laneLds w) := ⟨rfl, rfl⟩
theorem laneSts (w : LaneWord) : Statement (.laneSts w) := ⟨rfl, rfl⟩
theorem laneAtom (op : AtomOp) (w : LaneWord) : Statement (.laneAtom op w) := ⟨rfl, rfl⟩
theorem laneCas (w : LaneWord) : Statement (.laneCas w) := ⟨rfl, rfl⟩
theorem radd (w : LaneWord) : Statement (.radd w) := ⟨rfl, rfl⟩
theorem raddAcc (w : LaneWord) : Statement (.raddAcc w) := ⟨rfl, rfl⟩
theorem laneFence (w : LaneWord) : Statement (.laneFence w) := ⟨rfl, rfl⟩
theorem laneWaita (w : LaneWord) : Statement (.laneWaita w) := ⟨rfl, rfl⟩
theorem bara (w : LaneWord) : Statement (.bara w) := ⟨rfl, rfl⟩
theorem barw (w : LaneWord) : Statement (.barw w) := ⟨rfl, rfl⟩
theorem cbara (w : LaneWord) : Statement (.cbara w) := ⟨rfl, rfl⟩
theorem cbarw (w : LaneWord) : Statement (.cbarw w) := ⟨rfl, rfl⟩
theorem laneSwait (w : LaneWord) : Statement (.laneSwait w) := ⟨rfl, rfl⟩
theorem mma (w : LaneWord) : Statement (.mma w) := ⟨rfl, rfl⟩
theorem mmaKreg (w : LaneWord) : Statement (.mmaKreg w) := ⟨rfl, rfl⟩
theorem mfen (w : LaneWord) : Statement (.mfen w) := ⟨rfl, rfl⟩
theorem mwait (w : LaneWord) : Statement (.mwait w) := ⟨rfl, rfl⟩
theorem mwaitLast (w : LaneWord) : Statement (.mwaitLast w) := ⟨rfl, rfl⟩
theorem mzero (w : LaneWord) : Statement (.mzero w) := ⟨rfl, rfl⟩
theorem mstRnd (w : LaneWord) : Statement (.mstRnd w) := ⟨rfl, rfl⟩
theorem mstRaw (w : LaneWord) : Statement (.mstRaw w) := ⟨rfl, rfl⟩
theorem mstAdd (w : LaneWord) : Statement (.mstAdd w) := ⟨rfl, rfl⟩
theorem vpjs (w : LaneWord) : Statement (.vpjs w) := ⟨rfl, rfl⟩
theorem vpjr (w : LaneWord) : Statement (.vpjr w) := ⟨rfl, rfl⟩
theorem vpjm (w : LaneWord) : Statement (.vpjm w) := ⟨rfl, rfl⟩
theorem vpjx (w : LaneWord) : Statement (.vpjx w) := ⟨rfl, rfl⟩
theorem vpjb (w : LaneWord) : Statement (.vpjb w) := ⟨rfl, rfl⟩
theorem reservedLaneWord (w : LaneBits) : Statement (.reservedLaneWord w) := ⟨rfl, rfl⟩
theorem reservedScalarWord : Statement (.reservedScalarWord) := ⟨rfl, rfl⟩
theorem sdone : Statement (.sdone) := ⟨rfl, rfl⟩
theorem nop : Statement (.nop) := ⟨rfl, rfl⟩
theorem eret : Statement (.eret) := ⟨rfl, rfl⟩
theorem runStart (team : Nat) (grp : Nat) : Statement (.runStart team grp) := ⟨rfl, rfl⟩
theorem clauseStart (team : Nat) (grp : Nat) : Statement (.clauseStart team grp) := ⟨rfl, rfl⟩
theorem loadDataReturn (team : Nat) (grp : Nat) (id : Nat) : Statement (.loadDataReturn team grp id) := ⟨rfl, rfl⟩
theorem storePerformed (team : Nat) (grp : Nat) (id : Nat) : Statement (.storePerformed team grp id) := ⟨rfl, rfl⟩
theorem enginePieceLand (team : Nat) (cmd : Nat) : Statement (.enginePieceLand team cmd) := ⟨rfl, rfl⟩
theorem cpyComplete (team : Nat) (cmd : Nat) : Statement (.cpyComplete team cmd) := ⟨rfl, rfl⟩
theorem gathComplete (team : Nat) (cmd : Nat) : Statement (.gathComplete team cmd) := ⟨rfl, rfl⟩
theorem partComplete (team : Nat) (cmd : Nat) : Statement (.partComplete team cmd) := ⟨rfl, rfl⟩
theorem putsComplete (team : Nat) (cmd : Nat) : Statement (.putsComplete team cmd) := ⟨rfl, rfl⟩
theorem getComplete (team : Nat) (cmd : Nat) : Statement (.getComplete team cmd) := ⟨rfl, rfl⟩
theorem fabricRaddComplete (team : Nat) (cmd : Nat) : Statement (.fabricRaddComplete team cmd) := ⟨rfl, rfl⟩
theorem engineFault (team : Nat) (cmd : Nat) (cause : BitVec 8) (addr : Word) (detail : BitVec 32) : Statement (.engineFault team cmd cause addr detail) := ⟨rfl, rfl⟩
theorem mmaComplete (team : Nat) (grp : Nat) (id : Nat) : Statement (.mmaComplete team grp id) := ⟨rfl, rfl⟩
theorem spireComplete (core : Nat) : Statement (.spireComplete core) := ⟨rfl, rfl⟩
theorem plvalViewWrite (team : Nat) (cmd : Nat) : Statement (.plvalViewWrite team cmd) := ⟨rfl, rfl⟩
theorem parkWake (team : Nat) (grp : Nat) : Statement (.parkWake team grp) := ⟨rfl, rfl⟩
theorem waitaTimeout (team : Nat) (grp : Nat) : Statement (.waitaTimeout team grp) := ⟨rfl, rfl⟩
theorem hang (team : Nat) (grp : Nat) : Statement (.hang team grp) := ⟨rfl, rfl⟩
theorem orderedOpRelease (team : Nat) (grp : Nat) : Statement (.orderedOpRelease team grp) := ⟨rfl, rfl⟩
theorem handlerEntry (team : Nat) : Statement (.handlerEntry team) := ⟨rfl, rfl⟩
theorem handlerWdogExpiry (team : Nat) : Statement (.handlerWdogExpiry team) := ⟨rfl, rfl⟩
theorem launchAccept (ctx : Nat) (queue : Nat) : Statement (.launchAccept ctx queue) := ⟨rfl, rfl⟩
theorem teamPlace (launch : Nat) : Statement (.teamPlace launch) := ⟨rfl, rfl⟩
theorem launchEnd (launch : Nat) : Statement (.launchEnd launch) := ⟨rfl, rfl⟩
theorem swapEligible (team : Nat) : Statement (.swapEligible team) := ⟨rfl, rfl⟩
theorem preempt (team : Nat) : Statement (.preempt team) := ⟨rfl, rfl⟩
theorem restore (team : Nat) (core : Nat) : Statement (.restore team core) := ⟨rfl, rfl⟩
theorem domeTlbi (v : Word) : Statement (.domeTlbi v) := ⟨rfl, rfl⟩
theorem sweeperPass : Statement (.sweeperPass) := ⟨rfl, rfl⟩
theorem l1CleanExpiry (core : Nat) (asid : Nat) (line : Nat) : Statement (.l1CleanExpiry core asid line) := ⟨rfl, rfl⟩
theorem hostAccess (r : HostReq) : Statement (.hostAccess r) := ⟨rfl, rfl⟩
theorem hostSnoop (line : Nat) (inval : Bool) : Statement (.hostSnoop line inval) := ⟨rfl, rfl⟩
theorem backInvalidateResponse (line : Nat) (data : List Byte) : Statement (.backInvalidateResponse line data) := ⟨rfl, rfl⟩
theorem fabricRequest (r : FabricReq) : Statement (.fabricRequest r) := ⟨rfl, rfl⟩
theorem fabricResponse (r : FabricResp) : Statement (.fabricResponse r) := ⟨rfl, rfl⟩
theorem linkDown (x : LinkLoss) : Statement (.linkDown x) := ⟨rfl, rfl⟩
theorem planeHeader (k : PlaneKey) (h : HeaderBody) : Statement (.planeHeader k h) := ⟨rfl, rfl⟩
theorem countPlane (k : PlaneKey) (plane : Nat) (counts : List Nat) : Statement (.countPlane k plane counts) := ⟨rfl, rfl⟩
theorem gatherPlane (k : PlaneKey) (plane : Nat) (vals : List Int) : Statement (.gatherPlane k plane vals) := ⟨rfl, rfl⟩
theorem cancelRequest (k : PlaneKey) (c : Nat) (pos : Nat) (detm : Bool) : Statement (.cancelRequest k c pos detm) := ⟨rfl, rfl⟩
theorem freeze (k : PlaneKey) (f : Nat) (vals : List Int) : Statement (.freeze k f vals) := ⟨rfl, rfl⟩
theorem cancelAnswer (k : PlaneKey) (r : CancelReply) : Statement (.cancelAnswer k r) := ⟨rfl, rfl⟩
theorem domeL2quota (v : Word) : Statement (.domeL2quota v) := ⟨rfl, rfl⟩
theorem cpClasscfg (cls : BitVec 2) (v : Word) : Statement (.cpClasscfg cls v) := ⟨rfl, rfl⟩
theorem domeCls0rsv (v : Word) : Statement (.domeCls0rsv v) := ⟨rfl, rfl⟩
theorem domeSweep (v : Word) : Statement (.domeSweep v) := ⟨rfl, rfl⟩
theorem fabPodcfg (v : Word) : Statement (.fabPodcfg v) := ⟨rfl, rfl⟩
theorem domeCntsnap (v : Word) : Statement (.domeCntsnap v) := ⟨rfl, rfl⟩
theorem cntsnapCopy : Statement (.cntsnapCopy) := ⟨rfl, rfl⟩
theorem dbgTracectl (v : Word) : Statement (.dbgTracectl v) := ⟨rfl, rfl⟩
theorem traceSample : Statement (.traceSample) := ⟨rfl, rfl⟩
theorem dbgStopctl (v : Word) : Statement (.dbgStopctl v) := ⟨rfl, rfl⟩
theorem dbgStop : Statement (.dbgStop) := ⟨rfl, rfl⟩
theorem pwrClkctl (v : Word) : Statement (.pwrClkctl v) := ⟨rfl, rfl⟩
theorem throttleEval : Statement (.throttleEval) := ⟨rfl, rfl⟩
theorem registerWrite (addr : Nat) (v : Word) : Statement (.registerWrite addr v) := ⟨rfl, rfl⟩
theorem devRstN : Statement (.devRstN) := ⟨rfl, rfl⟩
theorem pgDeassert : Statement (.pgDeassert) := ⟨rfl, rfl⟩
theorem pgAllAsserted : Statement (.pgAllAsserted) := ⟨rfl, rfl⟩
theorem cxlConventionalReset : Statement (.cxlConventionalReset) := ⟨rfl, rfl⟩
theorem cxlFlrPort0 : Statement (.cxlFlrPort0) := ⟨rfl, rfl⟩
theorem cxlFlrPort1 : Statement (.cxlFlrPort1) := ⟨rfl, rfl⟩
theorem thermalTrip : Statement (.thermalTrip) := ⟨rfl, rfl⟩
theorem thermNDeassert : Statement (.thermNDeassert) := ⟨rfl, rfl⟩
theorem doeBegin (len : BitVec 32) (hdr : List Byte) : Statement (.doeBegin len hdr) := ⟨rfl, rfl⟩
theorem doeChunk (off : BitVec 32) (body : List Byte) : Statement (.doeChunk off body) := ⟨rfl, rfl⟩
theorem doeEnd : Statement (.doeEnd) := ⟨rfl, rfl⟩
theorem doeAttest (ctx : BitVec 32) (nonce : List Byte) : Statement (.doeAttest ctx nonce) := ⟨rfl, rfl⟩
theorem doeCommit : Statement (.doeCommit) := ⟨rfl, rfl⟩
theorem firmwareReady : Statement (.firmwareReady) := ⟨rfl, rfl⟩
theorem liveUpdateTimeout : Statement (.liveUpdateTimeout) := ⟨rfl, rfl⟩
theorem confidentialContextCreate (ctx : Nat) (key : List Byte) : Statement (.confidentialContextCreate ctx key) := ⟨rfl, rfl⟩
theorem faultRingDrain : Statement (.faultRingDrain) := ⟨rfl, rfl⟩
theorem scrubPass : Statement (.scrubPass) := ⟨rfl, rfl⟩
theorem globalTick : Statement (.globalTick) := ⟨rfl, rfl⟩
theorem coreClockCycle : Statement (.coreClockCycle) := ⟨rfl, rfl⟩
theorem resolutionStep (team : Nat) (grp : Nat) (lane : Nat) (acc : Nat) (ctr : Nat) : Statement (.resolutionStep team grp lane acc ctr) := ⟨rfl, rfl⟩
theorem tlbiComplete : Statement (.tlbiComplete) := ⟨rfl, rfl⟩
theorem linkRestored (port : Nat) : Statement (.linkRestored port) := ⟨rfl, rfl⟩
theorem vcCreditReturn (port : Nat) (vc : Nat) (beats : Nat) : Statement (.vcCreditReturn port vc beats) := ⟨rfl, rfl⟩
theorem driverLaunchEnd (launch : Nat) : Statement (.driverLaunchEnd launch) := ⟨rfl, rfl⟩
theorem confidentialContextEnd (ctx : Nat) : Statement (.confidentialContextEnd ctx) := ⟨rfl, rfl⟩
theorem functionEnable : Statement (.functionEnable) := ⟨rfl, rfl⟩
theorem eccError (u : EccUnit) (hard : Bool) : Statement (.eccError u hard) := ⟨rfl, rfl⟩
theorem corePowerGating (core : Nat) : Statement (.corePowerGating core) := ⟨rfl, rfl⟩
theorem traceRingSpaceReturn (unit : Nat) (records : Nat) : Statement (.traceRingSpaceReturn unit records) := ⟨rfl, rfl⟩

end Sys2Proof.Laws.Words
end

