-- ==== Sys2Proof/Laws/Scalar.lean ====
section
/-! SUPPORT. What a scalar word that has its stream in hand starts from. -/

namespace Sys2Proof.Laws

open Machine

variable {c : Cur} {T : Team} {G : Group} {L : Launch} {C : Context} {r : ScalarRegs} {s : State}

theorem hand_here (h : InHand c T G L C r s) : here s = .ok ((c, T, G), s) := here_ok h.cur h.team h.group
theorem hand_scalar (h : InHand c T G L C r s) : hereScalar s = .ok (r, s) := hereScalar_ok h.regs
theorem hand_launch (h : InHand c T G L C r s) : hereLaunch s = .ok (L, s) := hereLaunch_ok h.cur h.launch
theorem hand_context (h : InHand c T G L C r s) : hereContext s = .ok (C, s) := hereContext_ok h.cur h.context

end Sys2Proof.Laws
end

