-- ==== Sys2Proof/Tests/Scene.lean ====
section
/-! SUPPORT. The small states that the tests and the witnesses are made on, and the records that a stream has in hand in them. -/

namespace Sys2Proof.Tests

open Sys2Proof Sys2Proof.Machine Sys2Proof.Claims Sys2Proof.Laws

/-- The first group's scalar stream and lane stream, and the handler slot of its team. -/
def cScalar : Cur := ⟨0, 0, .scalar⟩
def cLane : Cur := ⟨0, 0, .lane⟩
def cHandler : Cur := ⟨0, 0, .handler⟩

/-- The placed launch of one team of one 8-lane group (notes/assumptions/20), its scalar stream in hand. -/
def scene : State := { State.reset.withFetchWord 32 0x76000000 with cur := some cScalar, agenda := [] }
/-- The same with the lane stream in hand, inside a clause. -/
def sceneL : State := { scene with cur := some cLane }
/-- The same with a BREAK being handled. -/
def sceneH : State := { scene with cur := some cHandler, teams := [probeTeam true] }

/-- The records of the stream in hand, and its scalar registers. -/
def teamIn (c : Cur) (s : State) : Team := (s.team? c.team).getD (probeTeam false)
def groupIn (c : Cur) (s : State) : Group := (s.group? c.team c.grp).getD probeGroup
def launchIn (c : Cur) (s : State) : Launch := (s.launchOf? c.team).getD probeLaunch
def contextIn (c : Cur) (s : State) : Context := (s.contextOf? c.team).getD probeContext
def regsIn (s : State) : ScalarRegs := s.scalarRegs?.getD (ScalarRegs.start 0)

/-- Whether a stream is in hand. -/
def handy (c : Cur) (s : State) : Bool :=
  s.cur == some c && (s.team? c.team).isSome && (s.group? c.team c.grp).isSome && (s.launchOf? c.team).isSome && (s.contextOf? c.team).isSome
    && s.scalarRegs?.isSome

theorem some_getD {α : Type} {o : Option α} (h : o.isSome = true) (d : α) : o = some (o.getD d) := by
  cases o <;> simp_all

theorem inHand_of {c : Cur} {s : State} (h : handy c s = true) :
    InHand c (teamIn c s) (groupIn c s) (launchIn c s) (contextIn c s) (regsIn s) s := by
  simp only [handy, Bool.and_eq_true, beq_iff_eq] at h
  exact ⟨h.1.1.1.1.1, some_getD h.1.1.1.1.2 _, some_getD h.1.1.1.2 _, some_getD h.1.1.2 _, some_getD h.1.2 _, some_getD h.2 _⟩

theorem inHand_of' {c : Cur} {s t : State} (h : handy c s = true) (hr : regsIn s = regsIn t) :
    InHand c (teamIn c s) (groupIn c s) (launchIn c s) (contextIn c s) (regsIn t) s := hr ▸ inHand_of h

/-- Outside mode 2 an ordered operation neither waits nor records anything. -/
theorem orderedLog_off {c : Cur} {s : State} (h : handy c s = true) (hd : ((launchIn c s).detm != 2) = true) (k st : Nat) : orderedLog k st s = .ok ((), s) := by
  have h := inHand_of h
  replace hd : (launchIn c s).detm ≠ 2 := by simpa using hd
  simp [orderedLog, bind_run, hand_here h, hand_launch h, hd]
theorem orderedWait_off {c : Cur} {s : State} (h : handy c s = true) (hd : ((launchIn c s).detm != 2) = true) : orderedWait s = .ok (0, s) := by
  have h := inHand_of h
  replace hd : (launchIn c s).detm ≠ 2 := by simpa using hd
  simp [orderedWait, bind_run, hand_here h, hand_launch h, hd]

/-- A computation that ends, with what it ends in. -/
def ends {α : Type} (m : Except (Halt × State) (α × State)) (p : α → State → Bool) : Bool :=
  match m with
  | .ok (a, s) => p a s
  | .error _ => false

theorem of_ends {α : Type} {m : Except (Halt × State) (α × State)} {p : α → State → Bool} (h : ends m p = true) :
    ∃ a s, m = .ok (a, s) ∧ p a s = true := by
  cases m with
  | error e => simp [ends] at h
  | ok x => exact ⟨x.1, x.2, rfl, h⟩

/-- A computation that ends in the state it began in. -/
theorem of_ends_same {α : Type} [DecidableEq α] {m : M α} {a : α} {s : State} (h : ends (m s) (fun b t => b == a && t == s) = true) :
    m s = .ok (a, s) := by
  obtain ⟨b, t, hm, hp⟩ := of_ends h
  simp only [Bool.and_eq_true, beq_iff_eq] at hp
  rw [hm, hp.1, hp.2]

/-- What a computation ends with, and the state it ends in, where it ends. -/
def valOf {α : Type} (m : Except (Halt × State) (α × State)) (d : α) : α :=
  match m with
  | .ok x => x.1
  | .error _ => d
def stateOf {α : Type} (m : Except (Halt × State) (α × State)) : State :=
  match m with
  | .ok x => x.2
  | .error x => x.2

theorem ok_of {α : Type} {m : Except (Halt × State) (α × State)} {d : α} {p : α → State → Bool} (h : ends m p = true) :
    m = .ok (valOf m d, stateOf m) := by
  cases m with
  | error e => simp [ends] at h
  | ok x => rfl

/-- The one located request of a check. -/
def hitOf (m : Except (Halt × State) (List Hit × State)) : Hit := (valOf m []).headD ⟨scalarReq false 0 0 1 .read, []⟩

theorem hit_of {m : Except (Halt × State) (List Hit × State)} (h : ends m (fun l _ => l.length == 1) = true) :
    m = .ok ([hitOf m], stateOf m) := by
  obtain ⟨l, s, hm, hl⟩ := of_ends h
  subst hm
  match l, hl with
  | [x], _ => rfl

/-- The check of one access, and whether it is reached: nothing of it waits. -/
def checkOne (q : Req) (s : State) : Except (Halt × State) (List Hit × State) := checkAccess [q] (fun _ => true) s
def reachable (q : Req) (s : State) : Bool :=
  let m := checkOne q s
  ends m (fun l _ => l.length == 1) && ends (hereAgent (stateOf m)) fun a _ => !(hitOf m).waitsHere (stateOf m) a

theorem reached_of {q : Req} {s : State} (h : reachable q s = true) : Reached q (hitOf (checkOne q s)) s (stateOf (checkOne q s)) := by
  simp only [reachable, Bool.and_eq_true] at h
  refine ⟨hit_of h.1, fun a ha => ?_⟩
  have h2 := h.2
  rw [ha] at h2
  simpa [ends] using h2

/-- The agent of the team in hand. -/
def agentIn (s : State) : Agent := (s.agentOf? 0).getD (canalAgent probeContext)

/-- The next state of an answer, where it is one. -/
def after (a : Answer) : State := match a with
  | .next s => s
  | .fault _ => State.reset
  | .refused _ => State.reset

theorem next_of {a : Answer} (h : Answer.goesOn a = true) : a = .next (after a) := by
  cases a <;> simp_all [Answer.goesOn, after]

/-- What a lane word acts on. -/
def laneIn (w : LaneWord) (s : State) : LaneCtx :=
  let G := groupIn cLane s
  { c := cLane, T := teamIn cLane s, G := G, L := launchIn cLane s
    parts := G.active.filter fun j => (G.lane j).passes w.guard.toNat w.neg }

/-- Whether a lane word is ready to take effect. -/
def ready (i : Instr) (w : LaneWord) (s : State) : Bool :=
  let x := laneIn w s
  handy cLane s && w.guardOk && !x.parts.isEmpty && s.poison.isEmpty &&
    match laneForm 64 i, laneForm x.G.lanes.length i with
    | some (_, w'), some (f, w'') => decide (w' = w) && decide (w'' = w) && f.legal w x.L.vregs x.L.aregs x.L.tiles
        && !x.G.outstanding (readRegs i f w ++ destRegs f w)
    | _, _ => false

theorem laneReady_of {i : Instr} {w : LaneWord} {s : State} (h : ready i w s = true) : LaneReady i w (laneIn w s) s := by
  simp only [ready, Bool.and_eq_true, Bool.not_eq_true'] at h
  obtain ⟨⟨⟨⟨hh, hg⟩, hp⟩, hc⟩, hf⟩ := h
  have hand := inHand_of hh
  refine ⟨hand.cur, hand.team, hand.group, hand.launch, hg, rfl, ?_, ?_, ?_⟩
  · intro h0; rw [h0] at hp; simp at hp
  · split at hf
    · rename_i f' w' f w'' h1 h2
      simp only [Bool.and_eq_true, decide_eq_true_eq, Bool.not_eq_true'] at hf
      obtain ⟨⟨⟨e1, e2⟩, h3⟩, h4⟩ := hf
      subst e1 e2
      exact ⟨f, f', h1, h2, h3, h4⟩
    · simp at hf
  · simpa using hc

/-- A lane word of no guard, its fields to be filled in. -/
def word : LaneWord := { guard := 127, neg := false, vd := 0, va := 0, vb := 0, vc := 0, ty := 0, md := 0, rm := 0, imm := 0 }

end Sys2Proof.Tests
end

