-- ==== Sys2Proof/Tests/Witness1.lean ====
section
/-! SUPPORT. Concrete states and operands that meet the hypotheses of the statements about scalar words. -/

namespace Sys2Proof.Tests

open Sys2Proof Sys2Proof.Machine Sys2Proof.Claims

set_option maxRecDepth 100000
set_option Elab.async false

/-- The registers of the scene with some values in them. -/
def regsWith (x y : Word) : ScalarRegs := ((regsIn scene).setS 1 x).setS 2 y
/-- A state in which the scalar stream holds such values. -/
def sceneWith (x y : Word) : State := scene.modGroup 0 0 fun g => { g with regs := (g.regs.setS 1 x).setS 2 y }

theorem witness_ScalarWordsComplete :
    scalarEffect (.add 3 1 2) = some (4, fun r => r.setS 3 (r.getS 1 + r.getS 2)) ∧ scene.scalarRegs? = some (regsIn scene) :=
  ⟨rfl, by decide +kernel⟩

theorem witness_ScalarWordsComplete_handler : sceneH.scalarRegs? = some (regsIn sceneH) := by decide +kernel

theorem witness_ScalarWordsFrame : ∃ t r', exec (.add 3 1 2) (sceneWith 5 7) = .next t ∧ t.scalarRegs? = some r' ∧ r'.getS 3 = 12 :=
  ⟨after (exec (.add 3 1 2) (sceneWith 5 7)), _, next_of (by decide +kernel), some_getD (by decide +kernel) (ScalarRegs.start 0), by decide +kernel⟩

theorem witness_DivisionAndShiftRules_zero : (regsIn (sceneWith 5 0)).getS 2 = 0 ∧ (sceneWith 5 0).scalarRegs? = some (regsIn (sceneWith 5 0)) := by
  decide +kernel
theorem witness_DivisionAndShiftRules_overflow : (regsIn (sceneWith (BitVec.intMin 64) (-1))).getS 1 = BitVec.intMin 64
    ∧ (regsIn (sceneWith (BitVec.intMin 64) (-1))).getS 2 = -1#64 := by decide +kernel
theorem witness_DivisionAndShiftRules_plain : (regsIn (sceneWith (-7) 2)).getS 2 ≠ 0 ∧ 64 ≤ ((regsIn (sceneWith 1 64)).getS 2).toNat := by decide +kernel

theorem witness_SelRule : ((15 : BitVec 7).extractLsb' 4 3 = 0#3) ∧ ((16 : BitVec 7).extractLsb' 4 3 ≠ 0#3)
    ∧ scene.scalarRegs? = some (regsIn scene) := by decide +kernel

theorem witness_QFifteenReadsOne : scene.scalarRegs? = some (regsIn scene) ∧ (0 : QReg) ≠ 15 := by decide +kernel

/-! ### Loads, stores, atomics -/

/-- A global address of the scene's first GiB in s1, a value in s2. -/
def sceneG : State := sceneWith 0x600000 0x1122334455667788
/-- A scratchpad offset in s1. -/
def sceneS : State := sceneWith 0x40 0x1122334455667788
/-- A heap address of device 3. -/
def sceneProv : State :=
  { sceneWith (BitVec.ofNat 64 (heapVa 3 64)) 9 with
    contexts := [{ probeContext with podTag := some 7, heapLen := 65536 }]
    dome := { scene.dome with podcfg := 0x80040000, routes := [(3, [0])] } }

def checkG (acc : Access) (al : Nat) (s : State) := checkOne (scalarReq false ((regsIn s).getS 1).toNat 8 al acc) s
def checkS (acc : Access) (s : State) := checkOne (scalarReq true ((regsIn s).getS 1).toNat 8 1 acc) s

/-- A stream in hand, its registers as they stand. -/
def Handy (c : Cur) (s : State) : Prop := InHand c (teamIn c s) (groupIn c s) (launchIn c s) (contextIn c s) (regsIn s) s

theorem handy_of {c : Cur} {s : State} (h : handy c s = true) : Handy c s := inHand_of h

theorem witness_ScalarLoadsComplete : ∃ h s', Handy cScalar sceneG ∧ waitingRemote sceneG = .ok (false, sceneG)
    ∧ checkAccess [scalarReq false (((regsIn sceneG).getS 1).toNat + (0 : BitVec 10).toNat * loadBytes .u64) (loadBytes .u64) 1 .read] (fun _ => true) sceneG
      = .ok ([h], s')
    ∧ InHand cScalar (teamIn cScalar s') (groupIn cScalar s') (launchIn cScalar s') (contextIn cScalar s') (regsIn sceneG) s'
    ∧ s'.agentOf? 0 = some (agentIn s') ∧ h.waitsHere s' (agentIn s') = false ∧ h.remote = false :=
  ⟨hitOf (checkG .read 1 sceneG), stateOf (checkG .read 1 sceneG), handy_of (by decide +kernel), of_ends_same (by decide +kernel), hit_of (by decide +kernel),
    inHand_of' (by decide +kernel) (by decide +kernel), some_getD (by decide +kernel) _, by decide +kernel, by decide +kernel⟩

theorem witness_ScalarLoadsComplete_scratch : ∃ h s', checkS .read sceneS = .ok ([h], s') ∧ s'.agentOf? 0 = some (agentIn s')
    ∧ h.waitsHere s' (agentIn s') = false ∧ h.remote = false :=
  ⟨hitOf (checkS .read sceneS), stateOf (checkS .read sceneS), hit_of (by decide +kernel), some_getD (by decide +kernel) _, by decide +kernel, by decide +kernel⟩

theorem witness_ScalarLoadsComplete_peer : ∃ h s' p, Handy cScalar sceneProv ∧ checkG .read 1 sceneProv = .ok ([h], s')
    ∧ s'.agentOf? 0 = some (agentIn s') ∧ h.waitsHere s' (agentIn s') = false ∧ h.parts = [p] ∧ p.place = .peer 3 64 :=
  ⟨hitOf (checkG .read 1 sceneProv), stateOf (checkG .read 1 sceneProv), _, handy_of (by decide +kernel), hit_of (by decide +kernel),
    some_getD (by decide +kernel) _, by decide +kernel, rfl, rfl⟩

/-- A page that is not resident: its leaf is absent. -/
def sceneA : State := { sceneG with mem := cellsWrite 0x200000 (toBytes 8 0x22) sceneG.mem }

theorem witness_ScalarLoadsComplete_waits : ∃ h s', checkG .read 1 sceneA = .ok ([h], s') ∧ s'.agentOf? 0 = some (agentIn s')
    ∧ h.waitsHere s' (agentIn s') = true :=
  ⟨hitOf (checkG .read 1 sceneA), stateOf (checkG .read 1 sceneA), hit_of (by decide +kernel), some_getD (by decide +kernel) _, by decide +kernel⟩

theorem witness_ScalarStoresComplete : ∃ h s', Reached (scalarReq false ((regsIn sceneG).getS 1).toNat 8 1 .write) h sceneG s'
    ∧ Handy cScalar sceneG ∧ (h.parts.all fun p => !p.isPeer) = true ∧ h.parts ≠ [] ∧ (s'.storeHit cScalar h (toBytes 8 7) 0).scalarRegs? = some (regsIn sceneG) :=
  ⟨_, _, reached_of (by decide +kernel), handy_of (by decide +kernel), by decide +kernel, by decide +kernel, by decide +kernel⟩

theorem witness_ScalarStoresComplete_peer : ∃ h s' p, Reached (scalarReq false ((regsIn sceneProv).getS 1).toNat 8 1 .write) h sceneProv s'
    ∧ Handy cScalar sceneProv ∧ h.parts = [p] ∧ p.place = .peer 3 64
    ∧ (s'.sendRemote (Remote.of 0 0 3 64 8 (groupIn cScalar s').lanePc) (.write (toBytes 8 9))).scalarRegs? = some (regsIn sceneProv) :=
  ⟨_, _, _, reached_of (by decide +kernel), handy_of (by decide +kernel), rfl, rfl, by decide +kernel⟩

theorem witness_StoreFrames : ∃ h t T', Handy cScalar sceneS ∧ (teamIn cScalar sceneS).away = false
    ∧ ((0x40 : Nat) : Int) = ((regsIn sceneS).getS 1).toNat + (0 : BitVec 10).toNat * sizeBytes .b64 ∧ Memory.wf (teamIn cScalar sceneS).scratch = true
    ∧ checkS .write sceneS = .ok ([h], sceneS) ∧ exec (.sts .b64 2 1 0) sceneS = .next t ∧ t.team? 0 = some T'
    ∧ cellsRead T'.scratch 0x40 8 = toBytes 8 0x1122334455667788 ∧ 0x40 / 64 = (0x40 + 8 - 1) / 64 :=
  ⟨_, after (exec (.sts .b64 2 1 0) sceneS), _, handy_of (by decide +kernel), by decide +kernel, by decide +kernel, by decide +kernel,
    of_ends_same (a := [hitOf (checkS .write sceneS)]) (by decide +kernel), next_of (by decide +kernel), some_getD (by decide +kernel) (probeTeam false), by decide +kernel, by decide⟩

theorem witness_AcquireReleaseFenceComplete_load : ∃ h s' a, Handy cScalar sceneG ∧ orderedWait sceneG = .ok (0, sceneG)
    ∧ waitingRemote sceneG = .ok (false, sceneG) ∧ Reached (scalarReq false ((regsIn sceneG).getS 1).toNat 8 8 .read) h sceneG s' ∧ h.remote = false
    ∧ orderedLog 3 0 s' = .ok ((), s') ∧ hereAgent s' = .ok (a, s') ∧ (s'.acquire a Scope.dev.code).scalarRegs? = some (regsIn sceneG) :=
  have hh : handy cScalar (stateOf (checkG .read 8 sceneG)) = true := by decide +kernel
  ⟨_, _, valOf (hereAgent (stateOf (checkG .read 8 sceneG))) (canalAgent probeContext), handy_of (by decide +kernel),
    orderedWait_off (c := cScalar) (by decide +kernel) (by decide +kernel), of_ends_same (by decide +kernel), reached_of (by decide +kernel), by decide +kernel,
    orderedLog_off hh (by decide +kernel) 3 0, of_ends_same (by decide +kernel), by decide +kernel⟩

theorem witness_AcquireReleaseFenceComplete_loadPeer : ∃ h s' p, Handy cScalar sceneProv ∧ waitingRemote sceneProv = .ok (false, sceneProv)
    ∧ orderedWait sceneProv = .ok (0, sceneProv) ∧ Reached (scalarReq false ((regsIn sceneProv).getS 1).toNat 8 8 .read) h sceneProv s'
    ∧ h.parts = [p] ∧ p.place = .peer 3 64 ∧ orderedLog 3 0 s' = .ok ((), s')
    ∧ InHand cScalar (teamIn cScalar s') (groupIn cScalar s') (launchIn cScalar s') (contextIn cScalar s') (regsIn sceneProv) s' :=
  have hh : handy cScalar (stateOf (checkG .read 8 sceneProv)) = true := by decide +kernel
  ⟨_, _, _, handy_of (by decide +kernel), of_ends_same (by decide +kernel),
    orderedWait_off (c := cScalar) (by decide +kernel) (by decide +kernel), reached_of (by decide +kernel), rfl, rfl,
    orderedLog_off hh (by decide +kernel) 3 0, inHand_of' hh (by decide +kernel)⟩

theorem witness_AcquireReleaseFenceComplete_store : ∃ h s', sceneG.unacked 0 0 = false
    ∧ Reached (scalarReq false ((regsIn sceneG).getS 1).toNat 8 8 .write) h sceneG s' ∧ h.remote = false
    ∧ orderedLog 4 0 s' = .ok ((), s') ∧ (s'.storeHit cScalar h (toBytes 8 7) 0).scalarRegs? = some (regsIn sceneG) :=
  have hh : handy cScalar (stateOf (checkG .write 8 sceneG)) = true := by decide +kernel
  ⟨_, _, by decide +kernel, reached_of (by decide +kernel), by decide +kernel, orderedLog_off hh (by decide +kernel) 4 0, by decide +kernel⟩

theorem witness_AcquireReleaseFenceComplete_storePeer : ∃ h s' p, sceneProv.unacked 0 0 = false
    ∧ Reached (scalarReq false ((regsIn sceneProv).getS 1).toNat 8 8 .write) h sceneProv s' ∧ h.parts = [p] ∧ p.place = .peer 3 64
    ∧ orderedLog 4 0 s' = .ok ((), s')
    ∧ (s'.sendRemote (Remote.of 0 0 3 64 8 (groupIn cScalar s').lanePc) (.write (toBytes 8 9))).scalarRegs? = some (regsIn sceneProv) :=
  have hh : handy cScalar (stateOf (checkG .write 8 sceneProv)) = true := by decide +kernel
  ⟨_, _, _, by decide +kernel, reached_of (by decide +kernel), rfl, rfl, orderedLog_off hh (by decide +kernel) 4 0, by decide +kernel⟩

/-- The same under determinism mode 2, whose least group this one is. -/
def sceneProv2 : State := sceneProv.modLaunch 0 fun L => { L with detm := 2 }
theorem witness_AcquireReleaseFenceComplete_storeOrdered : ∃ stamp h s' p s'', Handy cScalar sceneProv2 ∧ (launchIn cScalar s'').detm = 2
    ∧ cScalar.stream ≠ .handler ∧ sceneProv2.unacked 0 0 = false ∧ orderedWait sceneProv2 = .ok (stamp, sceneProv2)
    ∧ Reached (scalarReq false ((regsIn sceneProv2).getS 1).toNat 8 8 .write) h sceneProv2 s' ∧ h.parts = [p] ∧ p.place = .peer 3 64
    ∧ orderedLog 4 stamp s' = .ok ((), s'') :=
  let m := checkOne (scalarReq false ((regsIn sceneProv2).getS 1).toNat 8 8 .write) sceneProv2
  let w := orderedWait sceneProv2
  ⟨valOf w 0, _, _, _, stateOf (orderedLog 4 (valOf w 0) (stateOf m)), handy_of (by decide +kernel), by decide +kernel, by decide, by decide +kernel,
    of_ends_same (by decide +kernel), reached_of (by decide +kernel), rfl, rfl, ok_of (d := ()) (p := fun _ _ => true) (by decide +kernel)⟩

theorem witness_StoreFrames_scalar : ∃ h s' t, Handy cScalar sceneG
    ∧ Reached (scalarReq false (((regsIn sceneG).getS 1).toNat + (0 : BitVec 10).toNat * sizeBytes .b64) (sizeBytes .b64) 1 .write) h sceneG s'
    ∧ InHand cScalar (teamIn cScalar s') (groupIn cScalar s') (launchIn cScalar s') (contextIn cScalar s') (regsIn sceneG) s' ∧ s'.memoryWf = true
    ∧ exec (.st .b64 2 1 0) sceneG = .next t ∧ cellsRead t.mem 0x600000 8 = toBytes 8 0x1122334455667788 :=
  ⟨_, _, after (exec (.st .b64 2 1 0) sceneG), handy_of (by decide +kernel), reached_of (by decide +kernel),
    inHand_of' (by decide +kernel) (by decide +kernel), by decide +kernel, next_of (by decide +kernel), by decide +kernel⟩

/-- A store to another device that is unanswered. -/
def sceneBusy : State := { scene with remotes := [Remote.of 0 0 3 0 8 (-1#32)] }
theorem witness_AcquireReleaseFenceComplete_fence : Handy cScalar scene ∧ scene.unacked 0 0 = false ∧ Handy cScalar sceneBusy
    ∧ sceneBusy.unacked 0 0 = true := ⟨handy_of (by decide +kernel), by decide +kernel, handy_of (by decide +kernel), by decide +kernel⟩

theorem witness_ScalarAtomics : ∃ h s', Handy cScalar sceneG ∧ (launchIn cScalar sceneG).detm ≠ 1 ∧ waitingRemote sceneG = .ok (false, sceneG)
    ∧ orderedWait sceneG = .ok (0, sceneG) ∧ Reached (scalarReq false ((regsIn sceneG).getS 1).toNat 8 8 .atomic) h sceneG s' ∧ h.remote = false
    ∧ InHand cScalar (teamIn cScalar s') (groupIn cScalar s') (launchIn cScalar s') (contextIn cScalar s') (regsIn sceneG) s'
    ∧ (s'.readHit 0 h).length = 8 ∧ orderedLog 1 0 s' = .ok ((), s') ∧ orderedLog 2 0 s' = .ok ((), s')
    ∧ (s'.writeHit 0 h (toBytes 8 7) 0).scalarRegs? = some (regsIn sceneG) :=
  have hh : handy cScalar (stateOf (checkG .atomic 8 sceneG)) = true := by decide +kernel
  have hd : ((launchIn cScalar (stateOf (checkG .atomic 8 sceneG))).detm != 2) = true := by decide +kernel
  ⟨_, _, handy_of (by decide +kernel), by decide +kernel, of_ends_same (by decide +kernel), orderedWait_off (c := cScalar) (by decide +kernel) (by decide +kernel),
    reached_of (by decide +kernel), by decide +kernel, inHand_of' hh (by decide +kernel), by decide +kernel, orderedLog_off hh hd 1 0,
    orderedLog_off hh hd 2 0, by decide +kernel⟩

theorem witness_ScalarAtomics_peer : ∃ h s' p, Handy cScalar sceneProv ∧ (launchIn cScalar sceneProv).detm ≠ 1
    ∧ waitingRemote sceneProv = .ok (false, sceneProv) ∧ Reached (scalarReq false ((regsIn sceneProv).getS 1).toNat 8 8 .atomic) h sceneProv s'
    ∧ InHand cScalar (teamIn cScalar s') (groupIn cScalar s') (launchIn cScalar s') (contextIn cScalar s') (regsIn sceneProv) s'
    ∧ h.parts = [p] ∧ p.place = .peer 3 64 ∧ orderedLog 1 0 s' = .ok ((), s') ∧ orderedLog 2 0 s' = .ok ((), s') :=
  have hh : handy cScalar (stateOf (checkG .atomic 8 sceneProv)) = true := by decide +kernel
  have hd : ((launchIn cScalar (stateOf (checkG .atomic 8 sceneProv))).detm != 2) = true := by decide +kernel
  ⟨_, _, _, handy_of (by decide +kernel), by decide +kernel, of_ends_same (by decide +kernel), reached_of (by decide +kernel),
    inHand_of' hh (by decide +kernel), rfl, rfl, orderedLog_off hh hd 1 0, orderedLog_off hh hd 2 0⟩

theorem witness_ScalarAtomics_modeOne : ∃ s, Handy cScalar s ∧ (launchIn cScalar s).detm = 1 :=
  ⟨scene.modLaunch 0 fun L => { L with detm := 1 }, handy_of (by decide +kernel), by decide +kernel⟩

/-! ### Branches, runs, waits, special registers -/

/-- The scalar stream at its second word, s63 and s1 inside and s2 outside its section. -/
def sceneB : State := scene.modGroup 0 0 fun g => { g with regs := (((g.regs.setS 63 0x400010).setS 1 0x400020).setS 2 0x401000) }

theorem witness_BranchesComplete : Handy cScalar sceneB ∧ hereSection sceneB = .ok ((0x400000, 4096), sceneB)
    ∧ xor ((regsIn sceneB).getQ 15) false = true ∧ xor ((regsIn sceneB).getQ 0) false = false
    ∧ ((regsIn sceneB).pc + BitVec.ofInt 64 (4 * (1023 : BitVec 20).toInt)) = 0x400FFC ∧ ((regsIn sceneB).pc + BitVec.ofInt 64 (4 * (-1 : BitVec 20).toInt)) = 0x3FFFFC
    ∧ (regsIn sceneB).getS 63 = 0x400010 ∧ (regsIn sceneB).getS 1 = 0x400020 ∧ (regsIn sceneB).getS 2 = 0x401000 :=
  ⟨handy_of (by decide +kernel), of_ends_same (by decide +kernel), by decide +kernel⟩
theorem witness_BranchesComplete_return : (regsIn scene).getS 63 = 0 ∧ Handy cScalar scene := ⟨by decide +kernel, handy_of (by decide +kernel)⟩

/-- Sixteen runs enqueued. -/
def sceneFull : State := scene.modGroup 0 0 fun g => { g with runs := List.replicate 16 ⟨0, Vector.replicate 8 0⟩ }
theorem witness_LrunCompletes : Handy cScalar scene ∧ cScalar.stream ≠ .handler ∧ (groupIn cScalar scene).pending < 16 ∧ Handy cScalar sceneFull
    ∧ 16 ≤ (groupIn cScalar sceneFull).pending ∧ ((8 : BitVec 4).toNat ≤ 8 ∧ (56 : SReg).toNat + (8 : BitVec 4).toNat ≤ 64 ∧ ¬((8 : BitVec 4) = 0 ∧ (56 : SReg) ≠ 0))
    ∧ ¬((9 : BitVec 4).toNat ≤ 8) ∧ ¬((57 : SReg).toNat + (8 : BitVec 4).toNat ≤ 64) ∧ ((0 : BitVec 4) = 0 ∧ (1 : SReg) ≠ 0)
    ∧ scene.unacked 0 0 = false ∧ sceneBusy.unacked 0 0 = true ∧ (groupIn cScalar sceneBusy).pending < 16 :=
  ⟨handy_of (by decide +kernel), by decide, by decide +kernel, handy_of (by decide +kernel), by decide +kernel, by decide, by decide, by decide, by decide,
    by decide +kernel, by decide +kernel, by decide +kernel⟩

/-- No run is left; a value waits in the lane-to-scalar queue, or flag 3 is up. -/
def sceneIdle : State := scene.modGroup 0 0 fun g => { g with run := none, clause := none, tags := [] }
def sceneQueue : State := scene.modGroup 0 0 fun g => { g with lq := [5, 6] }
def sceneFlag : State := sceneIdle.modGroup 0 0 fun g => g.raiseFlag 3
theorem witness_DrainWordsComplete : Handy cScalar sceneQueue ∧ (groupIn cScalar sceneQueue).lq = [5, 6] ∧ Handy cScalar sceneIdle
    ∧ (groupIn cScalar sceneIdle).lq = [] ∧ (groupIn cScalar sceneIdle).pending = 0 ∧ (∀ n < 12, (groupIn cScalar sceneIdle).flag n = 0)
    ∧ (groupIn cScalar scene).lq = [] ∧ (groupIn cScalar scene).pending ≠ 0 ∧ Handy cScalar sceneFlag ∧ (groupIn cScalar sceneFlag).pending = 0
    ∧ (groupIn cScalar sceneFlag).flag 3 ≠ 0 ∧ (8 : BitVec 12).getLsbD 3 = true :=
  ⟨handy_of (by decide +kernel), by decide +kernel, handy_of (by decide +kernel), by decide +kernel, by decide +kernel, by decide +kernel, by decide +kernel,
    by decide +kernel, handy_of (by decide +kernel), by decide +kernel, by decide +kernel, by decide⟩

theorem witness_SlotsRefuse : sceneH.cur = some cHandler ∧ cHandler.stream = .handler ∧ scene.cur = some cScalar ∧ cScalar.stream ≠ .handler := by
  decide +kernel

theorem witness_SpecialRegisterWords : ∃ x X, Handy cScalar scene ∧ specialRead cScalar (teamIn cScalar scene) (groupIn cScalar scene) (launchIn cScalar scene)
      scene 0x09 = some 0 ∧ specialRead cScalar (teamIn cScalar scene) (groupIn cScalar scene) (launchIn cScalar scene) scene 0x14 = none
    ∧ Handy cHandler sceneH ∧ (teamIn cHandler sceneH).handler.trap = some x ∧ sceneH.group? 0 x.grp = some X
    ∧ handlerRead (teamIn cHandler sceneH) X x 0x18 = some 0x41 ∧ (15 : BitVec 5).toNat < 16 :=
  ⟨_, _, handy_of (by decide +kernel), by decide +kernel, by decide +kernel, handy_of (by decide +kernel),
    some_getD (by decide +kernel) ⟨0, 0, false, 0, 0, 0, 0, 0, false, none, none⟩, some_getD (by decide +kernel) probeGroup, by decide +kernel, by decide⟩

theorem witness_SpecialRegisterWords_restart : (0 : BitVec 32) ≠ -1#32 ∧ (0 : BitVec 32).toNat < (launchIn cScalar scene).ssize
    ∧ ¬((4096 : BitVec 32).toNat % 4 = 0 ∧ (4096 : BitVec 32).toNat < (launchIn cScalar scene).ssize) ∧ (launchIn cScalar scene).restart = 0xFFFFFFFF
    ∧ Handy cScalar (scene.modLaunch 0 fun L => { L with restart := 8 }) :=
  ⟨by decide, by decide +kernel, by decide +kernel, by decide +kernel, handy_of (by decide +kernel)⟩

/-! ### Traps, the handler, dumps -/

theorem witness_TrapIsHeld : Handy cScalar scene ∧ (teamIn cScalar scene).state = .running ∧ (contextIn cScalar scene).handler = some ⟨0x400000, 4096, 0, 0⟩
    ∧ scene.dome.tracectl.getLsbD 0 = false := ⟨handy_of (by decide +kernel), by decide +kernel⟩

/-- No handler is registered. -/
def sceneNoH : State := { scene with contexts := [{ probeContext with handler := none }] }
theorem witness_TrapWithoutHandlerKills : Handy cScalar sceneNoH ∧ (teamIn cScalar sceneNoH).state = .running ∧ (teamIn cScalar sceneNoH).stop = false
    ∧ (teamIn cScalar sceneNoH).away = false ∧ (contextIn cScalar sceneNoH).handler = none ∧ cScalar.stream ≠ .handler :=
  ⟨handy_of (by decide +kernel), by decide +kernel⟩

/-- A trap is held, and the team has stopped. -/
def sceneStopping : State := scene.takeTrap { cause := 0x10, taddr := 64 }
theorem witness_HandlerEntryCompletes : ∃ T U G C x rest, sceneStopping.team? 0 = some T ∧ sceneStopping.contextOf? 0 = some C
    ∧ C.handler = some ⟨0x400000, 4096, 0, 0⟩ ∧ T.live = true ∧ T.state = .stopping ∧ T.stop = false ∧ T.away = false ∧ sceneStopping.allSettled 0 T = true
    ∧ firstHeld T.groups = some 0 ∧ (sceneStopping.settleWrites 0).team? 0 = some U ∧ (sceneStopping.settleWrites 0).group? 0 0 = some G
    ∧ (sceneStopping.settleWrites 0).contextOf? 0 = some C ∧ G.held = x :: rest :=
  ⟨_, _, _, _, _, _, some_getD (by decide +kernel) (probeTeam false), some_getD (by decide +kernel) probeContext, by decide +kernel, by decide +kernel,
    by decide +kernel, by decide +kernel, by decide +kernel, by decide +kernel, by decide +kernel, some_getD (by decide +kernel) (probeTeam false),
    some_getD (by decide +kernel) probeGroup, by decide +kernel, rfl⟩

def trapOfH : Trap := ⟨cBreak, 0, false, 0, 0, 0, 0, 0, false, none, none⟩
/-- An access trap is being handled; under `held` another waits. -/
def sceneErt (held : Bool) : State :=
  sceneH.modTeam 0 fun T =>
    { T with handler := { T.handler with trap := some { trapOfH with cause := 0x10 } }
             groups := T.groups.map fun g => { g with held := if held then [{ trapOfH with cause := 0x11 }] else [] } }
theorem witness_Eret : ∃ x, Handy cHandler (sceneErt false) ∧ (sceneErt false).teamUnacked 0 = false ∧ (teamIn cHandler (sceneErt false)).handler.trap = some x ∧ x.cmd = none ∧ x.lost = none
    ∧ x.cause ≠ 0x40 ∧ ((teamIn cHandler (sceneErt false)).groups.all fun X => X.held.isEmpty && !X.killed && X.resumeL.isNone && !X.retired) = true :=
  ⟨{ trapOfH with cause := 0x10 }, handy_of (by decide +kernel), by decide +kernel⟩
theorem witness_Eret_again : ∃ x X y rest, Handy cHandler (sceneErt true) ∧ (sceneErt true).teamUnacked 0 = false ∧ (teamIn cHandler (sceneErt true)).handler.trap = some x ∧ x.cmd = none
    ∧ x.lost = none ∧ x.cause ≠ 0x40 ∧ (contextIn cHandler (sceneErt true)).handler = some ⟨0x400000, 4096, 0, 0⟩
    ∧ ((teamIn cHandler (sceneErt true)).groups.all fun Y => !Y.killed && Y.resumeS.isNone && Y.resumeL.isNone) = true
    ∧ (teamIn cHandler (sceneErt true)).groups[0]? = some X ∧ X.held = y :: rest :=
  ⟨{ trapOfH with cause := 0x10 }, _, _, _, handy_of (by decide +kernel), by decide +kernel, by decide +kernel, by decide +kernel, by decide +kernel,
    by decide +kernel, by decide +kernel, by decide +kernel, some_getD (by decide +kernel) probeGroup, rfl⟩
theorem witness_Eret_waits : ∃ s, Handy cHandler s ∧ s.teamUnacked 0 = true :=
  ⟨{ sceneErt false with remotes := [Remote.of 0 0 3 0 8 (-1#32)] }, handy_of (by decide +kernel), by decide +kernel⟩

theorem witness_HandlerWordsComplete : ∃ X v X', Handy cHandler sceneH ∧ (teamIn cHandler sceneH).groups[((regsIn sceneH).getS 0).toNat]? = some X ∧ X.killed = false
    ∧ selectorOf 0x30 = some ⟨0, 0, 3, 0⟩ ∧ X.readSel ⟨0, 0, 3, 0⟩ = some v
    ∧ X.writeSel ⟨0, 0, 3, 0⟩ 9 = some X' ∧ X.readSel ⟨0, 0, 16, 1⟩ = none ∧ X.writeSel ⟨0, 0, 15, 1⟩ 9 = none :=
  ⟨_, _, _, handy_of (by decide +kernel), some_getD (by decide +kernel) probeGroup, by decide +kernel, by decide +kernel, rfl, rfl, by decide +kernel, by decide +kernel⟩

theorem witness_HandlerWordsComplete_killed : ∃ X, Handy cHandler (sceneH.modGroup 0 0 fun g => { g with killed := true })
    ∧ (teamIn cHandler (sceneH.modGroup 0 0 fun g => { g with killed := true })).groups[0]? = some X ∧ X.killed = true :=
  ⟨_, handy_of (by decide +kernel), some_getD (by decide +kernel) probeGroup, by decide +kernel⟩
theorem witness_HandlerWordsComplete_vacate : ∃ X X', (teamIn cHandler sceneH).groups[0]? = some X ∧ X.writeSel ⟨0, 0, 0, 4⟩ 255 = some X'
    ∧ (255 : Word).setWidth 8 = (255 : BitVec 8) :=
  ⟨_, _, some_getD (by decide +kernel) probeGroup, rfl, by decide⟩

theorem witness_HandlerWordsComplete_poison : ∃ X v, Handy cHandler { sceneH with poison := [.vreg 0 0 0 3] }
    ∧ (teamIn cHandler { sceneH with poison := [.vreg 0 0 0 3] }).groups[0]? = some X ∧ selectorOf 0x32 = some ⟨0, 0, 3, 2⟩
    ∧ X.readSel ⟨0, 0, 3, 2⟩ = some v ∧ (⟨0, 0, 3, 2⟩ : Selector).unit? 0 0 = some (.vreg 0 0 0 3) :=
  ⟨_, _, handy_of (by decide +kernel), some_getD (by decide +kernel) probeGroup, by decide +kernel, some_getD (by decide +kernel) 0, by decide⟩

/-- A dump under way into the buffer at s1, of s2 bytes. -/
def sceneD (x y : Word) : State := sceneH.modTeam 0 fun T =>
  { T with state := .dumping, size := 256, scratch := [], handler := { T.handler with regs := (T.handler.regs.setS 1 x).setS 2 y } }
theorem witness_DumpCompletes_empty : Handy cHandler (sceneD 0x600000 255) ∧ ((regsIn (sceneD 0x600000 255)).getS 1).toNat % 256 = 0
    ∧ ((regsIn (sceneD 0x600000 255)).getS 2).toNat < 256 ∧ ((regsIn (sceneD 0x600001 255)).getS 1).toNat % 256 ≠ 0 :=
  ⟨handy_of (by decide +kernel), by decide +kernel⟩
theorem witness_DumpCompletes : ∃ n s', Handy cHandler (sceneD 0x600000 256) ∧ 256 ≤ ((regsIn (sceneD 0x600000 256)).getS 2).toNat
    ∧ (teamIn cHandler (sceneD 0x600000 256)).state = .dumping ∧ (sceneD 0x600000 256).drained 0 (teamIn cHandler (sceneD 0x600000 256)) = true
    ∧ dumpInto 0x600000 256 (sceneD 0x600000 256) = .ok (n, s')
    ∧ InHand cHandler (teamIn cHandler s') (groupIn cHandler s') (launchIn cHandler s') (contextIn cHandler s') (regsIn (sceneD 0x600000 256)) s'
    ∧ (teamIn cHandler s').state = .dumping :=
  let m := dumpInto 0x600000 256 (sceneD 0x600000 256)
  ⟨valOf m 0, stateOf m, handy_of (by decide +kernel), by decide +kernel, by decide +kernel, by decide +kernel,
    ok_of (p := fun _ _ => true) (by decide +kernel), inHand_of' (by decide +kernel) (by decide +kernel), by decide +kernel⟩
theorem witness_DumpCompletes_waits : ∃ s, Handy cHandler s ∧ (teamIn cHandler s).state = .dumping ∧ s.drained 0 (teamIn cHandler s) = false :=
  ⟨(sceneD 0x600000 256).modGroup 0 0 fun g => { g with stores := [⟨0, 0, 1, []⟩] }, handy_of (by decide +kernel), by decide +kernel⟩

end Sys2Proof.Tests
end

