-- ==== Sys2Proof/Tests/Witness2.lean ====
section
/-! SUPPORT. Concrete states and operands that meet the hypotheses of the statements about commands, collectives, waits, barriers and launches. -/

namespace Sys2Proof.Tests

open Sys2Proof Sys2Proof.Machine Sys2Proof.Claims

set_option maxRecDepth 100000
set_option Elab.async false

/-- A stream in hand, its records as they stand. -/
def Ready (c : Cur) (s : State) : Prop := InHand c (teamIn c s) (groupIn c s) (launchIn c s) (contextIn c s) (regsIn s) s
theorem ready_of {c : Cur} {s : State} (h : handy c s = true) : Ready c s := inHand_of h

/-! ### Commands -/

/-- Bytes in the scratchpad at 0x40, and s1 and s2. -/
def sceneC (d : List Byte) (x y : Word) : State :=
  (scene.modTeam 0 fun T => { T with scratch := cellsWrite 0x40 d [] }).modGroup 0 0 fun g => { g with regs := (g.regs.setS 1 x).setS 2 y }

/-- A copy of 64 bytes from the scratchpad to 0x60_0000. -/
def cpyDesc : List Byte := toBytes 8 0x100 ++ toBytes 8 0x600000 ++ toBytes 8 0x0001030100000001 ++ toBytes 8 0x0000000100000008 ++ toBytes 8 1 ++ toBytes 24 0
def sceneCpy : State := sceneC cpyDesc 0x40 0
def cpyIssue : Issue := { kind := .cpy, flag := some 3, desc := cpyDesc, srec := 0x40, scope := fld cpyDesc 22 1, locks := cpySpans cpyDesc }

/-- Whether nothing stalls an issue outside determinism mode 2. -/
def canIssue (x : Issue) (stamp : Nat) (s : State) : Bool :=
  decide (s.queued (teamIn cScalar s).core false < 32) && (x.flag.all fun n => decide ((groupIn cScalar s).flag n < 255)) && (teamIn cScalar s).admits x.locks
    && !s.unacked cScalar.team cScalar.grp && ends (orderedWait s) (fun a t => a == stamp && t == s) && ends (orderedLog 8 stamp s) (fun a t => a == () && t == s)
theorem canIssue_of {x : Issue} {stamp : Nat} {s : State} (h : canIssue x stamp s = true) :
    CanIssue cScalar (teamIn cScalar s) (groupIn cScalar s) x stamp s s := by
  simp only [canIssue, Bool.and_eq_true, decide_eq_true_eq] at h
  refine ⟨h.1.1.1.1.1, ?_, h.1.1.1.2, by simpa using h.1.1.2, of_ends_same (by simpa using h.1.2), of_ends_same (by simpa using h.2)⟩
  intro n hn
  have := h.1.1.1.1.2
  rw [hn] at this
  simpa using this

theorem witness_CommandsIssue : descWord (.cpy 3 1) = some (.cpy, 3, 1, cpyFields, cpySpans) ∧ Ready cScalar sceneCpy
    ∧ DescAt 3 ((regsIn sceneCpy).getS 1) (teamIn cScalar sceneCpy) cpyDesc sceneCpy
    ∧ (∀ f ∈ cpyFields sceneCpy cScalar (teamIn cScalar sceneCpy) cpyDesc, f.2 = true) ∧ (∀ x ∈ cpySpans cpyDesc, checkSpan x sceneCpy = .ok ((), sceneCpy))
    ∧ CanIssue cScalar (teamIn cScalar sceneCpy) (groupIn cScalar sceneCpy) cpyIssue 0 sceneCpy sceneCpy := by
  refine ⟨rfl, ready_of (by decide +kernel), ⟨by decide, by decide +kernel, by decide +kernel, by decide +kernel, by decide +kernel⟩, by decide +kernel, ?_,
    canIssue_of (by decide +kernel)⟩
  have h : ((cpySpans cpyDesc).all fun x => ends (checkSpan x sceneCpy) fun b t => b == () && t == sceneCpy) = true := by decide +kernel
  intro x hx
  exact of_ends_same (List.all_eq_true.mp h x hx)

theorem witness_CommandsTrapOrStall_field : ((cpyFields (sceneC (toBytes 64 0) 0x40 0) cScalar (teamIn cScalar (sceneC (toBytes 64 0) 0x40 0)) (toBytes 64 0)).find?
      fun f => !f.2) ≠ none ∧ Ready cScalar (sceneC (toBytes 64 0) 0x40 0)
    ∧ DescAt 63 0x40 (teamIn cScalar (sceneC (toBytes 64 0) 0x40 0)) (toBytes 64 0) (sceneC (toBytes 64 0) 0x40 0) :=
  ⟨by decide +kernel, ready_of (by decide +kernel), ⟨by decide, by decide, by decide +kernel, by decide +kernel, by decide +kernel⟩⟩
theorem witness_CommandsTrapOrStall_place : (0x41 : Word).toNat % 64 ≠ 0 ∧ (65536 - 0 : Word).toNat % 64 = 0
    ∧ (teamIn cScalar sceneCpy).size < (65536 : Word).toNat + 64 := by decide +kernel

/-- The same with 32 commands in the core's queue, with the flag at 255, and with the source locked against it. -/
def cpyCmd (n : Nat) : Cmd := inFlight cScalar (teamIn cScalar sceneCpy) cpyIssue n 0
def sceneQueued : State := sceneCpy.modTeam 0 fun T => { T with cmds := (List.range 32).map cpyCmd }
def sceneFlagged : State := sceneCpy.modGroup 0 0 fun g => g.setFlag 3 255
def sceneLocked : State := sceneCpy.modTeam 0 fun T => { T with locks := spanLocks 0 0 (cpySpans cpyDesc) }
theorem witness_CommandsTrapOrStall_stall : 32 ≤ sceneQueued.queued 0 false ∧ sceneFlagged.queued 0 false < 32 ∧ raised cScalar 3 = some 3
    ∧ 255 ≤ (groupIn cScalar sceneFlagged).flag 3 ∧ sceneLocked.queued 0 false < 32 ∧ (groupIn cScalar sceneLocked).flag 3 < 255
    ∧ (teamIn cScalar sceneLocked).admits (cpySpans cpyDesc) = false ∧ Ready cScalar sceneQueued ∧ Ready cScalar sceneFlagged ∧ Ready cScalar sceneLocked :=
  ⟨by decide +kernel, by decide +kernel, rfl, by decide +kernel, by decide +kernel, by decide +kernel, by decide +kernel, ready_of (by decide +kernel),
    ready_of (by decide +kernel), ready_of (by decide +kernel)⟩
/-- The same while a store to another device is unanswered. -/
def sceneUnacked : State := { sceneCpy with remotes := [Remote.of 0 0 3 0 8 (-1#32)] }
theorem witness_CommandsTrapOrStall_fence : Ready cScalar sceneUnacked ∧ sceneUnacked.queued 0 false < 32 ∧ (groupIn cScalar sceneUnacked).flag 3 < 255
    ∧ (teamIn cScalar sceneUnacked).admits (cpySpans cpyDesc) = true ∧ sceneUnacked.unacked 0 0 = true :=
  ⟨ready_of (by decide +kernel), by decide +kernel, by decide +kernel, by decide +kernel, by decide +kernel⟩

/-! ### Collectives -/

/-- A reduction of one tile of bf16 elements over a ring of one device, its state area at 0x100. -/
def ringOne : Comm := { handle := 5, n := 1, pos := 0, canal := 0, next := 0, prev := 0, tag := 1, issued := 0 }
def plclDesc : List Byte :=
  toBytes 8 0x600000 ++ toBytes 8 0x604000 ++ toBytes 4 0x00050A00 ++ toBytes 4 0x00030008 ++ toBytes 4 256 ++ toBytes 4 0x100 ++ toBytes 8 0x608000 ++ toBytes 24 0
def sceneP : State := { sceneC plclDesc 0x40 0 with contexts := [{ probeContext with podTag := some 1, comms := [ringOne] }] }
def plclOf : Coll := plclColl 0 0 ringOne plclDesc
def plclIssue : Issue := { kind := .plcl, flag := some 3, desc := plclDesc, srec := plclOf.area, scope := plclOf.scope, locks := plclOf.spans }

theorem witness_PlclIssues : Ready cScalar sceneP ∧ DescAt 3 ((regsIn sceneP).getS 1) (teamIn cScalar sceneP) plclDesc sceneP
    ∧ plclComm (contextIn cScalar sceneP) plclDesc = some ringOne ∧ (∀ f ∈ plclFields (some ringOne) plclDesc, f.2 = true)
    ∧ plclOf.area + 16 + 4 * plclOf.stateTiles ≤ (teamIn cScalar sceneP).size ∧ sceneP.liveColls 0 plclOf.handle < 4
    ∧ CanIssue cScalar (teamIn cScalar sceneP) (groupIn cScalar sceneP) plclIssue 0 sceneP sceneP ∧ (∀ y ∈ (teamIn cScalar sceneP).cmds, y.id ≠ 0)
    ∧ ((issued cScalar (teamIn cScalar sceneP) plclIssue 0 sceneP).startColl 0 0 plclOf).scalarRegs? = some (regsIn sceneP) :=
  ⟨ready_of (by decide +kernel), ⟨by decide, by decide +kernel, by decide +kernel, by decide +kernel, by decide +kernel⟩, by decide +kernel, by decide +kernel,
    by decide +kernel, by decide +kernel, canIssue_of (by decide +kernel), by decide +kernel, by decide +kernel⟩

/-- A team with that collective, none of its planes landed; s1 its state area, s2 the tile and s3 a count of planes; under `canc` the tile is cancelled. -/
def sceneT (canc : Bool) (y z : Word) : State :=
  (scene.modTeam 0 fun T => { T with colls := [{ plclOf with tiles := [{ Tile.start 0 with canc := canc }] }] }).modGroup 0 0 fun g =>
    { g with regs := ((g.regs.setS 1 0x100).setS 2 y).setS 3 z }
def tileIn (s : State) : Coll × Tile := valOf (hereTile ((regsIn s).getS 1) ((regsIn s).getS 2).toNat s) (plclOf, Tile.start 0)

theorem witness_TileWordsComplete : ∃ a, Ready cScalar (sceneT false 0 0)
    ∧ hereTile ((regsIn (sceneT false 0 0)).getS 1) ((regsIn (sceneT false 0 0)).getS 2).toNat (sceneT false 0 0)
      = .ok (((tileIn (sceneT false 0 0)).1, (tileIn (sceneT false 0 0)).2), sceneT false 0 0)
    ∧ ((regsIn (sceneT false 0 0)).getS 3).toNat ≤ (tileIn (sceneT false 0 0)).2.landed ∧ hereAgent (sceneT false 0 0) = .ok (a, sceneT false 0 0)
    ∧ (tileIn (sceneT false 0 1)).2.canc = false ∧ (tileIn (sceneT false 0 1)).2.landed < ((regsIn (sceneT false 0 1)).getS 3).toNat
    ∧ (regsIn (sceneT false 0 8)).getS 2 ≠ -1#64 ∧ (tileIn (sceneT false 0 8)).1.planes ≤ ((regsIn (sceneT false 0 8)).getS 3).toNat :=
  ⟨valOf (hereAgent (sceneT false 0 0)) (canalAgent probeContext), ready_of (by decide +kernel), of_ends_same (by decide +kernel), by decide +kernel,
    of_ends_same (by decide +kernel), by decide +kernel, by decide +kernel, by decide +kernel, by decide +kernel⟩

/-- A cancel whose tile has settled. -/
def sceneX : State :=
  (sceneT true 0 1).modGroup 0 0 fun g => { g with cancel := some { num := 0, coll := 0, tiles := [0], count := 1, refused := [] } }
theorem witness_TileWordsComplete_cancel : ∃ y, Ready cScalar sceneX ∧ (tileIn sceneX).2.canc = true ∧ (regsIn sceneX).getS 2 ≠ -1#64
    ∧ ((regsIn sceneX).getS 3).toNat < (tileIn sceneX).1.planes ∧ ((regsIn sceneX).getS 3).toNat ≠ 0 ∧ (groupIn cScalar sceneX).cancel = some y
    ∧ y.tiles.all (y.settled (tileIn sceneX).1 (launchIn cScalar sceneX).detm) = true ∧ y.refused = [] :=
  ⟨{ num := 0, coll := 0, tiles := [0], count := 1, refused := [] }, ready_of (by decide +kernel), by decide +kernel⟩
theorem witness_TileWordsComplete_view : natBits ((regsIn (sceneT false 0 0)).getS 2).toNat 63 33 = 0 ∧ (launchIn cScalar (sceneT false 0 0)).detm = 0
    ∧ CanIssue cScalar (teamIn cScalar (sceneT false 0 0)) (groupIn cScalar (sceneT false 0 0))
      { kind := .plval, flag := some 3, desc := [], arg := 0, srec := 0x100, scope := plclOf.scope, locks := [⟨0, 0, 0x608000, 1024, true⟩] } 0 (sceneT false 0 0) (sceneT false 0 0) :=
  ⟨by decide +kernel, by decide +kernel, canIssue_of (by decide +kernel)⟩

/-! ### WAITA, barriers, sync words -/

/-- s1 selects a word in HBM, 5 lies there, s2 is compared with it; `wk` says that the group was woken. -/
def sceneW (y : Word) (wk : Bool) : State :=
  { (scene.modGroup 0 0 fun g => { g with regs := (g.regs.setS 1 0x3000000000600000).setS 2 y, woken := wk }) with
    mem := cellsWrite 0x600000 (toBytes 8 5) scene.mem }
def checkW (s : State) := checkOne (scalarReq false (natBits ((regsIn s).getS 1).toNat 55 0) 8 8 .read) s

theorem witness_Waita : ∃ h s' ag, Ready cScalar (sceneW 0 false) ∧ waitingRemote (sceneW 0 false) = .ok (false, sceneW 0 false)
    ∧ orderedWait (sceneW 0 false) = .ok (0, sceneW 0 false) ∧ natBit ((regsIn (sceneW 0 false)).getS 1).toNat 56 = false
    ∧ natBit ((regsIn (sceneW 0 false)).getS 1).toNat 63 = false ∧ natBits ((regsIn (sceneW 0 false)).getS 1).toNat 62 60 < 6
    ∧ (launchIn cScalar (sceneW 0 false)).detm = 0
    ∧ Reached (scalarReq false (natBits ((regsIn (sceneW 0 false)).getS 1).toNat 55 0) 8 8 .read) h (sceneW 0 false) s' ∧ h.remote = false
    ∧ InHand cScalar (teamIn cScalar (sceneW 0 false)) (groupIn cScalar (sceneW 0 false)) (launchIn cScalar (sceneW 0 false)) (contextIn cScalar (sceneW 0 false))
      (regsIn (sceneW 0 false)) s'
    ∧ orderedLog 5 0 s' = .ok ((), s') ∧ hereAgent s' = .ok (ag, s') ∧ Ready cScalar (s'.acquire ag 3)
    ∧ (BitVec.ofNat 64 (ofBytes ((s'.acquire ag 3).readHit 0 h)) : Word) ≠ (regsIn (sceneW 0 false)).getS 2 := by
  have hs : teamIn cScalar (stateOf (checkW (sceneW 0 false))) = teamIn cScalar (sceneW 0 false)
      ∧ groupIn cScalar (stateOf (checkW (sceneW 0 false))) = groupIn cScalar (sceneW 0 false)
      ∧ launchIn cScalar (stateOf (checkW (sceneW 0 false))) = launchIn cScalar (sceneW 0 false)
      ∧ contextIn cScalar (stateOf (checkW (sceneW 0 false))) = contextIn cScalar (sceneW 0 false) := by decide +kernel
  exact ⟨hitOf (checkW (sceneW 0 false)), stateOf (checkW (sceneW 0 false)), valOf (hereAgent (stateOf (checkW (sceneW 0 false)))) (canalAgent probeContext),
    ready_of (by decide +kernel), of_ends_same (by decide +kernel), of_ends_same (by decide +kernel), by decide +kernel, by decide +kernel, by decide +kernel,
    by decide +kernel, reached_of (by decide +kernel), by decide +kernel,
    hs.1 ▸ hs.2.1 ▸ hs.2.2.1 ▸ hs.2.2.2 ▸ inHand_of' (by decide +kernel) (by decide +kernel), of_ends_same (by decide +kernel),
    of_ends_same (by decide +kernel), ready_of (by decide +kernel), by decide +kernel⟩
/-- s1 selects a word of device 3's heap, at pod scope. -/
def sceneWP : State :=
  { scene.modGroup 0 0 fun g => { g with regs := g.regs.setS 1 (0x4000000000000000 ||| BitVec.ofNat 64 (heapVa 3 64)) } with
    contexts := [{ probeContext with podTag := some 7, heapLen := 65536 }]
    dome := { scene.dome with podcfg := 0x80040000, routes := [(3, [0])] } }
theorem witness_Waita_peer : ∃ h s' p, Ready cScalar sceneWP ∧ waitingRemote sceneWP = .ok (false, sceneWP) ∧ orderedWait sceneWP = .ok (0, sceneWP)
    ∧ natBit ((regsIn sceneWP).getS 1).toNat 63 = false ∧ natBit ((regsIn sceneWP).getS 1).toNat 56 = false ∧ natBits ((regsIn sceneWP).getS 1).toNat 62 60 = 4
    ∧ (launchIn cScalar sceneWP).detm = 0 ∧ Reached (scalarReq false (natBits ((regsIn sceneWP).getS 1).toNat 55 0) 8 8 .read) h sceneWP s'
    ∧ h.parts = [p] ∧ p.place = .peer 3 64 ∧ Ready cScalar s' ∧ (groupIn cScalar s').woken = false ∧ orderedLog 5 0 s' = .ok ((), s')
    ∧ regsIn s' = regsIn sceneWP :=
  have hh : handy cScalar (stateOf (checkW sceneWP)) = true := by decide +kernel
  ⟨_, _, _, ready_of (by decide +kernel), of_ends_same (by decide +kernel), orderedWait_off (c := cScalar) (by decide +kernel) (by decide +kernel),
    by decide +kernel, by decide +kernel, by decide +kernel, by decide +kernel, reached_of (by decide +kernel), rfl, rfl, ready_of hh, by decide +kernel,
    orderedLog_off hh (by decide +kernel) 5 0, by decide +kernel⟩
theorem witness_Waita_parks : ∃ h s', checkW (sceneW 5 false) = .ok ([h], s') ∧ (BitVec.ofNat 64 (ofBytes (s'.readHit 0 h)) : Word) = (regsIn (sceneW 5 false)).getS 2
    ∧ (groupIn cScalar (sceneW 5 false)).woken = false ∧ (groupIn cScalar (sceneW 5 true)).woken = true :=
  ⟨hitOf (checkW (sceneW 5 false)), stateOf (checkW (sceneW 5 false)), hit_of (by decide +kernel), by decide +kernel, by decide +kernel, by decide +kernel⟩
theorem witness_Waita_refused : natBit (0x0100000000600000 : Word).toNat 56 = true ∧ ¬(natBits (0x6000000000600000 : Word).toNat 62 60 < 6)
    ∧ natBit (0x8000000100000000 : Word).toNat 63 = true ∧ natBits (0x8000000100000000 : Word).toNat 55 32 ≠ 0
    ∧ Ready cScalar ((sceneW 0 false).modLaunch 0 fun L => { L with detm := 2 })
    ∧ (launchIn cScalar ((sceneW 0 false).modLaunch 0 fun L => { L with detm := 2 })).detm = 2 ∧ natBits (0x3200000000600000 : Word).toNat 59 57 ≠ 0 :=
  ⟨by decide, by decide, by decide, by decide, ready_of (by decide +kernel), by decide +kernel, by decide⟩

/-- s1 selects team slot 3, set up for two arrivals unless `up` is false; s2 is a count or a phase. -/
def sceneBar (x y : Word) (up : Bool) : State :=
  (scene.modTeam 0 fun T => { T with bars := T.bars.set 3 (if up then ⟨2, 1, 7, true, 0⟩ else Barrier.start) }).modGroup 0 0 fun g =>
    { g with regs := (g.regs.setS 1 x).setS 2 y }
theorem witness_BarrierWordsComplete : ∃ b, Ready cScalar (sceneBar 3 1 true) ∧ natBits (3 : Word).toNat 61 4 = 0 ∧ natBit (3 : Word).toNat 63 = false
    ∧ natBit (0x4000000000000003 : Word).toNat 62 = true ∧ natBit (3 : Word).toNat 62 = false ∧ (1 : Word).toNat ≠ 0
    ∧ (sceneBar 3 1 true).slot? 0 3 = some b ∧ b.init = true ∧ orderedWait (sceneBar 3 1 true) = .ok (0, sceneBar 3 1 true)
    ∧ orderedLog 6 0 (sceneBar 3 1 true) = .ok ((), sceneBar 3 1 true) ∧ b.phase ≠ ((regsIn (sceneBar 3 1 true)).getS 2).setWidth 32
    ∧ b.phase = ((regsIn (sceneBar 3 7 true)).getS 2).setWidth 32 :=
  ⟨⟨2, 1, 7, true, 0⟩, ready_of (by decide +kernel), by decide, by decide, by decide, by decide, by decide, by decide +kernel, rfl,
    of_ends_same (by decide +kernel), of_ends_same (by decide +kernel), by decide +kernel, by decide +kernel⟩
/-- A store to another device is unanswered. -/
def unanswered (s : State) : State := { s with remotes := [Remote.of 0 0 3 0 8 (-1#32)] }
theorem witness_BarrierWordsComplete_release : (sceneBar 3 1 true).unacked 0 0 = false ∧ Ready cScalar (unanswered (sceneBar 3 1 true))
    ∧ (unanswered (sceneBar 3 1 true)).unacked 0 0 = true ∧ ((unanswered (sceneBar 3 1 true)).slot? 0 3).isSome = true :=
  ⟨by decide +kernel, ready_of (by decide +kernel), by decide +kernel, by decide +kernel⟩
theorem witness_BarrierWordsComplete_unset : Ready cScalar (sceneBar 3 1 false) ∧ (sceneBar 3 1 false).slot? 0 3 = some Barrier.start ∧ Barrier.start.init = false :=
  ⟨ready_of (by decide +kernel), by decide +kernel⟩
theorem witness_BarrierWordsComplete_cluster : natBit (0x8000000000000003 : Word).toNat 63 = true ∧ natBits (0x8000000000000003 : Word).toNat 3 0 < 4
    ∧ (sceneBar 0x8000000000000003 1 true).slot? 0 19 = some Barrier.start := by decide +kernel

/-- s1 names the sync word at 0x40, whose generation is 7. -/
def sceneSync (y : Word) : State := sceneC (toBytes 8 4 ++ toBytes 8 7) 0x40 y
theorem witness_SyncWordsComplete : ∃ h s', Ready cScalar (sceneSync 1) ∧ checkOne (scalarReq true (((0x40 : Word).toNat % 2 ^ 32 : Nat) : Int) 16 16 .write) (sceneSync 1) = .ok ([h], s')
    ∧ checkSync [scalarReq true (((0x40 : Word).toNat % 2 ^ 32 : Nat) : Int) 16 16 .read] (sceneSync 1) = .ok ((), sceneSync 1)
    ∧ ofBytes (cellsRead (teamIn cScalar (sceneSync 1)).scratch 0x48 4) ≠ ((regsIn (sceneSync 1)).getS 2).toNat % 2 ^ 32
    ∧ ofBytes (cellsRead (teamIn cScalar (sceneSync 7)).scratch 0x48 4) = ((regsIn (sceneSync 7)).getS 2).toNat % 2 ^ 32 :=
  let m := checkOne (scalarReq true (((0x40 : Word).toNat % 2 ^ 32 : Nat) : Int) 16 16 .write) (sceneSync 1)
  ⟨hitOf m, stateOf m, ready_of (by decide +kernel), hit_of (by decide +kernel), of_ends_same (by decide +kernel), by decide +kernel, by decide +kernel⟩

/-! ### The operand buffer, tables, launches -/

/-- A record of 4,096 bytes of f16-like elements, 32 rows of 8 columns. -/
def obDesc : List Byte := toBytes 4 4096 ++ toBytes 4 9 ++ toBytes 8 0 ++ toBytes 4 32 ++ toBytes 4 8 ++ toBytes 8 0
/-- It lies at 0x40, named by s1; s2 is the o-number. -/
def sceneO : State := sceneC obDesc 0x40 3
/-- The same with o1 reserved, and with a lock on it. -/
def sceneO1 (lk : Bool) : State := (sceneC obDesc 1 3).modTeam 0 fun T =>
  { T with resv := T.resv.set 1 (some { record := obDesc, base := 0, free := 0, cells := [] })
           locks := if lk then [{ grp := 0, cmd := 0, space := 3, core := 1, start := 0, len := 4096, write := false }] else [] }
theorem witness_OperandWordsComplete : Ready cScalar sceneO ∧ readDesc ((regsIn sceneO).getS 1) 32 32 sceneO = .ok (obDesc, sceneO)
    ∧ ((regsIn sceneO).getS 2).toNat ≤ 15 ∧ (teamIn cScalar sceneO).live? 3 = none ∧ (∀ f ∈ recordFields obDesc, f.2 = true)
    ∧ freeRun (sceneO.coreResv 0) (fld obDesc 0 4) = some 0 ∧ freeRun [(0, 524288)] (fld obDesc 0 4) = none :=
  ⟨ready_of (by decide +kernel), of_ends_same (by decide +kernel), by decide +kernel⟩
theorem witness_OperandWordsComplete_release : Ready cScalar (sceneO1 true) ∧ Ready cScalar (sceneO1 false)
    ∧ ((teamIn cScalar (sceneO1 true)).live? 1).isSome = true ∧ ((teamIn cScalar (sceneO1 false)).live? 1).isSome = true
    ∧ ((teamIn cScalar (sceneO1 true)).locks.any fun l => l.space == 3 && l.core == 1) = true
    ∧ ((teamIn cScalar (sceneO1 false)).locks.any fun l => l.space == 3 && l.core == 1) = false :=
  ⟨ready_of (by decide +kernel), ready_of (by decide +kernel), by decide +kernel⟩

/-- The seventeen knots of an identity table, and a table of zeros, at 0x60_0000. -/
def knots : List Byte := (List.range 17).flatMap fun i => toBytes 4 (if i = 0 then 0 else (127 + i - 9) * 2 ^ 23)
def sceneK (b : List Byte) : State := { sceneC [] 2 0x600000 with mem := cellsWrite 0x600000 b scene.mem }
def checkK (s : State) := checkOne (scalarReq false ((regsIn s).getS 2).toNat 68 4 .read) s
theorem witness_OperandWordsComplete_table : ∃ h s' t, Ready cScalar (sceneK knots) ∧ Reached (scalarReq false ((regsIn (sceneK knots)).getS 2).toNat 68 4 .read) h (sceneK knots) s'
    ∧ h.remote = false ∧ InHand cScalar (teamIn cScalar s') (groupIn cScalar s') (launchIn cScalar s') (contextIn cScalar s') (regsIn (sceneK knots)) s'
    ∧ s'.loadTable 0 0 2 (s'.readHit 0 h) = some t :=
  ⟨hitOf (checkK (sceneK knots)), stateOf (checkK (sceneK knots)), _, ready_of (by decide +kernel), reached_of (by decide +kernel),
    by decide +kernel, inHand_of' (by decide +kernel) (by decide +kernel), some_getD (by decide +kernel) scene⟩
theorem witness_OperandWordsComplete_noTable : ∃ h s', checkK (sceneK []) = .ok ([h], s') ∧ s'.loadTable 0 0 2 (s'.readHit 0 h) = none :=
  ⟨hitOf (checkK (sceneK [])), stateOf (checkK (sceneK [])), hit_of (by decide +kernel), by decide +kernel⟩

/-- A launch record at 0x60_0000: one team of one group; its byte 42 is the width. -/
def recordBytes (width : Nat) : List Byte :=
  toBytes 8 0x400000 ++ toBytes 8 0x500000 ++ toBytes 4 4096 ++ toBytes 4 256 ++ toBytes 4 0 ++ toBytes 4 0xFFFFFFFF ++ toBytes 4 0xFFFFFFFF ++ toBytes 4 4096
    ++ toBytes 2 32 ++ toBytes 1 width ++ toBytes 1 1 ++ toBytes 1 4 ++ toBytes 1 0x81 ++ toBytes 1 1 ++ toBytes 1 1 ++ toBytes 2 0 ++ toBytes 1 1 ++ toBytes 1 0
    ++ toBytes 8 0 ++ toBytes 4 0 ++ toBytes 8 0 ++ toBytes 8 0 ++ toBytes 8 0 ++ toBytes 8 0 ++ toBytes 8 0 ++ toBytes 4 0 ++ toBytes 4 1 ++ toBytes 8 0x610000
    ++ toBytes 136 0
def sceneR (width : Nat) : State :=
  let s := sceneC [] 0x600000 0
  { s with mem := cellsWrite 0x600000 (recordBytes width) scene.mem, plat := { s.plat with phase := .ready } }
def taken : Taken → Option Nat
  | .refused code => some code
  | _ => none
def takenLaunch : Taken → Option (Launch × List (Nat × Nat))
  | .ok L hs => some (L, hs)
  | _ => none
theorem taken_of {x : Taken} {n : Nat} (h : taken x = some n) : x = .refused n := by cases x <;> simp_all [taken]
theorem takenLaunch_of {x : Taken} (h : (takenLaunch x).isSome = true) :
    x = .ok ((takenLaunch x).getD (probeLaunch, [])).1 ((takenLaunch x).getD (probeLaunch, [])).2 := by cases x <;> simp_all [takenLaunch]
/-- What the command processor makes of the record at 0x60_0000. -/
def takes (s : State) : Taken × State := s.takeRecord (contextIn cScalar s) 0x600000
theorem pair_of {α β : Type} {x : α × β} {a : α} (h : x.1 = a) : x = (a, x.2) := by rw [← h]

theorem witness_LnchCompletes : ∃ L' hs u v, Ready cScalar (sceneR 8) ∧ (0x600000 : Word).toNat % 128 = 0 ∧ (sceneR 8).ready = true ∧ (sceneR 8).remotes = []
    ∧ takes (sceneR 8) = (.ok L' hs, u) ∧ takes (sceneR 9) = (.refused 2, v) :=
  ⟨_, _, _, _, ready_of (by decide +kernel), by decide, by decide +kernel, by decide +kernel, pair_of (takenLaunch_of (by decide +kernel)),
    pair_of (taken_of (by decide +kernel))⟩
def waits : Taken → Bool
  | .wait => true
  | _ => false
theorem waits_of {x : Taken} (h : waits x = true) : x = .wait := by cases x <;> simp_all [waits]
/-- The record's page is not resident. -/
def sceneRA : State := { sceneR 8 with mem := cellsWrite 0x200000 (toBytes 8 0x22) (sceneR 8).mem }
theorem witness_LnchCompletes_waits : ∃ u, Ready cScalar sceneRA ∧ sceneRA.ready = true ∧ sceneRA.unacked 0 0 = false ∧ takes sceneRA = (.wait, u) :=
  ⟨_, ready_of (by decide +kernel), by decide +kernel, by decide +kernel, pair_of (waits_of (by decide +kernel))⟩
theorem witness_LnchCompletes_update : Ready cScalar scene ∧ scene.unacked 0 0 = false ∧ scene.ready = false :=
  ⟨ready_of (by decide +kernel), by decide +kernel, by decide +kernel⟩
theorem witness_LnchCompletes_release : Ready cScalar (unanswered (sceneR 8)) ∧ (unanswered (sceneR 8)).unacked 0 0 = true
    ∧ (sceneR 8).unacked 0 0 = false ∧ (0x600001 : Word).toNat % 128 ≠ 0 :=
  ⟨ready_of (by decide +kernel), by decide +kernel, by decide +kernel, by decide⟩
/-- The queue's size is a free value of the configuration: one of the two clauses about it is met, whichever it is. -/
theorem witness_LnchCompletes_queue : Config.launchQueueSize ≤ ((sceneR 8).launches.filter fun l => l.ctx == 0 && !l.ended).length
    ∨ ((sceneR 8).launches.filter fun l => l.ctx == 0 && !l.ended).length < Config.launchQueueSize := by omega

end Sys2Proof.Tests
end

