-- ==== Sys2Proof/Tests/Witness3.lean ====
section
/-! SUPPORT. Concrete states and operands that meet the hypotheses of the statements about lane words that compute, exchange, control and refill. -/

namespace Sys2Proof.Tests

open Sys2Proof Sys2Proof.Machine Sys2Proof.Claims

set_option maxRecDepth 100000
set_option Elab.async false

/-- The lanes in a clause with v0 and v1 as functions of the lane's number. -/
def sceneV (x y : Nat → Nat) : State :=
  sceneL.modGroup 0 0 fun g => { g with lanes := (indexed 0 g.lanes).map fun il => (il.2.setV 0 (x il.1)).setV 1 (y il.1) }
/-- Lane 5 vacant, lane 6 nested once. -/
def sceneN : State := (sceneV (fun j => j + 3) fun j => 100 * j).modGroup 0 0 fun g =>
  { g with lanes := modifyAt (fun l => { l with nest := 1 }) 6 (modifyAt (fun l => { l with nest := 255, holds := false }) 5 g.lanes) }

theorem ready_word {i : Instr} {w : LaneWord} {s : State} (h : ready i w s = true) : LaneReady i w (laneIn w s) s := laneReady_of h

/-! ### Computation in each lane -/

def wAdd : LaneWord := { word with vd := 2, vb := 1, ty := 4 }
def wPop : LaneWord := { word with vd := 2, ty := 4 }
def wFma : LaneWord := { word with vd := 2, vb := 1, vc := 3, ty := 10 }
def wAcc : LaneWord := { word with vd := 1, ty := 10 }

theorem witness_LaneArithmeticComplete :
    (∃ fx, integerFx (.laneAdd wAdd) = some fx) ∧ LaneReady (.laneAdd wAdd) wAdd (laneIn wAdd sceneN) sceneN
    ∧ (∃ fx, bitFx (.lanePopc wPop) = some fx) ∧ LaneReady (.lanePopc wPop) wPop (laneIn wPop sceneN) sceneN
    ∧ (∃ fx, floatFx (.fma wFma) = some fx) ∧ LaneReady (.fma wFma) wFma (laneIn wFma sceneN) sceneN
    ∧ (∃ fx, accFx (.aadd wAcc) = some fx) ∧ LaneReady (.aadd wAcc) wAcc (laneIn wAcc sceneN) sceneN :=
  ⟨⟨_, rfl⟩, ready_word (by decide +kernel), ⟨_, rfl⟩, ready_word (by decide +kernel), ⟨_, rfl⟩, ready_word (by decide +kernel), ⟨_, rfl⟩,
    ready_word (by decide +kernel)⟩

theorem witness_LaneWordsFrame : ∃ fx, integerFx (.laneAdd wAdd) = some fx ∧ LaneReady (.laneAdd wAdd) wAdd (laneIn wAdd sceneN) sceneN
    ∧ exec (.laneAdd wAdd) sceneN = .next (after (exec (.laneAdd wAdd) sceneN)) :=
  ⟨_, rfl, ready_word (by decide +kernel), next_of (by decide +kernel)⟩

/-- Every lane nested once. -/
def sceneIdleLanes : State := sceneL.modGroup 0 0 fun g => { g with lanes := g.lanes.map fun l => { l with nest := 1 } }
theorem witness_IdleWordsSkip : (integerFx (.laneAdd { word with md := 7 })).isSome = true ∧ sceneIdleLanes.cur = some cLane
    ∧ sceneIdleLanes.team? 0 = some (teamIn cLane sceneIdleLanes) ∧ sceneIdleLanes.group? 0 0 = some (groupIn cLane sceneIdleLanes)
    ∧ sceneIdleLanes.launchOf? 0 = some (launchIn cLane sceneIdleLanes) ∧ (∃ f, laneForm 64 (.laneAdd { word with md := 7 }) = some (f, { word with md := 7 }))
    ∧ (groupIn cLane sceneIdleLanes).active = [] ∧ actsIdle (.laneAdd { word with md := 7 }) = false :=
  have h := inHand_of (c := cLane) (s := sceneIdleLanes) (by decide +kernel)
  ⟨by decide +kernel, h.cur, h.team, h.group, h.launch, ⟨_, rfl⟩, by decide +kernel, rfl⟩
/-- A load under predicate p0, which no lane has set. -/
def wOff : LaneWord := { word with guard := 0, vd := 2, ty := 7 }
theorem witness_IdleWordsSkip_guard : sceneN.team? 0 = some (teamIn cLane sceneN) ∧ sceneN.group? 0 0 = some (groupIn cLane sceneN)
    ∧ sceneN.launchOf? 0 = some (launchIn cLane sceneN) ∧ (∃ f, laneForm 64 (.laneLd wOff) = some (f, wOff)) ∧ actsIdle (.laneLd wOff) = false
    ∧ (groupIn cLane sceneN).active ≠ [] ∧ wOff.guardOk = true
    ∧ (∀ j ∈ (groupIn cLane sceneN).active, ((groupIn cLane sceneN).lane j).passes wOff.guard.toNat wOff.neg = false) :=
  have h := inHand_of (c := cLane) (s := sceneN) (by decide +kernel)
  ⟨h.team, h.group, h.launch, ⟨_, rfl⟩, rfl, by decide +kernel, by decide +kernel, by decide +kernel⟩

def wLget (n : BitVec 32) : LaneWord := { word with vd := 2, ty := 7, imm := n }
def wQnt : LaneWord := { word with vd := 2, vb := 1, ty := 12, imm := 0xA00 }
def wDqnt : LaneWord := { word with vd := 2, vb := 1, ty := 10, imm := 0xC00 }

theorem witness_OpenLaneWordsComplete :
    LaneReady (.lget (wLget 0)) (wLget 0) (laneIn (wLget 0) sceneN) sceneN
    ∧ (laneSpecial (laneIn (wLget 0) sceneN) sceneN 0 3 (Lane.start 0 0)).isSome = true
    ∧ LaneReady (.lget (wLget 1)) (wLget 1) (laneIn (wLget 1) sceneN) sceneN ∧ (wLget 1).bits 7 0 = 1
    ∧ LaneReady (.qnt wQnt) wQnt (laneIn wQnt sceneN) sceneN ∧ wordTable (laneIn wQnt sceneN) wQnt sceneN = .ok (none, sceneN)
    ∧ LaneReady (.dqnt wDqnt) wDqnt (laneIn wDqnt sceneN) sceneN ∧ wordTable (laneIn wDqnt sceneN) wDqnt sceneN = .ok (none, sceneN)
    ∧ LaneReady (.aadda { word with vd := 1 }) { word with vd := 1 } (laneIn { word with vd := 1 } sceneN) sceneN
    ∧ LaneReady (.aneg { word with vd := 1 }) { word with vd := 1 } (laneIn { word with vd := 1 } sceneN) sceneN :=
  ⟨ready_word (by decide +kernel), by decide +kernel, ready_word (by decide +kernel), by decide +kernel, ready_word (by decide +kernel),
    of_ends_same (by decide +kernel), ready_word (by decide +kernel), of_ends_same (by decide +kernel), ready_word (by decide +kernel),
    ready_word (by decide +kernel)⟩

/-! ### Exchange between lanes -/

def wPush : LaneWord := { word with ty := 7 }
def wPoll : LaneWord := { word with vd := 2, ty := 7 }
def sceneNq : State := sceneN.modGroup 0 0 fun g => { g with lq := List.replicate 64 0 }

theorem witness_LaneExchangeComplete_queue :
    LaneReady (.pollMask wPoll) wPoll (laneIn wPoll sceneN) sceneN
    ∧ (pollFx (laneIn wPoll sceneN) wPoll (.pollMask wPoll)).isSome = true
    ∧ LaneReady (.lpush wPush) wPush (laneIn wPush sceneN) sceneN ∧ (laneIn wPush sceneN).G.lq.length < 64
    ∧ LaneReady (.lpush wPush) wPush (laneIn wPush sceneNq) sceneNq ∧ 64 ≤ (laneIn wPush sceneNq).G.lq.length
    ∧ ¬((laneIn wPush sceneNq).L.detm = 2 ∨ (laneIn wPush sceneNq).G.stallS = some .runs) :=
  ⟨ready_word (by decide +kernel), by decide +kernel, ready_word (by decide +kernel), by decide +kernel, ready_word (by decide +kernel), by decide +kernel,
    by decide +kernel⟩

/-- A push that can never proceed: the scalar stream waits for this run. -/
def sceneNh : State := sceneNq.modGroup 0 0 fun g => { g with stallS := some .runs }
theorem witness_LaneExchangeComplete_hang : LaneReady (.lpush wPush) wPush (laneIn wPush sceneNh) sceneNh ∧ 64 ≤ (laneIn wPush sceneNh).G.lq.length
    ∧ (laneIn wPush sceneNh).G.stallS = some .runs ∧ ({ wPoll with md := 1 } : LaneWord).md.toNat % 2 = 1
    ∧ LaneReady (.pollMask { wPoll with md := 1 }) { wPoll with md := 1 } (laneIn { wPoll with md := 1 } sceneN) sceneN :=
  ⟨ready_word (by decide +kernel), by decide +kernel, by decide +kernel, by decide, ready_word (by decide +kernel)⟩

/-- Every lane's v0 names a mask; under `busy` a store of lane 1 to another device is unanswered. -/
def sceneSy (x : Nat → Nat) (busy : Bool) : State :=
  { sceneN.modGroup 0 0 fun g => { g with lanes := (indexed 0 g.lanes).map fun il => il.2.setV 0 (x il.1) } with
    remotes := if busy then [{ Remote.of 0 0 3 0 8 0 with store := some 0, lane := 1 }] else [] }

def wBcst : LaneWord := { word with vd := 2, ty := 7, imm := 5 }
def wXln : LaneWord := { word with vd := 2, ty := 4, imm := 1 }
theorem witness_LaneExchangeComplete_move : LaneReady (.xlnRot wXln) wXln (laneIn wXln sceneN) sceneN
    ∧ (xlnSource (laneIn wXln sceneN) wXln 3 1 (.xlnRot wXln)).isSome = true
    ∧ LaneReady (.bcst wBcst) wBcst (laneIn wBcst sceneN) sceneN
    ∧ LaneReady (.gscan .add true { word with vd := 2, ty := 4 }) { word with vd := 2, ty := 4 } (laneIn { word with vd := 2, ty := 4 } sceneN) sceneN :=
  ⟨ready_word (by decide +kernel), by decide +kernel, ready_word (by decide +kernel), ready_word (by decide +kernel)⟩

/-- The mask that lane j names, of the occupied lanes. -/
def named (s : State) (j : Nat) : Nat := (laneIn word s).a word ((laneIn word s).G.lane j) &&& maskLanes (laneIn word s).G.occupied

theorem witness_GsyncCompletes : ∀ busy ∈ [true, false],
    LaneReady (.gsync word) word (laneIn word (sceneSy (fun _ => 0x9F) busy)) (sceneSy (fun _ => 0x9F) busy)
    ∧ (∀ j ∈ (laneIn word (sceneSy (fun _ => 0x9F) busy)).parts, named (sceneSy (fun _ => 0x9F) busy) j
        = maskLanes (laneIn word (sceneSy (fun _ => 0x9F) busy)).parts)
    ∧ (sceneSy (fun _ => 0x9F) busy).laneBusy 0 0 0 (laneIn word (sceneSy (fun _ => 0x9F) busy)).parts = busy := by
  intro busy _
  cases busy <;> exact ⟨laneReady_of (by decide +kernel), by decide +kernel, by decide +kernel⟩
theorem witness_GsyncCompletes_traps : LaneReady (.gsync word) word (laneIn word (sceneSy (fun j => j) false)) (sceneSy (fun j => j) false)
    ∧ named (sceneSy (fun j => j) false) 1 ≠ named (sceneSy (fun j => j) false) 0 ∧ 1 ∈ (laneIn word (sceneSy (fun j => j) false)).parts
    ∧ LaneReady (.gsync word) word (laneIn word (sceneSy (fun _ => 0x1F) false)) (sceneSy (fun _ => 0x1F) false)
    ∧ maskLanes (laneIn word (sceneSy (fun _ => 0x1F) false)).parts &&& named (sceneSy (fun _ => 0x1F) false) 0 ≠
        maskLanes (laneIn word (sceneSy (fun _ => 0x1F) false)).parts
    ∧ LaneReady (.gsync word) word (laneIn word (sceneSy (fun _ => 0xDF) false)) (sceneSy (fun _ => 0xDF) false)
    ∧ maskLanes (laneIn word (sceneSy (fun _ => 0xDF) false)).parts &&& named (sceneSy (fun _ => 0xDF) false) 0 =
        maskLanes (laneIn word (sceneSy (fun _ => 0xDF) false)).parts
    ∧ named (sceneSy (fun _ => 0xDF) false) 0 ≠ maskLanes (laneIn word (sceneSy (fun _ => 0xDF) false)).parts :=
  ⟨laneReady_of (by decide +kernel), by decide +kernel, by decide +kernel, laneReady_of (by decide +kernel), by decide +kernel, laneReady_of (by decide +kernel),
    by decide +kernel, by decide +kernel⟩

/-! ### Control -/

/-- A word of structured control in hand. -/
def control (i : Instr) (w : LaneWord) (s : State) : Bool :=
  handy cLane s && match laneForm 64 i with
    | some (f, w') => decide (w' = w) && ((groupIn cLane s).active.isEmpty || (w.guard == 127 && !w.neg
        && f.legal w (launchIn cLane s).vregs (launchIn cLane s).aregs (launchIn cLane s).tiles))
    | none => false
theorem control_of {i : Instr} {w : LaneWord} {s : State} (h : control i w s = true) :
    ControlReady i w cLane (teamIn cLane s) (groupIn cLane s) (launchIn cLane s) s := by
  simp only [control, Bool.and_eq_true] at h
  have hand := inHand_of h.1
  refine ⟨hand.cur, hand.team, hand.group, hand.launch, ?_⟩
  have h2 := h.2
  split at h2
  · rename_i f w' hf
    simp only [Bool.and_eq_true, decide_eq_true_eq, Bool.or_eq_true, List.isEmpty_iff, beq_iff_eq, Bool.not_eq_true'] at h2
    obtain ⟨rfl, h2⟩ := h2
    refine ⟨f, hf, fun hne => ?_⟩
    rcases h2 with h2 | ⟨⟨h3, h4⟩, h5⟩
    · exact absurd h2 hne
    · exact ⟨h3, h4, h5⟩
  · simp at h2

/-- Every occupied lane's counter set. -/
def sceneDeep (n : BitVec 8) : State := sceneN.modGroup 0 0 fun g => { g with lanes := g.lanes.map fun l => if l.nest = 255 then l else { l with nest := n } }
/-- A clause's header in the lane section. -/
def sceneHead (s : State) : State := { s with mem := cellsWrite 0x500000 (toBytes 12 0) s.mem }

theorem witness_ControlWordsComplete_counter : ControlReady (.laneIf word) word cLane (teamIn cLane sceneN) (groupIn cLane sceneN) (launchIn cLane sceneN) sceneN
    ∧ (counterFx word (.laneIf word)).isSome = true ∧ deepLanes (groupIn cLane sceneN) (counterLimit (.laneIf word)) = []
    ∧ ControlReady (.laneIf word) word cLane (teamIn cLane (sceneDeep 254)) (groupIn cLane (sceneDeep 254)) (launchIn cLane (sceneDeep 254)) (sceneDeep 254)
    ∧ deepLanes (groupIn cLane (sceneDeep 254)) (counterLimit (.laneIf word)) ≠ [] ∧ counterLimit (.laneIf word) < 256 :=
  ⟨control_of (by decide +kernel), by decide +kernel, by decide +kernel, control_of (by decide +kernel), by decide +kernel, by decide⟩

theorem witness_ControlWordsComplete_end :
    ControlReady (.laneEndloop word) word cLane (teamIn cLane (sceneDeep 2)) (groupIn cLane (sceneDeep 2)) (launchIn cLane (sceneDeep 2)) (sceneDeep 2)
    ∧ (∀ j ∈ (groupIn cLane (sceneDeep 2)).occupied, 2 ≤ ((groupIn cLane (sceneDeep 2)).lane j).nest.toNat)
    ∧ ControlReady (.laneEndloop word) word cLane (teamIn cLane (sceneHead sceneN)) (groupIn cLane (sceneHead sceneN)) (launchIn cLane (sceneHead sceneN))
        (sceneHead sceneN)
    ∧ (∃ j ∈ (groupIn cLane (sceneHead sceneN)).occupied, ((groupIn cLane (sceneHead sceneN)).lane j).nest.toNat ≤ 1)
    ∧ (∃ h s', headerAt word.imm.toNat (sceneHead sceneN) = .ok (some h, s') ∧ (s'.group? cLane.team cLane.grp).isSome = true) := by
  refine ⟨control_of (by decide +kernel), by decide +kernel, control_of (by decide +kernel), by decide +kernel, ?_⟩
  obtain ⟨a, s', h, hp⟩ := of_ends (m := headerAt word.imm.toNat (sceneHead sceneN)) (p := fun a t => a.isSome && (t.group? cLane.team cLane.grp).isSome)
    (by decide +kernel)
  simp only [Bool.and_eq_true] at hp
  match a, hp with
  | some x, hp => exact ⟨x, s', h, hp.2⟩

theorem witness_ControlWordsComplete_stop :
    ControlReady (.laneStop word) word cLane (teamIn cLane (sceneDeep 0)) (groupIn cLane (sceneDeep 0)) (launchIn cLane (sceneDeep 0)) (sceneDeep 0)
    ∧ deepLanes (groupIn cLane (sceneDeep 0)) 1 = []
    ∧ ControlReady (.laneStop word) word cLane (teamIn cLane sceneN) (groupIn cLane sceneN) (launchIn cLane sceneN) sceneN
    ∧ deepLanes (groupIn cLane sceneN) 1 ≠ [] :=
  ⟨control_of (by decide +kernel), by decide +kernel, control_of (by decide +kernel), by decide +kernel⟩

/-! ### Items -/

/-- A launch with a queue of three barges of one value at 0x60_0000, in a refill clause, two lanes vacant. -/
def sceneI : State :=
  let s := { sceneL with launches := [{ probeLaunch with refill := 0, queue := 0x600000, nitems := 3, items := [1] }] }
  { s with mem := cellsWrite 0x600000 (List.replicate 48 5) s.mem }.modGroup 0 0 fun g =>
    { g with lanes := modifyAt (fun l => { l with nest := 255, holds := false }) 2 (modifyAt (fun l => { l with nest := 255, holds := false }) 5 g.lanes) }
def ctxI : LaneCtx := { c := cLane, T := teamIn cLane sceneI, G := groupIn cLane sceneI, L := launchIn cLane sceneI, parts := (groupIn cLane sceneI).active }
def planI : List (Nat × Barge) := valOf (refillPlan ctxI sceneI) []

theorem witness_ItemWordsComplete_exit : LaneReady (.laneExit word) word (laneIn word sceneN) sceneN := ready_word (by decide +kernel)

theorem planI_ends : ends (refillPlan ctxI sceneI) (fun a t => a == planI && (decide (a.length = 2) && (handy cLane t && (launchIn cLane t).detm != 2))
      && decide (t.poison = []) && decide (t.group? 0 0 = some (groupIn cLane sceneI))) = true := by decide +kernel

theorem witness_ItemWordsComplete_refill :
    ∃ s', sceneI.cur = some cLane ∧ sceneI.team? 0 = some (teamIn cLane sceneI) ∧ sceneI.group? 0 0 = some (groupIn cLane sceneI)
      ∧ sceneI.launchOf? 0 = some (launchIn cLane sceneI)
      ∧ (∃ k, (groupIn cLane sceneI).clause = some k ∧ k.header = (launchIn cLane sceneI).refill ∧ (launchIn cLane sceneI).refill ≠ 0xFFFFFFFF)
      ∧ word.guard = 127 ∧ word.neg = false ∧ fNone.legal word (launchIn cLane sceneI).vregs (launchIn cLane sceneI).aregs (launchIn cLane sceneI).tiles = true
      ∧ deepLanes (groupIn cLane sceneI) 1 = [] ∧ (groupIn cLane sceneI).lq.length < 64
      ∧ (groupIn cLane sceneI).outstanding (((List.range (launchIn cLane sceneI).vregs).map fun i => (false, i))
          ++ ((List.range (launchIn cLane sceneI).aregs).map fun i => (true, i))) = false
      ∧ orderedWait sceneI = .ok (0, sceneI)
      ∧ refillPlan ctxI sceneI = .ok (planI, s') ∧ planI.length = 2
      ∧ orderedLog 7 0 s' = .ok ((), s') ∧ s'.poison = [] ∧ s'.group? 0 0 = some (groupIn cLane sceneI) := by
  have h := inHand_of (c := cLane) (s := sceneI) (by decide +kernel)
  obtain ⟨a, s', hm, hp⟩ := of_ends planI_ends
  simp only [Bool.and_eq_true, beq_iff_eq, decide_eq_true_eq] at hp
  obtain ⟨⟨⟨ha, h2, h3, h3'⟩, h4⟩, h5⟩ := hp
  exact ⟨s', h.cur, h.team, h.group, h.launch, by decide +kernel, by decide, by decide, by decide +kernel, by decide +kernel, by decide +kernel, by decide +kernel,
    of_ends_same (by decide +kernel), ha ▸ hm, ha ▸ h2, orderedLog_off h3 h3' 7 0, h4, h5⟩

/-- The same with a lane nested, and with the queue full, the scalar stream waiting for the run under `hang`. -/
def sceneIn : State := sceneI.modGroup 0 0 fun g => { g with lanes := modifyAt (fun l => { l with nest := 1 }) 6 g.lanes }
def sceneIq (hang : Bool) : State := sceneI.modGroup 0 0 fun g => { g with lq := List.replicate 64 0, stallS := if hang then some .runs else none }
/-- Whether RFIL stands in its clause, and whether its fields are as they must be. -/
def inRefill (s : State) : Bool :=
  handy cLane s && ((groupIn cLane s).clause.any fun k => k.header == (launchIn cLane s).refill) && (launchIn cLane s).refill != 0xFFFFFFFF
def legalRefill (w : LaneWord) (s : State) : Bool :=
  w.guard == 127 && !w.neg && fNone.legal w (launchIn cLane s).vregs (launchIn cLane s).aregs (launchIn cLane s).tiles
theorem witness_ItemWordsComplete_refillTraps : handy cLane sceneN = true ∧ inRefill sceneN = false ∧ inRefill sceneI = true
    ∧ (groupIn cLane sceneI).active ≠ [] ∧ legalRefill { word with guard := 0 } sceneI = false ∧ legalRefill word sceneI = true
    ∧ inRefill sceneIn = true ∧ legalRefill word sceneIn = true ∧ deepLanes (groupIn cLane sceneIn) 1 ≠ [] := by decide +kernel
theorem witness_ItemWordsComplete_refillFull : ∀ hang ∈ [true, false], inRefill (sceneIq hang) = true ∧ legalRefill word (sceneIq hang) = true
    ∧ deepLanes (groupIn cLane (sceneIq hang)) 1 = [] ∧ 64 ≤ (groupIn cLane (sceneIq hang)).lq.length ∧ (launchIn cLane (sceneIq hang)).detm = 0
    ∧ (groupIn cLane (sceneIq hang)).stallS = (if hang then some .runs else none) := by decide +kernel

end Sys2Proof.Tests
end

