-- ==== Sys2Proof/Tests/Witness4.lean ====
section
/-! SUPPORT. Concrete states and operands that meet the hypotheses of the statements about lane words that access memory or wait, and about the words of
the matrix engine and the Spire, and pair words. -/

namespace Sys2Proof.Tests

open Sys2Proof Sys2Proof.Machine Sys2Proof.Claims

set_option maxRecDepth 100000
set_option Elab.async false

/-- The lanes in a clause with v0 and v1 as functions of the lane's number; 0x60_0000 and up holds bytes. -/
def sceneU (x y : Nat → Nat) : State :=
  let s : State := { sceneL with mem := cellsWrite 0x600000 ((List.range 64).map fun (i : Nat) => BitVec.ofNat 8 (i + 1)) sceneL.mem }
  s.modGroup 0 0 fun g => { g with lanes := (indexed 0 g.lanes).map fun il => (il.2.setV 0 (x il.1)).setV 1 (y il.1) }
/-- Lane j's v0 holds 0x60_0000 + 8j. -/
def sceneM : State := sceneU (fun j => 0x600000 + 8 * j) fun j => j + 1

def laneReqs (x : LaneCtx) (sp : Bool) (size al : Nat) (acc : Access) (off : Int) : List Req := x.reqs sp size al acc fun l => laneEa sp (l.getV 0) off

/-- The requests pass every check, and every piece is at hand. -/
def reach (x : LaneCtx) (ord clocked : Bool) (reqs : List Req) (s : State) : Bool :=
  ends (checkAccess reqs (fun _ => true) s) fun hits s' => ends (prepare x hits ord clocked s') (fun _ t => t == s') && (hits.all fun h => h.parts.all fun p =>
    s'.atHand x.L.ctx x.T.core p) && !x.asked && s'.poison.isEmpty && s'.group? x.c.team x.c.grp == s.group? x.c.team x.c.grp
theorem reach_of {x : LaneCtx} {ord clocked : Bool} {reqs : List Req} {s : State} (h : reach x ord clocked reqs s = true) :
    ∃ hits s', LanesReach x ord clocked reqs hits s s' ∧ s'.group? x.c.team x.c.grp = s.group? x.c.team x.c.grp := by
  obtain ⟨hits, s', hm, hp⟩ := of_ends h
  simp only [Bool.and_eq_true, Bool.not_eq_true', List.isEmpty_iff, List.all_eq_true, beq_iff_eq] at hp
  obtain ⟨⟨⟨⟨h1, h2⟩, h3⟩, h4⟩, h5⟩ := hp
  refine ⟨hits, s', ⟨hm, ?_, h2, h3, h4⟩, h5⟩
  obtain ⟨a, t, ha, hb⟩ := of_ends h1
  rw [ha, beq_iff_eq.mp hb]

/-! ### Memory -/

def wLd : LaneWord := { word with vd := 2, ty := 7 }
theorem witness_LaneLoadsComplete : ∃ reqs acc ty hits s', loadOf (laneIn wLd sceneM) wLd (.laneLd wLd) = some (reqs, acc, ty)
    ∧ LaneReady (.laneLd wLd) wLd (laneIn wLd sceneM) sceneM ∧ laneAcquires wLd acc = false
    ∧ LanesReach (laneIn wLd sceneM) false false reqs hits sceneM s' ∧ s'.group? 0 0 = sceneM.group? 0 0 := by
  obtain ⟨hits, s', h, hg⟩ := reach_of (x := laneIn wLd sceneM) (ord := false) (clocked := false) (s := sceneM)
    (reqs := ((loadOf (laneIn wLd sceneM) wLd (.laneLd wLd)).getD ([], false, 0)).1) (by decide +kernel)
  exact ⟨_, _, _, hits, s', rfl, laneReady_of (by decide +kernel), by decide +kernel, h, hg⟩

/-- An acquiring load of system scope: its own state once the acquire is done. -/
def wAcq : LaneWord := { word with vd := 2, ty := 7, rm := 1, md := 1 }
def acquired (x : LaneCtx) (w : LaneWord) (reqs : List Req) (stamp : Nat) (s : State) : Bool :=
  ends (orderedWait s) (fun a t => a == stamp && t == s) && ends (checkAccess reqs (fun _ => true) s) fun hits s' =>
    ends (orderedLog 3 stamp s') (fun _ t => t == s') && ends (hereAgent s') fun ag t => t == s'
      && (hits.all fun h => h.parts.all fun p => (s'.acquire ag (scopeOf w)).atHand x.L.ctx x.T.core p) && (s'.acquire ag (scopeOf w)).poison.isEmpty
      && ((s'.acquire ag (scopeOf w)).group? x.c.team x.c.grp).isSome
theorem witness_LaneLoadsComplete_acquire : LaneReady (.laneLd wAcq) wAcq (laneIn wAcq sceneM) sceneM ∧ laneAcquires wAcq false = true
    ∧ reach (laneIn wAcq sceneM) true false ((loadOf (laneIn wAcq sceneM) wAcq (.laneLd wAcq)).getD ([], false, 0)).1 sceneM = true
    ∧ acquired (laneIn wAcq sceneM) wAcq ((loadOf (laneIn wAcq sceneM) wAcq (.laneLd wAcq)).getD ([], false, 0)).1 0 sceneM = true :=
  ⟨laneReady_of (by decide +kernel), by decide, by decide +kernel, by decide +kernel⟩

def wSt : LaneWord := { word with vb := 1, ty := 7 }
def wRel : LaneWord := { word with vb := 1, ty := 7, rm := 2, md := 1 }
theorem witness_LaneStoresComplete : ∃ reqs data rel hits s', storeOf (laneIn wSt sceneM) wSt (.laneSt wSt) = some (reqs, data, rel)
    ∧ LaneReady (.laneSt wSt) wSt (laneIn wSt sceneM) sceneM ∧ LanesReach (laneIn wSt sceneM) rel false reqs hits sceneM s' ∧ rel = false
    ∧ s'.group? 0 0 = sceneM.group? 0 0 := by
  obtain ⟨hits, s', h, hg⟩ := reach_of (x := laneIn wSt sceneM) (ord := false) (clocked := false) (s := sceneM)
    (reqs := ((storeOf (laneIn wSt sceneM) wSt (.laneSt wSt)).getD ([], [], false)).1) (by decide +kernel)
  exact ⟨_, _, _, hits, s', rfl, laneReady_of (by decide +kernel), h, by decide +kernel, hg⟩
theorem witness_LaneStoresComplete_release : LaneReady (.laneSt wRel) wRel (laneIn wRel sceneM) sceneM
    ∧ reach (laneIn wRel sceneM) true false ((storeOf (laneIn wRel sceneM) wRel (.laneSt wRel)).getD ([], [], false)).1 sceneM = true
    ∧ orderedWait sceneM = .ok (0, sceneM)
    ∧ (ends (checkAccess ((storeOf (laneIn wRel sceneM) wRel (.laneSt wRel)).getD ([], [], false)).1 (fun _ => true) sceneM) fun hits s' =>
        ends (orderedLog 4 0 s') fun _ t => t == s' && (lanesStored (laneIn wRel sceneM) false 0
          (hits.zip ((storeOf (laneIn wRel sceneM) wRel (.laneSt wRel)).getD ([], [], false)).2.1) s').1.poison.isEmpty) = true :=
  ⟨laneReady_of (by decide +kernel), by decide +kernel, of_ends_same (by decide +kernel), by decide +kernel⟩

theorem witness_StoreFrames_lane : ∃ reqs data rel hits s', storeOf (laneIn wSt sceneM) wSt (.laneSt wSt) = some (reqs, data, rel)
    ∧ LaneReady (.laneSt wSt) wSt (laneIn wSt sceneM) sceneM ∧ (laneIn wSt sceneM).T.away = false
    ∧ LanesReach (laneIn wSt sceneM) rel false reqs hits sceneM s' ∧ sceneM.memoryWf = true
    ∧ exec (.laneSt wSt) sceneM = .next (after (exec (.laneSt wSt) sceneM)) := by
  obtain ⟨hits, s', h, _⟩ := reach_of (x := laneIn wSt sceneM) (ord := false) (clocked := false) (s := sceneM)
    (reqs := ((storeOf (laneIn wSt sceneM) wSt (.laneSt wSt)).getD ([], [], false)).1) (by decide +kernel)
  exact ⟨_, _, _, hits, s', rfl, laneReady_of (by decide +kernel), by decide +kernel, h, by decide +kernel, next_of (by decide +kernel)⟩

def wAtom : LaneWord := { word with vd := 2, vb := 1, ty := 7 }
/-- A page of 64-bit elements that admits commutative adds at 0xC000_0000 up is named by v0. -/
def sceneAdd : State :=
  let s := sceneU (fun j => 0xC0000000 + 8 * (j / 2)) fun j => j + 1
  { s with mem := cellsWrite 0x200030 (toBytes 8 0xC000201F ++ toBytes 8 2) s.mem }

theorem witness_LaneAtomicsComplete_atom : (atomicOf (laneIn wAtom sceneM) wAtom (.laneAtom .add wAtom)).isSome = true
    ∧ LaneReady (.laneAtom .add wAtom) wAtom (laneIn wAtom sceneM) sceneM ∧ (laneIn wAtom sceneM).L.detm ≠ 1 ∧ orderedWait sceneM = .ok (0, sceneM)
    ∧ reach (laneIn wAtom sceneM) false false (atomReqs (laneIn wAtom sceneM) wAtom) sceneM = true
    ∧ (ends (checkAccess (atomReqs (laneIn wAtom sceneM) wAtom) (fun _ => true) sceneM) fun _ s' => ends (orderedLog 1 0 s') (fun _ t => t == s')
        && ends (hereAgent s') fun _ t => t == s') = true
    ∧ LaneReady (.laneAtom .add wAtom) wAtom (laneIn wAtom (sceneM.modLaunch 0 fun L => { L with detm := 1 })) (sceneM.modLaunch 0 fun L => { L with detm := 1 }) :=
  ⟨by decide +kernel, laneReady_of (by decide +kernel), by decide +kernel, of_ends_same (by decide +kernel), by decide +kernel, by decide +kernel,
    laneReady_of (by decide +kernel)⟩

/-- What RADD needs: its requests, checked, at hand and taking the addends' type. -/
def addable (x : LaneCtx) (w : LaneWord) (ty : Nat) (s : State) : Bool :=
  ends (hereAgent s) fun ag t => t == s && ends ((x.parts.mapM fun j => raddReq ag j (laneEa false (x.a w (x.G.lane j)) (offOf w))) s) fun reqs s' =>
    ends (checkAccess reqs (takesType ty) s') fun hits s'' => ends (reportHits hits s'') (fun _ t => t == s'')
      && (hits.all fun h => !h.waitsHere s'' ag && !h.remote) && (s''.group? x.c.team x.c.grp).isSome && s''.poison.isEmpty
def wRadd : LaneWord := { word with vb := 1, ty := 7 }
theorem witness_LaneAtomicsComplete_add : (addendsOf (laneIn wRadd sceneAdd) wRadd (.radd wRadd)).isSome = true
    ∧ LaneReady (.radd wRadd) wRadd (laneIn wRadd sceneAdd) sceneAdd ∧ wRadd.rm ≠ 2 ∧ addable (laneIn wRadd sceneAdd) wRadd 7 sceneAdd = true :=
  ⟨by decide +kernel, laneReady_of (by decide +kernel), by decide, by decide +kernel⟩

/-- A store of lane 1 to another device is unanswered. -/
def asking (s : State) : State := { s with remotes := [{ Remote.of 0 0 3 0 8 0 with store := some 0, lane := 1 }] }
def wRaddRel : LaneWord := { wRadd with rm := 2, md := 1 }
def wFence : LaneWord := { word with md := 1 }
theorem witness_LaneAtomicsComplete_fence : LaneReady (.laneFence wFence) wFence (laneIn wFence sceneM) sceneM
    ∧ sceneM.laneBusy 0 0 0 (laneIn wFence sceneM).parts = false
    ∧ LaneReady (.laneFence wFence) wFence (laneIn wFence (asking sceneM)) (asking sceneM)
    ∧ (asking sceneM).laneBusy 0 0 0 (laneIn wFence (asking sceneM)).parts = true
    ∧ LaneReady (.radd wRaddRel) wRaddRel (laneIn wRaddRel (asking sceneAdd)) (asking sceneAdd)
    ∧ (asking sceneAdd).laneBusy 0 0 0 (laneIn wRaddRel (asking sceneAdd)).parts = true :=
  ⟨laneReady_of (by decide +kernel), by decide +kernel, laneReady_of (by decide +kernel), by decide +kernel, laneReady_of (by decide +kernel), by decide +kernel⟩

/-! ### Waits -/

def wWaita : LaneWord := { word with vd := 2, vb := 1, ty := 7 }
theorem witness_LaneWaitsComplete_waita : LaneReady (.laneWaita wWaita) wWaita (laneIn wWaita sceneM) sceneM ∧ orderedWait sceneM = .ok (0, sceneM)
    ∧ reach (laneIn wWaita sceneM) true false (laneReqs (laneIn wWaita sceneM) false 8 8 .read 0) sceneM = true ∧ (laneIn wWaita sceneM).G.woken = false
    ∧ (ends (checkAccess (laneReqs (laneIn wWaita sceneM) false 8 8 .read 0) (fun _ => true) sceneM) fun hits s' => ends (orderedLog 5 0 s') (fun _ t => t == s')
        && ends (hereAgent s') fun ag t => t == s' && (let t := s'.acquire ag (scopeOf wWaita)
          (hits.all fun h => h.parts.all fun p => t.atHand (laneIn wWaita sceneM).L.ctx 0 p) && t.cur == some cLane && (t.team? 0).isSome
            && ((t.group? 0 0).any fun X => !X.woken) && t.poison.isEmpty
            && (hits.all fun h => ofBytes (t.readHit 0 h) != (laneIn wWaita sceneM).b wWaita ((laneIn wWaita sceneM).G.lane h.req.lane)))) = true :=
  ⟨laneReady_of (by decide +kernel), of_ends_same (by decide +kernel), by decide +kernel, by decide +kernel, by decide +kernel⟩

/-- Every lane's word equals its compare value. -/
def sceneEq : State := { sceneU (fun j => 0x600000 + 8 * j) fun _ => 0 with mem := sceneL.mem }
theorem witness_LaneWaitsComplete_parks : LaneReady (.laneWaita wWaita) wWaita (laneIn wWaita sceneEq) sceneEq
    ∧ (ends (checkAccess (laneReqs (laneIn wWaita sceneEq) false 8 8 .read 0) (fun _ => true) sceneEq) fun hits s' =>
        ends (hereAgent s') fun ag _ => hits.any fun h => ofBytes ((s'.acquire ag (scopeOf wWaita)).readHit 0 h)
          == (laneIn wWaita sceneEq).b wWaita ((laneIn wWaita sceneEq).G.lane h.req.lane)) = true ∧ (laneIn wWaita sceneEq).c.stream = .lane :=
  ⟨laneReady_of (by decide +kernel), by decide +kernel, rfl⟩

/-- Team slot 3 is set up for 9 arrivals, at phase 7; v0 holds a count or a phase. -/
def sceneBarL (x : Nat → Nat) : State := (sceneU x fun _ => 0).modTeam 0 fun T => { T with bars := T.bars.set 3 ⟨9, 1, 7, true, 0⟩ }
def wBara : LaneWord := { word with vd := 2, ty := 5, imm := 3 }
def wBarw : LaneWord := { word with ty := 5, imm := 3 }
theorem witness_LaneWaitsComplete_barrier : LaneReady (.bara wBara) wBara (laneIn wBara (sceneBarL fun j => j)) (sceneBarL fun j => j)
    ∧ (sceneBarL fun j => j).slot? 0 3 = some ⟨9, 1, 7, true, 0⟩ ∧ orderedWait (sceneBarL fun j => j) = .ok (0, sceneBarL fun j => j)
    ∧ orderedLog 6 0 (sceneBarL fun j => j) = .ok ((), sceneBarL fun j => j)
    ∧ (sceneBarL fun j => j).laneBusy 0 0 0 (laneIn wBara (sceneBarL fun j => j)).parts = false
    ∧ (asking (sceneBarL fun j => j)).laneBusy 0 0 0 (laneIn wBara (sceneBarL fun j => j)).parts = true
    ∧ LaneReady (.barw wBarw) wBarw (laneIn wBarw (sceneBarL fun j => j + 20)) (sceneBarL fun j => j + 20)
    ∧ (∀ j ∈ (laneIn wBarw (sceneBarL fun j => j + 20)).parts,
        (laneIn wBarw (sceneBarL fun j => j + 20)).a wBarw ((laneIn wBarw (sceneBarL fun j => j + 20)).G.lane j) % 2 ^ 32 ≠ (7 : BitVec 32).toNat)
    ∧ LaneReady (.barw wBarw) wBarw (laneIn wBarw (sceneBarL fun j => j)) (sceneBarL fun j => j)
    ∧ (∃ j ∈ (laneIn wBarw (sceneBarL fun j => j)).parts,
        (laneIn wBarw (sceneBarL fun j => j)).a wBarw ((laneIn wBarw (sceneBarL fun j => j)).G.lane j) % 2 ^ 32 = (7 : BitVec 32).toNat) :=
  ⟨laneReady_of (by decide +kernel), by decide +kernel, of_ends_same (by decide +kernel), of_ends_same (by decide +kernel), by decide +kernel, by decide +kernel,
    laneReady_of (by decide +kernel), by decide +kernel, laneReady_of (by decide +kernel), by decide +kernel⟩

/-- The sync word at 0x40, of generation 7, named by every lane. -/
def sceneSyncL (y : Nat) : State := (sceneU (fun _ => 0x40) fun _ => y).modTeam 0 fun T => { T with scratch := cellsWrite 0x48 (toBytes 4 7) [] }
def wSync : LaneWord := { word with vb := 1 }
def syncReqs (s : State) : List Req := (laneIn wSync s).parts.map fun j =>
  { lane := j, scratch := true, ea := (laneIn wSync s).a wSync ((laneIn wSync s).G.lane j) % 2 ^ 32, size := 16, align := 16, acc := .read }
theorem witness_LaneWaitsComplete_sync : ∀ y ∈ [7, 8], LaneReady (.laneSwait wSync) wSync (laneIn wSync (sceneSyncL y)) (sceneSyncL y)
    ∧ checkSync (syncReqs (sceneSyncL y)) (sceneSyncL y) = .ok ((), sceneSyncL y)
    ∧ (∀ j ∈ (laneIn wSync (sceneSyncL y)).parts, (sceneSyncL y).generation 0 0x40 = 7) := by
  intro y hy
  simp only [List.mem_cons, List.not_mem_nil, or_false] at hy
  rcases hy with rfl | rfl <;>
  exact ⟨laneReady_of (by decide +kernel), of_ends_same (by decide +kernel), by decide +kernel⟩

end Sys2Proof.Tests
end

