-- ==== Sys2Proof/Tests/Witness5.lean ====
section
/-! SUPPORT. Concrete states and operands that meet the hypotheses of the statements about the matrix engine, the Spire and pair words. -/

namespace Sys2Proof.Tests

open Sys2Proof Sys2Proof.Machine Sys2Proof.Claims

set_option maxRecDepth 100000
set_option Elab.async false

/-! ### The matrix engine -/

/-- o3 holds 32 rows of 16 elements of f32. -/
def resvF : Reservation := { record := toBytes 4 2048 ++ toBytes 4 10 ++ toBytes 8 0 ++ toBytes 4 32 ++ toBytes 4 16 ++ toBytes 8 0, base := 0, free := 0, cells := [] }
def sceneMma (ms : List Mma) (y : Nat) : State :=
  (sceneU (fun j => 0x600000 + 4096 * j) fun _ => y).modTeam 0 fun T =>
    { T with resv := T.resv.set 3 (some resvF), groups := T.groups.map fun G => { G with mmas := ms, batch := 4 } }
def wMma : LaneWord := { word with vd := 0, va := 8, vb := 3, ty := 10, md := 1, imm := 0x0A000000 }
def wMmaK : LaneWord := { word with vd := 0, va := 8, vb := 3, ty := 10, imm := 0x8A000000 }
/-- An MMA in flight into tile 0, of batch 4. -/
def mmaOf : Mma := { id := 9, tile := 0, o := 3, ta := 10, cb := 0, ks := 0, aregs := [], scales := [], ctA := none, ctB := none, batch := 4, fenced := true, lock := 2 }

/-- A word of the matrix engine in hand. -/
def matrix (i : Instr) (w : LaneWord) (s : State) : Bool :=
  let x := laneIn w s
  handy cLane s && w.guard == 127 && !w.neg && x.parts == x.G.active && x.G.active.length == x.G.lanes.length && !x.parts.isEmpty && s.poison.isEmpty
    && match laneForm 64 i with
      | some (f, w') => decide (w' = w) && f.legal w x.L.vregs x.L.aregs x.L.tiles && !x.G.outstanding ((readRegs i f w).filter fun q => !q.1)
      | none => false
theorem matrix_of {i : Instr} {w : LaneWord} {s : State} (h : matrix i w s = true) : MatrixReady i w (laneIn w s) s := by
  simp only [matrix, Bool.and_eq_true, beq_iff_eq, Bool.not_eq_true', List.isEmpty_iff] at h
  obtain ⟨⟨⟨⟨⟨⟨⟨h1, h2⟩, h3⟩, h4⟩, h5⟩, h6⟩, h7⟩, h8⟩ := h
  have hand := inHand_of h1
  refine ⟨hand.cur, hand.team, hand.group, hand.launch, ⟨h2, h3⟩, h4, ⟨h5, fun h0 => by rw [h0] at h6; simp at h6⟩, ?_, h7⟩
  split at h8
  · rename_i f w' hf
    simp only [Bool.and_eq_true, decide_eq_true_eq, Bool.not_eq_true'] at h8
    obtain ⟨⟨rfl, h9⟩, h10⟩ := h8
    exact ⟨f, hf, h9, h10⟩
  · simp at h8

theorem mmaReady_of {w : LaneWord} (h : mmaK w.ty.toNat (w.bits 28 24) = some 16 ∧ w.vb = 3 ∧ w.ty = 10 ∧ w.bits 28 24 = 10 ∧ mmaTable w = none
      ∧ mmaBlock (laneIn w (sceneMma [] 0)) w = (0, 0)) :
    MmaReady w (laneIn w (sceneMma [] 0)) 16 resvF (readA (laneIn w (sceneMma [] 0)) w) (sceneMma [] 0) := by
  obtain ⟨h1, h2, h3, h4, h5, h6⟩ := h
  refine ⟨h1, ?_, ?_, .inl ⟨by rfl, rfl⟩, ?_, ?_, ?_, ?_, ?_, ?_⟩
  · rw [h2]; exact (by decide +kernel : (laneIn word (sceneMma [] 0)).T.live? 3 = some resvF)
  · rw [h4]; decide
  · rw [h6]; decide
  · rw [h3]; decide
  · intro n hn
    rw [h5] at hn
    rcases hn with hn | hn
    · cases hn
    · revert hn
      rw [show recordTable resvF.record = none by decide]
      simp
  · show (sceneMma [] 0).mmaCount 0 < 16
    decide +kernel
  · simp only [h6, h2]
    show (((laneIn w (sceneMma [] 0)).T.locks).any _) = false
    rw [show (laneIn w (sceneMma [] 0)).T.locks = [] from by rfl]
    rfl
  · right
    rw [show (laneIn w (sceneMma [] 0)).T.locks = [] from by rfl]
    decide

theorem witness_MmaIssues : MatrixReady (.mma wMma) wMma (laneIn wMma (sceneMma [] 0)) (sceneMma [] 0)
    ∧ MmaReady wMma (laneIn wMma (sceneMma [] 0)) 16 resvF (readA (laneIn wMma (sceneMma [] 0)) wMma) (sceneMma [] 0)
    ∧ MatrixReady (.mmaKreg wMmaK) wMmaK (laneIn wMmaK (sceneMma [] 0)) (sceneMma [] 0)
    ∧ MmaReady wMmaK (laneIn wMmaK (sceneMma [] 0)) 16 resvF (readA (laneIn wMmaK (sceneMma [] 0)) wMmaK) (sceneMma [] 0) :=
  ⟨matrix_of (by decide +kernel), mmaReady_of (by decide +kernel), matrix_of (by decide +kernel), mmaReady_of (by decide +kernel)⟩

theorem witness_TileMatrixWordsComplete_batch :
    ControlReady (.mfen word) word cLane (teamIn cLane (sceneMma [] 0)) (groupIn cLane (sceneMma [] 0)) (launchIn cLane (sceneMma [] 0)) (sceneMma [] 0)
    ∧ (groupIn cLane (sceneMma [] 0)).lq.length < 64
    ∧ ControlReady (.mwaitLast word) word cLane (teamIn cLane (sceneMma [] 0)) (groupIn cLane (sceneMma [] 0)) (launchIn cLane (sceneMma [] 0)) (sceneMma [] 0)
    ∧ (groupIn cLane (sceneMma [] 0)).mmas.any (mwaitHolds (groupIn cLane (sceneMma [] 0)) 4) = false
    ∧ ControlReady (.mwaitLast word) word cLane (teamIn cLane (sceneMma [mmaOf] 0)) (groupIn cLane (sceneMma [mmaOf] 0)) (launchIn cLane (sceneMma [mmaOf] 0))
        (sceneMma [mmaOf] 0)
    ∧ (groupIn cLane (sceneMma [mmaOf] 0)).batch = 4 ∧ ¬(1 ≤ ((4 : BitVec 32) - 4).toNat)
    ∧ (groupIn cLane (sceneMma [mmaOf] 0)).mmas.any (mwaitHolds (groupIn cLane (sceneMma [mmaOf] 0)) 4) = true :=
  ⟨control_of (by decide +kernel), by decide +kernel, control_of (by decide +kernel), by decide +kernel, control_of (by decide +kernel), by decide +kernel,
    by decide, by decide +kernel⟩
/-- MWAIT of a clause constant that names a batch to come. -/
def wMwait : LaneWord := { word with va := 3, imm := 0x80000000 }
def sceneAhead : State := (sceneMma [] 0).modGroup 0 0 fun g => { g with run := some ⟨0, Vector.replicate 8 6⟩ }
theorem witness_TileMatrixWordsComplete_ahead :
    ControlReady (.mwait wMwait) wMwait cLane (teamIn cLane sceneAhead) (groupIn cLane sceneAhead) (launchIn cLane sceneAhead) sceneAhead
      ∧ 1 ≤ (BitVec.ofNat 32 ((groupIn cLane sceneAhead).kreg (wMwait.va.toNat % 8)).toNat - (groupIn cLane sceneAhead).batch).toNat
      ∧ (BitVec.ofNat 32 ((groupIn cLane sceneAhead).kreg (wMwait.va.toNat % 8)).toNat - (groupIn cLane sceneAhead).batch).toNat < 2 ^ 31 :=
  ⟨control_of (by decide +kernel), by decide +kernel⟩

def wRnd : LaneWord := { word with ty := 10 }
theorem witness_TileMatrixWordsComplete_tile :
    MatrixReady (.mzero word) word (laneIn word (sceneMma [] 0)) (sceneMma [] 0) ∧ (∀ m ∈ (laneIn word (sceneMma [] 0)).G.mmas, m.tile ≠ word.vd.toNat)
    ∧ MatrixReady (.mzero word) word (laneIn word (sceneMma [mmaOf] 0)) (sceneMma [mmaOf] 0)
    ∧ (∃ m ∈ (laneIn word (sceneMma [mmaOf] 0)).G.mmas, m.tile = word.vd.toNat)
    ∧ MatrixReady (.mstRnd wRnd) wRnd (laneIn wRnd (sceneMma [] 0)) (sceneMma [] 0)
    ∧ reach (laneIn wRnd (sceneMma [] 0)) false false ((tileStoreOf (laneIn wRnd (sceneMma [] 0)) wRnd (.mstRnd wRnd)).getD ([], [])).1 (sceneMma [] 0) = true :=
  ⟨matrix_of (by decide +kernel), by decide +kernel, matrix_of (by decide +kernel), by decide +kernel, matrix_of (by decide +kernel), by decide +kernel⟩

def wAddT : LaneWord := { word with md := 3 }
/-- One lane's row is 32 elements of a page of accumulator images. -/
def sceneMst : State :=
  let s := sceneU (fun j => 0xC0000000 + 4096 * j) fun _ => 0
  let s : State := { s with mem := cellsWrite 0x200030 (toBytes 8 0xC000101F ++ toBytes 8 2) s.mem }
  s.modGroup 0 0 fun g => { g with lanes := g.lanes.take 1 }
def mstAdds (s : State) : List (Nat × Int × List (List Byte)) := (laneIn wAddT s).parts.flatMap fun l => (List.range 32).map fun (k : Nat) =>
  (l, laneEa false ((laneIn wAddT s).a wAddT ((laneIn wAddT s).G.lane l)) (offOf wAddT) + 128 * k, [(tileElem (laneIn wAddT s).G wAddT.vb.toNat l k).bytes])
def mstReach (s : State) : Bool :=
  ends (checkAccess ((laneIn wAddT s).reqs false 4096 128 .radd fun l => laneEa false ((laneIn wAddT s).a wAddT l) (offOf wAddT)) (takesType tyAcc) s)
    fun _ u => ends (hereAgent u) fun ag t => t == u
      && ends (((mstAdds s).mapM fun ad => raddReq ag ad.1 ad.2.1) u) fun reqs s' => ends (checkAccess reqs (takesType tyAcc) s') fun hits s'' =>
        ends (reportHits hits s'') (fun _ t => t == s'') && (hits.all fun h => !h.waitsHere s'' ag && !h.remote) && (s''.group? 0 0).isSome
theorem witness_TileMatrixWordsComplete_add : MatrixReady (.mstAdd wAddT) wAddT (laneIn wAddT sceneMst) sceneMst
    ∧ (∀ m ∈ (laneIn wAddT sceneMst).G.mmas, m.tile ≠ wAddT.vb.toNat) ∧ wAddT.rm ≠ 2 ∧ mstReach sceneMst = true :=
  ⟨matrix_of (by decide +kernel), by decide +kernel, by decide, by decide +kernel⟩

/-- The words that wait: for room in the queue, for a batch that writes the tile, for a store of the lane that is not performed. -/
def sceneQFull (m : Nat) : State :=
  let s := (sceneMma [] 0).modGroup 0 0 fun g => { g with lq := List.replicate 64 0 }
  { s with launches := s.launches.map fun l => { l with detm := m } }
/-- Lane 0 with a store to a peer that is not performed. -/
def asking0 (s : State) : State := { s with remotes := [{ Remote.of 0 0 3 0 8 0 with store := some 0, lane := 0 }] }
def wRel2 : LaneWord := { wAddT with rm := 2, md := 1 }
theorem witness_TileMatrixWordsComplete_waits :
    (ControlReady (.mfen word) word cLane (teamIn cLane (sceneQFull 0)) (groupIn cLane (sceneQFull 0)) (launchIn cLane (sceneQFull 0)) (sceneQFull 0)
      ∧ 64 ≤ (groupIn cLane (sceneQFull 0)).lq.length ∧ ¬((launchIn cLane (sceneQFull 0)).detm = 2 ∨ (groupIn cLane (sceneQFull 0)).stallS = some .runs))
    ∧ (ControlReady (.mfen word) word cLane (teamIn cLane (sceneQFull 2)) (groupIn cLane (sceneQFull 2)) (launchIn cLane (sceneQFull 2)) (sceneQFull 2)
      ∧ 64 ≤ (groupIn cLane (sceneQFull 2)).lq.length ∧ (launchIn cLane (sceneQFull 2)).detm = 2)
    ∧ (MatrixReady (.mstAdd word) word (laneIn word (sceneMma [mmaOf] 0)) (sceneMma [mmaOf] 0)
      ∧ (∃ m ∈ (laneIn word (sceneMma [mmaOf] 0)).G.mmas, m.tile = word.vb.toNat))
    ∧ (MatrixReady (.mstAdd wRel2) wRel2 (laneIn wRel2 (asking0 sceneMst)) (asking0 sceneMst)
      ∧ (∀ m ∈ (laneIn wRel2 (asking0 sceneMst)).G.mmas, m.tile ≠ wRel2.vb.toNat)
      ∧ (asking0 sceneMst).laneBusy 0 0 (laneIn wRel2 (asking0 sceneMst)).T.core (laneIn wRel2 (asking0 sceneMst)).parts = true) :=
  ⟨⟨control_of (by decide +kernel), by decide +kernel, by decide +kernel⟩, ⟨control_of (by decide +kernel), by decide +kernel, by decide +kernel⟩,
    ⟨matrix_of (by decide +kernel), by decide +kernel⟩, matrix_of (by decide +kernel), by decide +kernel, by decide +kernel⟩

end Sys2Proof.Tests
end

