-- ==== Sys2Proof/Tests/Witness6.lean ====
section
/-! SUPPORT. Concrete states and operands that meet the hypotheses of the statements about the Spire's words and pair words. -/

namespace Sys2Proof.Tests

open Sys2Proof Sys2Proof.Machine Sys2Proof.Claims

set_option maxRecDepth 100000
set_option Elab.async false

/-! ### The Spire -/

/-- A record of one entry at 0x400, of depth 16, over f32 hidden values and f32 rows. -/
def recOne (n : Nat) : SpireRec :=
  { k := 4, nan := 0, depth := 16, hfmt := 10, wfmt := 10, block := 0, labels := 0, spill := noSpill, room := 0, rows := n, mask := 0
    ids := List.replicate 8 0, logits := List.replicate 8 0, norm := Acc.zero, heap := (List.range n).map fun i => (0x3F800000 - i, i) }
/-- The descriptors: a new record; rows to project; an extraction into the scratchpad; a backward pass. -/
def vpjsD : List Byte := toBytes 4 4 ++ toBytes 4 16 ++ toBytes 1 10 ++ toBytes 1 10 ++ toBytes 2 0 ++ toBytes 4 noSpill ++ toBytes 48 0
def vpjrD : List Byte := toBytes 8 0x600000 ++ toBytes 8 64 ++ toBytes 4 4 ++ toBytes 4 0 ++ toBytes 4 0x1000 ++ toBytes 36 0
def vpjxD : List Byte := toBytes 8 0x1000 ++ toBytes 8 1 ++ toBytes 48 0
def vpjbD : List Byte := toBytes 8 0x600000 ++ toBytes 8 64 ++ toBytes 4 4 ++ toBytes 4 0 ++ toBytes 4 0x1000 ++ toBytes 4 0 ++ toBytes 16 0 ++ toBytes 4 0x2000 ++ toBytes 12 0
/-- v0 names the record at 0x400, v1 what stands at 0x80. -/
def sceneSp (d : List Byte) : State :=
  (sceneL.modTeam 0 fun T => { T with scratch := cellsWrite 0x80 d (cellsWrite 0x400 (recOne 1).bytes []) }).modGroup 0 0 fun g =>
    { g with lanes := g.lanes.map fun l => (l.setV 0 0x400).setV 1 0x80 }
/-- The same with a second record at 0x800. -/
def sceneSp2 : State :=
  (sceneL.modTeam 0 fun T => { T with scratch := cellsWrite 0x800 (recOne 2).bytes (cellsWrite 0x400 (recOne 1).bytes []) }).modGroup 0 0 fun g =>
    { g with lanes := g.lanes.map fun l => (l.setV 0 0x400).setV 1 0x800 }
def wSp : LaneWord := { word with vb := 1 }
/-- What a Spire word reads and checks at issue, in a state. -/
def spireChecks (i : Instr) : Bool × Bool × (LaneCtx → Nat → Nat → M SpireIssue) :=
  (spireWord i).getD (false, false, fun _ _ _ s => .ok ({ kind := .vpjs, desc := [], locks := [] }, s))
def one (s : State) : LaneCtx := { laneIn wSp s with parts := (laneIn wSp s).parts.take 1 }
/-- Whether it issues at once. -/
def spireIssues (i : Instr) (s : State) : Bool :=
  ready i wSp s && ends (spireOffsets (one s) wSp (spireChecks i).1 (spireChecks i).2.1 s) fun ab s' => ends ((spireChecks i).2.2 (one s) ab.1 ab.2 s') fun y s'' =>
    decide (s''.queued 0 true < 4) && (teamIn cLane s).admits y.locks && !s''.laneBusy 0 0 (one s).T.core (one s).parts && s''.poison.isEmpty
theorem spire_of {i : Instr} {s : State} (h : spireIssues i s = true) : LaneReady i wSp (laneIn wSp s) s
    ∧ ∃ a b y s' s'', spireOffsets (one s) wSp (spireChecks i).1 (spireChecks i).2.1 s = .ok ((a, b), s')
      ∧ (spireChecks i).2.2 (one s) a b s' = .ok (y, s'') ∧ s''.queued 0 true < 4 ∧ (teamIn cLane s).admits y.locks = true
        ∧ s''.laneBusy 0 0 (one s).T.core (one s).parts = false ∧ s''.poison = [] := by
  simp only [spireIssues, Bool.and_eq_true] at h
  obtain ⟨ab, s', h1, h2⟩ := of_ends h.2
  obtain ⟨y, s'', h3, h4⟩ := of_ends h2
  simp only [Bool.and_eq_true, decide_eq_true_eq, List.isEmpty_iff, Bool.not_eq_true'] at h4
  exact ⟨laneReady_of h.1, ab.1, ab.2, y, s', s'', h1, h3, h4.1.1.1, h4.1.1.2, h4.1.2, h4.2⟩

theorem witness_SpireWordsIssue : spireIssues (.vpjs wSp) (sceneSp vpjsD) = true ∧ spireIssues (.vpjr wSp) (sceneSp vpjrD) = true
    ∧ spireIssues (.vpjm wSp) sceneSp2 = true ∧ spireIssues (.vpjx wSp) (sceneSp vpjxD) = true ∧ spireIssues (.vpjb wSp) (sceneSp vpjbD) = true := by
  decide +kernel
/-- The same with the Spire's queue full, or with a command that writes the record. -/
def cmdSp (n : Nat) : Cmd :=
  { id := n, kind := .vpjs, grp := 0, flag := none, desc := vpjsD, arg := 0, srec := 0x400, tag := none, lpc := 0, pos := 0, retry := [], held := [], dropped := 0
    waiting := 0, got := [], faulted := false, stamp := 0, scope := 1, core := 0 }
def sceneSpFull : State := (sceneSp vpjsD).modTeam 0 fun T => { T with cmds := (List.range 4).map cmdSp }
def sceneSpLock : State := (sceneSp vpjsD).modTeam 0 fun T => { T with cmds := [cmdSp 0], locks := spanLocks 0 0 [padSpan 0x400 288 true] }
theorem witness_SpireWordsIssue_wait :
    (ready (.vpjs wSp) wSp sceneSpFull = true ∧ (ends (spireOffsets (one sceneSpFull) wSp false false sceneSpFull) fun ab s' =>
      ends ((spireChecks (.vpjs wSp)).2.2 (one sceneSpFull) ab.1 ab.2 s') fun _ s'' => decide (4 ≤ s''.queued 0 true)) = true)
    ∧ (ready (.vpjs wSp) wSp sceneSpLock = true ∧ (ends (spireOffsets (one sceneSpLock) wSp false false sceneSpLock) fun ab s' =>
      ends ((spireChecks (.vpjs wSp)).2.2 (one sceneSpLock) ab.1 ab.2 s') fun y s'' =>
        decide (s''.queued 0 true < 4) && !(teamIn cLane sceneSpLock).admits y.locks) = true) := by
  decide +kernel

/-- The same with a store of the lane to another device that is unanswered. -/
def sceneSpBusy : State := { sceneSp vpjsD with remotes := [{ Remote.of 0 0 3 0 8 0 with store := some 0, lane := 0 }] }
theorem witness_SpireWordsIssue_fence : ready (.vpjs wSp) wSp sceneSpBusy = true ∧ (ends (spireOffsets (one sceneSpBusy) wSp false false sceneSpBusy) fun ab s' =>
    ends ((spireChecks (.vpjs wSp)).2.2 (one sceneSpBusy) ab.1 ab.2 s') fun y s'' => decide (s''.queued 0 true < 4) && (teamIn cLane sceneSpBusy).admits y.locks
      && s''.laneBusy 0 0 (one sceneSpBusy).T.core (one sceneSpBusy).parts) = true := by
  decide +kernel

/-! ### Pair words -/

/-- ADD and FMUL, in slots 0 and 1; and a pair whose destinations lie in one bank, which may not be paired. -/
def pairOk : PairWord := { slot0 := ⟨0x01, 15, false, 4, 5, 6, 4, 0⟩, mid := false, slot1 := ⟨0x12, 15, false, 9, 10, 11, 10, 0⟩ }
def pairBad : PairWord := { slot0 := ⟨0x12, 15, false, 5, 5, 6, 10, 0⟩, mid := false, slot1 := ⟨0x12, 15, false, 9, 10, 11, 10, 0⟩ }
def slotIn (o : ShortOp) (s : State) : LaneCtx := { laneIn word s with parts := slotLanes (groupIn cLane s) o }
theorem witness_PairAndReservedWords : ∃ s' s'', InHand cLane (teamIn cLane sceneL) (groupIn cLane sceneL) (launchIn cLane sceneL) (contextIn cLane sceneL)
      (regsIn sceneL) sceneL
    ∧ (groupIn cLane sceneL).active ≠ [] ∧ (slotIn pairOk.slot0 sceneL).parts ≠ [] ∧ pairOk.pairable = true ∧ pairBad.pairable = false
    ∧ pairOk.slot0.legal 32 4 = true ∧ pairOk.slot1.legal 32 4 = true ∧ pairBad.slot0.legal 32 4 = true ∧ pairBad.slot1.legal 32 4 = true
    ∧ slotChecks (slotIn pairOk.slot0 sceneL) pairOk.slot0 sceneL = .ok ((), sceneL) ∧ slotChecks (slotIn pairOk.slot1 sceneL) pairOk.slot1 sceneL = .ok ((), sceneL)
    ∧ slotFx (slotIn pairOk.slot0 sceneL) pairOk.slot0 sceneL = .ok ((), s') ∧ slotFx (slotIn pairOk.slot1 sceneL) pairOk.slot1 s' = .ok ((), s'') := by
  obtain ⟨_, s', h0, h1⟩ := of_ends (m := slotFx (slotIn pairOk.slot0 sceneL) pairOk.slot0 sceneL)
    (p := fun _ t => ends (slotFx (slotIn pairOk.slot1 sceneL) pairOk.slot1 t) fun _ _ => true) (by decide +kernel)
  obtain ⟨_, s'', h2, -⟩ := of_ends h1
  exact ⟨s', s'', inHand_of (by decide +kernel), by decide +kernel, by decide +kernel, by decide, by decide, by decide, by decide, by decide, by decide,
    of_ends_same (by decide +kernel), of_ends_same (by decide +kernel), h0, h2⟩
theorem witness_PairAndReservedWords_idle : ∃ s : State, (groupIn cLane s).active = [] ∧ handy cLane s = true :=
  ⟨sceneL.modGroup 0 0 fun g => { g with lanes := g.lanes.map fun l => { l with nest := 1 } }, by decide +kernel, by decide +kernel⟩
/-- The word of zeros, and a word of a reserved opcode with no guard, with a guard that is not legal, and with a guard that no lane passes. -/
def reservedOf (guard : Nat) (neg : Bool) : BitVec 96 := BitVec.ofNat 96 (0x7F * 2 ^ 88 + guard * 2 ^ 77 + (if neg then 2 ^ 76 else 0))
theorem witness_PairAndReservedWords_reserved : (0 : BitVec 96).extractLsb' 88 7 = 0 ∧ (groupIn cLane sceneL).active ≠ []
    ∧ (laneFields (reservedOf 127 true)).guardOk = false
    ∧ (∃ j ∈ (groupIn cLane sceneL).active, ((groupIn cLane sceneL).lane j).passes (laneFields (reservedOf 127 false)).guard.toNat
        (laneFields (reservedOf 127 false)).neg = true)
    ∧ (reservedOf 3 false).extractLsb' 88 7 ≠ 0 ∧ (laneFields (reservedOf 3 false)).guardOk = true
    ∧ ∀ j ∈ (groupIn cLane sceneL).active, ((groupIn cLane sceneL).lane j).passes (laneFields (reservedOf 3 false)).guard.toNat
        (laneFields (reservedOf 3 false)).neg = false := by
  decide +kernel
theorem witness_PairAndReservedWords_slot : ∃ i fx f w, pairOk.slot0.long = some i ∧ integerFx i = some fx ∧ laneForm 64 i = some (f, w) ∧ sceneL.poison = []
    ∧ (slotIn pairOk.slot0 sceneL).parts ≠ [] :=
  ⟨_, _, _, _, rfl, rfl, rfl, by decide +kernel, by decide +kernel⟩

end Sys2Proof.Tests
end

