-- ==== Sys2Proof/Tests/Witness7.lean ====
section
/-! SUPPORT. Concrete states and operands that meet the hypotheses of the statements about the events of groups and engines, and about a step. -/

namespace Sys2Proof.Tests

open Sys2Proof Sys2Proof.Machine Sys2Proof.Claims

set_option maxRecDepth 100000
set_option Elab.async false

/-- The records that the events of the first group act on. -/
def has (s : State) : Bool :=
  (s.team? 0).isSome && (s.group? 0 0).isSome && (s.launchOf? 0).isSome && !(groupIn cLane s).gone
theorem has_of {s : State} (h : has s = true) : s.team? 0 = some (teamIn cLane s) ∧ s.group? 0 0 = some (groupIn cLane s)
    ∧ s.launchOf? 0 = some (launchIn cLane s) ∧ (groupIn cLane s).gone = false := by
  simp only [has, Bool.and_eq_true, Bool.not_eq_true'] at h
  exact ⟨some_getD h.1.1.1 _, some_getD h.1.1.2 _, some_getD h.1.2 _, h.2⟩

/-! ### Runs, clauses, accesses in flight -/

def runOf : Run := ⟨0, Vector.replicate 8 5⟩
/-- No run in progress, one enqueued; a run in progress and no clause, its header at word 0 of the lane section, with some fields. -/
def sceneRun : State := scene.modGroup 0 0 fun g => { g with run := none, clause := none, tags := [], runs := [runOf] }
def sceneClause (hdr : Nat) (fl : BitVec 8) (target : BitVec 32) : State :=
  let s := scene.modGroup 0 0 fun g => { g.setFlag 2 fl with run := some ⟨target, Vector.replicate 8 5⟩, clause := none, tags := [] }
  { s with mem := cellsWrite 0x500000 (toBytes 12 hdr) s.mem }
def laneOf (s : State) : State := { s with cur := some cLane }

theorem witness_GroupEventsComplete_run : has sceneRun = true ∧ (groupIn cLane sceneRun).run = none ∧ (groupIn cLane sceneRun).runs = [runOf] := by
  decide +kernel
/-- A header that waits for flag 2 and raises flag 3; one word long. -/
def waitHdr : Nat := 2 ^ 82 + 2 ^ 79 + 3 * 2 ^ 75
theorem witness_GroupEventsComplete_clause : has (sceneClause waitHdr 0 0) = true ∧ (groupIn cLane (sceneClause waitHdr 0 0)).clause = none
    ∧ (ends (headerAt 0 (laneOf (sceneClause waitHdr 0 0))) fun h _ => h.any fun h => ((List.range 12).all fun n => !h.wait.getLsbD n
        || (groupIn cLane (sceneClause waitHdr 0 0)).flag n == 0) && h.fa == some 3 && h.fb.isNone && decide ((groupIn cLane (sceneClause waitHdr 0 0)).flag 3 < 255)) = true
    ∧ (ends (headerAt 0 (laneOf (sceneClause waitHdr 1 0))) fun h _ => h.any fun h => h.wait.getLsbD 2
        && decide ((groupIn cLane (sceneClause waitHdr 1 0)).flag 2 ≠ 0)) = true
    ∧ (ends (headerAt 0 (laneOf (sceneClause 1 0 0))) fun h _ => h.isNone) = true := by
  decide +kernel
/-- A load and a store in flight with nothing outstanding, an MMA in flight. -/
def sceneLs : State := sceneL.modGroup 0 0 fun g => { g with
  loads := [{ id := 7, tag := 0, dsts := [⟨1, false, 2, 7, toBytes 8 9⟩], waiting := 0, nacks := [], blocks := false }]
  stores := [{ id := 8, tag := 0, waiting := 0, nacks := [] }] }
theorem witness_GroupEventsComplete_land : has sceneLs = true ∧ sceneLs.poison = []
    ∧ ((groupIn cLane sceneLs).loads.find? fun l => l.id == 7 && !l.blocks && l.waiting == 0).isSome = true
    ∧ ((groupIn cLane sceneLs).stores.find? fun x => x.id == 8 && x.waiting == 0).isSome = true := by
  decide +kernel
theorem witness_GroupEventsComplete_mma : has (sceneMma [mmaOf] 0) = true ∧ (sceneMma [mmaOf] 0).poison = []
    ∧ ((groupIn cLane (sceneMma [mmaOf] 0)).mmas.find? fun x => x.id == 9) = some mmaOf
    ∧ ((groupIn cLane (sceneMma [mmaOf] 0)).mmas.find? fun x => x.tile == 0) = some mmaOf ∧ (teamIn cLane (sceneMma [mmaOf] 0)).live? 3 = some resvF := by
  decide +kernel

/-! ### Parks, stalls, watchdogs -/

/-- A park of a BARW whose phase has passed, and of a WAITA whose time is up. -/
def parkBar : Park := ⟨.lane, 0xE2, 0, false, 3, 6, 0, [], [], .barw wBarw, 0, none, 0, false, false⟩
def parkWaita : Park := ⟨.lane, 0xE0, 1, false, 0x600000, 0, 0, [], [], .laneWaita wWaita, 0, some 0, 0, true, false⟩
def scenePark (p : Park) : State := (sceneBarL fun j => if p.isWaita then 0x600000 + 8 * j else j + 20).modGroup 0 0 fun g => { g with park := some p }
def wokenOf (p : Park) : State :=
  { (scenePark p).modGroup 0 0 fun X => X.afterPark (launchIn cLane (scenePark p)).detm p with cur := some ⟨0, 0, p.stream⟩ }
theorem witness_GroupEventsComplete_park : has (scenePark parkBar) = true ∧ (groupIn cLane (scenePark parkBar)).park = some parkBar ∧ parkBar.isWaita = false
    ∧ (teamIn cLane (scenePark parkBar)).state = .running ∧ (teamIn cLane (scenePark parkBar)).away = false ∧ (teamIn cLane (scenePark parkBar)).stop = false
    ∧ (teamIn cLane (scenePark parkBar)).live = true ∧ (waitAgain parkBar.word (wokenOf parkBar)).goesOn = true := by
  decide +kernel
theorem witness_GroupEventsComplete_timeout : has (scenePark parkWaita) = true ∧ (groupIn cLane (scenePark parkWaita)).park = some parkWaita
    ∧ parkWaita.isWaita = true ∧ parkWaita.written = true ∧ parkWaita.deadline = some 0 ∧ 0 ≤ (scenePark parkWaita).tick
    ∧ (waitAgain parkWaita.word (wokenOf parkWaita)).goesOn = true := by
  decide +kernel
theorem witness_GroupEventsComplete_stopped : has ((scenePark parkBar).modTeam 0 fun T => { T with stop := true }) = true
    ∧ (teamIn cLane ((scenePark parkBar).modTeam 0 fun T => { T with stop := true })).stop = true := by
  decide +kernel
/-- A WAITA under mode 2 that watches a peer's word. -/
def parkPolls : Park := { parkWaita with written := false, polls := true }
theorem witness_GroupEventsComplete_polls : has { scenePark parkPolls with launches := (scenePark parkPolls).launches.map fun l => { l with detm := 2 } } = true
    ∧ (groupIn cLane (scenePark parkPolls)).park = some parkPolls ∧ parkPolls.isWaita = true ∧ parkPolls.polls = true := by
  decide +kernel
/-- Streams stalled, since tick 0, at tick 2^60. -/
def sceneStall (l sc : Option Stall) : State := { sceneL.modGroup 0 0 fun g => { g with stallL := l, stallS := sc } with tick := 2 ^ 60 }
theorem witness_GroupEventsComplete_ordered :
    (has (sceneStall (some .ordered) none) = true ∧ (groupIn cLane (sceneStall (some .ordered) none)).stallL = some .ordered
      ∧ (sceneStall (some .ordered) none).isLeast 0 probeLaunch 0 0 (groupIn cLane (sceneStall (some .ordered) none)).ric.toNat = true)
    ∧ (has (sceneStall none (some .ordered)) = true ∧ (groupIn cLane (sceneStall none (some .ordered))).stallS = some .ordered
      ∧ (sceneStall none (some .ordered)).isLeast 0 probeLaunch 0 0 (groupIn cLane (sceneStall none (some .ordered))).ric.toNat = true) := by
  decide +kernel
theorem witness_GroupEventsComplete_hang : has (sceneStall (some .flag) (some .pop)) = true ∧ (teamIn cLane (sceneStall (some .flag) (some .pop))).live = true
    ∧ (teamIn cLane (sceneStall (some .flag) (some .pop))).away = false ∧ (teamIn cLane (sceneStall (some .flag) (some .pop))).state = .running
    ∧ (groupIn cLane (sceneStall (some .flag) (some .pop))).park = none
    ∧ (sceneStall (some .flag) (some .pop)).watchdog 1 < (sceneStall (some .flag) (some .pop)).tick - (groupIn cLane (sceneStall (some .flag) (some .pop))).ricSeen
    ∧ Stall.hangs .flag = true ∧ Stall.hangs .pop = true := by
  decide +kernel
theorem witness_GroupEventsComplete_handler : has { sceneH with tick := 2 ^ 60 } = true ∧ (teamIn cLane { sceneH with tick := 2 ^ 60 }).live = true
    ∧ (teamIn cLane { sceneH with tick := 2 ^ 60 }).state = .handling
    ∧ ({ sceneH with tick := 2 ^ 60 } : State).watchdog 1 < 2 ^ 60 - (teamIn cLane { sceneH with tick := 2 ^ 60 }).handler.since := by
  decide +kernel
/-- A dump in progress of which two writes are made. -/
def sceneDumping (d : Option (Nat × Nat)) : State :=
  { sceneH.modTeam 0 fun T => { T with state := .dumping, handler := { T.handler with dump := d } } with tick := 2 ^ 60 }
theorem witness_GroupEventsComplete_dump : ∀ d ∈ [none, some (0x600000, 2)], has (sceneDumping d) = true ∧ (teamIn cLane (sceneDumping d)).live = true
    ∧ (teamIn cLane (sceneDumping d)).state = .dumping ∧ (teamIn cLane (sceneDumping d)).handler.dump = d
    ∧ (sceneDumping d).watchdog 1 < 2 ^ 60 - (teamIn cLane (sceneDumping d)).handler.since := by
  decide +kernel

/-! ### Engines -/

/-- A command in flight: its kind, pieces taken up, pieces to take up again. -/
def cmdOf (k : CmdKind) (pos : Nat) (retry : List Nat) : Cmd := { inFlight cScalar (teamIn cScalar sceneCpy) cpyIssue 4 0 with kind := k, pos := pos, retry := retry }
def sceneCmd (c : Cmd) : State := sceneCpy.modTeam 0 fun T => { T with cmds := [c] }
/-- A command in hand. -/
def cmdIn (c : Cmd) (s : State) : Bool := s.cmd? 0 4 == some c && !c.faulted && (s.agentOf? 0).isSome

theorem witness_EngineEventsComplete_piece : cmdIn (cmdOf .cpy 0 [3]) (sceneCmd (cmdOf .cpy 0 [3])) = true ∧ (cmdOf .cpy 0 [3]).retry = 3 :: []
    ∧ cmdIn (cmdOf .cpy 0 []) (sceneCmd (cmdOf .cpy 0 [])) = true ∧ (cmdOf .cpy 0 []).pos < (cmdOf .cpy 0 []).pieces ∧ (cmdOf .cpy 0 []).canTake = true := by
  decide +kernel
theorem witness_EngineEventsComplete_done : ∀ k ∈ [CmdKind.cpy, .puts, .get, .radd, .gath, .part], cmdIn (cmdOf k (cmdOf k 0 []).pieces []) (sceneCmd (cmdOf k (cmdOf k 0 []).pieces [])) = true
    ∧ (cmdOf k (cmdOf k 0 []).pieces []).held = [] ∧ (cmdOf k (cmdOf k 0 []).pieces []).waiting = 0
    ∧ ((sceneCmd (cmdOf k (cmdOf k 0 []).pieces [])).writeScratch 0 ((cmdOf k 0 []).srec + 56) (toBytes 8 0) 0).cmd? 0 4 = some (cmdOf k (cmdOf k 0 []).pieces []) := by
  decide +kernel
theorem witness_EngineEventsComplete_pieces : ∀ k ∈ [CmdKind.cpy, .puts, .get, .radd, .gath, .part],
    (cmdOf k (cmdOf k 0 []).pieces []).pieces ≤ (cmdOf k (cmdOf k 0 []).pieces []).pos := by
  decide +kernel
theorem witness_EngineEventsComplete_fault : has (sceneCmd (cmdOf .cpy 0 [])) = true ∧ (groupIn cLane (sceneCmd (cmdOf .cpy 0 []))).killed = false
    ∧ ((sceneCmd (cmdOf .cpy 0 [])).team? 0).any (fun T => T.state == .ended) = false
    ∧ (groupIn cLane ((sceneCmd (cmdOf .cpy 0 [])).modGroup 0 0 fun g => { g with killed := true })).killed = true := by
  decide +kernel
/-- A VPJS at the head of the Spire's queue. -/
def spireAfter : State := after (exec (.vpjs wSp) (sceneSp vpjsD))
def spireCmd : Cmd := ((spireAfter.cmd? 0 0).getD (cmdSp 0))
theorem witness_EngineEventsComplete_spire : ((spireAfter.cores[0]?).bind fun y => y.spire.head?) = some (0, 0) ∧ spireAfter.cmd? 0 0 = some spireCmd
    ∧ spireCmd.faulted = false ∧ spireCmd.waiting = 0 ∧ spireCmd.held = [] ∧ (spireAfter.agentOf? 0).isSome = true := by
  decide +kernel

end Sys2Proof.Tests
end

