-- ==== Sys2Proof/Tests/Witness8.lean ====
section
/-! SUPPORT. Concrete states and operands that meet the hypotheses of the statements about collectives, the fabric, memory, the host and a step. -/

namespace Sys2Proof.Tests

open Sys2Proof Sys2Proof.Machine Sys2Proof.Claims

set_option maxRecDepth 100000
set_option Elab.async false

/-! ### Collectives -/

/-- The collective of one tile on a ring of `n` devices, this one at position `p`, its tile as given, and a PLVAL on it. -/
def ringOf (n p : Nat) : Comm := { handle := 5, n := n, pos := p, canal := 0, next := (p + 1) % n, prev := (p + n - 1) % n, tag := 1, issued := 1 }
def tileOf (landed : Nat) (exp : Option Int) : Tile := { Tile.start 0 with landed := landed, exp := exp }
def collOn (n p op : Nat) (x : Tile) : Coll := { plclOf with comm := ringOf n p, op := op, tiles := [x] }
def viewCmd (pos : Nat) : Cmd := { inFlight cScalar (teamIn cScalar sceneCpy) { kind := .plval, flag := some 3, desc := [], arg := 0, srec := 0x100, scope := 1, locks := [] } 4 0 with pos := pos }
def sceneColl (n p op : Nat) (x : Tile) (pos : Nat) : State :=
  (scene.modTeam 0 fun T => { T with colls := [collOn n p op x], cmds := [viewCmd pos] }).modDome fun d =>
    { d with podcfg := BitVec.ofNat 64 (2 ^ 31 + n * 2 ^ 16 + p) }
def keyOf : PlaneKey := ⟨0, 5, 0, 0⟩
/-- A header that agrees. -/
def hdrOf (n p op : Nat) (final : Bool) : HeaderBody :=
  { op := op, fmt := plclOf.fmt, planes := plclOf.planes, count := plclOf.count, ringSize := n, podTag := 1, first := 0, last := n - 1
    sender := (p + n - 1) % n, next := p, mismatch := none, exp := some 0, flags := 0, final := final }

theorem witness_EngineEventsComplete_view : cmdIn (viewCmd 0) (sceneColl 1 0 1 (tileOf 2 (some 0)) 0) = true ∧ (viewCmd 0).kind = .plval
    ∧ ((sceneColl 1 0 1 (tileOf 2 (some 0)) 0).canal? 0).isSome = true
    ∧ ((sceneColl 1 0 1 (tileOf 2 (some 0)) 0).team? 0).bind (fun T => T.collAt 0x100) = some (collOn 1 0 1 (tileOf 2 (some 0)))
    ∧ (collOn 1 0 1 (tileOf 2 (some 0))).tile ((collOn 1 0 1 (tileOf 2 (some 0))).firstTile + 0) = some (tileOf 2 (some 0))
    ∧ (match (sceneColl 1 0 1 (tileOf 2 (some 0)) 0).writeLoc (canalAgent probeContext) 0 (.global 0x608000) (List.replicate 1024 0) 0 with
      | (.ok _, _) => true
      | _ => false) = true ∧ cmdIn (viewCmd 1) (sceneColl 1 0 1 (tileOf 2 (some 0)) 1) = true := by
  decide +kernel

theorem witness_EngineEventsComplete_noView : cmdIn (viewCmd 0) (sceneColl 1 0 1 (tileOf 0 none) 0) = true
    ∧ (collOn 1 0 1 (tileOf 0 none)).tile ((collOn 1 0 1 (tileOf 0 none)).firstTile + 0) = some (tileOf 0 none) ∧ (tileOf 0 none).exp = none := by
  decide +kernel

theorem witness_CollectiveEventsComplete_header :
    ((sceneColl 3 1 0 (tileOf 0 none) 0).collOf? keyOf = some (0, collOn 3 1 0 (tileOf 0 none)) ∧ (collOn 3 1 0 (tileOf 0 none)).odd = false
      ∧ natBits (sceneColl 3 1 0 (tileOf 0 none) 0).dome.podcfg.toNat 9 0 = 1 ∧ (collOn 3 1 0 (tileOf 0 none)).mismatch 1 (hdrOf 3 1 0 true) = none
      ∧ (collOn 3 1 0 (tileOf 0 none)).mismatch 1 (hdrOf 3 1 0 false) = none ∧ (hdrOf 3 1 0 true).mismatch = none ∧ (collOn 3 1 0 (tileOf 0 none)).op ≠ 2
      ∧ (match (sceneColl 3 1 0 (tileOf 0 none) 0).sourceTile 0 (collOn 3 1 0 (tileOf 0 none)) 0 with
        | (.vals vs, _) => vs.length == 256
        | _ => false) = true)
    ∧ (sceneColl 3 0 0 (tileOf 0 none) 0).collOf? keyOf = some (0, collOn 3 0 0 (tileOf 0 none))
      ∧ formedHere { hdrOf 3 0 0 false with sender := 1024 } = true ∧ (hdrOf 3 0 0 false).final = false := by
  decide +kernel
/-- Headers that show the device before to differ, this one to differ, and a maximum that position 0 is handed back without being one. -/
theorem witness_CollectiveEventsComplete_differs : (collOn 3 1 0 (tileOf 0 none)).mismatch 1 { hdrOf 3 1 0 true with next := 2 } = some 0
    ∧ (collOn 3 1 0 (tileOf 0 none)).mismatch 1 { hdrOf 3 1 0 true with planes := 3 } = some 1
    ∧ (collOn 3 0 0 (tileOf 0 none)).mismatch 0 (hdrOf 3 0 0 false) = some 2 ∧ formedHere (hdrOf 3 1 0 true) = false := by
  decide +kernel

/-- Of an all-gather tile: a header that comes round to a device that does not own it, to its owner, and a final one; and the owner's own, the exponent
fixed. -/
theorem witness_CollectiveEventsComplete_gathered :
    ((collOn 3 1 2 (tileOf 0 none)).mismatch 1 (hdrOf 3 1 2 false) = none ∧ (collOn 3 1 2 (tileOf 0 none)).owner 0 ≠ 1)
    ∧ ((collOn 3 0 2 (tileOf 0 none)).mismatch 0 (hdrOf 3 0 2 false) = none ∧ (collOn 3 0 2 (tileOf 0 none)).owner 0 = 0
      ∧ (collOn 3 0 2 (tileOf 0 none)).tile 0 = some (tileOf 0 none))
    ∧ ((collOn 3 1 2 (tileOf 0 none)).mismatch 1 (hdrOf 3 1 2 true) = none ∧ (hdrOf 3 1 2 true).final = true)
    ∧ ((sceneColl 3 0 2 (tileOf 0 (some 0)) 0).collOf? keyOf = some (0, collOn 3 0 2 (tileOf 0 (some 0))) ∧ (collOn 3 0 2 (tileOf 0 (some 0))).comm.stray 0 = false
      ∧ (match (sceneColl 3 0 2 (tileOf 0 (some 0)) 0).sourceTile 0 (collOn 3 0 2 (tileOf 0 (some 0))) 0 with
        | (.vals vs, _) => vs.length == 256
        | _ => false) = true) := by
  decide +kernel
/-- An entry of one device that names another as the next. -/
theorem witness_CollectiveEventsComplete_stray : ({ ringOf 1 0 with next := 2 } : Comm).stray 0 = true ∧ (ringOf 3 0).stray 0 = false := by decide

/-- The owner of the tile at position 0, and a device that does not own it, the exponent fixed. -/
def fixedTile : Tile := tileOf 0 (some 0)
def ownIn (p : Nat) : Option (List Nat) × State := (sceneColl 3 p 0 fixedTile 0).ownBits 0 (collOn 3 p 0 fixedTile) 0 1 0
theorem witness_CollectiveEventsComplete_count : (collOn 3 0 0 fixedTile).tile 0 = some fixedTile ∧ fixedTile.canc = false ∧ fixedTile.fixed = none
    ∧ fixedTile.exp = some 0 ∧ (ownIn 0).1.isSome = true ∧ (ownIn 1).1.isSome = true ∧ (collOn 3 0 0 fixedTile).owner 0 = 0 ∧ (collOn 3 1 0 fixedTile).owner 0 ≠ 1
    ∧ 1 = fixedTile.landed + 1 ∧ (collOn 3 0 0 fixedTile).broken = false ∧ 1 = fixedTile.gathers.length + 1 := by
  decide +kernel
/-- The tile after its next plane: `l` planes have landed before it. -/
def countedAt (l : Nat) : Option Tile :=
  let s := sceneColl 3 0 1 (tileOf l (some 0)) 0
  let own := s.ownBits 0 (collOn 3 0 1 (tileOf l (some 0))) 0 (l + 1) 0
  let sum := ((List.replicate 256 0).zip (own.1.getD [])).map fun ab => ab.1 + ab.2
  let u := (((own.2.modTile 0 0 0 fun x => { x with counts := x.counts ++ [sum], landed := x.landed + 1 }).touch 0 0 0).checkWant 0 0 0 0)
  (u.coll? 0 0).bind fun c => c.tile 0
theorem witness_CollectiveEventsComplete_owner : (countedAt 0).any (fun y => y.landed != plclOf.planes) = true
    ∧ (countedAt (plclOf.planes - 1)).any (fun y => y.landed == plclOf.planes && y.fixed.isNone) = true ∧ (collOn 3 0 1 fixedTile).op ≠ 0
    ∧ (collOn 3 0 1 fixedTile).owner 0 = 0 := by
  decide +kernel
/-- A PLCX of the first group that waits for the tile's answer. -/
def sceneAsk : State :=
  (sceneColl 3 0 0 fixedTile 0).modGroup 0 0 fun g => { g with cancel := some { num := 0, coll := 0, tiles := [0], count := 1, refused := [] } }
theorem witness_CollectiveEventsComplete_answer : (sceneAsk.team? 0).bind (fun T => T.asker 0 0 1) = some 0 ∧ (collOn 3 0 0 fixedTile).comm.pos = 0
    ∧ sceneAsk.collOf? keyOf = some (0, collOn 3 0 0 fixedTile) := by
  decide +kernel
theorem witness_CollectiveEventsComplete_mismatch : ({ hdrOf 3 1 0 false with mismatch := some 0 } : HeaderBody).mismatch = some 0
    ∧ (sceneColl 3 1 0 (tileOf 0 none) 0).collOf? keyOf = some (0, collOn 3 1 0 (tileOf 0 none)) := by
  decide +kernel

/-! ### The fabric -/

/-- A heap of 64 KiB at offset 0 of device 0's window, mapped onto 0x60_0000 up. -/
def reqOf (tag : BitVec 16) (off : Nat) : FabricReq := ⟨0, 3, tag, off, .read 8, 9, false⟩
def sceneHeap : State :=
  let s : State := { scene with contexts := [{ probeContext with podTag := some 1, heapLen := 65536 }] }
  { s.modDome fun d => { d with podcfg := BitVec.ofNat 64 (2 ^ 31 + 4 * 2 ^ 16) } with
    mem := cellsWrite 0x180000 (toBytes 8 1 ++ toBytes 8 0x220000) (cellsWrite 0x220000 (toBytes 8 0x1F ++ toBytes 8 2) s.mem) }
def resolvesTo (r : FabricReq) (s : State) : Nat :=
  match s.resolve r with
  | (.inl n, _) => n
  | (.inr none, _) => 100
  | (.inr (some _), _) => 200
theorem witness_FabricEventsComplete_request : resolvesTo (reqOf 2 0) sceneHeap = 1 ∧ resolvesTo (reqOf 1 65536) sceneHeap = 2
    ∧ resolvesTo (reqOf 1 0) sceneHeap = 200
    ∧ resolvesTo (reqOf 1 0) (sceneHeap.modDome fun d => { d with dir := (List.range 4).map fun i => ⟨i, true, false⟩ }) = 100 := by
  decide +kernel
/-- One request in flight: a scalar load's, a lane load's, a store's, a command's. -/
def remoteOf : Remote := { Remote.of 0 0 3 0 8 (-1#32) with id := 9, rd := true }
def sceneRemote (x : Remote) : State := { sceneCmd (cmdOf .get 1 []) with remotes := [x] }
theorem witness_FabricEventsComplete_answer : ((sceneRemote remoteOf).remotes.find? fun y => y.id == 8) = none
    ∧ (∀ x ∈ [{ remoteOf with sreg := some (.scalar, 1, 7) }, { remoteOf with load := some (0, 0, 0) }, { remoteOf with store := some 0 }, { remoteOf with cmd := some 4 }],
      ((sceneRemote x).remotes.find? fun y => y.id == 9) = some x)
    ∧ (sceneRemote { remoteOf with cmd := some 4 }).coll? 0 4 = none ∧ (sceneRemote { remoteOf with cmd := some 4 }).cmd? 0 4 = some (cmdOf .get 1 [])
    ∧ ((sceneRemote { remoteOf with cmd := some 4 }).agentOf? 0).isSome = true ∧ (cmdOf .get 1 []).faulted = false ∧ (cmdOf .get 1 []).kind.isSpire = false := by
  decide +kernel
theorem witness_FabricEventsComplete_parked : sceneHeap.behindParked (reqOf 1 0) = false ∧ (sceneHeap.park (reqOf 1 0)).behindParked (reqOf 1 4) = true
    ∧ sceneHeap.behindParked (reqOf 1 65536) = false ∧ sceneHeap.behindParked (reqOf 2 0) = false
    ∧ (sceneHeap.modDome fun d => { d with dir := (List.range 4).map fun i => ⟨i, true, false⟩ }).behindParked (reqOf 1 0) = false := by
  decide +kernel
theorem witness_FabricEventsComplete_coll :
    ({ sceneColl 3 0 0 fixedTile 0 with remotes := [{ remoteOf with cmd := some 0 }] } : State).coll? 0 0 = some (collOn 3 0 0 fixedTile) := by
  decide +kernel
theorem witness_FabricEventsComplete_link : scene.dome.canals[0]? = some Canal.start
    ∧ (∀ T ∈ scene.teams, T.colls = []) ∧ (sceneColl 3 0 0 fixedTile 0).collOf? keyOf = some (0, collOn 3 0 0 fixedTile)
    ∧ (collOn 3 0 0 fixedTile).ended = false ∧ (collOn 3 0 0 fixedTile).broken = false := by
  decide +kernel

/-! ### Memory and the host -/

def tlbiGo : Word := 0xC000000000000000
theorem witness_MemoryEventsComplete_tlbi : scene.dome.tlbi.getLsbD 63 = false ∧ tlbiGo.getLsbD 63 = true
    ∧ (scene.modDome fun d => { d with tlbi := tlbiGo }).dome.tlbi.getLsbD 63 = true ∧ scene.dome.sweep.getLsbD 31 = true := by
  decide +kernel
/-- A device in service whose HBM the host may reach. -/
def sceneHost : State := scene.modPlat fun p => { p with phase := .ready, hdm := [(0, 2 ^ 40)] }
theorem witness_MemoryEventsComplete_host : sceneHost.hostServed = true ∧ sceneHost.hostMay 0x700000 8 true = true ∧ Memory.wf sceneHost.mem = true
    ∧ 0x700000 + 8 ≤ 2 ^ 40 ∧ scene.hostServed = false ∧ sceneHost.hostMay 0x100000 8 false = false
    ∧ ((sceneHost.hostTake 0xE000).heldLine (128 * 0xE000) 128).isSome = true ∧ sceneHost.hostMay 0x700000 8 false = true
    ∧ sceneHost.plat.port1Off = false ∧ (sceneHost.modPlat fun p => { p with port1Off := true }).plat.port1Off = true := by
  decide +kernel
theorem witness_MemoryEventsComplete_plain : (∀ p ∈ sceneHost.partials, p.meets false 0x700000 8 = false)
    ∧ (∀ C ∈ ({ sceneHost with contexts := [] } : State).contexts, C.leavesIn sceneHost 0x700000 8 = []) ∧ sceneHost.apart = []
    ∧ ({ sceneHost with contexts := [] } : State).hostMay 0x700000 8 false = true := by
  decide +kernel
/-- The leaves that the sweeper reaches, none of whose lines the host holds; and with a held one. -/
def sweptHeld (s : State) : List Nat := ((s.contexts.flatMap fun C => (C.leaves s).map (·.1)).eraseDups).filterMap fun a => s.heldLine a 8
theorem witness_MemoryEventsComplete_sweep : sweptHeld scene = [] ∧ sweptHeld (scene.hostTake (0x200000 / 128)) ≠ [] := by decide +kernel
theorem witness_MemoryEventsComplete_power : (∀ T ∈ scene.teams, T.live = false ∨ T.away = true ∨ T.core ≠ 5)
    ∧ (∃ T ∈ scene.teams, T.live = true ∧ T.away = false ∧ T.core = 0) ∧ scene.dome.ring = none ∧ (∀ k < 5, scene.dome.lost.getD k 0 = 0)
    ∧ (scene.modDome fun d => { d with trace := some (0x800000, 64) }).dome.trace = some (0x800000, 64)
    ∧ (probeGroup.lanes.headD (Lane.start 0 0)).a.all (fun a => a.seg.length == 10 && a.cnt.length == 10
      && decide (-32768 < (a.cnt.getD 9 0).toInt) && decide ((a.cnt.getD 9 0).toInt < 32767)) = true := by
  decide +kernel

/-- One bit of a word has flipped, and two bits of one word of the L2. -/
def sceneUpset : State := (scene.upset (.l2 0x700000) [3, 4]).upset (.l2 0x700080) [5]
theorem witness_MemoryEventsComplete_upsets :
    ((sceneUpset.upsets.find? fun x => x.1 == .l2 0x700000).map fun x => !correctable (.l2 0x700000) x.2) = some true
    ∧ ((sceneUpset.upsets.find? fun x => x.1 == .l2 0x700080).map fun x => !correctable (.l2 0x700080) x.2) = some false
    ∧ (sceneUpset.upsets.find? fun x => x.1 == .l2 0x700100) = none ∧ sceneUpset.dome.ring = none
    ∧ sceneUpset.dome.held.length < 256 ∧ (sceneUpset.context? (((sceneUpset.unitContext (.l2 0x700000)).map (·.id)).getD 0)).any (·.conf) = false ∧ scene.partials = []
    ∧ ({ sceneHost with poison := [.l2 (128 * 0xE000)] } : State).hostServed = true
    ∧ (probeGroup.tiles.headD []).all (fun a => a.seg.length == 10 && a.cnt.length == 10
      && decide (-32768 < (a.cnt.getD 9 0).toInt) && decide ((a.cnt.getD 9 0).toInt < 32767)) = true := by
  decide +kernel

/-- An accumulator of a lane, and one of a tile. -/
theorem witness_MemoryEventsComplete_resolution : ((scene.group? 0 0).any fun G => (G.lanes[0]?).any (fun l => (l.a[1]?).any fun a =>
      a.seg.length == 10 && a.cnt.length == 10) && (G.tiles[0]?).any fun as => (as[2]?).any fun a => a.seg.length == 10 && a.cnt.length == 10) = true := by
  decide +kernel

/-! ### Registers and the platform -/

theorem witness_RegisterEventsComplete : quotaBad (0x1000100010001000 : Word).toNat = false ∧ quotaBad (0 : Word).toNat = true
    ∧ (1 ≤ natBits (0x0000000100000001 : Word).toNat 19 0 ∧ natBits (1000000 : Word).toNat 19 0 ≤ 1000000 ∧ 1000000 < natBits (1000001 : Word).toNat 19 0
      ∧ 1 ≤ natBits (0x0000000100000001 : Word).toNat 47 32)
    ∧ (natBits (0x888 : Word).toNat 3 0 ≤ 8 ∧ natBits (0x888 : Word).toNat 7 4 ≤ 8 ∧ natBits (0x888 : Word).toNat 11 8 ≤ 8 ∧ 8 < natBits (9 : Word).toNat 3 0)
    ∧ (natBits (0x80000001 : Word).toNat 23 0 ≠ 0 ∧ (0x80000000 : Word).getLsbD 31 = true ∧ natBits (0x80000000 : Word).toNat 23 0 = 0)
    ∧ (natBits (0x840003FF : Word).toNat 9 0 < natBits (0x840003FF : Word).toNat 26 16 ∧ natBits (0x840003FF : Word).toNat 26 16 ≤ 1024
      ∧ 1024 < natBits (0x07FF0000 : Word).toNat 26 16 ∧ (∀ C ∈ scene.contexts, C.podTag = none) ∧ ∃ C ∈ sceneHeap.contexts, C.podTag ≠ none)
    ∧ (({ scene with contexts := [{ probeContext with conf := true }] } : State).contexts.any (·.conf)) = true
    ∧ ((scene.modDome fun d => { d with stoptick := 5 }).tick < (scene.modDome fun d => { d with stoptick := 5 }).dome.stoptick.toNat
      ∧ scene.dome.stoptick.toNat ≤ scene.tick ∧ ∀ C ∈ scene.contexts, C.conf = false)
    ∧ (400 ≤ natBits (0x0000019046000800 : Word).toNat 43 32 ∧ natBits (0x0000019046000800 : Word).toNat 43 32 ≤ 3600 ∧ 70 ≤ natBits (0x0000019046000800 : Word).toNat 31 24
      ∧ natBits (0x0000019046000800 : Word).toNat 31 24 ≤ 105 ∧ natBits (0x0000019046000800 : Word).toNat 11 8 ≤ 8)
    ∧ 7 ∉ [0x1F018, 0x2000, 0x2010, 0x2018, 0x2020, 0x4000, 0x5000, 0x1F000, 0x1F010, 0x1F020, 0x3000, 0x3008, 0x3010, 0x3018] := by
  decide +kernel

/-- An image of an empty body, its digest in its header. -/
def imageOf : Image := ⟨List.replicate 32 0 ++ (sha384 []) ++ List.replicate 176 0, []⟩
def scenePhase (p : Phase) : State := scene.modPlat fun q => { q with phase := p, loading := some imageOf, liveDue := some 0 }
theorem witness_PlatformEventsComplete_reset : (scene.plat.phase ≠ .draining ∧ scene.plat.phase ≠ .held) ∧ (scenePhase .draining).plat.phase = .draining
    ∧ (scenePhase .held).plat.phase = .held ∧ scene.plat.phase.takes = none ∧ (scenePhase .rootLoad).plat.phase.takes = some 1
    ∧ (scenePhase .opsLoad).plat.phase.takes = some 2 := by
  decide +kernel
theorem witness_PlatformEventsComplete_image : imageOf.good = true ∧ (scenePhase .rootLoad).plat.loading = some imageOf
    ∧ (0 : BitVec 32).toNat = imageOf.body.length ∧ (0 : BitVec 32).toNat % 4096 = 0 ∧ ([] : List Byte).length ≤ 4096
    ∧ (imageOf.body ++ []).length = fld imageOf.header 12 4 ∧ ({ imageOf with header := List.replicate 256 0 } : Image).good = false
    ∧ scene.plat.loading = none ∧ (scenePhase .live).plat.liveDue = some 0 ∧ 0 ≤ (scenePhase .live).tick ∧ (scenePhase .ready).plat.phase.late = true
    ∧ scene.plat.phase.late = false := by
  decide +kernel
/-- The generator of the curve, as a key. -/
def ecGx : Nat := (ecG.getD (0, 0)).1
def ecGy : Nat := (ecG.getD (0, 0)).2
def curveKey : List Byte := [4] ++ (toBytes 48 ecGx).reverse ++ (toBytes 48 ecGy).reverse
theorem witness_PlatformEventsComplete_conf : ecDecode curveKey = some (ecGx, ecGy) ∧ ecOn ecGx ecGy = true ∧ curveKey.length = 97
    ∧ sceneHost.dome.stopctl.getLsbD 0 = false ∧ sceneHost.ready = true ∧ ecDecode [] = none
    ∧ ({ scene with contexts := [{ probeContext with conf := true }] } : State).context? 0 = some { probeContext with conf := true } := by
  decide +kernel

end Sys2Proof.Tests
end

