-- ==== Sys2Proof/Tests/Witness9.lean ====
section
/-! SUPPORT. Concrete states and operands that meet the hypotheses of the statements about scheduling, decoding and a step. -/

namespace Sys2Proof.Tests

open Sys2Proof Sys2Proof.Machine Sys2Proof.Claims

set_option maxRecDepth 100000
set_option Elab.async false

/-! ### Scheduling -/

/-- Context 0 with one queue of four entries at 0x62_0000; its next entry names the record of the launch witness. -/
def sceneQ (entry : List Byte) : State :=
  let s := sceneR 8
  { s with mem := cellsWrite 0x620000 entry s.mem, contexts := s.contexts.map fun C => { C with queues := [⟨0x620000, 4, 0, 0⟩] } }
def entryOf : List Byte := toBytes 8 0x600000 ++ toBytes 1 1 ++ toBytes 23 0
def queueOk (s : State) (p : Context → Queue → List Byte → Bool) : Bool :=
  (s.context? 0).any fun C => (C.queues[0]?).any fun q => p C q (cellsRead s.mem (q.base + 32 * (if q.size = 0 then 0 else q.next % q.size)) 32)
theorem witness_SchedulingEventsComplete_accept : (sceneQ entryOf).ready = true
    ∧ queueOk (sceneQ entryOf) (fun C _ e => fld e 8 1 == 1 && allZero (e.drop 9) && (takenLaunch ((sceneQ entryOf).takeRecord C (fld e 0 8)).1).isSome) = true
    ∧ queueOk (sceneQ (toBytes 32 0)) (fun _ _ e => fld e 8 1 != 1) = true := by
  decide +kernel
/-- The same with a record that is refused, with one whose page is not resident, and before the firmware is ready. -/
def sceneQ9 : State := { sceneQ entryOf with mem := cellsWrite 0x600000 (recordBytes 9) (sceneQ entryOf).mem }
def sceneQA : State := { sceneQ entryOf with mem := cellsWrite 0x600000 (recordBytes 8) (cellsWrite 0x200000 (toBytes 8 0x22) (sceneQ entryOf).mem) }
theorem witness_SchedulingEventsComplete_refuse :
    queueOk sceneQ9 (fun C _ _ =>
      let r := sceneQ9.takeRecord C 0x600000
      taken r.1 == some 2 && (r.2.vread C.agent 0x600000 256).1.any fun d => fld d 112 8 % 64 == 0) = true
    ∧ queueOk { sceneQ entryOf with plat := scene.plat } (fun _ _ _ => true) = true ∧ ({ sceneQ entryOf with plat := scene.plat } : State).ready = false
    ∧ waits ((sceneRA.takeRecord (contextIn cScalar sceneRA) 0x600000).1) = true := by
  decide +kernel

/-- Two launches of one partition; the first launch's team fills the scratchpad of core 0, and has been parked since tick 0. -/
def sceneCrowd (tick : Nat) : State :=
  { (scenePark parkBar).modTeam 0 (fun T => { T with size := 4194304 }) with
    launches := [{ probeLaunch with spad := 4194304 }, { probeLaunch with placed := 0 }], tick := tick, plat := { scene.plat with phase := .ready } }
/-- The second launch alone on the core. -/
def scenePlace : State := { sceneCrowd 0 with teams := [] }
theorem witness_SchedulingEventsComplete_place : scenePlace.launches[1]? = some { probeLaunch with placed := 0 } ∧ scenePlace.ready = true
    ∧ scenePlace.othersFirst 1 { probeLaunch with placed := 0 } = false ∧ scenePlace.mateFirst 1 0 = false ∧ (scenePlace.planFor 1).isSome = true := by
  decide +kernel
theorem witness_SchedulingEventsComplete_end : ({ scene with teams := [] } : State).launchOver 0 probeLaunch = true
    ∧ ({ scene with teams := [] } : State).launches[0]? = some probeLaunch ∧ probeLaunch.ended = false := by
  decide +kernel
/-- Whether a swap-eligible team is wanted, once its cluster is marked. -/
def wantedAfter (s : State) : Bool := ((s.cluster 0 false).foldl (fun (x : State) u => x.modTeam u fun T => { T with elig := true }) s).wanted 0
theorem witness_SchedulingEventsComplete_update : (scenePhase .live).plat.phase = .live ∧ ((scenePhase .live).launchOf? 0).isSome = true
    ∧ ((scenePhase .live).team? 0).any (fun T => !T.stop) = true
    ∧ (((scenePhase .live).modTeam 0 fun T => { T with stop := true }).team? 0).any (fun T => T.stop) = true := by
  decide +kernel
theorem witness_SchedulingEventsComplete_swap : (sceneCrowd 0).swappable 0 = false ∧ (sceneCrowd (2 ^ 40)).swappable 0 = true
    ∧ wantedAfter (sceneCrowd (2 ^ 40)) = true ∧ ({ sceneCrowd (2 ^ 40) with launches := [probeLaunch] } : State).swappable 0 = true
    ∧ wantedAfter { sceneCrowd (2 ^ 40) with launches := [probeLaunch] } = false ∧ (scene.launchOf? 0).isSome = true := by
  decide +kernel
/-- A team that was swapped out, its core free. -/
def sceneAway : State := { scene.modTeam 0 (fun T => { T with away := true }) with plat := { scene.plat with phase := .ready } }
theorem witness_SchedulingEventsComplete_restore : (sceneAway.team? 0).any (fun T => T.live && T.away) = true ∧ (sceneAway.launchOf? 0).isSome = true
    ∧ (sceneAway.contextOf? 0).isSome = true ∧ sceneAway.ready = true ∧ (sceneAway.seatsAt 0 0).isSome = true ∧ sceneAway.givesWay 0 = false
    ∧ sceneAway.othersFirst 0 probeLaunch = false ∧ sceneAway.mateFirst 0 0 = false := by
  decide +kernel
theorem witness_SchedulingEventsComplete_dome : scene.dome.stopctl.getLsbD 1 = false ∧ sceneAway.plat.phase = .ready ∧ scene.dome.stopctl.getLsbD 1 = false
    ∧ (scene.modDome fun d => { d with cntsnap := 0x8000000000000000 }).dome.cntsnap.getLsbD 63 = true ∧ scene.cores[0]?.isSome = true
    ∧ ((scene.modDome fun d => { d with stopctl := 2 }).dome.stopctl.getLsbD 1 = true ∧ scene.plat.phase ≠ .draining)
    ∧ (scenePhase .held).plat.phase = .held ∧ (scenePhase .held).dome.stopctl.getLsbD 1 = false
    ∧ scene.dome.tracectl.getLsbD 0 = false ∧ (scene.modDome fun d => { d with stopctl := 1 }).dome.stopctl.getLsbD 0 = true
    ∧ (scene.modDome fun d => { d with stopctl := 1 }).dome.stoptick.toNat ≤ scene.tick := by
  decide +kernel
/-- A current above its limit. -/
def sceneHot : State := scene.modPlat fun p => { p with current := 4000 }
theorem witness_SchedulingEventsComplete_hot : natBits sceneHot.plat.clkctl.toNat 43 32 < sceneHot.plat.current ∧ natBits sceneHot.plat.clkctl.toNat 11 8 < 16 := by
  decide +kernel

/-- A quiet device, throttled, that has been quiet for 99 evaluations or for fewer; and one that is neither hot nor cool. -/
def sceneCool (quiet current : Nat) : State :=
  scene.modPlat fun p => { p with current := current, quiet := quiet, junction := 20, clkctl := p.clkctl ||| 0x13 }
theorem witness_SchedulingEventsComplete_cool : (∀ s ∈ [sceneCool 99 0, sceneCool 5 0], ¬(natBits s.plat.clkctl.toNat 43 32 < s.plat.current
      ∨ natBits s.plat.clkctl.toNat 31 24 < s.plat.junction ∨ s.plat.thermN = false)
      ∧ 10 * s.plat.current ≤ 9 * natBits s.plat.clkctl.toNat 43 32 ∧ s.plat.junction + 5 ≤ natBits s.plat.clkctl.toNat 31 24 ∧ s.plat.thermN = true)
    ∧ ¬(natBits (sceneCool 5 3400).plat.clkctl.toNat 43 32 < (sceneCool 5 3400).plat.current)
    ∧ ¬(10 * (sceneCool 5 3400).plat.current ≤ 9 * natBits (sceneCool 5 3400).plat.clkctl.toNat 43 32) := by
  decide +kernel
/-- Samples are on, and the ring has room: the one group's sample joins the trace. -/
def sceneTraced : State := scene.modDome fun d => { d with tracectl := 0x21, trace := some (0x800000, 64), traceFree := 64 }
theorem witness_SchedulingEventsComplete_sample : sceneTraced.dome.tracectl.getLsbD 0 = true ∧ sceneTraced.dome.tracectl.getLsbD 5 = true
    ∧ (firstGroup sceneTraced 0).isSome = true ∧ (sampled sceneTraced sceneTraced 0).dome.tracePos = 1 := by
  decide +kernel

/-! ### Decoding and a step -/

theorem witness_EncodeDecodeAgree : (Instr.add 5 6 7).wellFormed = true ∧ (Instr.add 5 6 7).carrier = .scalar ∧ (Instr.cmpi .lt 1 8 4).carrier = .scalar
    ∧ (Instr.fma { word with vd := 8 }).wellFormed = true ∧ (Instr.fma { word with vd := 8 }).carrier = .lane
    ∧ (decodeScalar 0x76000000 0).toBool = true ∧ (decodeScalar 0x36090002 4).toBool = true ∧ (decodeLane 0x110FE08090A0B50000000000).toBool = true := by
  decide +kernel

/-- The device with one word placed; the state a turn's stream issues from. -/
def placed (nbits w : Nat) : State := State.reset.withFetchWord nbits w
def stand (st : Stream) (s : State) : State := { ({ s with agenda := [] } : State).settleApart fun x => x.isOf ⟨0, 0, st⟩ with cur := some ⟨0, 0, st⟩ }
def fetched (st : Stream) (va len : Nat) (s : State) (p : List Byte → Bool) : Bool := ends (fetchBytes va len (stand st s)) fun b _ => p b
theorem scalarAt_of {st : Stream} {i : Instr} {s : State} (hr : ((stand st s).scalarRegs?).any (fun r => r.pc == 0x400000) = true)
    (hs : sectionOf ⟨0, 0, st⟩ (stand st s) = some (0x400000, 4096))
    (hf : ends (fetchBytes 0x400000 4 (stand st s)) (fun b _ => !isWide (BitVec.ofNat 32 (ofBytes b))
      && (match decodeScalar (BitVec.ofNat 32 (ofBytes b)) 0 with | .ok j => decide (j = i) | .error _ => false)) = true) :
    ∃ s', ScalarAt ⟨0, 0, st⟩ i (stand st s) s' := by
  obtain ⟨b, t, hm, hp⟩ := of_ends hf
  simp only [Bool.and_eq_true, Bool.not_eq_true'] at hp
  cases hr' : (stand st s).scalarRegs? with
  | none => rw [hr'] at hr; simp at hr
  | some r =>
    rw [hr'] at hr
    have hpc : r.pc = 0x400000 := by simpa using hr
    have hd : decodeScalar (BitVec.ofNat 32 (ofBytes b)) 0 = .ok i := by
      have := hp.2
      split at this
      · rename_i j hj; rw [hj, of_decide_eq_true this]
      · simp at this
    exact ⟨t, .short r 0x400000 4096 b _ t hr' hs (by rw [hpc]; decide) (by rw [hpc]; decide) (by rw [hpc]; decide) (by rw [hpc]; exact hm) hp.1 (.inl hd)⟩

theorem witness_StepRunsDecoded_scalar : (placed 32 0x76000000).agenda = [.scalar 0 0]
    ∧ ({ placed 32 0x76000000 with agenda := [] } : State).scalarMay 0 0 = true
    ∧ ∃ s', ScalarAt ⟨0, 0, .scalar⟩ .nop (stand .scalar (placed 32 0x76000000)) s' :=
  ⟨by decide +kernel, by decide +kernel, scalarAt_of (by decide +kernel) (by decide +kernel) (by decide +kernel)⟩

theorem witness_StepRunsDecoded_issue : ({ scene with agenda := [.issue, .scalar 0 0] } : State).agenda = .issue :: [.scalar 0 0]
    ∧ ({ scene with agenda := [.driver (.dropContext 7)] } : State).agenda = .driver (.dropContext 7) :: [] := ⟨rfl, rfl⟩

theorem witness_StepRunsDecoded_handler : (placed 32 0xD2000000).agenda = [.handler 0]
    ∧ ((placed 32 0xD2000000).team? 0).any (fun T => T.handler.trap.any fun x => x.grp == 0) = true
    ∧ ({ placed 32 0xD2000000 with agenda := [] } : State).handlerMay 0 = true
    ∧ ∃ s', ScalarAt ⟨0, 0, .handler⟩ .eret (stand .handler (placed 32 0xD2000000)) s' :=
  ⟨by decide +kernel, by decide +kernel, by decide +kernel, scalarAt_of (by decide +kernel) (by decide +kernel) (by decide +kernel)⟩

/-- A reserved word; a word outside the section; a page that is not resident. -/
theorem witness_StepRunsDecoded_reserved : fetched .scalar 0x400000 4 (placed 32 0x52000000) (fun b =>
      !isWide (BitVec.ofNat 32 (ofBytes b)) && !(decodeScalar (BitVec.ofNat 32 (ofBytes b)) 0).toBool) = true
    ∧ fetched .lane 0x50000C 12 (placed 96 0) (fun b => !(decodeLane (BitVec.ofNat 96 (ofBytes b))).toBool) = true := by
  decide +kernel
def placedOut : State := (placed 32 0x76000000).modGroup 0 0 fun g => { g with regs := g.regs.goto 0x401000 }
theorem witness_StepRunsDecoded_outside : ({ placedOut with agenda := [] } : State).scalarMay 0 0 = true ∧ NoWord ⟨0, 0, .scalar⟩ (stand .scalar placedOut)
    ((stand .scalar placedOut).takeTrap { cause := 0x10, taddr := ((stand .scalar placedOut).scalarRegs?.getD (ScalarRegs.start 0)).pc }) :=
  ⟨by decide +kernel, .outside _ 0x400000 4096 _ (by decide) (some_getD (by decide +kernel) _) (by decide +kernel) (by decide +kernel)⟩
def placedAway : State := { placed 32 0x76000000 with mem := cellsWrite 0x200000 (toBytes 8 0x22) (placed 32 0x76000000).mem }
theorem witness_StepRunsDecoded_absent : ({ placedAway with agenda := [] } : State).scalarMay 0 0 = true
    ∧ (match (stand .scalar placedAway).locate { agentIn (stand .scalar placedAway) with l1 := false } 0x400000 4 false with
      | (.parts ps, s) => ps.all (fun p => p.permits .fetch && !p.isPeer && p.open .fetch s) && ps.any fun p => p.isAbsent
      | (.fault _, _) => false) = true := by
  decide +kernel

/-- A lane stream at the first word of a clause; with no clause; with no run, one enqueued. -/
def placedL : State := placed 96 0x012FE0C0D0E0000000000000
def addsOf : LaneWord := { word with vd := 12, va := 13, vb := 14 }
theorem witness_StepRunsDecoded_lane : placedL.agenda = [.lane 0 0] ∧ ({ placedL with agenda := [] } : State).laneMay 0 0 = true
    ∧ (placedL.group? 0 0).any (fun G => G.run.isSome && G.clause == some { header := 0, next := 1, stop := 3, tag := 0 }) = true
    ∧ fetched .lane 0x50000C 12 placedL (fun b => match decodeLane (BitVec.ofNat 96 (ofBytes b)) with
      | .ok j => decide (j = .adds addsOf)
      | .error _ => false) = true := by
  decide +kernel
theorem witness_StepRunsDecoded_runs :
    ({ sceneRun with agenda := [] } : State).laneMay 0 0 = true ∧ ((sceneRun.group? 0 0).any fun G => G.run.isNone) = true
    ∧ ({ sceneClause 0 0 0 with agenda := [] } : State).laneMay 0 0 = true
    ∧ ((sceneClause 0 0 0).group? 0 0).any (fun G => G.run.isSome && G.clause.isNone) = true := by
  decide +kernel
theorem witness_StepRunsDecoded_event : ({ scene with agenda := [.event .coreClockCycle, .driver (.dropContext 7)] } : State).agenda =
      .event .coreClockCycle :: [.driver (.dropContext 7)]
    ∧ eventIs .coreClockCycle .coreClockCycle ∧ scene.dome.stopctl.getLsbD 1 = false ∧ resetEvent .coreClockCycle = false
    ∧ (scene.modDome fun d => { d with stopctl := 2 }).dome.stopctl.getLsbD 1 = true ∧ scene.agenda = [] := by
  refine ⟨rfl, ?_, ?_⟩
  · simp [eventIs]
  · decide +kernel

/-! ### A lane store into the scratchpad -/

def wSts : LaneWord := { word with vb := 1, ty := 7 }
/-- Lane j's v0 holds 64 + 8j. -/
def sceneSts : State := sceneU (fun j => 64 + 8 * j) fun j => j + 1
def stsReqs : List Req := (laneIn wSts sceneSts).reqs true (wSts.ety.w / 8 * wSts.count) 1 .write fun l =>
  laneEa true ((laneIn wSts sceneSts).a wSts l) (offOf wSts)
theorem witness_StoreFrames_lanes : ∃ hits s' t T', LaneReady (.laneSts wSts) wSts (laneIn wSts sceneSts) sceneSts ∧ wSts.rm = 0
    ∧ (laneIn wSts sceneSts).T.away = false ∧ LanesReach (laneIn wSts sceneSts) false false stsReqs hits sceneSts s' ∧ s' = sceneSts
    ∧ exec (.laneSts wSts) sceneSts = .next t ∧ t.team? 0 = some T' ∧ cellGet 72 T'.scratch = 2 := by
  obtain ⟨hits, s', hm, hp⟩ := of_ends (m := checkAccess stsReqs (fun _ => true) sceneSts) (p := fun hits s' => s' == sceneSts
    && hits.all fun h => h.parts.all fun p => s'.atHand (laneIn wSts sceneSts).L.ctx (laneIn wSts sceneSts).T.core p) (by decide +kernel)
  simp only [Bool.and_eq_true, beq_iff_eq, List.all_eq_true] at hp
  obtain ⟨hits', s'', h, _⟩ := reach_of (x := laneIn wSts sceneSts) (ord := false) (clocked := false) (s := sceneSts) (reqs := stsReqs) (by decide +kernel)
  have hs : s'' = sceneSts := by
    have := h.checks
    rw [hm] at this
    have e := Except.ok.inj this
    rw [← (Prod.mk.inj e).2, hp.1]
  exact ⟨hits', s'', after (exec (.laneSts wSts) sceneSts), _, laneReady_of (by decide +kernel), by decide, by decide +kernel, h, hs, next_of (by decide +kernel),
    some_getD (by decide +kernel) (probeTeam false), by decide +kernel⟩

theorem witness_StepKeepsMemoryForm : (placed 32 0x76000000).memoryWf = true ∧ Answer.goesOn (step (placed 32 0x76000000)) = true := by decide +kernel

end Sys2Proof.Tests
end

