-- ==== Sys2Proof/Tests/Slice0.lean ====
section
/-! SUPPORT. Tests: each word's decoding, written out from the spec's encoding tables; ill-formed operands; single steps on the spec's worked examples. -/

namespace Sys2Proof.Tests

open Sys2Proof Sys2Proof.Machine Sys2Proof.Claims

set_option maxRecDepth 100000
set_option Elab.async false

/-- Whether every word of a list (its bits, its value) decodes to the instruction beside it. -/
def decodes (l : List (Nat × Nat × Instr)) : Bool := l.all fun x => decodeTableWord x.1 x.2.1 == some x.2.2

/-! ### Scalar words: the opcode table's match and fields, and the SX rows from R45, R55 and R56 -/

def scalarWords1 : List (Nat × Nat × Instr) :=
  [ (32, 0x034A7900, .add 41 19 50)
  , (32, 0x04312600, .sub 6 9 12)
  , (32, 0x0770ED80, .mul 46 7 27)
  , (32, 0x0E217B80, .and 4 11 55)
  , (32, 0x11A90F00, .or 53 8 30)
  , (32, 0x125EC380, .xor 11 54 7)
  , (32, 0x147B8380, .shl 15 28 7)
  , (32, 0x1790CE00, .shr 50 6 28)
  , (32, 0x182A3280, .sar 5 17 37)
  , (32, 0x1FAA4780, .bfx 53 18 15)
  , (32, 0x213AE680, .bfi 39 23 13)
  , (32, 0xA8C5E600, .plcn 24 47 12)
  , (32, 0xAA40ED00, .plwt 8 7 26)
  , (32, 0xAFFED400, .plcx 63 54 40)
  , (32, 0xB7DF5700, .waita 59 58 46)
  , (32, 0xB933EB80, .sbara 38 31 23)
  , (32, 0xC0F95300, .obres 31 10 38)
  , (32, 0xD5FD7C80, .trd 63 43 57)
  , (32, 0xDD212780, .dump 36 9 15)
  , (32, 0x09AAB580, .mulh false 53 21 43)
  , (32, 0x089FDA81, .mulh true 19 62 53)
  , (32, 0x0A293400, .div false 5 9 40)
  , (32, 0x0B5D9F81, .div true 43 44 63)
  , (32, 0x0DD10580, .rem false 58 8 11)
  , (32, 0x0D178401, .rem true 34 60 8)
  , (32, 0x1A3CFC80, .min false 7 39 57)
  , (32, 0x1B263601, .min true 36 49 44)
  , (32, 0x1C177680, .max false 2 59 45)
  , (32, 0x1CA9DF81, .max true 21 14 63)
  , (32, 0x223B7932, .addi 7 27 6450) ]
theorem test_decode_scalarWords1 : decodes scalarWords1 = true := by decide +kernel

def scalarWords2 : List (Nat × Nat × Instr) :=
  [ (32, 0x2483FCBB, .andi 16 31 7355)
  , (32, 0x2797F294, .ori 50 63 4756)
  , (32, 0x28AF3CDA, .xori 21 57 7386)
  , (32, 0x2B1A203B, .shli 35 17 59)
  , (32, 0x2D1EA036, .shri 35 53 54)
  , (32, 0x2F83A029, .sari 48 29 41)
  , (32, 0x340AC980, .cmp .eq 1 22 19)
  , (32, 0x341BA081, .cmp .ne 3 29 1)
  , (32, 0x343AF082, .cmp .lt 7 23 33)
  , (32, 0x34200903, .cmp .ge 4 0 18)
  , (32, 0x3435F404, .cmp .ltn 6 47 40)
  , (32, 0x3410DD05, .cmp .gen 2 6 58)
  , (32, 0x38718380, .qop .and 14 12 7)
  , (32, 0x38318101, .qop .or 6 12 2)
  , (32, 0x38398082, .qop .xor 7 12 1)
  , (32, 0x38184203, .qop .andn 3 2 4)
  , (32, 0x3838A004, .qop .not 7 5 0)
  , (32, 0x38094005, .qop .mov 1 10 0)
  , (32, 0x3A4FD08D, .sel 9 13 62 33)
  , (32, 0x3C31A000, .popc 6 13)
  , (32, 0x3C026001, .clz 0 19)
  , (32, 0x3C65C002, .ctz 12 46)
  , (32, 0x3C192003, .brev 3 9)
  , (32, 0x40D60130, .ld .u8 26 48 304)
  , (32, 0x410586E9, .ld .u16 32 44 745)
  , (32, 0x41E1E8EC, .ld .u32 60 15 236)
  , (32, 0x41F76FD7, .ld .u64 62 59 983)
  , (32, 0x41ECF0AF, .ld .s8 61 39 175)
  , (32, 0x4091B6BD, .ld .s16 18 13 701)
  , (32, 0x410FB94A, .ld .s32 33 61 330) ]
theorem test_decode_scalarWords2 : decodes scalarWords2 = true := by decide +kernel

def scalarWords3 : List (Nat × Nat × Instr) :=
  [ (32, 0x441342E4, .lds .u8 2 26 740)
  , (32, 0x44906662, .lds .u16 18 3 610)
  , (32, 0x445C2AEF, .lds .u32 11 33 751)
  , (32, 0x44ADADC8, .lds .u64 21 45 456)
  , (32, 0x4553918F, .lds .s8 42 28 399)
  , (32, 0x44F675D0, .lds .s16 30 51 464)
  , (32, 0x44CFFAD8, .lds .s32 25 63 728)
  , (32, 0x4218623C, .st .b8 3 3 572)
  , (32, 0x43E4258C, .st .b16 60 33 396)
  , (32, 0x43672ACB, .st .b32 44 57 715)
  , (32, 0x43714DC3, .st .b64 46 10 451)
  , (32, 0x466BA3C2, .sts .b8 13 29 962)
  , (32, 0x46CD65A2, .sts .b16 25 43 418)
  , (32, 0x47E80BD5, .sts .b32 61 0 981)
  , (32, 0x47614CF5, .sts .b64 44 10 245)
  , (32, 0x498B2000, .ldaq .grp .b8 49 25)
  , (32, 0x49EAC011, .ldaq .team .b16 61 22)
  , (32, 0x49BD4022, .ldaq .clu .b32 55 42)
  , (32, 0x485E4033, .ldaq .dev .b64 11 50)
  , (32, 0x49DE6040, .ldaq .pod .b8 59 51)
  , (32, 0x48528051, .ldaq .sys .b16 10 20)
  , (32, 0x4AAA0000, .strl .grp .b8 21 16)
  , (32, 0x4A1A6011, .strl .team .b16 3 19)
  , (32, 0x4BDA4022, .strl .clu .b32 59 18)
  , (32, 0x4BE58033, .strl .dev .b64 60 44)
  , (32, 0x4A9A0040, .strl .pod .b8 19 16)
  , (32, 0x4A102051, .strl .sys .b16 2 1)
  , (32, 0x4C6A3B80, .atom .add .grp 13 17 55)
  , (32, 0x4CC36191, .atom .min .team 24 27 3)
  , (32, 0x4D0372A2, .atom .max .clu 32 27 37) ]
theorem test_decode_scalarWords3 : decodes scalarWords3 = true := by decide +kernel

def scalarWords4 : List (Nat × Nat × Instr) :=
  [ (32, 0x4CF530B3, .atom .and .dev 30 41 33)
  , (32, 0x4DAA03C4, .atom .or .pod 53 16 7)
  , (32, 0x4D6F5AD5, .atom .xor .sys 45 58 53)
  , (32, 0x4C826106, .atom .xchg .grp 16 19 2)
  , (32, 0x4FC2E040, .cas .pod 56 23 0)
  , (32, 0x50000050, .fence .sys)
  , (32, 0x609AC1EE, .br 4 true 705006)
  , (32, 0x629F936D, .call 4 true 1020781)
  , (32, 0x65700000, .ret 11 true)
  , (32, 0x6605A000, .jmpr 45)
  , (32, 0x6B680000, .spop 45)
  , (32, 0x6D6A6000, .lnch 45 19)
  , (32, 0x6F6815A7, .sget 45 21 0xA7)
  , (32, 0x7005A022, .sset 2 45)
  , (32, 0x8049E000, .cpy 9 15)
  , (32, 0x8240E000, .gath 8 7)
  , (32, 0x842FA000, .part 5 61)
  , (32, 0xA008E000, .puts 1 7)
  , (32, 0xA21B0000, .get 3 24)
  , (32, 0xA420A000, .fabricRadd 4 5)
  , (32, 0xA60F2000, .plcl 1 57)
  , (32, 0x81F88000, .cpy 63 4)
  , (32, 0xAC5E8680, .plval 11 52 13)
  , (32, 0xB0000A35, .wflg 0xA35)
  , (32, 0xB00015C3, .wflgNow 0x5C3)
  , (32, 0xB2006400, .swini 3 8)
  , (32, 0xB4071480, .swait 56 41)
  , (32, 0xBA033180, .sbarw 25 35)
  , (32, 0xC4073E80, .ctab 57 61)
  , (32, 0xC204A000, .obrel 37) ]
theorem test_decode_scalarWords4 : decodes scalarWords4 = true := by decide +kernel

def scalarWords5 : List (Nat × Nat × Instr) :=
  [ (32, 0xDA04A000, .tkil 37)
  , (32, 0xD004AB1D, .trap 0xB1D 37)
  , (32, 0xD794AA80, .twr 50 37 21)
  , (32, 0xD994AA80, .tres 50 37 21)
  , (32, 0xD2000000, .eret)
  , (32, 0x74000000, .sdone)
  , (32, 0x76000000, .nop)
  , (64, 0x89ABCDEF31480000, .movi 41 0x89ABCDEF)
  , (64, 0x7654321032B00000, .movhi 22 0x76543210)
  , (64, 0xFFFFFFF03677A000, .cmpi .eq 14 61 0xfffffff0)
  , (64, 0xFFFFFFF1366FA001, .cmpi .ne 13 61 0xfffffff1)
  , (64, 0xFFFFFFF23667A002, .cmpi .lt 12 61 0xfffffff2)
  , (64, 0xFFFFFFF3365FA003, .cmpi .ge 11 61 0xfffffff3)
  , (64, 0xFFFFFFF43657A004, .cmpi .ltn 10 61 0xfffffff4)
  , (64, 0xFFFFFFF5364FA005, .cmpi .gen 9 61 0xfffffff5)
  , (64, 0xDEADBEEF6807A009, .lrun 61 9 0xDEADBEEF)
  , (64, 0x1234567872000000, .mrst 0x12345678) ]
theorem test_decode_scalarWords5 : decodes scalarWords5 = true := by decide +kernel

/-! ### Lane words, from R47, R48, R57 and R58 -/

def laneWords1 : List (Nat × Nat × Instr) :=
  [ (96, 0x010808467E546D1F712EA6B3, .laneAdd ⟨64, false, 132, 103, 229, 70, 26, 7, 3, 0x712EA6B3⟩)
  , (96, 0x01112DB256C9B3A6249A4584, .laneSub ⟨9, false, 219, 37, 108, 155, 7, 9, 2, 0x249A4584⟩)
  , (96, 0x012237030CBF9539B4D19EC1, .adds ⟨17, true, 112, 48, 203, 249, 10, 14, 1, 0xB4D19EC1⟩)
  , (96, 0x01383ADD764B6A1604FCD555, .subs ⟨65, true, 173, 215, 100, 182, 20, 5, 2, 0x04FCD555⟩)
  , (96, 0x0148DE109C4A9910C9D22950, .neg ⟨70, true, 225, 9, 196, 169, 18, 4, 0, 0xC9D22950⟩)
  , (96, 0x0151A878B145C8A3F22D2882, .abs ⟨13, false, 135, 139, 20, 92, 17, 8, 3, 0xF22D2882⟩)
  , (96, 0x02066FDA72D8E1AFE5316960, .laneMul ⟨51, false, 253, 167, 45, 142, 3, 11, 3, 0xE5316960⟩)
  , (96, 0x021442D852A71240742A8063, .laneMulh ⟨34, false, 45, 133, 42, 113, 4, 16, 0, 0x742A8063⟩)
  , (96, 0x022578942167A3AA0CE5AF69, .muls ⟨43, true, 137, 66, 22, 122, 7, 10, 2, 0x0CE5AF69⟩)
  , (96, 0x023339C6994E45C6CDBDE747, .mad ⟨25, true, 156, 105, 148, 228, 11, 17, 2, 0xCDBDE747⟩)
  , (96, 0x02440070961F37F0A66D58B5, .mads ⟨32, false, 7, 9, 97, 243, 15, 28, 0, 0xA66D58B5⟩)
  , (96, 0x030A9C99D6E75AB1213BCA7F, .laneDiv ⟨84, true, 201, 157, 110, 117, 21, 12, 1, 0x213BCA7F⟩)
  , (96, 0x03113DC531C2BC49B153D69C, .laneRem ⟨9, true, 220, 83, 28, 43, 24, 18, 1, 0xB153D69C⟩)
  , (96, 0x0400B5E5089E4042F637A468, .laneMin ⟨5, true, 94, 80, 137, 228, 0, 16, 2, 0xF637A468⟩)
  , (96, 0x0418D7D119E6FB2C55D85E8D, .laneMax ⟨70, true, 125, 17, 158, 111, 22, 11, 0, 0x55D85E8D⟩)
  , (96, 0x042158E667F022C024D4589C, .clamp ⟨10, true, 142, 102, 127, 2, 5, 16, 0, 0x24D4589C⟩)
  , (96, 0x05096C90B999B715FC173498, .laneAnd ⟨75, false, 201, 11, 153, 155, 14, 5, 1, 0xFC173498⟩)
  , (96, 0x051274A16DB470B807FA22F7, .laneOr ⟨19, true, 74, 22, 219, 71, 1, 14, 0, 0x07FA22F7⟩)
  , (96, 0x0522335C0E7190BF4387EE7B, .laneXor ⟨17, true, 53, 192, 231, 25, 1, 15, 3, 0x4387EE7B⟩)
  , (96, 0x053742F21F281241348922D7, .andn ⟨58, false, 47, 33, 242, 129, 4, 16, 1, 0x348922D7⟩)
  , (96, 0x054BDFCC327F590925BDA659, .not ⟨94, true, 252, 195, 39, 245, 18, 2, 1, 0x25BDA659⟩)
  , (96, 0x055414406F61FFC4B1330C3F, .tern ⟨32, true, 68, 6, 246, 31, 31, 17, 0, 0xB1330C3F⟩)
  , (96, 0x060AD9492EDEEE9D7912EF4A, .laneShl ⟨86, true, 148, 146, 237, 238, 29, 7, 1, 0x7912EF4A⟩)
  , (96, 0x0614B27E689C66B494DB5F8F, .laneShr ⟨37, true, 39, 230, 137, 198, 13, 13, 0, 0x94DB5F8F⟩)
  , (96, 0x06225B8438F39BBB7C73B6C9, .laneSar ⟨18, true, 184, 67, 143, 57, 23, 14, 3, 0x7C73B6C9⟩)
  , (96, 0x0630601FBE6CF9A7580DC5AB, .rol ⟨3, false, 1, 251, 230, 207, 19, 9, 3, 0x580DC5AB⟩)
  , (96, 0x06450A900A6ADC9DB688B661, .ror ⟨40, false, 169, 0, 166, 173, 25, 7, 1, 0xB688B661⟩)
  , (96, 0x070BD81BE21C9C12ECE80799, .mov ⟨94, true, 129, 190, 33, 201, 24, 4, 2, 0xECE80799⟩)
  , (96, 0x071468F341A924BE50CB407A, .laneMovi ⟨35, false, 143, 52, 26, 146, 9, 15, 2, 0x50CB407A⟩)
  , (96, 0x0725F0ECC68291EBDE962A6D, .laneSel ⟨47, true, 14, 204, 104, 41, 3, 26, 3, 0xDE962A6D⟩) ]
theorem test_decode_laneWords1 : decodes laneWords1 = true := by decide +kernel

def laneWords2 : List (Nat × Nat × Instr) :=
  [ (96, 0x0737C4157F1D4ACAA71F11B2, .lget ⟨62, false, 65, 87, 241, 212, 21, 18, 2, 0xA71F11B2⟩)
  , (96, 0x100669AF7C93D5283853933D, .fadd ⟨51, false, 154, 247, 201, 61, 10, 10, 0, 0x3853933D⟩)
  , (96, 0x10155DA47627C2AE8E4DC3A3, .fsub ⟨42, true, 218, 71, 98, 124, 5, 11, 2, 0x8E4DC3A3⟩)
  , (96, 0x10250BC84670AD6335C2E229, .fmul ⟨40, false, 188, 132, 103, 10, 26, 24, 3, 0x35C2E229⟩)
  , (96, 0x103451FFF8EB84343F9AA884, .fdiv ⟨34, true, 31, 255, 142, 184, 8, 13, 0, 0x3F9AA884⟩)
  , (96, 0x10467DD9F0B4116F7D652135, .fsqrt ⟨51, true, 221, 159, 11, 65, 2, 27, 3, 0x7D652135⟩)
  , (96, 0x10513EFE57F37725AE9C78BD, .fmin ⟨9, true, 239, 229, 127, 55, 14, 9, 1, 0xAE9C78BD⟩)
  , (96, 0x106B92B14004070AF662222E, .fmax ⟨92, true, 43, 20, 0, 64, 14, 2, 2, 0xF662222E⟩)
  , (96, 0x107A1DF3932249B342C927B9, .fabs ⟨80, true, 223, 57, 50, 36, 19, 12, 3, 0x42C927B9⟩)
  , (96, 0x10898059AEB8EA3F86BA22DD, .fneg ⟨76, false, 5, 154, 235, 142, 20, 15, 3, 0x86BA22DD⟩)
  , (96, 0x1098C0ED29D1C0B3A5ACD341, .cpsgn ⟨70, false, 14, 210, 157, 28, 1, 12, 3, 0xA5ACD341⟩)
  , (96, 0x1101574D9BD74F8AB7E49F36, .fma ⟨10, true, 116, 217, 189, 116, 31, 2, 2, 0xB7E49F36⟩)
  , (96, 0x1115D650395226FDD1EBD086, .fms ⟨46, true, 101, 3, 149, 34, 13, 31, 1, 0xD1EBD086⟩)
  , (96, 0x1123B71879737FAD7C2C6A87, .fnma ⟨29, true, 113, 135, 151, 55, 31, 11, 1, 0x7C2C6A87⟩)
  , (96, 0x120AA4AC91B6D0A70F650638, .ex2f ⟨85, false, 74, 201, 27, 109, 1, 9, 3, 0x0F650638⟩)
  , (96, 0x12165A0392854AB177B5ABCB, .lg2 ⟨50, true, 160, 57, 40, 84, 21, 12, 1, 0x77B5ABCB⟩)
  , (96, 0x1224FBFA9E25630047A164E4, .rcp ⟨39, true, 191, 169, 226, 86, 6, 0, 0, 0x47A164E4⟩)
  , (96, 0x123593F6AC2B69EC7934F0B8, .rsq ⟨44, true, 63, 106, 194, 182, 19, 27, 0, 0x7934F0B8⟩)
  , (96, 0x1245F62A5BAF20E9C4445AAE, .sinp ⟨47, true, 98, 165, 186, 242, 1, 26, 1, 0xC4445AAE⟩)
  , (96, 0x1250B11ED201F83056CD42D2, .cosp ⟨5, true, 17, 237, 32, 31, 16, 12, 0, 0x56CD42D2⟩)
  , (96, 0x130451686A28D9803BDEA8C3, .rndi ⟨34, true, 22, 134, 162, 141, 19, 0, 0, 0x3BDEA8C3⟩)
  , (96, 0x13179C580DCFC47D3C73D5F4, .expi ⟨60, true, 197, 128, 220, 252, 8, 31, 1, 0x3C73D5F4⟩)
  , (96, 0x20051B92865C853F08AB4AE4, .cvt ⟨40, true, 185, 40, 101, 200, 10, 15, 3, 0x08AB4AE4⟩)
  , (96, 0x2108D52DA352481518AF266C, .qnt ⟨70, true, 82, 218, 53, 36, 16, 5, 1, 0x18AF266C⟩)
  , (96, 0x2207F587744D5EBC4B3E90B7, .dqnt ⟨63, true, 88, 119, 68, 213, 29, 15, 0, 0x4B3E90B7⟩)
  , (96, 0x28047BE828565E3D3ECE9F2C, .bsAdd ⟨35, true, 190, 130, 133, 101, 28, 15, 1, 0x3ECE9F2C⟩)
  , (96, 0x2812760A721CA83D097A5942, .bsSub ⟨19, true, 96, 167, 33, 202, 16, 15, 1, 0x097A5942⟩)
  , (96, 0x2820176E5BF149380CE66F73, .bsAdds ⟨0, true, 118, 229, 191, 20, 18, 14, 0, 0x0CE66F73⟩)
  , (96, 0x2839826BE5BE58005985EA3F, .bsSubs ⟨76, false, 38, 190, 91, 229, 16, 0, 0, 0x5985EA3F⟩)
  , (96, 0x29009AE481668809D0930B64, .bsMul ⟨4, true, 174, 72, 22, 104, 16, 2, 1, 0xD0930B64⟩) ]
theorem test_decode_laneWords2 : decodes laneWords2 = true := by decide +kernel

def laneWords3 : List (Nat × Nat × Instr) :=
  [ (96, 0x29153BE5E9F2768B8C4CAA83, .bsMuls ⟨41, true, 190, 94, 159, 39, 13, 2, 3, 0x8C4CAA83⟩)
  , (96, 0x2A01133CA4F2E5664EBE9880, .bsMin ⟨8, true, 51, 202, 79, 46, 10, 25, 2, 0x4EBE9880⟩)
  , (96, 0x2A10DB6D4D509BB3BA60491E, .bsMax ⟨6, true, 182, 212, 213, 9, 23, 12, 3, 0xBA60491E⟩)
  , (96, 0x30034DE50D83A2E6299C858D, .lanePopc ⟨26, false, 222, 80, 216, 58, 5, 25, 2, 0x299C858D⟩)
  , (96, 0x3010248CB2DBD5264886058B, .laneClz ⟨1, false, 72, 203, 45, 189, 10, 9, 2, 0x4886058B⟩)
  , (96, 0x302842237C4FB64DE9AD2BC7, .laneCtz ⟨66, false, 34, 55, 196, 251, 12, 19, 1, 0xE9AD2BC7⟩)
  , (96, 0x30350C62C5271CB337D7D190, .laneBrev ⟨40, false, 198, 44, 82, 113, 25, 12, 3, 0x37D7D190⟩)
  , (96, 0x31066C4B73F4C7B0AC18CD4E, .laneBfx ⟨51, false, 196, 183, 63, 76, 15, 12, 0, 0xAC18CD4E⟩)
  , (96, 0x311AB3CC7E99CD4D6CFD4940, .laneBfi ⟨85, true, 60, 199, 233, 156, 26, 19, 1, 0x6CFD4940⟩)
  , (96, 0x320A9E4E05B0B07F3C39679D, .hashCrc ⟨84, true, 228, 224, 91, 11, 0, 31, 3, 0x3C39679D⟩)
  , (96, 0x3219F5BF2CC362226E3BBC97, .hashMix ⟨79, true, 91, 242, 204, 54, 4, 8, 2, 0x6E3BBC97⟩)
  , (96, 0x330171414422AA14E5160931, .scmp ⟨11, true, 20, 20, 66, 42, 20, 5, 0, 0xE5160931⟩)
  , (96, 0x331A60D21386347EEE3AB808, .sfind ⟨83, false, 13, 33, 56, 99, 8, 31, 2, 0xEE3AB808⟩)
  , (96, 0x332118151A58CEA6EB7F1414, .slen ⟨8, true, 129, 81, 165, 140, 29, 9, 2, 0xEB7F1414⟩)
  , (96, 0x3403579A3BE1262FEFB82825, .rng ⟨26, true, 121, 163, 190, 18, 12, 11, 3, 0xEFB82825⟩)
  , (96, 0x3A0ADC056873A1DF1AC7A46C, .pand ⟨86, true, 192, 86, 135, 58, 3, 23, 3, 0x1AC7A46C⟩)
  , (96, 0x3A189BE87C0BC4DEC3BF64E9, .por ⟨68, true, 190, 135, 192, 188, 9, 23, 2, 0xC3BF64E9⟩)
  , (96, 0x3A2705A1897819D0BF433E03, .pxor ⟨56, false, 90, 24, 151, 129, 19, 20, 0, 0xBF433E03⟩)
  , (96, 0x3A33894DDD5BA1A3A7321D31, .pandn ⟨28, false, 148, 221, 213, 186, 3, 8, 3, 0xA7321D31⟩)
  , (96, 0x3A40401B59B36B3B956636E6, .pnot ⟨2, false, 1, 181, 155, 54, 22, 14, 3, 0x956636E6⟩)
  , (96, 0x3A59668BBF351401B51CECEF, .pmov ⟨75, false, 104, 187, 243, 81, 8, 0, 1, 0xB51CECEF⟩)
  , (96, 0x3A672204A8ACD800BBC81F54, .pset ⟨57, false, 32, 74, 138, 205, 16, 0, 0, 0xBBC81F54⟩)
  , (96, 0x3B03E00161F0CCAD28C26BB2, .pget ⟨31, false, 0, 22, 31, 12, 25, 11, 1, 0x28C26BB2⟩)
  , (96, 0x3B11A6448D366D2E10530BE2, .pput ⟨13, false, 100, 72, 211, 102, 26, 11, 2, 0x10530BE2⟩)
  , (96, 0x400A0F403C0DFE972CE678FE, .laneIf ⟨80, false, 244, 3, 192, 223, 29, 5, 3, 0x2CE678FE⟩)
  , (96, 0x4011B76133FAB80EADE25655, .laneElse ⟨13, true, 118, 19, 63, 171, 16, 3, 2, 0xADE25655⟩)
  , (96, 0x402AF976F2B07541EA3AB6D2, .laneEndif ⟨87, true, 151, 111, 43, 7, 10, 16, 1, 0xEA3AB6D2⟩)
  , (96, 0x41031A87AC2F0F00B980EA1E, .laneLoop ⟨24, true, 168, 122, 194, 240, 30, 0, 0, 0xB980EA1E⟩)
  , (96, 0x411936CC827574881CA505C1, .laneBrk ⟨73, true, 108, 200, 39, 87, 9, 2, 0, 0x1CA505C1⟩)
  , (96, 0x4129EB0480E0F120B26F1928, .laneCont ⟨79, false, 176, 72, 14, 15, 2, 8, 0, 0xB26F1928⟩) ]
theorem test_decode_laneWords3 : decodes laneWords3 = true := by decide +kernel

def laneWords4 : List (Nat × Nat × Instr) :=
  [ (96, 0x413BC21BA6621C1934AA4A20, .laneEndloop ⟨94, false, 33, 186, 102, 33, 24, 6, 1, 0x34AA4A20⟩)
  , (96, 0x4201C112C93F4320A5753D8B, .laneExit ⟨14, false, 17, 44, 147, 244, 6, 8, 0, 0xA5753D8B⟩)
  , (96, 0x4214BACD8850AB42C285A8C6, .laneStop ⟨37, true, 172, 216, 133, 10, 22, 16, 2, 0xC285A8C6⟩)
  , (96, 0x43053930FD30FD9A90EBC2C3, .rfil ⟨41, true, 147, 15, 211, 15, 27, 6, 2, 0x90EBC2C3⟩)
  , (96, 0x480B69357DF00648011DD8B3, .pollThr ⟨91, false, 147, 87, 223, 0, 12, 18, 0, 0x011DD8B3⟩)
  , (96, 0x4817CFB5EFDB182AD0B3A175, .pollMask ⟨62, false, 251, 94, 253, 177, 16, 10, 2, 0xD0B3A175⟩)
  , (96, 0x482B2FF543829F9A5B09B845, .pollRank ⟨89, false, 255, 84, 56, 41, 31, 6, 2, 0x5B09B845⟩)
  , (96, 0x490672CD80CBE6CE2BCD85D2, .xlnGet ⟨51, true, 44, 216, 12, 190, 13, 19, 2, 0x2BCD85D2⟩)
  , (96, 0x491A0EB4011B2A27BDF2E077, .xlnFlip ⟨80, false, 235, 64, 17, 178, 20, 9, 3, 0xBDF2E077⟩)
  , (96, 0x4922BE0837640AF581F8D9DF, .xlnRot ⟨21, true, 224, 131, 118, 64, 21, 29, 1, 0x81F8D9DF⟩)
  , (96, 0x493454F4F7EA7B29307438E6, .xlnSlide ⟨34, true, 79, 79, 126, 167, 22, 10, 1, 0x307438E6⟩)
  , (96, 0x4A0BA543464C44A6BBB91047, .bcst ⟨93, false, 84, 52, 100, 196, 9, 9, 2, 0xBBB91047⟩)
  , (96, 0x4D06F6437368F6E308AFBDED, .keyg ⟨55, true, 100, 55, 54, 143, 13, 24, 3, 0x08AFBDED⟩)
  , (96, 0x4D1677197ED0B4C3DA5715E4, .lead ⟨51, true, 113, 151, 237, 11, 9, 16, 3, 0xDA5715E4⟩)
  , (96, 0x4E0B375755C3FEEEB35DCF68, .gsync ⟨89, true, 117, 117, 92, 63, 29, 27, 2, 0xB35DCF68⟩)
  , (96, 0x4F06ACC5080D8F74A78CA31E, .lpush ⟨53, false, 204, 80, 128, 216, 30, 29, 0, 0xA78CA31E⟩)
  , (96, 0x50003FA3613806A984EB99BD, .azero ⟨1, true, 250, 54, 19, 128, 13, 10, 1, 0x84EB99BD⟩)
  , (96, 0x5101968F308BDAEBAF323C2D, .aadd ⟨12, true, 104, 243, 8, 189, 21, 26, 3, 0xAF323C2D⟩)
  , (96, 0x51164B61C818CC6403682CEC, .aadda ⟨50, false, 182, 28, 129, 140, 24, 25, 0, 0x03682CEC⟩)
  , (96, 0x5126BB48737729E5F5FA5D74, .aneg ⟨53, true, 180, 135, 55, 114, 19, 25, 1, 0xF5FA5D74⟩)
  , (96, 0x5207654422362F39D0F11E05, .amac ⟨59, false, 84, 66, 35, 98, 30, 14, 1, 0xD0F11E05⟩)
  , (96, 0x5217740F0B5758E2FB9EBFB8, .adot ⟨59, true, 64, 240, 181, 117, 17, 24, 2, 0xFB9EBFB8⟩)
  , (96, 0x530ACF6018FB77CE7AC3CAF8, .cres ⟨86, false, 246, 1, 143, 183, 15, 19, 2, 0x7AC3CAF8⟩)
  , (96, 0x5406CB94E9BC5196D4D1E969, .arnd ⟨54, false, 185, 78, 155, 197, 3, 5, 2, 0xD4D1E969⟩)
  , (96, 0x550A2056B2496819DAAB2302, .ald ⟨81, false, 5, 107, 36, 150, 16, 6, 1, 0xDAAB2302⟩)
  , (96, 0x5512FB14E6ACE5163286DFAE, .ast ⟨23, true, 177, 78, 106, 206, 10, 5, 2, 0x3286DFAE⟩)
  , (96, 0x560B028E03B3C869D3B9CD98, .aseg ⟨88, false, 40, 224, 59, 60, 16, 26, 1, 0xD3B9CD98⟩)
  , (96, 0x561791DF7EF49FBFBC0E0865, .astat ⟨60, true, 29, 247, 239, 73, 31, 15, 3, 0xBC0E0865⟩)
  , (96, 0x56229EFFE97EEBEFAD0AD387, .ageti ⟨20, true, 239, 254, 151, 238, 23, 27, 3, 0xAD0AD387⟩)
  , (96, 0x5702F0E0A17A937B24FD4172, .ared ⟨23, true, 14, 10, 23, 169, 6, 30, 3, 0x24FD4172⟩) ]
theorem test_decode_laneWords4 : decodes laneWords4 = true := by decide +kernel

def laneWords5 : List (Nat × Nat × Instr) :=
  [ (96, 0x5803740AD30BBAF948BE1FA6, .laneLd ⟨27, true, 64, 173, 48, 187, 21, 30, 1, 0x48BE1FA6⟩)
  , (96, 0x59057801A9495B7FFBFA3797, .laneSt ⟨43, true, 128, 26, 148, 149, 22, 31, 3, 0xFBFA3797⟩)
  , (96, 0x5A08168FC3CA9652FF1A5C0C, .laneLds ⟨64, true, 104, 252, 60, 169, 12, 20, 2, 0xFF1A5C0C⟩)
  , (96, 0x5B06719CC9937009153FB2CD, .laneSts ⟨51, true, 25, 204, 153, 55, 0, 2, 1, 0x153FB2CD⟩)
  , (96, 0x5D00B59335C12D18D2969D35, .laneCas ⟨5, true, 89, 51, 92, 18, 26, 6, 0, 0xD2969D35⟩)
  , (96, 0x5E04F9A5ED711A7FE9F0EF41, .radd ⟨39, true, 154, 94, 215, 17, 20, 31, 3, 0xE9F0EF41⟩)
  , (96, 0x5E1903CD7CFE420327C17A26, .raddAcc ⟨72, false, 60, 215, 207, 228, 4, 0, 3, 0x27C17A26⟩)
  , (96, 0x5F0682AF16C4D06CAB5B95F4, .laneFence ⟨52, false, 42, 241, 108, 77, 0, 27, 0, 0xAB5B95F4⟩)
  , (96, 0x600163E42F1098BF0CD5E3E3, .laneWaita ⟨11, false, 62, 66, 241, 9, 17, 15, 3, 0x0CD5E3E3⟩)
  , (96, 0x610BE2B96FFEB80C02EB2C86, .bara ⟨95, false, 43, 150, 255, 235, 16, 3, 0, 0x02EB2C86⟩)
  , (96, 0x62002C79F9F54F8E70503308, .barw ⟨1, false, 199, 159, 159, 84, 31, 3, 2, 0x70503308⟩)
  , (96, 0x630AC4A3BB953D7B557985E0, .laneSwait ⟨86, false, 74, 59, 185, 83, 26, 30, 3, 0x557985E0⟩)
  , (96, 0x64046AA074D9EDBF73866561, .cbara ⟨35, false, 170, 7, 77, 158, 27, 15, 3, 0x73866561⟩)
  , (96, 0x650B0A48689D850AD54EA035, .cbarw ⟨88, false, 164, 134, 137, 216, 10, 2, 2, 0xD54EA035⟩)
  , (96, 0x680928CFFB12BFE17B7678D3, .mma ⟨73, false, 140, 255, 177, 43, 31, 24, 1, 0x7B7678D3⟩)
  , (96, 0x6904ECAEE69820638A6243FD, .mfen ⟨39, false, 202, 238, 105, 130, 0, 24, 3, 0x8A6243FD⟩)
  , (96, 0x6A0892077CB84A79B06C3A5A, .mwait ⟨68, true, 32, 119, 203, 132, 20, 30, 1, 0xB06C3A5A⟩)
  , (96, 0x6B0305C94B9B7CA5FF44ABDE, .mzero ⟨24, false, 92, 148, 185, 183, 25, 9, 1, 0xFF44ABDE⟩)
  , (96, 0x6C05EBEED294FA1A9B6D4EB5, .mstRnd ⟨47, false, 190, 237, 41, 79, 20, 6, 2, 0x9B6D4EB5⟩)
  , (96, 0x6C108F86D858FD9BF6A5DA24, .mstRaw ⟨4, false, 248, 109, 133, 143, 27, 6, 3, 0xF6A5DA24⟩)
  , (96, 0x6C240AD665CC12FCB4A041F3, .mstAdd ⟨32, false, 173, 102, 92, 193, 5, 31, 0, 0xB4A041F3⟩)
  , (96, 0x700113D2E83A37172EC37AC9, .vpjs ⟨8, true, 61, 46, 131, 163, 14, 5, 3, 0x2EC37AC9⟩)
  , (96, 0x7012978715813858E7920C6D, .vpjr ⟨20, true, 120, 113, 88, 19, 16, 22, 0, 0xE7920C6D⟩)
  , (96, 0x7100DF71C334AA01976A45A2, .vpjm ⟨6, true, 247, 28, 51, 74, 20, 0, 1, 0x976A45A2⟩)
  , (96, 0x720A6F1A5BE83C1E7B375698, .vpjx ⟨83, false, 241, 165, 190, 131, 24, 7, 2, 0x7B375698⟩)
  , (96, 0x7302B7A4906EF60938761DC7, .vpjb ⟨21, true, 122, 73, 6, 239, 12, 2, 1, 0x38761DC7⟩)
  , (96, 0x0109F47E431C508456FBC2F1, .laneAddi ⟨79, true, 71, 228, 49, 197, 1, 1, 0, 0x56FBC2F1⟩)
  , (96, 0x0603B3BBB49A9704E3AA471C, .laneShli ⟨29, true, 59, 187, 73, 169, 14, 1, 0, 0xE3AA471C⟩)
  , (96, 0x0617088D6D27E484D6ED9FDF, .laneShri ⟨56, false, 136, 214, 210, 126, 9, 1, 0, 0xD6ED9FDF⟩)
  , (96, 0x0625485FB37A2E871D3A2005, .laneSari ⟨42, false, 133, 251, 55, 162, 29, 1, 3, 0x1D3A2005⟩) ]
theorem test_decode_laneWords5 : decodes laneWords5 = true := by decide +kernel

def laneWords6 : List (Nat × Nat × Instr) :=
  [ (96, 0x063826CF4923D805F87FCF8E, .roli ⟨65, false, 108, 244, 146, 61, 16, 1, 1, 0xF87FCF8E⟩)
  , (96, 0x0646F7A7931C7907E56D5404, .rori ⟨55, true, 122, 121, 49, 199, 18, 1, 3, 0xE56D5404⟩)
  , (96, 0x3100F4908E2AE40786CE625E, .bfxi ⟨7, true, 73, 8, 226, 174, 8, 1, 3, 0x86CE625E⟩)
  , (96, 0x3112FDE14D16F885C53BEEBD, .bfii ⟨23, true, 222, 20, 209, 111, 17, 1, 1, 0xC53BEEBD⟩)
  , (96, 0x540B664282CFD88534BE81EC, .arndDiv ⟨91, false, 100, 40, 44, 253, 17, 1, 1, 0x34BE81EC⟩)
  , (96, 0x6809C9D670521D0ED5D0F051, .mmaKreg ⟨78, false, 157, 103, 5, 33, 26, 3, 2, 0xD5D0F051⟩)
  , (96, 0x6A0A32E07D1F44455DFA535E, .mwaitLast ⟨81, true, 46, 7, 209, 244, 8, 17, 1, 0x5DFA535E⟩)
  , (96, 0x3802902B6E4243D90FAB53E5, .laneCmp .eq ⟨20, true, 2, 182, 228, 36, 7, 22, 1, 0x0FAB53E5⟩)
  , (96, 0x2B01BE40D440A7959E7BF788, .bscmp .eq ⟨13, true, 228, 13, 68, 10, 15, 5, 1, 0x9E7BF788⟩)
  , (96, 0x3812A9F800F0933293945BED, .laneCmp .ne ⟨21, false, 159, 128, 15, 9, 6, 12, 2, 0x93945BED⟩)
  , (96, 0x2B184E334B33058A1F802666, .bscmp .ne ⟨66, false, 227, 52, 179, 48, 11, 2, 2, 0x1F802666⟩)
  , (96, 0x3827F383E3ECF43992A5BC52, .laneCmp .lt ⟨63, true, 56, 62, 62, 207, 8, 14, 1, 0x92A5BC52⟩)
  , (96, 0x2B2BF5409C7D7164C6E362DB, .bscmp .lt ⟨95, true, 84, 9, 199, 215, 2, 25, 0, 0xC6E362DB⟩)
  , (96, 0x383577BABDFA4C8E8472A7BB, .laneCmp .le ⟨43, true, 123, 171, 223, 164, 25, 3, 2, 0x8472A7BB⟩)
  , (96, 0x2B3AF7FD805BA32C53089E3F, .bscmp .le ⟨87, true, 127, 216, 5, 186, 6, 11, 0, 0x53089E3F⟩)
  , (96, 0x384327347D7CBE88ECA468E9, .laneCmp .gt ⟨25, false, 115, 71, 215, 203, 29, 2, 0, 0xECA468E9⟩)
  , (96, 0x2B49E803E06DE78A1CF070C7, .bscmp .gt ⟨79, false, 128, 62, 6, 222, 15, 2, 2, 0x1CF070C7⟩)
  , (96, 0x385583D1E892BEA749CE7F4F, .laneCmp .ge ⟨44, false, 61, 30, 137, 43, 29, 9, 3, 0x49CE7F4F⟩)
  , (96, 0x2B53E93E871C565F7A54C2E3, .bscmp .ge ⟨31, false, 147, 232, 113, 197, 12, 23, 3, 0x7A54C2E3⟩)
  , (96, 0x3904E7CAA7160C64EC97D7E1, .fcmp .eq ⟨39, false, 124, 170, 113, 96, 24, 25, 0, 0xEC97D7E1⟩)
  , (96, 0x39128A5A6FB8A9360593C11A, .fcmp .ne ⟨20, false, 165, 166, 251, 138, 18, 13, 2, 0x0593C11A⟩)
  , (96, 0x3928CB2E11FC6E58855B9DF9, .fcmp .lt ⟨70, false, 178, 225, 31, 198, 28, 22, 0, 0x855B9DF9⟩)
  , (96, 0x393ACD5ACB44764479A9398B, .fcmp .le ⟨86, false, 213, 172, 180, 71, 12, 17, 0, 0x79A9398B⟩)
  , (96, 0x394A0D33402D23FF926BE728, .fcmp .gt ⟨80, false, 211, 52, 2, 210, 7, 31, 3, 0x926BE728⟩)
  , (96, 0x3956B38C2E7EA95A5A5B2C16, .fcmp .ge ⟨53, true, 56, 194, 231, 234, 18, 22, 2, 0x5A5B2C16⟩)
  , (96, 0x39687A403FFC2E4D8970978F, .fcmp .un ⟨67, true, 164, 3, 255, 194, 28, 19, 1, 0x8970978F⟩)
  , (96, 0x39725C1762DA9A3E02BCBAA1, .fcmp .ord ⟨18, true, 193, 118, 45, 169, 20, 15, 2, 0x02BCBAA1⟩)
  , (96, 0x4B00DFE999FDFDE35B93046E, .gred .add ⟨6, true, 254, 153, 159, 223, 27, 24, 3, 0x5B93046E⟩)
  , (96, 0x4C099E705227536A803B8F4D, .gscan .add false ⟨76, true, 231, 5, 34, 117, 6, 26, 2, 0x803B8F4D⟩)
  , (96, 0x4C8A660D7F9CDE542BB4754A, .gscan .add true ⟨83, false, 96, 215, 249, 205, 28, 21, 0, 0x2BB4754A⟩) ]
theorem test_decode_laneWords6 : decodes laneWords6 = true := by decide +kernel

def laneWords7 : List (Nat × Nat × Instr) :=
  [ (96, 0x4B151269F5938957A18FDA26, .gred .min ⟨40, true, 38, 159, 89, 56, 18, 21, 3, 0xA18FDA26⟩)
  , (96, 0x4C1876A60D35D19AB90DAA6B, .gscan .min false ⟨67, true, 106, 96, 211, 93, 3, 6, 2, 0xB90DAA6B⟩)
  , (96, 0x4C9B105019D029E496113B67, .gscan .min true ⟨88, true, 5, 1, 157, 2, 19, 25, 0, 0x96113B67⟩)
  , (96, 0x4B2AA6459FE884B39A0BC130, .gred .max ⟨85, false, 100, 89, 254, 136, 9, 12, 3, 0x9A0BC130⟩)
  , (96, 0x4C224360E332657F9CEDD8AB, .gscan .max false ⟨18, false, 54, 14, 51, 38, 10, 31, 3, 0x9CEDD8AB⟩)
  , (96, 0x4CA0EA54979B58A8950EE291, .gscan .max true ⟨7, false, 165, 73, 121, 181, 17, 10, 0, 0x950EE291⟩)
  , (96, 0x4B358E6C50A1B764708C5162, .gred .and ⟨44, false, 230, 197, 10, 27, 14, 25, 0, 0x708C5162⟩)
  , (96, 0x4C39E7F7216515D0D0DEBE09, .gscan .and false ⟨79, false, 127, 114, 22, 81, 11, 20, 0, 0xD0DEBE09⟩)
  , (96, 0x4CB4D81FD227CC3B4F24F882, .gscan .and true ⟨38, true, 129, 253, 34, 124, 24, 14, 3, 0x4F24F882⟩)
  , (96, 0x4B4B70B7C2C5855B2FC1EC5D, .gred .or ⟨91, true, 11, 124, 44, 88, 10, 22, 3, 0x2FC1EC5D⟩)
  , (96, 0x4C44BB93AABC5AE4F61313F3, .gscan .or false ⟨37, true, 185, 58, 171, 197, 21, 25, 0, 0xF61313F3⟩)
  , (96, 0x4CC6D7DC661EF9596F81F00A, .gscan .or true ⟨54, true, 125, 198, 97, 239, 18, 22, 1, 0x6F81F00A⟩)
  , (96, 0x4B546AE4F7B422B2C99716EF, .gred .xor ⟨35, false, 174, 79, 123, 66, 5, 12, 2, 0xC99716EF⟩)
  , (96, 0x4C58FEF7A51BCB37354359FE, .gscan .xor false ⟨71, true, 239, 122, 81, 188, 22, 13, 3, 0x354359FE⟩)
  , (96, 0x4CD7874E74385E5D829C1172, .gscan .xor true ⟨60, false, 116, 231, 67, 133, 28, 23, 1, 0x829C1172⟩)
  , (96, 0x5C0202E8AC50E4CCD9DB4CF9, .laneAtom .add ⟨16, false, 46, 138, 197, 14, 9, 19, 0, 0xD9DB4CF9⟩)
  , (96, 0x5C1523722B99861216833E93, .laneAtom .min ⟨41, false, 55, 34, 185, 152, 12, 4, 2, 0x16833E93⟩)
  , (96, 0x5C248CC90B6CEEA22D281ED0, .laneAtom .max ⟨36, false, 204, 144, 182, 206, 29, 8, 2, 0x2D281ED0⟩)
  , (96, 0x5C35DD30CEC7FCD82E811113, .laneAtom .and ⟨46, true, 211, 12, 236, 127, 25, 22, 0, 0x2E811113⟩)
  , (96, 0x5C41D7014CF1456DC1C81C2D, .laneAtom .or ⟨14, true, 112, 20, 207, 20, 10, 27, 1, 0xC1C81C2D⟩)
  , (96, 0x5C527149F5B74FC393453D6F, .laneAtom .xor ⟨19, true, 20, 159, 91, 116, 31, 16, 3, 0x93453D6F⟩)
  , (96, 0x5C6009215187D38AEA1B73D8, .laneAtom .xchg ⟨0, false, 146, 21, 24, 125, 7, 2, 2, 0xEA1B73D8⟩)
  , (96, 0xF151B69DB4FA17B718F2EBD9, .pairWord { slot0 := ⟨11, 13, true, 113, 143, 46, 11, 217⟩, mid := false, slot1 := ⟨56, 10, true, 27, 105, 219, 4, 250⟩ })
  , (96, 0x8EBB1D22F69FB0359537887F, .pairWord { slot0 := ⟨24, 1, true, 89, 83, 120, 8, 127⟩, mid := true, slot1 := ⟨7, 5, true, 177, 210, 47, 6, 159⟩ }) ]
theorem test_decode_laneWords7 : decodes laneWords7 = true := by decide +kernel

/-- Words that the spec refuses: the all-zero word (R55), opcode 0x29, q15 as CMP's destination, a size code of 7, a sign-extending store, an unlisted function
(R46), a nonzero unused field, the all-zero lane word (R57), lane opcode 0x08, an unlisted lane function (R58). -/
theorem test_reserved_words : [(32, 0), (32, 0x52000000), (32, 0x34780000), (32, 0x40001C00), (32, 0x42001000), (32, 0x02000001), (32, 0x76000001), (96, 0)
    , (96, 8 * 2 ^ 88), (96, 1 * 2 ^ 88 + 6 * 2 ^ 84)].all (fun x => (decodeTableWord x.1 x.2).isNone) = true := by decide +kernel

/-- R59: the bytes of an instruction's words in memory, lowest address first. -/
theorem test_encode_bytes : encode (.add 5 6 7) = some [0x80, 0xC3, 0x28, 0x02]
    ∧ encode (.fma { word with vd := 8, va := 9, vb := 10, vc := 11, ty := 10 })
      = some [0x00, 0x00, 0x00, 0x00, 0x00, 0xB5, 0xA0, 0x90, 0x80, 0xE0, 0x0F, 0x11]
    ∧ encode (.cmpi .lt 1 8 4) = some [0x02, 0x00, 0x09, 0x36, 0x04, 0x00, 0x00, 0x00] := by decide +kernel

/-- R59: the header that waits for f0 and f3, FA f1, FB f2, three words, id 7; R52: an FA of 12 is no header. -/
theorem test_header : (decodeHeader 0x00098C880000000700000000).map (fun h => (h.wait, h.fa, h.fb, h.len, h.id)) = some (0x009, some 1, some 2, 3, 7)
    ∧ decodeHeader (BitVec.ofNat 96 (2 ^ 79 + 12 * 2 ^ 75)) = none := by decide +kernel

/-! ### Operands that an encoding does not admit -/

theorem test_wellFormed_scalar : [Instr.cmp .eq 15 0 0, .cmpi .eq 15 0 0, .qop .and 15 0 0, .qop .not 0 0 1, .cpy 12 0, .gath 62 0, .part 12 0, .puts 12 0, .get 12 0
    , .fabricRadd 12 0, .plcl 12 0, .plval 12 0 0].all (fun i => !i.wellFormed) = true := by decide +kernel
theorem test_wellFormed_lane : ([Instr.laneAdd, .laneShl, .laneShr, .laneSar, .rol, .ror, .laneBfx, .laneBfi, .arnd].all (fun c => !(c { word with md := 1 }).wellFormed)
    && [Instr.laneAddi, .laneShli, .laneShri, .laneSari, .roli, .rori, .bfxi, .bfii, .arndDiv].all (fun c => !(c word).wellFormed)
    && !(Instr.mma { word with imm := 0x80000000 }).wellFormed && !(Instr.mmaKreg word).wellFormed && !(Instr.mwait word).wellFormed
    && !(Instr.mwaitLast { word with imm := 0x80000000 }).wellFormed) = true := by decide +kernel

/-! ### One step of a scalar word -/

/-- The scalar registers after an instruction whose stream holds x in s1 and y in s2. -/
def regsAfter (i : Instr) (x y : Word) : ScalarRegs := regsIn (after (exec i (sceneWith x y)))

/-- R100: 18 + 2^63 − 1. -/
theorem test_add_wraps : (regsAfter (.add 5 1 2) 18 0x7FFFFFFFFFFFFFFF).getS 5 = 0x8000000000000011 := by decide +kernel
/-- R100: bits 63 to 60 are 0x8, and four bits beyond bit 63 read as zero. -/
theorem test_bfx_past_63 : (regsAfter (.bfx 7 1 2) 0x8000000000000011 0x83C).getS 7 = 8 := by decide +kernel
/-- R100: s8 < 4 on pass 3 and not on pass 4. -/
theorem test_cmpi_lt : (regsAfter (.cmpi .lt 1 1 4) 3 0).getQ 1 = true ∧ (regsAfter (.cmpi .lt 1 1 4) 4 0).getQ 1 = false
    ∧ (regsAfter (.cmpi .lt 1 1 4) 3 0).pc = 0x400008 := by decide +kernel
/-- R74: a division by zero gives all ones; R74: −2^63 ÷ −1 gives −2^63. -/
theorem test_div_corners : (regsAfter (.div false 3 1 2) 5 0).getS 3 = -1#64
    ∧ (regsAfter (.div false 3 1 2) 0x8000000000000000 (-1)).getS 3 = 0x8000000000000000 := by decide +kernel
/-- R100: CALL at offset 16 with offset 7 goes 28 bytes on, and s63 holds the address past it. -/
theorem test_call : (regsAfter (.call 15 false 7) 0 0).pc = 0x40001C ∧ (regsAfter (.call 15 false 7) 0 0).getS 63 = 0x400004 := by decide +kernel
/-- R100: a taken branch with offset −6 at offset 40 goes to offset 16; on the negated q15 it falls through. -/
def sceneBack : State := scene.modGroup 0 0 fun g => { g with regs := g.regs.goto 0x400028 }
theorem test_br_back : (regsIn (after (exec (.br 15 false 0xFFFFA) sceneBack))).pc = 0x400010
    ∧ (regsIn (after (exec (.br 15 true 0xFFFFA) sceneBack))).pc = 0x40002C := by decide +kernel
/-- R94: TRAP holds BREAK with its operands. -/
theorem test_trap_break : ((groupIn cScalar (after (exec (.trap 0xB1D 1) (sceneWith 0x1234 0)))).held.map fun x => (x.cause, x.tinfo, x.taddr)) = [(0x41, 0xB1D, 0x1234)] := by
  decide +kernel
/-- NOP fetched, decoded and run as the first instruction of a placed launch (R93). -/
theorem test_step_nop : (regsIn (after (step (placed 32 0x76000000)))).pc = 0x400004 := by decide +kernel

/-! ### One step of a lane word -/

/-- The lanes in a clause, each changed by its number. -/
def sceneF (f : Nat → Lane → Lane) : State := sceneL.modGroup 0 0 fun g => { g with lanes := (indexed 0 g.lanes).map fun il => f il.1 il.2 }
def laneAfter (i : Instr) (f : Nat → Lane → Lane) (j : Nat) : Lane := (groupIn cLane (after (exec i (sceneF f)))).lane j
/-- v13, v14 and v12 of every lane. -/
def held3 (x y z : Nat) : Nat → Lane → Lane := fun _ l => ((l.setV 13 x).setV 14 y).setV 12 z

/-- R131: the saturating and the wrapping sum. -/
theorem test_adds_s8 : (laneAfter (.adds { word with vd := 12, va := 13, vb := 14 }) (held3 0x7F800102FE106405 0x01FF807FFFF06403 0) 3).getV 12 = 0x7F80817FFD007F08
    ∧ (laneAfter (.laneAdd { word with vd := 12, va := 13, vb := 14 }) (held3 0x7F800102FE106405 0x01FF807FFFF06403 0) 3).getV 12 = 0x807F8181FD00C808 := by
  decide +kernel
/-- R131: QNT to f4 with scales 1.0 and 0.5, part 3. -/
theorem test_qnt_f4 :
    (laneAfter (.qnt { word with vd := 12, va := 13, vb := 14, ty := 12, imm := 0xA03 }) (held3 0xC02000003FA00000 0x3F800000 0) 0).getV 12 = 0xE4000000
    ∧ (laneAfter (.qnt { word with vd := 12, va := 13, vb := 14, ty := 12, imm := 0xA03 }) (held3 0xC02000003FA00000 0x3F000000 0) 0).getV 12 = 0xF6000000 := by
  decide +kernel
/-- R39, order 1: Y is added to an accumulator that holds X. -/
theorem test_aadd_f32 : let a := (laneAfter (.aadd { word with vd := 2, va := 13, ty := 10 })
      (fun j l => (held3 0x3E800000 0 0 j l).setA 2 { Acc.zero with seg := [0, 0, 0, 0, 0xFFFFFF0000000000, 0, 0, 0, 0, 0] }) 1).getA 2
    a.seg.getD 4 9 = 0 ∧ a.cnt.getD 4 9 = 1 := by decide +kernel
/-- R39, order 1: Z is subtracted from segment 5. -/
theorem test_aadd_negative : let a := (laneAfter (.aadd { word with vd := 2, va := 13, ty := 10 }) (held3 0xCA800000 0 0) 1).getA 2
    a.seg.getD 5 9 = -1#64 ∧ a.cnt.getD 5 9 = -1#16 := by decide +kernel
/-- R165: 2^63 − 1 is added at unit bit 298, across two segments. -/
theorem test_aadd_s64 : let a := (laneAfter (.aadd { word with vd := 2, va := 13, ty := 6 }) (held3 0x7FFFFFFFFFFFFFFF 0 0) 0).getA 2
    a.seg.getD 4 9 = 0xFFFFFC0000000000 ∧ a.seg.getD 5 9 = 0x000001FFFFFFFFFF := by decide +kernel

/-- R151, iteration 1: counters of five lanes, v1 = 3, 0, 2, 1, 4, p1 where v1 is 0, p2 where it is odd. -/
def nested (ns : List Nat) : Nat → Lane → Lane := fun j l =>
  let x := [3, 0, 2, 1, 4].getD j 0
  { (l.setP 1 (x == 0)).setP 2 (x % 2 == 1) with nest := BitVec.ofNat 8 (ns.getD j 255) }
def countersAfter (i : Instr) (ns : List Nat) : List (BitVec 8) := (List.range 5).map fun j => (laneAfter i (nested ns) j).nest
theorem test_structured_control : countersAfter (.laneBrk { word with va := 1 }) [0, 0, 0, 0, 0] = [0, 2, 0, 0, 0]
    ∧ countersAfter (.laneIf { word with va := 2 }) [0, 2, 0, 0, 0] = [0, 3, 1, 0, 1]
    ∧ countersAfter (.laneElse word) [0, 3, 1, 0, 1] = [1, 3, 0, 1, 0]
    ∧ countersAfter (.laneEndif word) [1, 3, 0, 1, 0] = [0, 2, 0, 0, 0] := by decide +kernel
/-- R151: the last ENDLOOP leaves the loop with every counter 0; one before goes back to word 8. -/
theorem test_endloop : countersAfter (.laneEndloop { word with imm := 8 }) [2, 2, 2, 2, 2] = [0, 0, 0, 0, 0]
    ∧ countersAfter (.laneEndloop { word with imm := 8 }) [2, 2, 2, 2, 0] = [2, 2, 2, 2, 0] := by decide +kernel
/-- R151: GRED adds 21, 0, 11, 10 and 22, gives every lane the sum, and pushes it. -/
def totals : Nat → Lane → Lane := fun j l => { l.setV 2 ([21, 0, 11, 10, 22].getD j 0) with nest := if j < 5 then 0 else 255, holds := decide (j < 5) }
theorem test_gred_add : (laneAfter (.gred .add { word with vd := 6, va := 2, ty := 4, md := 1 }) totals 1).getV 6 = 64
    ∧ (groupIn cLane (after (exec (.gred .add { word with vd := 6, va := 2, ty := 4, md := 1 }) (sceneF totals)))).lq = [64] := by decide +kernel

/-- R261's worked table: a full set of 2, 8, 2 and 4 lines of the classes meets misses of KV, KV, KV and general. -/
def fullSet : List L2Line := (indexed 0 [0, 0, 1, 1, 1, 1, 1, 1, 1, 1, 2, 2, 3, 3, 3, 3]).map fun ic =>
  { line := 196608 * ic.1, host := false, way := ic.1, cls := ic.2, dirty := false }
def countsAfter (misses : List Nat) : List Nat :=
  let l2 := (indexed 100 misses).foldl (fun l2 ic => l2Touch 0x060408020A061002 (196608 * ic.1) ic.2 false false l2) fullSet
  (List.range 4).map fun c => (l2.filter fun x => x.cls == c).length
theorem test_l2_fill : countsAfter [3] = [2, 7, 2, 5] ∧ countsAfter [3, 3] = [2, 6, 2, 6] ∧ countsAfter [3, 3, 3] = [2, 6, 2, 6]
    ∧ countsAfter [3, 3, 3, 0] = [3, 6, 2, 5] := by decide +kernel

end Sys2Proof.Tests
end

