-- ==== Sys2Proof/Tests/Witness10.lean ====
section
/-! SUPPORT. Concrete states and operands that meet the hypotheses of the statements about accesses that a check refuses (R167). -/

namespace Sys2Proof.Tests

open Sys2Proof Sys2Proof.Machine Sys2Proof.Claims

set_option maxRecDepth 100000
set_option Elab.async false

/-- Whether an answer is a given next state. -/
def isNext (a : Answer) (t : State) : Bool := a.goesOn && after a == t
theorem next_is {a : Answer} {t : State} (h : isNext a t = true) : a = .next t := by
  simp only [isNext, Bool.and_eq_true, beq_iff_eq] at h
  rw [next_of h.1, h.2]

/-- The agent of the stream in hand, what its requests are located at, and their team. -/
def hereA (s : State) : Agent := valOf (hereAgent s) (canalAgent probeContext)
def located (reqs : List Req) (s : State) : Except (Halt × State) (List (Option Word × Hit) × State) := reqs.mapM (locateReq (hereA s)) s
def hitsOf (reqs : List Req) (s : State) : List Hit := (valOf (located reqs s) []).map (·.2)
/-- Whether every request is aligned and translates. -/
def foundAll (reqs : List Req) (s : State) : Bool :=
  (reqs.all fun q => q.ea % (q.align : Int) == 0) && ends (located reqs s) fun l _ => l == (hitsOf reqs s).map fun h => (none, h)

theorem found_of {reqs : List Req} {s : State} (h : foundAll reqs s = true) :
    (∀ q ∈ reqs, q.ea % (q.align : Int) = 0) ∧ located reqs s = .ok ((hitsOf reqs s).map fun h => (none, h), stateOf (located reqs s)) := by
  simp only [foundAll, Bool.and_eq_true, List.all_eq_true, beq_iff_eq] at h
  obtain ⟨l, t, hm, hp⟩ := of_ends h.2
  refine ⟨h.1, ?_⟩
  rw [beq_iff_eq] at hp
  rw [hm, hp]
  rfl

/-- A request of eight bytes by the scalar stream. -/
def ask (scratch : Bool) (n al : Nat) (acc : Access) : Req := scalarReq scratch n 8 al acc

/-- LDAQ of an odd address. -/
def sceneOdd : State := sceneWith 0x600001 0
theorem witness_CheckFails_align : ∃ x u, CheckFails (hereA sceneOdd) (teamIn cScalar sceneOdd) [ask false 0x600001 8 .read] sceneOdd x u
    ∧ exec (.ldaq .dev .b64 3 1) sceneOdd = .next (u.takeTrap x) :=
  ⟨_, _, .align (ask false 0x600001 8 .read) [] (by decide +kernel), next_is (by decide +kernel)⟩

/-- A load of an address that no table maps. -/
def sceneNowhere : State := sceneWith 0x100000000000 0
theorem witness_CheckFails_address : ∃ x u, CheckFails (hereA sceneNowhere) (teamIn cScalar sceneNowhere) [ask false 0x100000000000 1 .read] sceneNowhere x u
    ∧ exec (.ld .u64 3 1 0) sceneNowhere = .next (u.takeTrap x) := by
  have h : ends (located [ask false 0x100000000000 1 .read] sceneNowhere) (fun l _ => l.length == 1 && l.all fun x => x.1.isSome
    && x.2.req == ask false 0x100000000000 1 .read) = true := by decide +kernel
  refine ⟨_, _, .address _ (((valOf (located [ask false 0x100000000000 1 .read] sceneNowhere) []).head?.bind (·.1)).getD 0)
    (ask false 0x100000000000 1 .read) [] _ (by decide +kernel) (ok_of (d := []) h) (by decide +kernel), next_is (by decide +kernel)⟩

/-- A store beyond the team's scratchpad. -/
def sceneBeyond : State := sceneWith 0x10000 7
theorem witness_CheckFails_bounds : ∃ x u, CheckFails (hereA sceneBeyond) (teamIn cScalar sceneBeyond) [ask true 0x10000 1 .write] sceneBeyond x u
    ∧ exec (.sts .b64 2 1 0) sceneBeyond = .next (u.takeTrap x) :=
  have h := found_of (reqs := [ask true 0x10000 1 .write]) (s := sceneBeyond) (by decide +kernel)
  ⟨_, _, .bounds _ (ask true 0x10000 1 .write) [] _ h.1 h.2 (by decide +kernel), next_is (by decide +kernel)⟩

/-- A store to bytes that a command reads. -/
def sceneRead : State := (sceneWith 0x40 7).modTeam 0 fun T => { T with locks := [{ space := 1, core := 0, start := 0x40, len := 8, write := false, grp := 0, cmd := 0 }] }
theorem witness_CheckFails_range : ∃ x u, CheckFails (hereA sceneRead) (teamIn cScalar sceneRead) [ask true 0x40 1 .write] sceneRead x u
    ∧ exec (.sts .b64 2 1 0) sceneRead = .next (u.takeTrap x) :=
  have h := found_of (reqs := [ask true 0x40 1 .write]) (s := sceneRead) (by decide +kernel)
  ⟨_, _, .range _ (ask true 0x40 1 .write) [] _ h.1 h.2 (by decide +kernel) (by decide +kernel), next_is (by decide +kernel)⟩

/-- A store, and an exchange, to a page that may only be read. -/
def sceneReadOnly : State := { sceneWith 0x600000 7 with mem := cellsWrite 0x200000 (toBytes 8 0x07) scene.mem }
theorem witness_CheckFails_access : ∃ x u, CheckFails (hereA sceneReadOnly) (teamIn cScalar sceneReadOnly) [ask false 0x600000 1 .write] sceneReadOnly x u
    ∧ exec (.st .b64 2 1 0) sceneReadOnly = .next (u.takeTrap x) :=
  have h := found_of (reqs := [ask false 0x600000 1 .write]) (s := sceneReadOnly) (by decide +kernel)
  ⟨_, _, .access _ ((hitsOf [ask false 0x600000 1 .write] sceneReadOnly).headD ⟨ask false 0 1 .write, []⟩) [] _ h.1 h.2 (by decide +kernel) (by decide +kernel)
    (by decide +kernel), next_is (by decide +kernel)⟩

/-! ### The lanes' accesses -/

/-- Lanes 5 to 7 name bytes beyond the scratchpad; lane 3 an address that is not aligned. -/
def sceneFar : State := sceneU (fun j => if j < 5 then 8 * j else 0x10000 + 8 * j) fun j => j
def farLd : List Req := ((loadOf (laneIn wLd sceneFar) wLd (.laneLds wLd)).map (·.1)).getD []
theorem witness_CheckFails_laneLds : ∃ x u, CheckFails (hereA sceneFar) (teamIn cLane sceneFar) farLd sceneFar x u ∧ x.tlane = 0xE0 ∧ x.taddr = 0x10028
    ∧ LaneReady (.laneLds wLd) wLd (laneIn wLd sceneFar) sceneFar ∧ exec (.laneLds wLd) sceneFar = .next (u.takeTrap x) :=
  have h := found_of (reqs := farLd) (s := sceneFar) (by decide +kernel)
  ⟨_, _, .bounds _ (farLd.getD 5 (ask true 0 1 .read)) (farLd.drop 6) _ h.1 h.2 (by decide +kernel), by decide +kernel, by decide +kernel,
    laneReady_of (by decide +kernel), next_is (by decide +kernel)⟩
def farSt : List Req := ((storeOf (laneIn wSt sceneFar) wSt (.laneSts wSt)).map (·.1)).getD []
theorem witness_CheckFails_laneSts : ∃ x u, CheckFails (hereA sceneFar) (teamIn cLane sceneFar) farSt sceneFar x u ∧ x.tlane = 0xE0
    ∧ LaneReady (.laneSts wSt) wSt (laneIn wSt sceneFar) sceneFar ∧ exec (.laneSts wSt) sceneFar = .next (u.takeTrap x) :=
  have h := found_of (reqs := farSt) (s := sceneFar) (by decide +kernel)
  ⟨_, _, .bounds _ (farSt.getD 5 (ask true 0 1 .read)) (farSt.drop 6) _ h.1 h.2 (by decide +kernel), by decide +kernel, laneReady_of (by decide +kernel),
    next_is (by decide +kernel)⟩
def sceneSkew : State := sceneU (fun j => if j = 3 then 0x600001 else 0x600000 + 8 * j) fun j => j
theorem witness_CheckFails_atom : ∃ x u, CheckFails (hereA sceneSkew) (teamIn cLane sceneSkew) (atomReqs (laneIn wAtom sceneSkew) wAtom) sceneSkew x u
    ∧ x.tlane = 8 ∧ LaneReady (.laneAtom .add wAtom) wAtom (laneIn wAtom sceneSkew) sceneSkew ∧ orderedWait sceneSkew = .ok (0, sceneSkew)
    ∧ exec (.laneAtom .add wAtom) sceneSkew = .next (u.takeTrap x) :=
  ⟨_, _, .align ((atomReqs (laneIn wAtom sceneSkew) wAtom).getD 3 (ask true 0 1 .read)) [] (by decide +kernel), by decide +kernel,
    laneReady_of (by decide +kernel), of_ends_same (by decide +kernel), next_is (by decide +kernel)⟩

end Sys2Proof.Tests
end

