-- ==== Sys2Proof/Tests/Witness11.lean ====
section
/-! SUPPORT. Concrete states and operands that meet the hypotheses of the statements about where words wait and trap, each with what it then does. -/

namespace Sys2Proof.Tests

open Sys2Proof Sys2Proof.Machine Sys2Proof.Claims

set_option maxRecDepth 100000
set_option Elab.async false

/-! ### Scalar words -/

/-- SDONE while a run is pending, and while a flag is up. -/
def sceneRunPending : State := scene.modGroup 0 0 fun g => { g with runs := [⟨0, Vector.replicate 8 0⟩] }
theorem witness_DrainWordsComplete_waits : Ready cScalar sceneRunPending ∧ (groupIn cScalar sceneRunPending).pending ≠ 0
    ∧ isNext (exec .sdone sceneRunPending) (sceneRunPending.markStall .lastRuns) = true
    ∧ Ready cScalar (sceneIdle.modGroup 0 0 fun g => g.setFlag 3 1) ∧ (groupIn cScalar (sceneIdle.modGroup 0 0 fun g => g.setFlag 3 1)).pending = 0
    ∧ isNext (exec .sdone (sceneIdle.modGroup 0 0 fun g => g.setFlag 3 1)) ((sceneIdle.modGroup 0 0 fun g => g.setFlag 3 1).markStall .lastFlags) = true :=
  ⟨ready_of (by decide +kernel), by decide +kernel, by decide +kernel, ready_of (by decide +kernel), by decide +kernel, by decide +kernel⟩

/-- TRAP while tracing is enabled, and while it is not. -/
def sceneTrace : State := (sceneWith 5 0).modDome fun d => { d with tracectl := 0x1FF, trace := some (0x800000, 64), traceFree := 64 }
def trapArgs : TrapArgs := { cause := 0x41, taddr := 5, tinfo := 7 }
theorem witness_TrapCompletes : (∀ s ∈ [sceneTrace, sceneWith 5 0], handy cScalar s = true ∧ (regsIn s).getS 1 = 5
      ∧ isNext (exec (.trap 7 1) s) (((s.scalarNext 4 (regsIn s)).traceGroup 0 0 7 7 ((regsIn s).pc + 4).toNat).takeTrap trapArgs) = true)
    ∧ isNext (exec (.trap 7 1) (sceneWith 5 0)) (((sceneWith 5 0).scalarNext 4 (regsIn (sceneWith 5 0))).takeTrap trapArgs) = true
    ∧ ((after (exec (.trap 7 1) sceneTrace)).mem == sceneTrace.mem) = false := by
  decide +kernel
theorem witness_TrapIsHeld_traced : handy cScalar sceneTrace = true ∧ (teamIn cScalar sceneTrace).state = .running
    ∧ (contextIn cScalar sceneTrace).handler.isSome = true ∧ ((sceneTrace.takeTrap trapArgs).team? 0).any (fun T => T.state == .stopping) = true
    ∧ ((sceneTrace.takeTrap trapArgs).mem == (sceneTrace.traceGroup 0 0 3 0x41 (groupIn cScalar sceneTrace).regs.pc.toNat).mem) = true := by
  decide +kernel

/-- PLCX of one tile, and of all: nothing is noted yet; its tile has not settled; it was refused; a mode forbids it. -/
def sceneCx (canc all : Bool) (n : Word) (refused : List Nat) (noted : Bool) (detm : Nat) : State :=
  ((sceneT canc (if all then -1 else 0) n).modGroup 0 0 fun g =>
    { g with cancel := if noted then some { num := 0, coll := 0, tiles := [0], count := 1, refused := refused } else none }).modLaunch 0 fun L =>
      { L with detm := detm }
/-- The state in which PLCX has noted its cancel and sent it to the tile's owner, this device. -/
def notedCx (s : State) : State :=
  let u : State := { s.modGroup 0 0 fun g => { g with cancel := some { num := s.nextId, coll := 0, tiles := [0], count := 1, refused := [] } } with
    nextId := s.nextId + 1 }
  (u.post (.cancelRequest (plclOf.key 0 0) 1 0 false)).markStall .engine
theorem witness_TileWordsComplete_first : ∀ all ∈ [false, true], Ready cScalar (sceneCx false all 1 [] false 0)
    ∧ hereTile 0x100 0 (sceneCx false all 1 [] false 0) = .ok (tileIn (sceneT false 0 0), sceneCx false all 1 [] false 0)
    ∧ (tileIn (sceneT false 0 0)).1.planes = 8 ∧ (groupIn cScalar (sceneCx false all 1 [] false 0)).cancel = none
    ∧ (tileIn (sceneT false 0 0)).1.owner 0 = (tileIn (sceneT false 0 0)).1.comm.pos
    ∧ isNext (exec (.plcx 3 1 2) (sceneCx false all 1 [] false 0)) (notedCx (sceneCx false all 1 [] false 0)) = true := by
  intro all h
  simp only [List.mem_cons, List.not_mem_nil, or_false] at h
  rcases h with rfl | rfl <;>
  exact ⟨ready_of (by decide +kernel), of_ends_same (by decide +kernel), by decide +kernel, by decide +kernel, by decide +kernel, by decide +kernel⟩
theorem witness_TileWordsComplete_unsettled : (groupIn cScalar (sceneCx false false 1 [] true 0)).cancel.any (fun y =>
      !y.tiles.all (y.settled (tileIn (sceneCx false false 1 [] true 0)).1 0)) = true
    ∧ isNext (exec (.plcx 3 1 2) (sceneCx false false 1 [] true 0)) ((sceneCx false false 1 [] true 0).markStall .engine) = true := by
  decide +kernel
theorem witness_TileWordsComplete_refused : (groupIn cScalar (sceneCx true false 1 [0] true 1)).cancel.any (fun y =>
      y.tiles.all (y.settled (tileIn (sceneCx true false 1 [0] true 1)).1 1) && !y.refused.isEmpty) = true
    ∧ isNext (exec (.plcx 3 1 2) (sceneCx true false 1 [0] true 1))
      (((sceneCx true false 1 [0] true 1).modGroup 0 0 fun g => { g with cancel := none }).takeTrap { cause := 0x31 }) = true := by
  decide +kernel
theorem witness_TileWordsComplete_forbidden : (∀ d ∈ [1, 2],
      isNext (exec (.plcx 3 1 2) (sceneCx false false 0 [] false d)) ((sceneCx false false 0 [] false d).takeTrap { cause := 0x31 }) = true
      ∧ isNext (exec (.plval 3 1 2) (sceneCx false false 0 [] false d)) ((sceneCx false false 0 [] false d).takeTrap { cause := 0x31 }) = true)
    ∧ natBits ((regsIn (sceneCx false false 0 [] false 1)).getS 2).toNat 31 24 = 0 := by
  decide +kernel

/-- CTAB of a table that lies in one element of a page of accumulators, where its bytes are one piece; and the rest of one in several. -/
def sceneKA : State :=
  { sceneC [] 2 0xC0000000 with mem := cellsWrite 0x200030 (toBytes 8 0xC000101F ++ toBytes 8 2) (cellsWrite 0xC0000000 knots scene.mem) }
theorem witness_OperandWordsComplete_piece : ∃ h s' t, Ready cScalar sceneKA ∧ Reached (scalarReq false ((regsIn sceneKA).getS 2).toNat 68 4 .read) h sceneKA s'
    ∧ h.remote = false ∧ onePiece [(h.readAt 0).blocks] = true ∧ s'.loadTable 0 0 2 (s'.readHit 0 h) = some t
    ∧ isNext (exec (.ctab 1 2) sceneKA) (t.scalarNext 4 (regsIn sceneKA)) = true :=
  ⟨hitOf (checkK sceneKA), stateOf (checkK sceneKA),
    ((stateOf (checkK sceneKA)).loadTable 0 0 2 ((stateOf (checkK sceneKA)).readHit 0 (hitOf (checkK sceneKA)))).getD scene,
    ready_of (by decide +kernel), reached_of (by decide +kernel), by decide +kernel, by decide +kernel, some_getD (by decide +kernel) scene, by decide +kernel⟩
theorem witness_OperandWordsComplete_rest : ((sceneK knots).loadTable 0 0 2 (bytesRead knots [] (sceneK knots))).isSome = true
    ∧ (sceneK knots).leftBy 0 0 .scalar = false ∧ onePiece [((hitOf (checkK (sceneK knots))).readAt 0).blocks] = false := by
  decide +kernel
/-- A load across two granules of HBM: what its stream has, of which the second granule is still to be read; and a load of one piece. -/
def sceneCross : State := { sceneWith 0x60001C 0 with mem := cellsWrite 0x60001C (toBytes 8 0x1122334455667788) scene.mem }
def restCross : List (Nat × Nat × Block) := [(0, 4, .part 32 { va := 0x600020, len := 4, place := .hbm 0x600020, perm := 7, kind := 0 } (toBytes 4 0))]
theorem witness_ScalarLoadsComplete_rest : sceneCross.scalarRegs? = some (regsIn sceneCross) ∧ sceneCross.leftBy 0 0 .scalar = false
    ∧ bytesRead (toBytes 8 0x55667788) restCross sceneCross = toBytes 8 0x1122334455667788
    ∧ ((sceneCross.performApart (scalarRest cScalar 3 3 5 (toBytes 8 0x55667788) restCross)).group? 0 0).any (fun G =>
        G.regs.getS 3 == 0x1122334455667788) = true := by
  decide +kernel
theorem witness_ScalarLoadsComplete_pieces : ∃ h s', Reached (scalarReq false 0x60001C 8 1 .read) h sceneCross s' ∧ h.remote = false
    ∧ onePiece [(h.readAt 0).blocks] = false ∧ Ready cScalar sceneCross :=
  ⟨_, _, reached_of (by decide +kernel), by decide +kernel, by decide +kernel, ready_of (by decide +kernel)⟩
theorem witness_ScalarLoadsComplete_piece : ∃ h s', Reached (scalarReq false 0x600000 8 1 .read) h sceneG s' ∧ h.remote = false
    ∧ onePiece [(h.readAt 0).blocks] = true ∧ h.waitsHere s' (agentIn s') = false
    ∧ isNext (exec (.ld .u64 3 1 0) sceneG) (s'.scalarNext 4 ((regsIn sceneG).setS 3 (loadValue .u64 (s'.readHit 0 h)))) = true :=
  ⟨_, _, reached_of (by decide +kernel), by decide +kernel, by decide +kernel, by decide +kernel, by decide +kernel⟩

/-! ### Lane words -/

/-- Fields outside the launch's registers, and a guard that names no predicate. -/
def wFarReg : LaneWord := { wAdd with vd := 200 }
def wNoGuard : LaneWord := { wAdd with guard := 100 }
theorem witness_IdleWordsSkip_illegal : ∃ f f', laneForm 64 (.laneAdd wFarReg) = some (f', wFarReg) ∧ laneForm 8 (.laneAdd wFarReg) = some (f, wFarReg)
    ∧ actsIdle (.laneAdd wFarReg) = false ∧ (groupIn cLane sceneN).lanes.length = 8
    ∧ (∃ j ∈ (groupIn cLane sceneN).active, ((groupIn cLane sceneN).lane j).passes 127 false = true) ∧ f.legal wFarReg 32 4 1 = false
    ∧ isNext (exec (.laneAdd wFarReg) sceneN) (sceneN.takeTrap { cause := 0x01 }) = true ∧ wNoGuard.guardOk = false
    ∧ isNext (exec (.laneAdd wNoGuard) sceneN) (sceneN.takeTrap { cause := 0x01 }) = true :=
  ⟨_, _, rfl, rfl, rfl, by decide +kernel, by decide +kernel, by decide +kernel, by decide +kernel, by decide +kernel, by decide +kernel⟩
/-- A guarded word of control; an ENDLOOP to an address where no header lies, and to one beyond the section. -/
def wGuarded : LaneWord := { word with guard := 0 }
def wOut : LaneWord := { word with imm := 256 }
def sceneNoHead : State := { sceneN with mem := cellsWrite 0x500000 (toBytes 12 (2 ^ 96 - 1)) sceneN.mem }
theorem witness_ControlWordsComplete_traps : (groupIn cLane sceneN).active ≠ []
    ∧ (∀ i ∈ [Instr.laneIf wGuarded, .laneStop wGuarded, .mfen wGuarded], actsIdle i = true
      ∧ isNext (exec i sceneN) (sceneN.takeTrap { cause := 0x01 }) = true)
    ∧ control (.laneEndloop word) word sceneNoHead = true ∧ control (.laneEndloop wOut) wOut sceneN = true
    ∧ (∃ j ∈ (groupIn cLane sceneNoHead).occupied, ((groupIn cLane sceneNoHead).lane j).nest.toNat ≤ 1)
    ∧ ends (headerAt 0 sceneNoHead) (fun h t => h.isNone && isNext (exec (.laneEndloop word) sceneNoHead) (t.takeTrap { cause := 0x06, tlpc := some 0 })) = true
    ∧ isNext (exec (.laneEndloop wOut) sceneN) (sceneN.takeTrap { cause := 0x06, tlpc := some 256 }) = true := by
  decide +kernel

/-! ### Words over tiles -/

/-- The same as `sceneMma`, with a lane nested; with a record that names a table that no CTAB has loaded. -/
def sceneTorn : State := (sceneMma [] 0).modGroup 0 0 fun g => { g with lanes := modifyAt (fun l => { l with nest := 1 }) 3 g.lanes }
def resvT : Reservation := { resvF with record := toBytes 4 2048 ++ toBytes 4 0x8200000A ++ toBytes 8 0 ++ toBytes 4 32 ++ toBytes 4 16 ++ toBytes 8 0 }
def sceneNoTable : State := (sceneMma [] 0).modTeam 0 fun T => { T with resv := T.resv.set 3 (some resvT) }
theorem witness_MmaIssues_traps : (∀ w ∈ [{ wMma with guard := 0, neg := true }, { wMma with vb := 4 }, { wMma with vd := 9 }],
      (laneIn w (sceneMma [] 0)).parts ≠ [] ∧ w.guardOk = true ∧ isNext (exec (.mma w) (sceneMma [] 0)) ((sceneMma [] 0).takeTrap { cause := 0x01 }) = true)
    ∧ (groupIn cLane sceneTorn).active.length ≠ (groupIn cLane sceneTorn).lanes.length
    ∧ (∀ i ∈ [Instr.mma wMma, .mzero { word with vb := 0 }], isNext (exec i sceneTorn) (sceneTorn.takeTrap { cause := 0x03, tinfo := 4 }) = true)
    ∧ (mmaBlock (laneIn { wMma with imm := 0x0A000001 } (sceneMma [] 0)) { wMma with imm := 0x0A000001 }) = (1, 0)
    ∧ isNext (exec (.mma { wMma with imm := 0x0A000001 }) (sceneMma [] 0)) ((sceneMma [] 0).takeTrap { cause := 0x15 }) = true
    ∧ recordTable resvT.record = some 2 ∧ (sceneNoTable.cores[0]?).all (fun y => (y.tables[2]?).all Option.isNone) = true
    ∧ isNext (exec (.mma wMma) sceneNoTable) (sceneNoTable.takeTrap { cause := 0x01 }) = true := by
  decide +kernel

/-! ### Pair words -/

/-- A pair whose first slot's destination lies outside the launch's registers, one with bit 47 set, and one whose guard does not exist. -/
def pairFar : PairWord := { pairOk with slot0 := { pairOk.slot0 with vd := 200 } }
def pairMid : PairWord := { pairOk with mid := true }
def pairGuard : PairWord := { pairOk with slot1 := { pairOk.slot1 with guard := 15, neg := true } }
theorem witness_PairAndReservedWords_illegal : (slotIn pairFar.slot0 sceneL).parts ≠ [] ∧ pairFar.slot0.legal 32 4 = false
    ∧ ∀ p ∈ [pairFar, pairMid, pairGuard], isNext (exec (.pairWord p) sceneL) (sceneL.takeTrap { cause := 0x01 }) = true := by
  decide +kernel

/-! ### Waits and stores of the logical clock -/

/-- A WAITA of lanes that was woken, though a lane still reads its compare value. -/
def sceneWoken : State := sceneEq.modGroup 0 0 fun g => { g with woken := true }
theorem witness_LaneWaitsComplete_woken : LaneReady (.laneWaita wWaita) wWaita (laneIn wWaita sceneWoken) sceneWoken
    ∧ (laneIn wWaita sceneWoken).G.woken = true ∧ orderedWait sceneWoken = .ok (0, sceneWoken)
    ∧ (match exec (.laneWaita wWaita) sceneWoken with
      | .next t => (t.group? 0 0).any fun X => !X.woken && X.park.isNone && (X.lanes.map fun l => l.getV 2) == List.replicate 8 0
      | _ => false) = true :=
  ⟨laneReady_of (by decide +kernel), by decide +kernel, of_ends_same (by decide +kernel), by decide +kernel⟩
/-- A releasing store under determinism mode 2 that waits for blocks of its own, and one that has waited for them. -/
def sceneClock (n : Nat) : State := (sceneM.modLaunch 0 fun L => { L with detm := 2 }).modGroup 0 0 fun g =>
  { g with loads := [{ id := 7, tag := 0, dsts := [], waiting := n, nacks := [], blocks := true }] }
theorem witness_LaneStoresComplete_clocked : ∀ n ∈ [0, 1], LaneReady (.laneSt wRel) wRel (laneIn wRel (sceneClock n)) (sceneClock n)
    ∧ (laneIn wRel (sceneClock n)).L.detm = 2 ∧ ((laneIn wRel (sceneClock n)).G.loads.find? (·.blocks)).any (fun r => r.waiting == n && r.nacks.isEmpty) = true
    ∧ ends (orderedWait (sceneClock n)) (fun _ t => t == sceneClock n) = true
    ∧ ends (checkAccess ((storeOf (laneIn wRel (sceneClock n)) wRel (.laneSt wRel)).getD ([], [], false)).1 (fun _ => true) (sceneClock n)) (fun hits s' =>
        ends (prepare (laneIn wRel (sceneClock n)) hits true false s') (fun _ t => t == s') && s'.poison.isEmpty
        && isNext (exec (.laneSt wRel) (sceneClock n)) (if n = 1 then s'.markStall .remote else (storeEntered (laneIn wRel (sceneClock n))
          (laneIn wRel (sceneClock n)).G.nextRec (scopeOf wRel) (s'.modGroup 0 0 fun g => { g with loads := [] })).laneNext cLane)) = true := by
  intro n hn
  simp only [List.mem_cons, List.not_mem_nil, or_false] at hn
  rcases hn with rfl | rfl <;>
  exact ⟨laneReady_of (by decide +kernel), by decide +kernel, by decide +kernel, by decide +kernel, by decide +kernel⟩

end Sys2Proof.Tests
end

