-- ==== Sys2Proof/Tests/Witness12.lean ====
section
/-! SUPPORT. Concrete states and operands that meet the hypotheses of the statements about the fabric, the scheduler and a step, each with what then
happens. -/

namespace Sys2Proof.Tests

open Sys2Proof Sys2Proof.Machine Sys2Proof.Claims

set_option maxRecDepth 100000
set_option Elab.async false

/-! ### Requests and answers -/

/-- The parts that a request names in `sceneHeap`, and the state after its walk. -/
def partsIn (r : FabricReq) (s : State) : List Part := match (s.resolve r).1 with
  | .inr (some ps) => ps
  | _ => []
def reqWrite : FabricReq := { reqOf 1 0 with op := .write (toBytes 8 5) }
def reqAdd : FabricReq := { reqOf 1 0 with op := .atom .add false 8 7 }
theorem witness_FabricEventsComplete_serves : (∀ r ∈ [reqOf 1 0, reqWrite, reqAdd], sceneHeap.behindParked r = false ∧ (partsIn r sceneHeap).length = 1)
    ∧ isNext (exec (.fabricRequest (reqOf 1 0)) sceneHeap)
      ((sceneHeap.resolve (reqOf 1 0)).2.reply (reqOf 1 0) none ((sceneHeap.resolve (reqOf 1 0)).2.readParts (partsIn (reqOf 1 0) sceneHeap))) = true
    ∧ (let v := (sceneHeap.resolve reqWrite).2
       let x := (v.dropLines (partsIn reqWrite sceneHeap)).putApart false { Apart.of ⟨0, 0, .scalar⟩ 0 with reply := some (reqWrite, []) }
        [(partsIn reqWrite sceneHeap).flatMap fun p => p.blocksOf p.peerUnit (toBytes 8 5)]
       !x.2 && isNext (exec (.fabricRequest reqWrite) sceneHeap) (x.1.reply reqWrite none [])) = true
    ∧ (let v := (sceneHeap.resolve reqAdd).2.perform reqAdd.op (partsIn reqAdd sceneHeap)
       isNext (exec (.fabricRequest reqAdd) sceneHeap) (v.2.reply reqAdd none v.1)) = true := by
  decide +kernel

/-- An answer that nobody waits for. -/
def sceneOrphan : State := scene.modDome fun d => { d with orphans := [(9, 0)] }
theorem witness_FabricEventsComplete_orphan : sceneOrphan.remotes = [] ∧ (sceneOrphan.dome.orphans.find? fun y => y.1 == 9) = some (9, 0)
    ∧ isNext (exec (.fabricResponse ⟨9, none, toBytes 8 1⟩) sceneOrphan)
      (let u := sceneOrphan.modDome fun d => { d with orphans := [] }
       if (sceneOrphan.dome.canals[0]?).any (·.up) then u.send (.credit 0 1 (beats 8)) else u) = true := by
  decide +kernel

/-- A link that a ring crosses goes down; and a notice that another device's link of the ring has. -/
def sceneRing (issued : Nat) : State :=
  let s := sceneColl 3 1 0 fixedTile 0
  { s with contexts := [{ probeContext with podTag := some 1, comms := [{ ringOf 3 1 with issued := issued }] }] }
theorem witness_FabricEventsComplete_ring : (sceneRing 1).contexts.any (fun C => C.comms.any fun y => (sceneRing 1).crosses 0 y) = true
    ∧ (sceneRing 1).commOf? keyOf = some (ringOf 3 1) ∧ (sceneRing 0).commOf? { keyOf with seq := 1 } = some { ringOf 3 1 with issued := 0 }
    ∧ scene.commOf? keyOf = none := by
  decide +kernel
theorem witness_FabricEventsComplete_told : (sceneRing 1).dome.credited = []
    ∧ isNext (exec (.linkDown (.ring keyOf 1)) scene) (scene.ringCredit keyOf 3 64) = true := by
  decide +kernel

/-! ### Collectives, launches, the device -/

/-- A message of VC 3 that has waited here: its beats have gone back already. -/
def sceneCredited : State := (sceneColl 3 0 0 fixedTile 0).modDome fun d => { d with credited := [.cancelRequest keyOf 1 0 false] }
theorem witness_CollectiveEventsComplete_came : sceneCredited.dome.credited.contains (.cancelRequest keyOf 1 0 false) = true
    ∧ sceneCredited.collOf? keyOf = some (0, collOn 3 0 0 fixedTile) ∧ (sceneColl 3 0 0 fixedTile 0).dome.credited = []
    ∧ ((sceneRing 1).commOf? keyOf).any (·.pos == 1) = true := by
  decide +kernel

/-- A queue whose next entry lies in a line that the host holds. -/
def sceneHeldQ : State := (sceneQ entryOf).hostTake (0x620000 / 128)
theorem witness_SchedulingEventsComplete_held : sceneHeldQ.ready = true ∧ (sceneHeldQ.heldLine 0x620000 32).isSome = true
    ∧ queueOk sceneHeldQ (fun _ q _ => q.base + 32 * (if q.size = 0 then 0 else q.next % q.size) == 0x620000) = true
    ∧ (match exec (.launchAccept 0 0) sceneHeldQ with
      | .next t => (t.context? 0).any fun C => (C.queues[0]?).any fun q => q.waiting == 1 && q.next == 0
      | _ => false) = true := by
  decide +kernel
/-- A class-0 launch whose team fits on no core, core 0 being full. -/
def urgent : Launch := { probeLaunch with placed := 0, cls := 0, spad := 4194304 }
def sceneUrgent : State := { sceneCrowd 0 with launches := [{ probeLaunch with spad := 4194304 }, urgent] }
theorem witness_SchedulingEventsComplete_urgent : sceneUrgent.launches[1]? = some urgent ∧ sceneUrgent.ready = true ∧ sceneUrgent.othersFirst 1 urgent = false
    ∧ sceneUrgent.mateFirst 1 urgent.clusters.length = false ∧ (sceneUrgent.planFor 1).isNone = true ∧ urgent.wants = true ∧ sceneUrgent.depsMet urgent = true
    ∧ (sceneUrgent.context? 0).any (fun C => sceneUrgent.victim urgent C.cores == some 0) = true
    ∧ (match exec (.teamPlace 1) sceneUrgent with
      | .next t => (t.cores[0]?).any (fun y => y.taking == some 1) && (t.team? 0).any fun T => T.stop
      | _ => false) = true := by
  decide +kernel

/-! ### Steps -/

/-- A stream that a cycle did not choose: its word would complete; its page is not at hand; it has stopped. -/
def sceneTry (s : State) (c : Cur) : State := { s with agenda := [.attempt c] }
theorem witness_StepRunsDecoded_attempt : ((({ placed 32 0x76000000 with agenda := [] } : State).tried cScalar).any fun v => (v.stallOf cScalar).isNone) = true
    ∧ isNext (step (sceneTry (placed 32 0x76000000) cScalar)) { placed 32 0x76000000 with agenda := [] } = true
    ∧ ((({ placedAway with agenda := [] } : State).tried cScalar).any fun v => (v.stallOf cScalar).isSome
      && isNext (step (sceneTry placedAway cScalar)) v) = true
    ∧ ({ placed 32 0x76000000 with agenda := [] } : State).tried cHandler = none := by
  decide +kernel

end Sys2Proof.Tests
end

section
/-! SUPPORT. The quotients, remainders and shifts of scalar words as operations of `BitVec`, the decoding of SEL's word, and the statements about them
(R74, R75, R82). -/

namespace Sys2Proof.Proofs

open Machine Claims Laws

/-! ### Two's complement -/

/-- The model's signed reading of a word's bits is the library's. -/
theorem signed_toNat (x : Word) : signed 64 x.toNat = x.toInt := by
  have hx : x.toNat < 2 ^ 64 := x.isLt
  have htop : 2 * x.toNat < 2 ^ 64 ↔ x.toNat < 2 ^ (64 - 1) := by omega
  simp only [signed, Nat.mod_eq_of_lt hx, BitVec.toInt_eq_toNat_cond, htop]
  rfl

/-- Wrapping an integer to `w` bits (R16) reads it as a bit vector. -/
theorem ofNat_wrapNat (w : Nat) (z : Int) : BitVec.ofNat w (wrapNat w z) = BitVec.ofInt w z := by
  have hnonneg : 0 ≤ z % (2 ^ w : Int) := Int.emod_nonneg z (Int.ne_of_gt (Int.pow_pos (by decide)))
  rw [← BitVec.ofInt_natCast, wrapNat, Int.toNat_of_nonneg hnonneg]
  apply BitVec.eq_of_toInt_eq
  rw [BitVec.toInt_ofInt, BitVec.toInt_ofInt]
  exact_mod_cast Int.emod_bmod z (2 ^ w)

/-! ### Division (R74) -/

theorem toNat_mod_ne_zero {y : Word} (hy : y ≠ 0) : y.toNat % 2 ^ 64 ≠ 0 := by
  rw [Nat.mod_eq_of_lt y.isLt]
  exact fun h => hy (BitVec.eq_of_toNat_eq h)

theorem divWord_zero (u : Bool) (x : Word) : divWord u x 0 = BitVec.allOnes 64 := rfl

theorem remWord_zero (u : Bool) (x : Word) : remWord u x 0 = x := by
  have hrem : remainder (!u) 64 x.toNat 0 = x.toNat := Nat.mod_eq_of_lt x.isLt
  rw [remWord, show BitVec.toNat (0 : Word) = 0 from rfl, hrem, BitVec.ofNat_toNat, BitVec.setWidth_eq]

theorem divWord_signed {y : Word} (hy : y ≠ 0) (x : Word) : divWord false x y = x.sdiv y := by
  have htdiv : divWord false x y = BitVec.ofInt 64 (x.toInt.tdiv y.toInt) := by
    rw [divWord, divide, if_neg (toNat_mod_ne_zero hy), signed_toNat, signed_toNat]
    exact ofNat_wrapNat 64 _
  apply BitVec.eq_of_toInt_eq
  rw [htdiv, BitVec.toInt_ofInt, BitVec.toInt_sdiv]

theorem remWord_signed {y : Word} (hy : y ≠ 0) (x : Word) : remWord false x y = x.srem y := by
  have htmod : remWord false x y = BitVec.ofInt 64 (x.toInt.tmod y.toInt) := by
    rw [remWord, remainder, if_neg (toNat_mod_ne_zero hy), signed_toNat, signed_toNat]
    exact ofNat_wrapNat 64 _
  rw [htmod, ← BitVec.toInt_srem, BitVec.ofInt_toInt]

theorem divWord_unsigned {y : Word} (hy : y ≠ 0) (x : Word) : divWord true x y = x / y := by
  rw [divWord, divide, if_neg (toNat_mod_ne_zero hy), Nat.mod_eq_of_lt x.isLt, Nat.mod_eq_of_lt y.isLt]
  exact (BitVec.ofNat_toNat 64 (x / y)).trans (BitVec.setWidth_eq _)

theorem remWord_unsigned {y : Word} (hy : y ≠ 0) (x : Word) : remWord true x y = x % y := by
  rw [remWord, remainder, if_neg (toNat_mod_ne_zero hy), Nat.mod_eq_of_lt x.isLt, Nat.mod_eq_of_lt y.isLt]
  exact (BitVec.ofNat_toNat 64 (x % y)).trans (BitVec.setWidth_eq _)

/-! ### Shifts (R75) -/

theorem shlWord_eq (x : Word) (n : Nat) : shlWord x n = x <<< n := by
  unfold shlWord shiftLeft
  split
  next hn => exact (BitVec.shiftLeft_eq_zero hn).symm
  next =>
    apply BitVec.eq_of_toNat_eq
    simp only [BitVec.toNat_ofNat, BitVec.toNat_shiftLeft, Nat.mod_mod]

theorem shrWord_eq (x : Word) (n : Nat) : shrWord x n = x >>> n := by
  unfold shrWord shiftRight
  split
  next hn => exact (BitVec.ushiftRight_eq_zero hn).symm
  next =>
    rw [Nat.mod_eq_of_lt x.isLt]
    exact (BitVec.ofNat_toNat 64 (x >>> n)).trans (BitVec.setWidth_eq _)

/-- An arithmetic shift counts no further than the width. -/
theorem sshiftRight_min {w : Nat} (x : BitVec w) (n : Nat) : x.sshiftRight (min n w) = x.sshiftRight n := by
  ext i hi
  by_cases hn : n ≤ w
  · rw [Nat.min_eq_left hn]
  · have hout : ¬ w + i < w ∧ ¬ n + i < w := by omega
    simp only [Nat.min_eq_right (Nat.le_of_not_le hn), BitVec.getElem_sshiftRight, hout, ↓reduceDIte]

theorem sarWord_eq (x : Word) (n : Nat) : sarWord x n = x.sshiftRight n := by
  rw [sarWord, shiftArith, ofNat_wrapNat, signed_toNat, ← sshiftRight_min, BitVec.sshiftRight_eq, Int.shiftRight_eq_div_pow]
  norm_cast

/-! ### The words' answers -/

section
variable {s : State} {r : ScalarRegs} (h : s.scalarRegs? = some r) (d a b : SReg)
include h

theorem scalarAlu_next (f : Word → Word → Word) :
    scalarAlu d a b f s = .next (s.scalarNext 4 (r.setS d (f (r.getS a) (r.getS b)))) :=
  scalarStep_next h 4 _

theorem exec_div_next (u : Bool) : exec (.div u d a b) s = .next (s.scalarNext 4 (r.setS d (divWord u (r.getS a) (r.getS b)))) :=
  (exec_div u d a b s).trans (scalarAlu_next h d a b _)

theorem exec_rem_next (u : Bool) : exec (.rem u d a b) s = .next (s.scalarNext 4 (r.setS d (remWord u (r.getS a) (r.getS b)))) :=
  (exec_rem u d a b s).trans (scalarAlu_next h d a b _)

theorem exec_shl_next : exec (.shl d a b) s = .next (s.scalarNext 4 (r.setS d (r.getS a <<< (r.getS b).toNat))) := by
  rw [exec_shl, execShl, scalarAlu_next h, shlWord_eq]

theorem exec_shr_next : exec (.shr d a b) s = .next (s.scalarNext 4 (r.setS d (r.getS a >>> (r.getS b).toNat))) := by
  rw [exec_shr, execShr, scalarAlu_next h, shrWord_eq]

theorem exec_sar_next : exec (.sar d a b) s = .next (s.scalarNext 4 (r.setS d ((r.getS a).sshiftRight (r.getS b).toNat))) := by
  rw [exec_sar, execSar, scalarAlu_next h, sarWord_eq]

theorem exec_sel_next (n : QReg) : exec (.sel d n a b) s = .next (s.scalarNext 4 (r.setS d (if r.getQ n then r.getS a else r.getS b))) :=
  (exec_sel d n a b s).trans (scalarStep_next h 4 _)

end

/-- The bits of the three shifts: zeros enter from below and above, copies of the top bit enter an arithmetic shift. -/
theorem shift_bits (x : Word) {i : Nat} (n : Nat) (hi : i < 64) :
    (x <<< n).getLsbD i = (decide (n ≤ i) && x.getLsbD (i - n)) ∧ (x >>> n).getLsbD i = x.getLsbD (i + n)
      ∧ (x.sshiftRight n).getLsbD i = if i + n < 64 then x.getLsbD (i + n) else x.msb := by
  refine ⟨?_, ?_, ?_⟩
  · simp only [BitVec.getLsbD_shiftLeft, hi, decide_true, Bool.true_and, ← decide_not, Nat.not_lt]
  · rw [BitVec.getLsbD_ushiftRight, Nat.add_comm]
  · simp only [BitVec.getLsbD_sshiftRight, Nat.not_le.mpr hi, decide_false, Bool.not_false, Bool.true_and, Nat.add_comm]

/-- A count of the width or more leaves nothing but copies of the top bit. -/
theorem sshiftRight_of_le {w n : Nat} (x : BitVec w) (hn : w ≤ n) : x.sshiftRight n = if x.msb then BitVec.allOnes w else 0 := by
  ext i hi
  have hout : ¬ n + i < w := by omega
  rw [BitVec.getElem_sshiftRight, dif_neg hout]
  cases x.msb with
  | false => exact (BitVec.getElem_zero hi).symm
  | true => exact (BitVec.getElem_allOnes i hi).symm

/-- Settles O3: each row of R74 is the library's quotient or remainder, each rule of R75 its shift by the whole count. -/
theorem divisionAndShiftRules : Obligations.DivisionAndShiftRules := by
  unfold Obligations.DivisionAndShiftRules
  intro d a b s r h x y
  refine ⟨fun hy u => ?zero, fun hx hy => ?overflow, fun hy hfit => ?signed, fun hy => ?unsigned, ?shifts⟩
  case zero =>
    rw [exec_div_next h, exec_rem_next h, show r.getS b = 0 from hy, divWord_zero, remWord_zero]
    exact ⟨rfl, rfl⟩
  case overflow =>
    rw [exec_div_next h, exec_rem_next h, show r.getS a = _ from hx, show r.getS b = _ from hy, divWord_signed (by decide), remWord_signed (by decide),
      BitVec.intMin_sdiv_neg_one]
    exact ⟨rfl, rfl⟩
  case signed =>
    refine ⟨x.sdiv y, x.srem y, BitVec.toInt_sdiv_of_ne_or_ne x y (Decidable.not_and_iff_not_or_not.mp hfit), ?_, ?_, ?_⟩
    · rw [BitVec.toInt_srem, Int.tmod_def]
    · rw [exec_div_next h, divWord_signed hy]
    · rw [exec_rem_next h, remWord_signed hy]
  case unsigned =>
    refine ⟨x / y, x % y, BitVec.toNat_udiv, ?_, ?_, ?_⟩
    · rw [BitVec.toNat_umod, Nat.mod_eq_sub_mul_div]
    · rw [exec_div_next h, divWord_unsigned hy]
    · rw [exec_rem_next h, remWord_unsigned hy]
  case shifts =>
    exact ⟨_, _, _, exec_shl_next h d a b, exec_shr_next h d a b, exec_sar_next h d a b, fun i hi => shift_bits x y.toNat hi,
      fun hn => ⟨BitVec.shiftLeft_eq_zero hn, BitVec.ushiftRight_eq_zero hn, sshiftRight_of_le x hn⟩⟩

/-! ### SEL's word (R45, R82) -/

theorem scalarFields_srWord (op : BitVec 7) (d a b : SReg) (fn : BitVec 7) :
    let f := scalarFields (srWord op d a b fn)
    f.op = op ∧ f.sd = d ∧ f.sa = a ∧ f.sb = b ∧ f.fn = fn := by
  simp only [scalarFields, srWord, BitVec.extractLsb'_append_eq_of_le, BitVec.extractLsb'_append_eq_of_add_le, BitVec.extractLsb'_eq_self, Nat.reduceLeDiff,
    Nat.reduceSub, Std.le_refl, Nat.sub_self, Nat.zero_add, BitVec.ofNat_eq_ofNat, and_self]

theorem decodeScalar_sel (d a b : SReg) (fn : BitVec 7) (v : ScalarBits) :
    decodeScalar (srWord 0x1D d a b fn) v = if fn.toNat < 16 then .ok (.sel d (fn.setWidth 4) a b) else .error .badFunction := by
  obtain ⟨hop, hd, ha, hb, hfn⟩ := scalarFields_srWord 0x1D d a b fn
  simp only [decodeScalar, hop, hd, ha, hb, hfn]
  rfl

theorem extractLsb'_eq_zero_iff_lt (fn : BitVec 7) : fn.extractLsb' 4 3 = 0#3 ↔ fn.toNat < 16 := by
  have hfn : fn.toNat < 128 := fn.isLt
  rw [← BitVec.toNat_inj, BitVec.extractLsb'_toNat, Nat.shiftRight_eq_div_pow, BitVec.toNat_ofNat]
  omega

/-- Settles O4: the function bits above n are zero exactly where the function field is below 16, which the decoder asks of it. -/
theorem selRule : Obligations.SelRule := by
  unfold Obligations.SelRule
  intro d a b fn s r h
  refine ⟨fun hz => ?legal, fun hz => ?illegal, fun n => exec_sel_next h d a b n⟩
  case legal =>
    rw [decodeScalar_sel, if_pos ((extractLsb'_eq_zero_iff_lt fn).mp hz), BitVec.setWidth_eq_extractLsb' (by decide)]
  case illegal =>
    exact ⟨_, by rw [decodeScalar_sel, if_neg (mt (extractLsb'_eq_zero_iff_lt fn).mpr hz)]⟩

end Sys2Proof.Proofs
end

section
/-! SUPPORT. The encoder and the decoder are inverse to one another on the scalar and lane words (R45 to R48, R55 to R58). -/

namespace Sys2Proof.Proofs

open Machine Claims Laws

-- One proof after another: elaborated at once, the many that rewrite by the equations of `decodeScalar` would each hold a thread while these are made.
set_option Elab.async false

/-! ### The fields of a written word -/

theorem scalarFields_siWord (op : BitVec 7) (d a : SReg) (imm : BitVec 13) :
    let f := scalarFields (siWord op d a imm)
    f.op = op ∧ f.sd = d ∧ f.sa = a ∧ f.imm = imm := by
  simp only [scalarFields, siWord, BitVec.extractLsb'_append_eq_of_le, BitVec.extractLsb'_append_eq_of_add_le, BitVec.extractLsb'_eq_self, Nat.reduceLeDiff,
    Nat.reduceSub, Std.le_refl, Nat.sub_self, Nat.zero_add, and_self]

theorem scalarFields_sbWord (op : BitVec 7) (q : QReg) (n : Bool) (off : BitVec 20) :
    let f := scalarFields (sbWord op q n off)
    f.op = op ∧ f.q = q ∧ f.neg = n ∧ f.soff = off := by
  simp only [scalarFields, sbWord, BitVec.extractLsb'_append_eq_of_le, BitVec.extractLsb'_append_eq_of_add_le, BitVec.extractLsb'_eq_self, Nat.reduceLeDiff,
    Nat.reduceSub, Std.le_refl, Nat.sub_self, Nat.zero_add]
  cases n <;> simp

theorem scalarFields_smWord (op : BitVec 7) (d a : SReg) (z : BitVec 3) (off : BitVec 10) :
    let f := scalarFields (smWord op d a z off)
    f.op = op ∧ f.sd = d ∧ f.sa = a ∧ f.size = z ∧ f.off = off := by
  simp only [scalarFields, smWord, BitVec.extractLsb'_append_eq_of_le, BitVec.extractLsb'_append_eq_of_add_le, BitVec.extractLsb'_eq_self, Nat.reduceLeDiff,
    Nat.reduceSub, Std.le_refl, Nat.sub_self, Nat.zero_add, and_self]

/-! ### A word put together again from its fields -/

theorem srWord_scalarFields (w : ScalarBits) :
    srWord (scalarFields w).op (scalarFields w).sd (scalarFields w).sa (scalarFields w).sb (scalarFields w).fn = w := by
  simp only [scalarFields, srWord]
  rw [BitVec.extractLsb'_append_extractLsb'_eq_extractLsb' (by rfl)]
  rw [BitVec.extractLsb'_append_extractLsb'_eq_extractLsb' (by rfl)]
  rw [BitVec.extractLsb'_append_extractLsb'_eq_extractLsb' (by rfl)]
  rw [BitVec.extractLsb'_append_extractLsb'_eq_extractLsb' (by rfl)]
  exact BitVec.extractLsb'_eq_self

theorem siWord_scalarFields (w : ScalarBits) :
    siWord (scalarFields w).op (scalarFields w).sd (scalarFields w).sa (scalarFields w).imm = w := by
  simp only [scalarFields, siWord]
  rw [BitVec.extractLsb'_append_extractLsb'_eq_extractLsb' (by rfl)]
  rw [BitVec.extractLsb'_append_extractLsb'_eq_extractLsb' (by rfl)]
  rw [BitVec.extractLsb'_append_extractLsb'_eq_extractLsb' (by rfl)]
  exact BitVec.extractLsb'_eq_self

theorem ofBool_eq_one (b : BitVec 1) : BitVec.ofBool (b == 1) = b := by
  revert b; decide

theorem sbWord_scalarFields (w : ScalarBits) :
    sbWord (scalarFields w).op (scalarFields w).q (scalarFields w).neg (scalarFields w).soff = w := by
  simp only [scalarFields, sbWord, ofBool_eq_one]
  rw [BitVec.extractLsb'_append_extractLsb'_eq_extractLsb' (by rfl)]
  rw [BitVec.extractLsb'_append_extractLsb'_eq_extractLsb' (by rfl)]
  rw [BitVec.extractLsb'_append_extractLsb'_eq_extractLsb' (by rfl)]
  exact BitVec.extractLsb'_eq_self

theorem smWord_scalarFields (w : ScalarBits) :
    smWord (scalarFields w).op (scalarFields w).sd (scalarFields w).sa (scalarFields w).size (scalarFields w).off = w := by
  simp only [scalarFields, smWord]
  rw [BitVec.extractLsb'_append_extractLsb'_eq_extractLsb' (by rfl)]
  rw [BitVec.extractLsb'_append_extractLsb'_eq_extractLsb' (by rfl)]
  rw [BitVec.extractLsb'_append_extractLsb'_eq_extractLsb' (by rfl)]
  rw [BitVec.extractLsb'_append_extractLsb'_eq_extractLsb' (by rfl)]
  exact BitVec.extractLsb'_eq_self

/-! ### Codes of operands -/

theorem scope_ofCode_code (c : Scope) : Scope.ofCode c.code = some c := by cases c <;> rfl
theorem size_ofCode_code (z : Size) : Size.ofCode z.code = some z := by cases z <;> rfl
theorem loadSize_ofCode_code (z : LoadSize) : LoadSize.ofCode z.code = some z := by cases z <;> rfl
theorem scalarCond_ofCode_code (c : ScalarCond) : ScalarCond.ofCode c.code = some c := by cases c <;> rfl
theorem qFun_ofCode_code (c : QFun) : QFun.ofCode c.code = some c := by cases c <;> rfl
theorem atomOp_ofCode_code (o : AtomOp) : AtomOp.ofCode o.code = some o := by cases o <;> rfl
theorem intCond_ofCode_code (c : IntCond) : IntCond.ofCode c.code = some c := by cases c <;> rfl
theorem floatCond_ofCode_code (c : FloatCond) : FloatCond.ofCode c.code = some c := by cases c <;> rfl
theorem redOp_ofCode_code (o : RedOp) : RedOp.ofCode o.code = some o := by cases o <;> rfl

theorem scope_code_lt (c : Scope) : c.code < 6 := by cases c <;> decide
theorem size_code_lt (z : Size) : z.code < 4 := by cases z <;> decide
theorem loadSize_code_lt (z : LoadSize) : z.code < 7 := by cases z <;> decide
theorem scalarCond_code_lt (c : ScalarCond) : c.code < 6 := by cases c <;> decide
theorem qFun_code_lt (c : QFun) : c.code < 6 := by cases c <;> decide
theorem atomOp_code_lt (o : AtomOp) : o.code < 7 := by cases o <;> decide
theorem intCond_code_lt (c : IntCond) : c.code < 6 := by cases c <;> decide
theorem floatCond_code_lt (c : FloatCond) : c.code < 8 := by cases c <;> decide
theorem redOp_code_lt (o : RedOp) : o.code < 6 := by cases o <;> decide

/-- The function field of an ordered access (R56): the scope above, another code below. -/
theorem scopedFn {c : Scope} {n : Nat} (hn : n < 16) :
    (BitVec.ofNat 7 (16 * c.code + n)).toNat / 16 = c.code ∧ (BitVec.ofNat 7 (16 * c.code + n)).toNat % 16 = n := by
  have := scope_code_lt c
  rw [BitVec.toNat_ofNat]
  omega

theorem qDest_setWidth (q : QReg) (h : q ≠ 15) (k : QReg → Except Reject Instr) : qDest (q.setWidth 6) k = k q := by
  have hq : q.toNat ≠ 15 := fun e => h (BitVec.eq_of_toNat_eq e)
  have hlt : (q.setWidth 6).toNat < 15 := by
    rw [BitVec.toNat_setWidth]
    omega
  rw [qDest, if_pos hlt, BitVec.setWidth_setWidth_of_le _ (by decide), BitVec.setWidth_eq]

theorem flagged_of_named {f : BitVec 6} (h : flagNamed f = true) (i : Instr) : flagged f i = .ok i := by
  have hf : (decide (f.toNat ≤ 11) || f.toNat == 63) = true := by
    simpa [flagNamed, ← BitVec.toNat_inj] using h
  rw [flagged, if_pos hf]

theorem extract_high {m n : Nat} (x : BitVec m) (y : BitVec n) : (x ++ y).extractLsb' n m = x := by
  rw [BitVec.extractLsb'_append_eq_of_le (Nat.le_refl n), Nat.sub_self, BitVec.extractLsb'_eq_self]
theorem extract_low {m n : Nat} (x : BitVec m) (y : BitVec n) : (x ++ y).extractLsb' 0 n = y := by
  rw [BitVec.extractLsb'_append_eq_of_add_le (by omega), BitVec.extractLsb'_eq_self]

/-! ### Scalar words: what is written is read back -/

/-- A scalar instruction, its word and its second word: written as that, taking a second word exactly where there is one, and read back. -/
def Codes (i : Instr) (w : ScalarBits) (v : Option ScalarBits) : Prop :=
  encodeScalar i = some (w, v) ∧ isWide w = v.isSome ∧ ∀ x, decodeScalar w (v.getD x) = .ok i

theorem isWide_eq (w : ScalarBits) : isWide w = [0x18, 0x19, 0x1B, 0x34, 0x39].contains (scalarFields w).op.toNat := rfl

section
variable {i : Instr} {op : BitVec 7} {d a b : SReg} {q : QReg}

theorem codes_sr {fn : BitVec 7} (he : encodeScalar i = some (srWord op d a b fn, none)) (hn : [0x18, 0x19, 0x1B, 0x34, 0x39].contains op.toNat = false)
    (hd : ∀ x, decodeScalar (srWord op d a b fn) x = .ok i) : ∃ w v, Codes i w v :=
  ⟨_, _, he, by rw [isWide_eq, (scalarFields_srWord op d a b fn).1, hn]; rfl, hd⟩

theorem codes_si {imm : BitVec 13} {v : Option ScalarBits} (he : encodeScalar i = some (siWord op d a imm, v))
    (hn : [0x18, 0x19, 0x1B, 0x34, 0x39].contains op.toNat = v.isSome) (hd : ∀ x, decodeScalar (siWord op d a imm) (v.getD x) = .ok i) :
    ∃ w v, Codes i w v :=
  ⟨_, _, he, by rw [isWide_eq, (scalarFields_siWord op d a imm).1, hn], hd⟩

theorem codes_sb {n : Bool} {off : BitVec 20} (he : encodeScalar i = some (sbWord op q n off, none))
    (hn : [0x18, 0x19, 0x1B, 0x34, 0x39].contains op.toNat = false) (hd : ∀ x, decodeScalar (sbWord op q n off) x = .ok i) : ∃ w v, Codes i w v :=
  ⟨_, _, he, by rw [isWide_eq, (scalarFields_sbWord op q n off).1, hn]; rfl, hd⟩

theorem codes_sm {z : BitVec 3} {off : BitVec 10} (he : encodeScalar i = some (smWord op d a z off, none))
    (hn : [0x18, 0x19, 0x1B, 0x34, 0x39].contains op.toNat = false) (hd : ∀ x, decodeScalar (smWord op d a z off) x = .ok i) : ∃ w v, Codes i w v :=
  ⟨_, _, he, by rw [isWide_eq, (scalarFields_smWord op d a z off).1, hn]; rfl, hd⟩

end

section
variable (d a b : SReg)

theorem codes_mulh (u : Bool) : ∃ w v, Codes (.mulh u d a b) w v := codes_sr rfl rfl fun x => by
  cases u <;> simp [decodeScalar, scalarFields_srWord]
theorem codes_div (u : Bool) : ∃ w v, Codes (.div u d a b) w v := codes_sr rfl rfl fun x => by
  cases u <;> simp [decodeScalar, scalarFields_srWord]
theorem codes_rem (u : Bool) : ∃ w v, Codes (.rem u d a b) w v := codes_sr rfl rfl fun x => by
  cases u <;> simp [decodeScalar, scalarFields_srWord]
theorem codes_min (u : Bool) : ∃ w v, Codes (.min u d a b) w v := codes_sr rfl rfl fun x => by
  cases u <;> simp [decodeScalar, scalarFields_srWord]
theorem codes_max (u : Bool) : ∃ w v, Codes (.max u d a b) w v := codes_sr rfl rfl fun x => by
  cases u <;> simp [decodeScalar, scalarFields_srWord]

theorem codes_cmp (c : ScalarCond) {q : QReg} (hq : q ≠ 15) : ∃ w v, Codes (.cmp c q a b) w v := codes_sr rfl rfl fun x => by
  have := scalarCond_code_lt c
  simp [decodeScalar, scalarFields_srWord, Nat.mod_eq_of_lt (show c.code < 128 by omega), scalarCond_ofCode_code, qDest_setWidth q hq]
theorem codes_cmpi (c : ScalarCond) {q : QReg} (hq : q ≠ 15) (y : BitVec 32) : ∃ w v, Codes (.cmpi c q a y) w v := codes_si rfl rfl fun x => by
  have := scalarCond_code_lt c
  simp [decodeScalar, scalarFields_siWord, Nat.mod_eq_of_lt (show c.code < 8192 by omega), scalarCond_ofCode_code, qDest_setWidth q hq]

theorem setWidth_lt_16 {n : Nat} (q : QReg) (hn : 4 ≤ n) : (q.setWidth n).toNat < 16 := by
  rw [BitVec.toNat_setWidth_of_le hn]
  exact q.isLt

theorem codes_qop (c : QFun) {q qa qb : QReg} (h : (Instr.qop c q qa qb).wellFormed = true) : ∃ w v, Codes (.qop c q qa qb) w v := codes_sr rfl rfl fun x => by
  have hc := qFun_code_lt c
  simp only [Instr.wellFormed, Bool.and_eq_true, bne_iff_ne, ne_eq] at h
  obtain ⟨hq, hone⟩ := h
  have hun : c.unary = true → qb = 0 := by
    cases c <;> simp_all [QFun.one, QFun.unary]
  have ha : qa.toNat % 64 < 16 := by omega
  have hb : qb.toNat % 64 < 16 := by omega
  have hz : c.unary = true → BitVec.setWidth 6 qb = 0#6 := fun e => by rw [hun e]; rfl
  simpa [decodeScalar, scalarFields_srWord, Nat.mod_eq_of_lt (show c.code < 128 by omega), qFun_ofCode_code, qDest_setWidth q hq] using ⟨ha, hb, hz⟩

theorem codes_sel (q : QReg) : ∃ w v, Codes (.sel d q a b) w v := codes_sr rfl rfl fun x => by
  rw [decodeScalar_sel, if_pos (setWidth_lt_16 q (by decide)), BitVec.setWidth_setWidth_of_le _ (by decide), BitVec.setWidth_eq]

theorem setWidth_13_lt_64 (n : BitVec 6) : n.toNat % 8192 < 64 := by omega

theorem codes_shli (n : BitVec 6) : ∃ w v, Codes (.shli d a n) w v := codes_si rfl rfl fun x => by
  simpa [decodeScalar, scalarFields_siWord] using setWidth_13_lt_64 n
theorem codes_shri (n : BitVec 6) : ∃ w v, Codes (.shri d a n) w v := codes_si rfl rfl fun x => by
  simpa [decodeScalar, scalarFields_siWord] using setWidth_13_lt_64 n
theorem codes_sari (n : BitVec 6) : ∃ w v, Codes (.sari d a n) w v := codes_si rfl rfl fun x => by
  simpa [decodeScalar, scalarFields_siWord] using setWidth_13_lt_64 n

theorem codes_ld (z : LoadSize) (off : BitVec 10) : ∃ w v, Codes (.ld z d a off) w v := codes_sm rfl rfl fun x => by
  have := loadSize_code_lt z
  simp [decodeScalar, scalarFields_smWord, Nat.mod_eq_of_lt (show z.code < 8 by omega), loadSize_ofCode_code]
theorem codes_lds (z : LoadSize) (off : BitVec 10) : ∃ w v, Codes (.lds z d a off) w v := codes_sm rfl rfl fun x => by
  have := loadSize_code_lt z
  simp [decodeScalar, scalarFields_smWord, Nat.mod_eq_of_lt (show z.code < 8 by omega), loadSize_ofCode_code]
theorem codes_st (z : Size) (off : BitVec 10) : ∃ w v, Codes (.st z d a off) w v := codes_sm rfl rfl fun x => by
  have := size_code_lt z
  simp [decodeScalar, scalarFields_smWord, Nat.mod_eq_of_lt (show z.code < 8 by omega), size_ofCode_code]
theorem codes_sts (z : Size) (off : BitVec 10) : ∃ w v, Codes (.sts z d a off) w v := codes_sm rfl rfl fun x => by
  have := size_code_lt z
  simp [decodeScalar, scalarFields_smWord, Nat.mod_eq_of_lt (show z.code < 8 by omega), size_ofCode_code]

theorem codes_ldaq (c : Scope) (z : Size) : ∃ w v, Codes (.ldaq c z d a) w v := codes_sr rfl rfl fun x => by
  obtain ⟨hc, hz⟩ := scopedFn (c := c) (n := z.code) (by have := size_code_lt z; omega)
  simp only [decodeScalar, scalarFields_srWord, hc, hz, scope_ofCode_code, size_ofCode_code, BitVec.reduceToNat, bne_self_eq_false, Bool.false_eq_true, ↓reduceIte]
theorem codes_strl (c : Scope) (z : Size) : ∃ w v, Codes (.strl c z d a) w v := codes_sr rfl rfl fun x => by
  obtain ⟨hc, hz⟩ := scopedFn (c := c) (n := z.code) (by have := size_code_lt z; omega)
  simp only [decodeScalar, scalarFields_srWord, hc, hz, scope_ofCode_code, size_ofCode_code, BitVec.reduceToNat, bne_self_eq_false, Bool.false_eq_true, ↓reduceIte]
theorem codes_atom (o : AtomOp) (c : Scope) : ∃ w v, Codes (.atom o c d a b) w v := codes_sr rfl rfl fun x => by
  obtain ⟨hc, ho⟩ := scopedFn (c := c) (n := o.code) (by have := atomOp_code_lt o; omega)
  simp only [decodeScalar, scalarFields_srWord, hc, ho, scope_ofCode_code, atomOp_ofCode_code, BitVec.reduceToNat]
theorem codes_cas (c : Scope) : ∃ w v, Codes (.cas c d a b) w v := codes_sr rfl rfl fun x => by
  obtain ⟨hc, ho⟩ := scopedFn (c := c) (n := 0) (by decide)
  simp only [Nat.add_zero] at hc ho
  simp only [decodeScalar, scalarFields_srWord, hc, ho, scope_ofCode_code, BitVec.reduceToNat, ↓reduceIte]
theorem codes_fence (c : Scope) : ∃ w v, Codes (.fence c) w v := codes_sr rfl rfl fun x => by
  obtain ⟨hc, ho⟩ := scopedFn (c := c) (n := 0) (by decide)
  simp only [Nat.add_zero] at hc ho
  simp only [decodeScalar, scalarFields_srWord, hc, ho, scope_ofCode_code, BitVec.reduceToNat, ↓reduceIte, zeroIf, BEq.rfl, Bool.and_self]

theorem codes_lrun (n : BitVec 4) (t : BitVec 32) : ∃ w v, Codes (.lrun a n t) w v := codes_si rfl rfl fun x => by
  have hn : n.toNat % 8192 < 16 := by omega
  simpa [decodeScalar, scalarFields_siWord, zeroIf] using hn
theorem codes_sget (ty : BitVec 5) (code : BitVec 8) : ∃ w v, Codes (.sget d ty code) w v := codes_si rfl rfl fun x => by
  simp only [decodeScalar, scalarFields_siWord, BitVec.reduceToNat, zeroIf, BEq.rfl, ↓reduceIte, extract_high, extract_low]
theorem codes_sset (n : BitVec 2) : ∃ w v, Codes (.sset n a) w v := codes_si rfl rfl fun x => by
  have hn : (0x8#11 ++ n).toNat / 4 = 8 := by
    have := n.isLt
    rw [BitVec.toNat_append, ← Nat.shiftLeft_add_eq_or_of_lt this]
    simp only [BitVec.reduceToNat, Nat.reduceShiftLeft]
    omega
  simp only [decodeScalar, scalarFields_siWord, BitVec.reduceToNat, zeroIf, BEq.rfl, hn, decide_true, Bool.and_self, ↓reduceIte, extract_low]

theorem codes_wflg (mask : BitVec 12) : ∃ w v, Codes (.wflg mask) w v := codes_si rfl rfl fun x => by
  simp only [decodeScalar, scalarFields_siWord, BitVec.reduceToNat, zeroIf, BEq.rfl, Bool.and_self, ↓reduceIte, extract_high, extract_low]
  rfl
theorem codes_wflgNow (mask : BitVec 12) : ∃ w v, Codes (.wflgNow mask) w v := codes_si rfl rfl fun x => by
  simp only [decodeScalar, scalarFields_siWord, BitVec.reduceToNat, zeroIf, BEq.rfl, Bool.and_self, ↓reduceIte, extract_high, extract_low]
  rfl
theorem codes_trap (imm : BitVec 12) : ∃ w v, Codes (.trap imm a) w v := codes_si rfl rfl fun x => by
  simp only [decodeScalar, scalarFields_siWord, BitVec.reduceToNat, zeroIf, BEq.rfl, extract_high, extract_low]
  rfl

end

/-- The words that name a flag, or none (R181). -/
def namesFlag : Instr → Bool
  | .cpy _ _ => true
  | .gath _ _ => true
  | .part _ _ => true
  | .puts _ _ => true
  | .get _ _ => true
  | .fabricRadd _ _ => true
  | .plcl _ _ => true
  | .plval _ _ _ => true
  | _ => false

theorem codes_namesFlag (i : Instr) (h : namesFlag i = true) (hi : i.wellFormed = true) : ∃ w v, Codes i w v := by
  cases i
  case cpy | gath | part | puts | get | fabricRadd | plcl | plval =>
    refine codes_sr rfl rfl fun x => ?_
    simp [decodeScalar, scalarFields_srWord, zeroIf, fn0, flagged_of_named hi, bind, Except.bind]
  all_goals nomatch h

/-- The words of the SR format that only registers tell apart, from opcode 0x50 up (R56). -/
def upperSr : Instr → Bool
  | .plcn _ _ _ => true
  | .plwt _ _ _ => true
  | .plcx _ _ _ => true
  | .swini _ _ => true
  | .swait _ _ => true
  | .waita _ _ _ => true
  | .sbara _ _ _ => true
  | .sbarw _ _ => true
  | .obres _ _ _ => true
  | .obrel _ => true
  | .ctab _ _ => true
  | .eret => true
  | .trd _ _ _ => true
  | .twr _ _ _ => true
  | .tres _ _ _ => true
  | .dump _ _ _ => true
  | .tkil _ => true
  | _ => false

theorem codes_upperSr (i : Instr) (h : upperSr i = true) : ∃ w v, Codes i w v := by
  cases i
  case plcn | plwt | plcx | swini | swait | waita | sbara | sbarw | obres | obrel | ctab | eret | trd | twr | tres | dump | tkil =>
    refine codes_sr rfl rfl fun x => ?_
    simp [decodeScalar, scalarFields_srWord, fn0, zeroIf]
  all_goals nomatch h

theorem codes_of_wellFormed (i : Instr) (hi : i.wellFormed = true) (hc : i.carrier = .scalar) : ∃ w v, Codes i w v := by
  cases i
  case mulh u d a b => exact codes_mulh d a b u
  case div u d a b => exact codes_div d a b u
  case rem u d a b => exact codes_rem d a b u
  case min u d a b => exact codes_min d a b u
  case max u d a b => exact codes_max d a b u
  case cmp c q a b => exact codes_cmp a b c (bne_iff_ne.mp hi)
  case cmpi c q a v => exact codes_cmpi a c (bne_iff_ne.mp hi) v
  case qop c q a b => exact codes_qop c hi
  case sel d q a b => exact codes_sel d a b q
  case shli d a n => exact codes_shli d a n
  case shri d a n => exact codes_shri d a n
  case sari d a n => exact codes_sari d a n
  case ld z d a off => exact codes_ld d a z off
  case lds z d a off => exact codes_lds d a z off
  case st z d a off => exact codes_st d a z off
  case sts z d a off => exact codes_sts d a z off
  case ldaq c z d a => exact codes_ldaq d a c z
  case strl c z d a => exact codes_strl d a c z
  case atom o c d a b => exact codes_atom d a b o c
  case cas c d a b => exact codes_cas d a b c
  case fence c => exact codes_fence c
  case lrun a n t => exact codes_lrun a n t
  case sget d ty code => exact codes_sget d ty code
  case sset n a => exact codes_sset a n
  case cpy | gath | part | puts | get | fabricRadd | plcl | plval => exact codes_namesFlag _ rfl hi
  case plcn | plwt | plcx | swini | swait | waita | sbara | sbarw | obres | obrel | ctab | eret | trd | twr | tres | dump | tkil =>
    exact codes_upperSr _ rfl
  case wflg mask => exact codes_wflg mask
  case wflgNow mask => exact codes_wflgNow mask
  case trap imm a => exact codes_trap a imm
  case addi | andi | ori | xori | movi | movhi | mrst =>
    refine codes_si rfl rfl fun x => ?_
    simp [decodeScalar, scalarFields_siWord, zeroIf]
  case br | call | ret =>
    refine codes_sb rfl rfl fun x => ?_
    simp [decodeScalar, scalarFields_sbWord, zeroIf]
  case add | sub | mul | and | or | xor | shl | shr | sar | bfx | bfi | popc | clz | ctz | brev | jmpr | spop | lnch | sdone | nop =>
    refine codes_sr rfl rfl fun x => ?_
    simp [decodeScalar, scalarFields_srWord, fn0, zeroIf]
  all_goals nomatch hc

/-! ### Scalar words: what is read is written so -/

theorem zeroIf_ok {b : Bool} {i j : Instr} (h : zeroIf b i = .ok j) : b = true ∧ i = j := by
  unfold zeroIf at h
  split at h
  next hb => exact ⟨hb, Except.ok.inj h⟩
  next => cases h

theorem fn0_ok {f : ScalarFields} {i j : Instr} (h : fn0 f i = .ok j) : f.fn = 0 ∧ i = j := by
  unfold fn0 at h
  split at h
  next hb => exact ⟨beq_iff_eq.mp hb, Except.ok.inj h⟩
  next => cases h

theorem flagged_ok {f : BitVec 6} {i j : Instr} (h : flagged f i = .ok j) : flagNamed f = true ∧ i = j := by
  unfold flagged at h
  split at h
  next hb => exact ⟨by simpa [flagNamed, ← BitVec.toNat_inj] using hb, Except.ok.inj h⟩
  next => cases h

theorem qDest_ok {x : SReg} {k : QReg → Except Reject Instr} {j : Instr} (h : qDest x k = .ok j) : ∃ q : QReg, q ≠ 15 ∧ x = q.setWidth 6 ∧ k q = .ok j := by
  unfold qDest at h
  split at h
  next hx =>
    refine ⟨x.setWidth 4, fun e => ?_, ?_, h⟩
    · have hmod : x.toNat % 16 = 15 := by simpa using congrArg BitVec.toNat e
      omega
    · apply BitVec.eq_of_toNat_eq
      simp only [BitVec.toNat_setWidth]
      omega
  next => cases h

/-- What the decoder answers is a well-formed scalar instruction, written as the word that was read. -/
def WritesBack (w v : ScalarBits) (i : Instr) : Prop :=
  i.wellFormed = true ∧ i.carrier = .scalar ∧ encodeScalar i = some (w, if isWide w then some v else none)

theorem eq_ofNat_of_toNat {n k : Nat} {x : BitVec n} (h : x.toNat = k) : x = BitVec.ofNat n k := by
  rw [← h, BitVec.ofNat_toNat, BitVec.setWidth_eq]

theorem setWidth_of_lt {m n : Nat} {x : BitVec n} (h : x.toNat < 2 ^ m) : (x.setWidth m).setWidth n = x := by
  apply BitVec.eq_of_toNat_eq
  rw [BitVec.toNat_setWidth, BitVec.toNat_setWidth, Nat.mod_eq_of_lt h, Nat.mod_eq_of_lt x.isLt]

section
variable {w v : ScalarBits} {i : Instr} {k : Nat} (hop : (scalarFields w).op.toNat = k)
include hop

theorem isWide_of_op (b : Bool) (hk : [0x18, 0x19, 0x1B, 0x34, 0x39].contains k = b) : isWide w = b := by
  rw [isWide_eq, hop, hk]

theorem writesBack_sr (hi : i.wellFormed = true) (hc : i.carrier = .scalar) (hk : [0x18, 0x19, 0x1B, 0x34, 0x39].contains k = false)
    (he : encodeScalar i = some (srWord (BitVec.ofNat 7 k) (scalarFields w).sd (scalarFields w).sa (scalarFields w).sb (scalarFields w).fn, none)) :
    WritesBack w v i := by
  refine ⟨hi, hc, ?_⟩
  rw [he, ← eq_ofNat_of_toNat hop, srWord_scalarFields, isWide_of_op hop false hk]
  rfl

theorem writesBack_si (hi : i.wellFormed = true) (hc : i.carrier = .scalar)
    (he : encodeScalar i = some (siWord (BitVec.ofNat 7 k) (scalarFields w).sd (scalarFields w).sa (scalarFields w).imm,
      if [0x18, 0x19, 0x1B, 0x34, 0x39].contains k then some v else none)) : WritesBack w v i := by
  refine ⟨hi, hc, ?_⟩
  rw [he, ← eq_ofNat_of_toNat hop, siWord_scalarFields, isWide_of_op hop _ rfl]

theorem writesBack_sb (hi : i.wellFormed = true) (hc : i.carrier = .scalar) (hk : [0x18, 0x19, 0x1B, 0x34, 0x39].contains k = false)
    (he : encodeScalar i = some (sbWord (BitVec.ofNat 7 k) (scalarFields w).q (scalarFields w).neg (scalarFields w).soff, none)) : WritesBack w v i := by
  refine ⟨hi, hc, ?_⟩
  rw [he, ← eq_ofNat_of_toNat hop, sbWord_scalarFields, isWide_of_op hop false hk]
  rfl

theorem writesBack_sm (hi : i.wellFormed = true) (hc : i.carrier = .scalar) (hk : [0x18, 0x19, 0x1B, 0x34, 0x39].contains k = false)
    (he : encodeScalar i = some (smWord (BitVec.ofNat 7 k) (scalarFields w).sd (scalarFields w).sa (scalarFields w).size (scalarFields w).off, none)) :
    WritesBack w v i := by
  refine ⟨hi, hc, ?_⟩
  rw [he, ← eq_ofNat_of_toNat hop, smWord_scalarFields, isWide_of_op hop false hk]
  rfl

theorem writesBack_fn0 {j : Instr} (h : fn0 (scalarFields w) j = .ok i) (hi : j.wellFormed = true) (hc : j.carrier = .scalar)
    (hk : [0x18, 0x19, 0x1B, 0x34, 0x39].contains k = false)
    (he : encodeScalar j = some (srWord (BitVec.ofNat 7 k) (scalarFields w).sd (scalarFields w).sa (scalarFields w).sb 0, none)) : WritesBack w v i := by
  obtain ⟨hfn, rfl⟩ := fn0_ok h
  exact writesBack_sr hop hi hc hk (by rw [he, hfn])

/-- The words whose function field is one bit that says signed or unsigned. -/
theorem writesBack_signs {mk : Bool → Instr} (h : (if (scalarFields w).fn.toNat ≤ 1 then Except.ok (mk ((scalarFields w).fn == 1)) else .error Reject.badFunction) = .ok i)
    (hi : ∀ u, (mk u).wellFormed = true) (hc : ∀ u, (mk u).carrier = .scalar) (hk : [0x18, 0x19, 0x1B, 0x34, 0x39].contains k = false)
    (he : ∀ u, encodeScalar (mk u) = some (srWord (BitVec.ofNat 7 k) (scalarFields w).sd (scalarFields w).sa (scalarFields w).sb (if u then 1 else 0), none)) :
    WritesBack w v i := by
  split at h
  next hfn =>
    cases h
    refine writesBack_sr hop (hi _) (hc _) hk ?_
    have h01 : (scalarFields w).fn = 0 ∨ (scalarFields w).fn = 1 := by
      rcases Nat.le_one_iff_eq_zero_or_eq_one.mp hfn with e | e
      · exact .inl (eq_ofNat_of_toNat e)
      · exact .inr (eq_ofNat_of_toNat e)
    rw [he]
    rcases h01 with e | e <;> rw [e] <;> rfl
  next => cases h

end

theorem fields_zero_sr {w v : ScalarBits} {i j : Instr} {k : Nat} {b : Bool} (hop : (scalarFields w).op.toNat = k) (h : zeroIf b j = .ok i)
    (hi : j.wellFormed = true) (hc : j.carrier = .scalar) (hk : [0x18, 0x19, 0x1B, 0x34, 0x39].contains k = false)
    (he : b = true → encodeScalar j = some (srWord (BitVec.ofNat 7 k) (scalarFields w).sd (scalarFields w).sa (scalarFields w).sb (scalarFields w).fn, none)) :
    WritesBack w v i := by
  obtain ⟨hb, rfl⟩ := zeroIf_ok h
  exact writesBack_sr hop hi hc hk (he hb)

theorem writesBack_zero_si {w v : ScalarBits} {i j : Instr} {k : Nat} {b : Bool} (hop : (scalarFields w).op.toNat = k) (h : zeroIf b j = .ok i)
    (hi : j.wellFormed = true) (hc : j.carrier = .scalar)
    (he : b = true → encodeScalar j = some (siWord (BitVec.ofNat 7 k) (scalarFields w).sd (scalarFields w).sa (scalarFields w).imm,
      if [0x18, 0x19, 0x1B, 0x34, 0x39].contains k then some v else none)) : WritesBack w v i := by
  obtain ⟨hb, rfl⟩ := zeroIf_ok h
  exact writesBack_si hop hi hc (he hb)

/-- The shifts by an immediate count, whose upper immediate bits are zero (R76). -/
theorem writesBack_count {w v : ScalarBits} {i : Instr} {k : Nat} {mk : BitVec 6 → Instr} (hop : (scalarFields w).op.toNat = k)
    (h : (if (scalarFields w).imm.toNat < 64 then Except.ok (mk ((scalarFields w).imm.setWidth 6)) else .error Reject.nonzeroField) = .ok i)
    (hi : ∀ n, (mk n).wellFormed = true) (hc : ∀ n, (mk n).carrier = .scalar) 
    (he : ∀ n, encodeScalar (mk n) = some (siWord (BitVec.ofNat 7 k) (scalarFields w).sd (scalarFields w).sa (n.setWidth 13),
      if [0x18, 0x19, 0x1B, 0x34, 0x39].contains k then some v else none)) : WritesBack w v i := by
  split at h
  next hn =>
    cases h
    exact writesBack_si hop (hi _) (hc _) (by rw [he, setWidth_of_lt (m := 6) hn])
  next => cases h

theorem bind_flagged_ok {x : Except Reject Instr} {f : BitVec 6} {i : Instr} (h : (x >>= flagged f) = .ok i) : flagNamed f = true ∧ x = .ok i := by
  cases x with
  | error e => cases h
  | ok j =>
    obtain ⟨hf, rfl⟩ := flagged_ok h
    exact ⟨hf, rfl⟩

theorem scope_of_code {n : Nat} {c : Scope} (h : Scope.ofCode n = some c) : n = c.code := by
  unfold Scope.ofCode at h
  split at h <;> cases h <;> rfl
theorem size_of_code {n : Nat} {c : Size} (h : Size.ofCode n = some c) : n = c.code := by
  unfold Size.ofCode at h
  split at h <;> cases h <;> rfl
theorem loadSize_of_code {n : Nat} {c : LoadSize} (h : LoadSize.ofCode n = some c) : n = c.code := by
  unfold LoadSize.ofCode at h
  split at h <;> cases h <;> rfl
theorem scalarCond_of_code {n : Nat} {c : ScalarCond} (h : ScalarCond.ofCode n = some c) : n = c.code := by
  unfold ScalarCond.ofCode at h
  split at h <;> cases h <;> rfl
theorem qFun_of_code {n : Nat} {c : QFun} (h : QFun.ofCode n = some c) : n = c.code := by
  unfold QFun.ofCode at h
  split at h <;> cases h <;> rfl
theorem atomOp_of_code {n : Nat} {c : AtomOp} (h : AtomOp.ofCode n = some c) : n = c.code := by
  unfold AtomOp.ofCode at h
  split at h <;> cases h <;> rfl
theorem intCond_of_code {n : Nat} {c : IntCond} (h : IntCond.ofCode n = some c) : n = c.code := by
  unfold IntCond.ofCode at h
  split at h <;> cases h <;> rfl
theorem floatCond_of_code {n : Nat} {c : FloatCond} (h : FloatCond.ofCode n = some c) : n = c.code := by
  unfold FloatCond.ofCode at h
  split at h <;> cases h <;> rfl
theorem redOp_of_code {n : Nat} {c : RedOp} (h : RedOp.ofCode n = some c) : n = c.code := by
  unfold RedOp.ofCode at h
  split at h <;> cases h <;> rfl

theorem append_of_extract {m n k : Nat} {y : BitVec m} (x : BitVec k) (h : k = m + n) (hy : x.extractLsb' n m = y) :
    (y ++ x.extractLsb' 0 n).cast h.symm = x := by
  subst h hy
  rw [BitVec.extractLsb'_append_extractLsb'_eq_extractLsb' (by omega)]
  exact BitVec.extractLsb'_eq_self

/-- The function field of an ordered access (R56) from its two codes. -/
theorem fn_of_codes {fn : BitVec 7} {m n : Nat} (hm : fn.toNat / 16 = m) (hn : fn.toNat % 16 = n) : BitVec.ofNat 7 (16 * m + n) = fn := by
  rw [← eq_ofNat_of_toNat (show fn.toNat = 16 * m + n by omega)]

section
variable {w v : ScalarBits} {i : Instr}

theorem writesBack_cmp (hop : (scalarFields w).op.toNat = 0x1A) (h : (match ScalarCond.ofCode (scalarFields w).fn.toNat with
    | some c => qDest (scalarFields w).sd fun q => .ok (.cmp c q (scalarFields w).sa (scalarFields w).sb)
    | none => .error .badFunction) = .ok i) : WritesBack w v i := by
  split at h
  next c hc =>
    obtain ⟨q, hq, hsd, ⟨⟩⟩ := qDest_ok h
    refine writesBack_sr hop (bne_iff_ne.mpr hq) rfl rfl ?_
    rw [hsd, eq_ofNat_of_toNat (scalarCond_of_code hc)]
    rfl
  next => cases h

theorem writesBack_qop (hop : (scalarFields w).op.toNat = 0x1C) (h : (match QFun.ofCode (scalarFields w).fn.toNat with
    | some c => qDest (scalarFields w).sd fun q =>
      if (decide ((scalarFields w).sa.toNat < 16) && decide ((scalarFields w).sb.toNat < 16) && (!c.unary || (scalarFields w).sb == 0)) = true then
        .ok (.qop c q ((scalarFields w).sa.setWidth 4) ((scalarFields w).sb.setWidth 4))
      else .error .nonzeroField
    | none => .error .badFunction) = .ok i) : WritesBack w v i := by
  split at h
  next c hc =>
    obtain ⟨q, hq, hsd, hk⟩ := qDest_ok h
    split at hk
    next hops =>
      cases hk
      simp only [Bool.and_eq_true, decide_eq_true_eq] at hops
      obtain ⟨⟨ha, hb⟩, hun⟩ := hops
      refine writesBack_sr hop ?_ rfl rfl ?_
      · have hone : (!c.one || BitVec.setWidth 4 (scalarFields w).sb == 0) = true := by
          cases c <;> simp_all [QFun.one, QFun.unary]
        exact Bool.and_eq_true_iff.mpr ⟨bne_iff_ne.mpr hq, hone⟩
      · rw [hsd, eq_ofNat_of_toNat (qFun_of_code hc)]
        exact congr (congrArg (fun x y => some (srWord _ _ x y _, none)) (setWidth_of_lt (m := 4) ha)) (setWidth_of_lt (m := 4) hb)
    next => cases hk
  next => cases h

theorem writesBack_wflg (hop : (scalarFields w).op.toNat = 0x58) (h : zeroIf ((scalarFields w).sd == 0 && (scalarFields w).sa == 0)
    (if (scalarFields w).imm.extractLsb' 12 1 = 1 then .wflgNow ((scalarFields w).imm.extractLsb' 0 12) else .wflg ((scalarFields w).imm.extractLsb' 0 12)) = .ok i) :
    WritesBack w v i := by
  obtain ⟨hz, rfl⟩ := zeroIf_ok h
  simp only [Bool.and_eq_true, beq_iff_eq] at hz
  split
  next h1 =>
    refine writesBack_si hop rfl rfl ?_
    simp only [hz]
    exact congrArg (fun x => some (siWord _ _ _ x, none)) (append_of_extract (scalarFields w).imm rfl h1)
  next h1 =>
    have h0 : (scalarFields w).imm.extractLsb' 12 1 = 0 := by
      generalize (scalarFields w).imm.extractLsb' 12 1 = b at h1
      revert b
      decide
    refine writesBack_si hop rfl rfl ?_
    simp only [hz]
    exact congrArg (fun x => some (siWord _ _ _ x, none)) (append_of_extract (scalarFields w).imm rfl h0)

/-- The words with a scope in their function field (R56). -/
theorem writesBack_scoped {k n : Nat} {c : Scope} {j : Instr} (hop : (scalarFields w).op.toNat = k) (hc : Scope.ofCode ((scalarFields w).fn.toNat / 16) = some c)
    (hn : (scalarFields w).fn.toNat % 16 = n) (hi : j.wellFormed = true) (hs : j.carrier = .scalar)
    (hk : [0x18, 0x19, 0x1B, 0x34, 0x39].contains k = false)
    (he : encodeScalar j = some (srWord (BitVec.ofNat 7 k) (scalarFields w).sd (scalarFields w).sa (scalarFields w).sb (BitVec.ofNat 7 (16 * c.code + n)), none)) :
    WritesBack w v j :=
  writesBack_sr hop hi hs hk (by rw [he, fn_of_codes (scope_of_code hc) hn])

end
theorem writesBack_of_decode (w v : ScalarBits) (i : Instr) (h : decodeScalar w v = .ok i) : WritesBack w v i := by
  simp only [decodeScalar] at h
  split at h
  -- 0x01 to 0x10
  iterate 3 (next op => exact writesBack_fn0 op h rfl rfl rfl rfl)
  next op => exact writesBack_signs op (mk := fun u => .mulh u _ _ _) h (fun _ => rfl) (fun _ => rfl) rfl fun _ => rfl
  next op => exact writesBack_signs op (mk := fun u => .div u _ _ _) h (fun _ => rfl) (fun _ => rfl) rfl fun _ => rfl
  next op => exact writesBack_signs op (mk := fun u => .rem u _ _ _) h (fun _ => rfl) (fun _ => rfl) rfl fun _ => rfl
  iterate 6 (next op => exact writesBack_fn0 op h rfl rfl rfl rfl)
  next op => exact writesBack_signs op (mk := fun u => .min u _ _ _) h (fun _ => rfl) (fun _ => rfl) rfl fun _ => rfl
  next op => exact writesBack_signs op (mk := fun u => .max u _ _ _) h (fun _ => rfl) (fun _ => rfl) rfl fun _ => rfl
  iterate 2 (next op => exact writesBack_fn0 op h rfl rfl rfl rfl)
  -- 0x11 to 0x1E
  iterate 4 (next op => cases h; exact writesBack_si op rfl rfl rfl)
  iterate 3 (next op => exact writesBack_count op h (fun _ => rfl) (fun _ => rfl) fun _ => rfl)
  iterate 2 (next op =>
    refine writesBack_zero_si op h rfl rfl fun hz => ?_
    simp only [Bool.and_eq_true, beq_iff_eq] at hz
    rw [hz.1, hz.2]
    rfl)
  next op => exact writesBack_cmp op h
  next op =>
    split at h
    next c hc =>
      obtain ⟨q, hq, hsd, ⟨⟩⟩ := qDest_ok h
      refine writesBack_si op (bne_iff_ne.mpr hq) rfl ?_
      rw [hsd, eq_ofNat_of_toNat (scalarCond_of_code hc)]
      rfl
    next => cases h
  next op => exact writesBack_qop op h
  next op =>
    split at h
    next hn =>
      cases h
      exact writesBack_sr op rfl rfl rfl (congrArg (fun x => some (srWord _ _ _ _ x, none)) (setWidth_of_lt (m := 4) hn))
    next => cases h
  next op =>
    split at h
    next => cases h
    next hb =>
      have hb0 : (scalarFields w).sb = 0 := by simpa using hb
      split at h
      iterate 4 (next hfn =>
        cases h
        refine writesBack_sr op rfl rfl rfl ?_
        rw [hb0, eq_ofNat_of_toNat hfn]
        rfl)
      next => cases h
  -- 0x20 to 0x28
  iterate 2 (
    next op =>
      split at h
      next z hz =>
        cases h
        exact writesBack_sm op rfl rfl rfl (by rw [eq_ofNat_of_toNat (loadSize_of_code hz)]; rfl)
      next => cases h
    next op =>
      split at h
      next z hz =>
        cases h
        exact writesBack_sm op rfl rfl rfl (by rw [eq_ofNat_of_toNat (size_of_code hz)]; rfl)
      next => cases h)
  iterate 2 (next op =>
    split at h
    next => cases h
    next hb =>
      have hb0 : (scalarFields w).sb = 0 := by simpa using hb
      split at h
      next c z hc hz =>
        cases h
        exact writesBack_scoped op hc (size_of_code hz) rfl rfl rfl (by rw [hb0]; rfl)
      next => cases h)
  next op =>
    split at h
    next c o hc ho =>
      cases h
      exact writesBack_scoped op hc (atomOp_of_code ho) rfl rfl rfl rfl
    next => cases h
  next op =>
    split at h
    next c hc =>
      split at h
      next h0 =>
        cases h
        exact writesBack_scoped op hc h0 rfl rfl rfl rfl
      next => cases h
    next => cases h
  next op =>
    split at h
    next c hc =>
      split at h
      next h0 =>
        obtain ⟨hz, rfl⟩ := zeroIf_ok h
        simp only [Bool.and_eq_true, beq_iff_eq] at hz
        obtain ⟨⟨hd, ha⟩, hb⟩ := hz
        exact writesBack_scoped op hc h0 rfl rfl rfl (by rw [hd, ha, hb]; rfl)
      next => cases h
    next => cases h
  -- 0x30 to 0x3B
  iterate 2 (next op => cases h; exact writesBack_sb op rfl rfl rfl rfl)
  next op =>
    obtain ⟨hz, rfl⟩ := zeroIf_ok h
    exact writesBack_sb op rfl rfl rfl (by rw [beq_iff_eq.mp hz]; rfl)
  next op =>
    refine fields_zero_sr op h rfl rfl rfl fun hz => ?_
    simp only [Bool.and_eq_true, beq_iff_eq] at hz
    simp only [hz]
    rfl
  next op =>
    refine writesBack_zero_si op h rfl rfl fun hz => ?_
    simp only [Bool.and_eq_true, beq_iff_eq, decide_eq_true_eq] at hz
    obtain ⟨hd, hn⟩ := hz
    rw [hd]
    exact congrArg (fun x => some (siWord _ _ _ x, some v)) (setWidth_of_lt (m := 4) hn)
  next op =>
    refine fields_zero_sr op h rfl rfl rfl fun hz => ?_
    simp only [Bool.and_eq_true, beq_iff_eq] at hz
    simp only [hz]
    rfl
  next op =>
    refine fields_zero_sr op h rfl rfl rfl fun hz => ?_
    simp only [Bool.and_eq_true, beq_iff_eq] at hz
    simp only [hz]
    rfl
  next op =>
    refine writesBack_zero_si op h rfl rfl fun hz => ?_
    rw [beq_iff_eq.mp hz]
    exact congrArg (fun x => some (siWord _ _ _ x, none)) (append_of_extract (m := 5) (n := 8) (scalarFields w).imm rfl rfl)
  next op =>
    refine writesBack_zero_si op h rfl rfl fun hz => ?_
    simp only [Bool.and_eq_true, beq_iff_eq, decide_eq_true_eq] at hz
    obtain ⟨hd, hn⟩ := hz
    rw [hd]
    have hhigh : (scalarFields w).imm.extractLsb' 2 11 = 0x8#11 := by
      apply BitVec.eq_of_toNat_eq
      rw [BitVec.extractLsb'_toNat, Nat.shiftRight_eq_div_pow, hn]
      rfl
    exact congrArg (fun x => some (siWord _ _ _ x, none)) (append_of_extract (scalarFields w).imm rfl hhigh)
  next op =>
    refine writesBack_zero_si op h rfl rfl fun hz => ?_
    simp only [Bool.and_eq_true, beq_iff_eq] at hz
    simp only [hz]
    rfl
  iterate 2 (next op =>
    refine fields_zero_sr op h rfl rfl rfl fun hz => ?_
    simp only [Bool.and_eq_true, beq_iff_eq] at hz
    simp only [hz]
    rfl)
  -- 0x40 to 0x5D
  iterate 7 (next op =>
    obtain ⟨hf, h⟩ := bind_flagged_ok h
    refine fields_zero_sr op h hf rfl rfl fun hz => ?_
    simp only [Bool.and_eq_true, beq_iff_eq] at hz
    simp only [hz]
    rfl)
  iterate 3 (next op => exact writesBack_fn0 op h rfl rfl rfl rfl)
  next op =>
    obtain ⟨hf, h⟩ := bind_flagged_ok h
    exact writesBack_fn0 op h hf rfl rfl rfl
  next op => exact writesBack_wflg op h
  iterate 2 (next op =>
    refine fields_zero_sr op h rfl rfl rfl fun hz => ?_
    simp only [Bool.and_eq_true, beq_iff_eq] at hz
    simp only [hz]
    rfl)
  iterate 2 (next op => exact writesBack_fn0 op h rfl rfl rfl rfl)
  next op =>
    refine fields_zero_sr op h rfl rfl rfl fun hz => ?_
    simp only [Bool.and_eq_true, beq_iff_eq] at hz
    simp only [hz]
    rfl
  -- 0x60 to 0x6E
  next op => exact writesBack_fn0 op h rfl rfl rfl rfl
  next op =>
    refine fields_zero_sr op h rfl rfl rfl fun hz => ?_
    simp only [Bool.and_eq_true, beq_iff_eq] at hz
    simp only [hz]
    rfl
  next op =>
    refine fields_zero_sr op h rfl rfl rfl fun hz => ?_
    simp only [Bool.and_eq_true, beq_iff_eq] at hz
    simp only [hz]
    rfl
  next op =>
    refine writesBack_zero_si op h rfl rfl fun hz => ?_
    simp only [Bool.and_eq_true, beq_iff_eq] at hz
    obtain ⟨hd, ht⟩ := hz
    rw [hd]
    exact congrArg (fun x => some (siWord _ _ _ x, none)) (append_of_extract (scalarFields w).imm rfl ht)
  next op =>
    refine fields_zero_sr op h rfl rfl rfl fun hz => ?_
    simp only [Bool.and_eq_true, beq_iff_eq] at hz
    simp only [hz]
    rfl
  iterate 4 (next op => exact writesBack_fn0 op h rfl rfl rfl rfl)
  next op =>
    refine fields_zero_sr op h rfl rfl rfl fun hz => ?_
    simp only [Bool.and_eq_true, beq_iff_eq] at hz
    simp only [hz]
    rfl
  next => cases h

/-! ### Lane words -/

theorem ofBool_beq (n : Bool) : (BitVec.ofBool n == 1) = n := by cases n <;> rfl

theorem laneFields_bits96 (w : LaneWord) (op fn : Nat) : laneFields (w.bits96 op fn) = w := by
  simp only [laneFields, LaneWord.bits96, BitVec.extractLsb'_append_eq_of_le, BitVec.extractLsb'_append_eq_of_add_le, BitVec.extractLsb'_eq_self,
    Nat.reduceLeDiff, Nat.reduceSub, Std.le_refl, Nat.sub_self, Nat.zero_add, ofBool_beq]

theorem codes_bits96 (w : LaneWord) (op fn : Nat) : (w.bits96 op fn).extractLsb' 95 1 = 0 ∧ (w.bits96 op fn).extractLsb' 88 7 = BitVec.ofNat 7 op
    ∧ (w.bits96 op fn).extractLsb' 84 4 = BitVec.ofNat 4 fn := by
  simp only [LaneWord.bits96, BitVec.extractLsb'_append_eq_of_le, BitVec.extractLsb'_append_eq_of_add_le, BitVec.extractLsb'_eq_self,
    Nat.reduceLeDiff, Nat.reduceSub, Std.le_refl, Nat.sub_self, Nat.zero_add, BitVec.ofNat_eq_ofNat, and_self]

theorem bits96_laneFields (w : LaneBits) (h : w.extractLsb' 95 1 = 0) :
    (laneFields w).bits96 (w.extractLsb' 88 7).toNat (w.extractLsb' 84 4).toNat = w := by
  simp only [laneFields, LaneWord.bits96, ofBool_eq_one, BitVec.ofNat_toNat, BitVec.setWidth_eq]
  rw [← show w.extractLsb' 95 1 = 0#1 from h]
  iterate 12 rw [BitVec.extractLsb'_append_extractLsb'_eq_extractLsb' (by rfl)]
  exact BitVec.extractLsb'_eq_self

theorem slotFields_bits47 (o : ShortOp) : slotFields o.bits47 = o := by
  simp only [slotFields, ShortOp.bits47, BitVec.extractLsb'_append_eq_of_le, BitVec.extractLsb'_append_eq_of_add_le, BitVec.extractLsb'_eq_self,
    Nat.reduceLeDiff, Nat.reduceSub, Std.le_refl, Nat.sub_self, Nat.zero_add, ofBool_beq]

theorem bits47_slotFields (x : BitVec 47) : (slotFields x).bits47 = x := by
  simp only [slotFields, ShortOp.bits47, ofBool_eq_one]
  iterate 7 rw [BitVec.extractLsb'_append_extractLsb'_eq_extractLsb' (by rfl)]
  exact BitVec.extractLsb'_eq_self

theorem decodeLane_bits96 {w : LaneWord} {op fn : Nat} {i : Instr} (ho : op < 128) (hf : fn < 16) (h : laneInstr op fn w = some i) :
    decodeLane (w.bits96 op fn) = .ok i := by
  obtain ⟨h95, h88, h84⟩ := codes_bits96 w op fn
  have hop : (BitVec.ofNat 7 op).toNat = op := by rw [BitVec.toNat_ofNat, Nat.mod_eq_of_lt ho]
  have hfn : (BitVec.ofNat 4 fn).toNat = fn := by rw [BitVec.toNat_ofNat, Nat.mod_eq_of_lt hf]
  rw [decodeLane, h95, if_neg (by decide), h88, h84, hop, hfn, laneFields_bits96, h]

theorem decodeLane_pair (p : PairWord) : decodeLane (1#1 ++ p.slot1.bits47 ++ BitVec.ofBool p.mid ++ p.slot0.bits47) = .ok (.pairWord p) := by
  simp only [decodeLane, BitVec.extractLsb'_append_eq_of_le, BitVec.extractLsb'_append_eq_of_add_le, BitVec.extractLsb'_eq_self,
    Nat.reduceLeDiff, Nat.reduceSub, Std.le_refl, Nat.sub_self, Nat.zero_add, ofBool_beq, slotFields_bits47]
  rfl

theorem pair_slotFields (w : LaneBits) (h : w.extractLsb' 95 1 = 1) :
    1#1 ++ (slotFields (w.extractLsb' 48 47)).bits47 ++ BitVec.ofBool (w.extractLsb' 47 1 == 1) ++ (slotFields (w.extractLsb' 0 47)).bits47 = w := by
  rw [bits47_slotFields, bits47_slotFields, ofBool_eq_one, ← show w.extractLsb' 95 1 = 1#1 from h]
  iterate 3 rw [BitVec.extractLsb'_append_extractLsb'_eq_extractLsb' (by rfl)]
  exact BitVec.extractLsb'_eq_self

/-- What an opcode and a function name is a well-formed lane instruction, written with them. -/
def Named (op fn : Nat) (w : LaneWord) (i : Instr) : Prop :=
  i.wellFormed = true ∧ i.carrier = .lane ∧ encodeLane i = some (w.bits96 op fn)

/-- A selector of the word chooses between two rows of the table. -/
theorem named_choice {b : Bool} {op fn : Nat} {w : LaneWord} {x y i : Instr} (h : some (if b = true then x else y) = some i)
    (hx : b = true → Named op fn w x) (hy : b = false → Named op fn w y) : Named op fn w i := by
  cases b <;> cases h
  · exact hy rfl
  · exact hx rfl

theorem named_map {α : Type} {f : α → Instr} {o : Option α} {op fn : Nat} {w : LaneWord} {i : Instr} (h : o.map f = some i)
    (hf : ∀ a, o = some a → Named op fn w (f a)) : Named op fn w i := by
  obtain ⟨a, ha, rfl⟩ := Option.map_eq_some_iff.mp h
  exact hf a ha

theorem bne_of_not_beq {α : Type} [BEq α] {a b : α} (h : (a == b) = false) : (a != b) = true := by rw [bne, h]; rfl

theorem named_of_laneInstr {op fn : Nat} {w : LaneWord} {i : Instr} (h : laneInstr op fn w = some i) : Named op fn w i := by
  unfold laneInstr at h
  split at h
  -- the opcodes whose function is a code
  case h_18 => exact named_map h fun c hc => by rw [intCond_of_code hc]; exact ⟨rfl, rfl, rfl⟩
  case h_24 => exact named_map h fun c hc => by rw [intCond_of_code hc]; exact ⟨rfl, rfl, rfl⟩
  case h_25 => exact named_map h fun c hc => by rw [floatCond_of_code hc]; exact ⟨rfl, rfl, rfl⟩
  case h_35 => exact named_map h fun c hc => by rw [redOp_of_code hc]; exact ⟨rfl, rfl, rfl⟩
  case h_36 =>
    split at h
    next => exact named_map h fun c hc => by rw [redOp_of_code hc]; exact ⟨rfl, rfl, rfl⟩
    next h8 =>
      refine named_map h fun c hc => ?_
      rw [show fn = c.code + 8 by have := redOp_of_code hc; omega]
      exact ⟨rfl, rfl, rfl⟩
  all_goals try (split at h)
  -- one function names one instruction
  all_goals try (cases h <;> exact ⟨rfl, rfl, rfl⟩)
  -- one function names two, by a selector
  case h_52 => exact named_map h fun c hc => by rw [atomOp_of_code hc]; exact ⟨rfl, rfl, rfl⟩
  iterate 9 exact named_choice h (fun e => ⟨e, rfl, rfl⟩) fun e => ⟨bne_of_not_beq e, rfl, rfl⟩
  · exact named_choice h (fun e => ⟨e, rfl, rfl⟩) fun e => ⟨congrArg not e, rfl, rfl⟩
  · exact named_choice h (fun e => ⟨e, rfl, rfl⟩) fun e => ⟨(by simpa using e : w.kA = true), rfl, rfl⟩

/-- A lane instruction is the pair word, or written with an opcode and a function that name it. -/
theorem laneInstr_of_wellFormed (i : Instr) (hi : i.wellFormed = true) (hc : i.carrier = .lane) :
    encodeScalar i = none ∧ ((∃ p, i = .pairWord p) ∨ ∃ op fn w, encodeLane i = some (LaneWord.bits96 w op fn) ∧ op < 128 ∧ fn < 16 ∧ laneInstr op fn w = some i) := by
  cases i
  case pairWord p => exact ⟨rfl, .inl ⟨p, rfl⟩⟩
  case laneAddi w | laneShli w | laneShri w | laneSari w | roli w | rori w | bfxi w | bfii w | arndDiv w | mmaKreg w | mwaitLast w =>
    exact ⟨rfl, .inr ⟨_, _, w, rfl, by decide, by decide, congrArg some (if_pos hi)⟩⟩
  case laneAdd w | laneShl w | laneShr w | laneSar w | rol w | ror w | laneBfx w | laneBfi w | arnd w =>
    exact ⟨rfl, .inr ⟨_, _, w, rfl, by decide, by decide, congrArg some (if_neg fun e => by rw [Instr.wellFormed, bne, e] at hi; cases hi)⟩⟩
  case mma w =>
    exact ⟨rfl, .inr ⟨_, _, w, rfl, by decide, by decide, congrArg some (if_neg (by simpa [Instr.wellFormed] using hi))⟩⟩
  case mwait w =>
    exact ⟨rfl, .inr ⟨_, _, w, rfl, by decide, by decide, congrArg some (if_neg fun e => by rw [show w.kA = true from hi] at e; cases e)⟩⟩
  case bscmp c w | laneCmp c w =>
    exact ⟨rfl, .inr ⟨_, c.code, w, rfl, by decide, Nat.lt_trans (intCond_code_lt c) (by decide), congrArg (Option.map _) (intCond_ofCode_code c)⟩⟩
  case fcmp c w =>
    exact ⟨rfl, .inr ⟨_, c.code, w, rfl, by decide, Nat.lt_trans (floatCond_code_lt c) (by decide), congrArg (Option.map _) (floatCond_ofCode_code c)⟩⟩
  case gred o w =>
    exact ⟨rfl, .inr ⟨_, o.code, w, rfl, by decide, Nat.lt_trans (redOp_code_lt o) (by decide), congrArg (Option.map _) (redOp_ofCode_code o)⟩⟩
  case gscan o e w =>
    cases o <;> cases e <;> exact ⟨rfl, .inr ⟨_, _, w, rfl, by decide, by decide, rfl⟩⟩
  case laneAtom o w =>
    exact ⟨rfl, .inr ⟨_, o.code, w, rfl, by decide, Nat.lt_trans (atomOp_code_lt o) (by decide), congrArg (Option.map _) (atomOp_ofCode_code o)⟩⟩
  all_goals try (exact ⟨rfl, .inr ⟨_, _, _, rfl, by decide, by decide, rfl⟩⟩)
  all_goals nomatch hc

/-- Settles O57: every format's word carries its fields, and the tables of opcodes and functions are read as they are written. -/
theorem encodeDecodeAgree : Obligations.EncodeDecodeAgree := by
  unfold Obligations.EncodeDecodeAgree
  refine ⟨fun i hi hc => ?scalar, fun i hi hc => ?lane, fun w v i h => ?readScalar, fun w i h => ?readLane⟩
  case scalar =>
    obtain ⟨w, v, he, hw, hd⟩ := codes_of_wellFormed i hi hc
    refine ⟨w, v, he, hw, fun x hx => ?_, fun hv x => ?_, ?_⟩
    · rw [← hd x, hx]; rfl
    · rw [← hd x, hv]; rfl
    · rw [encode, he]
      cases v <;> simp
  case lane =>
    obtain ⟨hs, ⟨p, rfl⟩ | ⟨op, fn, w, he, ho, hf, hl⟩⟩ := laneInstr_of_wellFormed i hi hc
    · exact ⟨_, rfl, decodeLane_pair p, rfl⟩
    · exact ⟨_, he, decodeLane_bits96 ho hf hl, by rw [encode, hs, he]; rfl⟩
  case readScalar => exact writesBack_of_decode w v i h
  case readLane =>
    unfold decodeLane at h
    split at h
    next h1 =>
      cases h
      exact ⟨rfl, rfl, congrArg some (pair_slotFields w h1)⟩
    next h1 =>
      split at h
      next j hj =>
        cases h
        obtain ⟨hi, hc, he⟩ := named_of_laneInstr hj
        have h0 : w.extractLsb' 95 1 = 0 := by
          generalize w.extractLsb' 95 1 = b at h1
          revert b
          decide
        exact ⟨hi, hc, by rw [he, bits96_laneFields w h0]⟩
      next => split at h <;> cases h

end Sys2Proof.Proofs
end

section
/-! SUPPORT. How teams, groups, launches and contexts read after a change of one team or group. -/

namespace Sys2Proof.Proofs

open Machine Claims Laws

theorem team?_modTeam (s : State) (t u : Nat) (f : Team → Team) : (s.modTeam t f).team? u = if u = t then (s.team? u).map f else s.team? u := by
  split
  next h => rw [h, team?_modTeam_same]
  next h => exact team?_modTeam_other s f h

theorem group?_eq (s : State) (t g : Nat) : s.group? t g = (s.team? t).bind fun T => T.groups[g]? := rfl

theorem group?_modTeam (s : State) (t u g : Nat) (f : Team → Team) :
    (s.modTeam t f).group? u g = if u = t then (s.team? u).bind fun T => (f T).groups[g]? else s.group? u g := by
  rw [group?_eq, team?_modTeam]
  split
  · rw [Option.bind_map]
    rfl
  · rfl

/-- A change of a team that leaves its groups as they are. -/
theorem group?_modTeam_keep (s : State) (t u g : Nat) {f : Team → Team} (hf : ∀ T, (f T).groups = T.groups) : (s.modTeam t f).group? u g = s.group? u g := by
  rw [group?_modTeam]
  split
  · simp only [hf, group?_eq]
  · rfl

theorem team?_modGroup (s : State) (t g u : Nat) (f : Group → Group) :
    (s.modGroup t g f).team? u = if u = t then (s.team? u).map fun T => { T with groups := modifyAt f g T.groups } else s.team? u :=
  team?_modTeam s t u _

theorem group?_modGroup (s : State) (t g u h : Nat) (f : Group → Group) :
    (s.modGroup t g f).group? u h = if u = t ∧ h = g then (s.group? u h).map f else s.group? u h := by
  split
  next e => rw [e.1, e.2, group?_modGroup_same]
  next e => exact group?_modGroup_other s f e

theorem launchOf?_modTeam (s : State) (t u : Nat) {f : Team → Team} (hf : ∀ T, (f T).launch = T.launch) : (s.modTeam t f).launchOf? u = s.launchOf? u := by
  change ((s.modTeam t f).team? u).bind (fun T => s.launches[T.launch]?) = (s.team? u).bind fun T => s.launches[T.launch]?
  rw [team?_modTeam]
  split
  · simp only [Option.bind_map, Function.comp_def, hf]
  · rfl

theorem contextOf?_modTeam (s : State) (t u : Nat) {f : Team → Team} (hf : ∀ T, (f T).launch = T.launch) : (s.modTeam t f).contextOf? u = s.contextOf? u := by
  unfold State.contextOf?
  rw [launchOf?_modTeam s t u hf]
  rfl

end Sys2Proof.Proofs
end

section
/-! SUPPORT. The results of the scalar words that compute (R73 to R82) as operations of `BitVec`, their completion and their frame. -/

namespace Sys2Proof.Proofs

open Machine Claims Laws

/-! ### Division, minimum and maximum -/

theorem divWord_false (x y : Word) : divWord false x y = if y = 0 then -1#64 else BitVec.ofInt 64 (x.toInt.tdiv y.toInt) := by
  split
  next hy => rw [hy, divWord_zero]; rfl
  next hy =>
    rw [divWord_signed hy]
    apply BitVec.eq_of_toInt_eq
    rw [BitVec.toInt_ofInt, BitVec.toInt_sdiv]

theorem divWord_true (x y : Word) : divWord true x y = if y = 0 then -1#64 else x / y := by
  split
  next hy => rw [hy, divWord_zero]; rfl
  next hy => exact divWord_unsigned hy x

theorem remWord_false (x y : Word) : remWord false x y = if y = 0 then x else BitVec.ofInt 64 (x.toInt.tmod y.toInt) := by
  split
  next hy => rw [hy, remWord_zero]
  next hy => rw [remWord_signed hy, ← BitVec.toInt_srem, BitVec.ofInt_toInt]

theorem remWord_true (x y : Word) : remWord true x y = if y = 0 then x else x % y := by
  split
  next hy => rw [hy, remWord_zero]
  next hy => exact remWord_unsigned hy x

theorem slt_iff (x y : Word) : x.slt y = true ↔ x.toInt < y.toInt := decide_eq_true_iff
theorem ult_iff (x y : Word) : x.ult y = true ↔ x.toNat < y.toNat := decide_eq_true_iff

/-! ### Fields (R78) -/

theorem fieldPos_eq (d : Word) : fieldPos d = d.toNat % 64 := rfl
theorem fieldWid_eq (d : Word) : fieldWid d = d.toNat / 256 % 128 :=
  congrArg (· % 128) (Nat.shiftRight_eq_div_pow d.toNat 8)

/-- An insert keeps what lies below and above the field. -/
theorem fieldInsert_eq (d a pos wid : Nat) {w : Nat} (hw : w = min (min wid 64) (64 - pos)) :
    fieldInsert d a pos wid = 2 ^ pos * (2 ^ w * (d / 2 ^ (pos + w)) + a % 2 ^ w) + d % 2 ^ pos := by
  have hd : d = 2 ^ pos * (2 ^ w * (d / 2 ^ (pos + w)) + d / 2 ^ pos % 2 ^ w) + d % 2 ^ pos := by
    rw [Nat.pow_add, ← Nat.div_div_eq_div_mul, Nat.div_add_mod, Nat.div_add_mod]
  unfold fieldInsert
  simp only [← hw]
  split
  next h0 =>
    rw [h0, Nat.pow_zero, Nat.mod_one, Nat.one_mul, Nat.add_zero, Nat.add_zero, Nat.div_add_mod]
  next h0 =>
    have hmid : natBits d (pos + w - 1) pos <<< pos = 2 ^ pos * (d / 2 ^ pos % 2 ^ w) := by
      rw [natBits, Nat.shiftRight_eq_div_pow, Nat.shiftLeft_eq, show pos + w - 1 + 1 - pos = w by omega, Nat.mul_comm]
    rw [hmid, Nat.shiftLeft_eq, Nat.mul_comm (a % 2 ^ w)]
    have hsplit := hd
    simp only [Nat.mul_add] at hsplit ⊢
    omega

theorem testBit_fieldInsert (d a wid i : Nat) {pos w : Nat} (hw : w = min (min wid 64) (64 - pos)) :
    (fieldInsert d a pos wid).testBit i = if pos ≤ i ∧ i < pos + w then a.testBit (i - pos) else d.testBit i := by
  rw [fieldInsert_eq d a pos wid hw, Nat.testBit_two_pow_mul_add _ (Nat.mod_lt _ (Nat.two_pow_pos pos)), Nat.testBit_mod_two_pow,
    Nat.testBit_two_pow_mul_add _ (Nat.mod_lt _ (Nat.two_pow_pos w)), Nat.testBit_mod_two_pow, Nat.testBit_div_two_pow]
  by_cases hlow : i < pos
  · simp [hlow, Nat.not_le.mpr hlow]
  · by_cases hin : i - pos < w
    · simp [hlow, hin, show pos ≤ i by omega, show i < pos + w by omega]
    · simp [hlow, hin, show ¬i < pos + w by omega, show i - pos - w + (pos + w) = i by omega]

theorem bfx_eq (a d : Word) : BitVec.ofNat 64 (fieldExtract a.toNat (fieldPos d) (fieldWid d))
    = BitVec.ofNat 64 ((a.toNat >>> (d.toNat % 64)) % 2 ^ min (d.toNat / 256 % 128) 64) := by
  rw [fieldExtract, fieldPos_eq, fieldWid_eq]

theorem bfi_eq (x a d : Word) : BitVec.ofNat 64 (fieldInsert x.toNat a.toNat (fieldPos d) (fieldWid d))
    = (let pos := d.toNat % 64
       let mask : Word := BitVec.ofNat 64 (2 ^ min (min (d.toNat / 256 % 128) 64) (64 - pos) - 1)
       (x &&& ~~~(mask <<< pos)) ||| ((a &&& mask) <<< pos)) := by
  generalize hpos : d.toNat % 64 = pos
  generalize hw : min (min (d.toNat / 256 % 128) 64) (64 - pos) = w
  ext i hi
  have hmask : ∀ j < 64, (BitVec.ofNat 64 (2 ^ w - 1)).getLsbD j = decide (j < w) := fun j hj => by
    rw [BitVec.getLsbD_ofNat, Nat.testBit_two_pow_sub_one, decide_eq_true hj, Bool.true_and]
  simp only [fieldPos_eq, fieldWid_eq, hpos, hw, ← BitVec.getLsbD_eq_getElem, BitVec.getLsbD_or, BitVec.getLsbD_and, BitVec.getLsbD_not,
    BitVec.getLsbD_shiftLeft, hmask (i - pos) (by omega)]
  simp only [BitVec.getLsbD_ofNat, testBit_fieldInsert _ _ _ _ hw.symm, hi, decide_true, Bool.true_and]
  by_cases hlow : i < pos
  · simp [hlow, Nat.not_le.mpr hlow, BitVec.getLsbD]
  · by_cases hin : i - pos < w
    · simp [hlow, hin, show pos ≤ i by omega, show i < pos + w by omega, BitVec.getLsbD]
    · simp [hlow, hin, show ¬i < pos + w by omega, BitVec.getLsbD]

/-! ### Counts (R79) -/

theorem popCount_eq (n x : Nat) : popCount n x = ((List.range n).filter fun i => x.testBit i).length := by
  induction n generalizing x with
  | zero => rfl
  | succ n ih =>
    rw [popCount, ih, List.range_succ_eq_map, List.filter_cons, List.filter_map, Nat.testBit_zero]
    have hcomp : (fun i => x.testBit i) ∘ Nat.succ = fun i => (x / 2).testBit i := by
      funext i
      simp [Nat.testBit_succ]
    rw [hcomp]
    rcases Nat.mod_two_eq_zero_or_one x with h | h <;> simp [h]; omega

theorem ctz_eq (n x : Nat) : ctz n x = (List.range n).findIdx fun i => x.testBit i := by
  induction n generalizing x with
  | zero => rfl
  | succ n ih =>
    rw [ctz, ih, List.range_succ_eq_map, List.findIdx_cons, List.findIdx_map, Nat.testBit_zero]
    have hcomp : (fun i => x.testBit i) ∘ Nat.succ = fun i => (x / 2).testBit i := by
      funext i
      simp [Nat.testBit_succ]
    rw [hcomp]
    rcases Nat.mod_two_eq_zero_or_one x with h | h <;> simp [h]; omega

theorem clz_eq (x : Nat) (hx : x < 2 ^ 64) : clz 64 x = (List.range 64).findIdx fun i => x.testBit (63 - i) := by
  rw [clz, Nat.mod_eq_of_lt hx]
  split
  next h0 =>
    rw [h0]
    decide
  next h0 =>
    have hlog : x.log2 < 64 := (Nat.log2_lt h0).mpr hx
    symm
    rw [List.findIdx_eq (by simpa using by omega)]
    refine ⟨?_, fun j hj => ?_⟩
    · simp only [List.getElem_range]
      rw [show 63 - (64 - 1 - x.log2) = x.log2 by omega]
      exact Nat.testBit_log2 h0
    · simp only [List.getElem_range]
      exact Nat.testBit_lt_two_pow (Nat.lt_of_lt_of_le Nat.lt_log2_self (Nat.pow_le_pow_right (by decide) (by omega)))

theorem bitReverse_lt (w x : Nat) : bitReverse w x < 2 ^ w := by
  induction w generalizing x with
  | zero => exact Nat.one_pos
  | succ w ih =>
    have := ih (x / 2)
    rw [bitReverse, Nat.shiftLeft_eq, Nat.pow_succ]
    rcases Nat.mod_two_eq_zero_or_one x with h | h <;> rw [h] <;> omega

theorem testBit_bitReverse (w x i : Nat) : (bitReverse w x).testBit i = (decide (i < w) && x.testBit (w - 1 - i)) := by
  induction w generalizing x i with
  | zero => simp [bitReverse]
  | succ w ih =>
    rw [bitReverse, Nat.shiftLeft_eq, Nat.mul_comm, Nat.testBit_two_pow_mul_add _ (bitReverse_lt w _), ih]
    by_cases hi : i < w
    · simp [hi, show i < w + 1 by omega, show w - i = w - 1 - i + 1 by omega, Nat.testBit_succ]
    · by_cases he : i = w
      · simp [he, Nat.testBit_zero]
      · have hbit : (x % 2).testBit (i - w) = false :=
          Nat.testBit_lt_two_pow (Nat.lt_of_lt_of_le (Nat.mod_lt x (by decide)) (Nat.le_self_pow (by omega) 2))
        simp [hi, hbit, show ¬i < w + 1 by omega]

theorem brev_eq (a : Word) : BitVec.ofNat 64 (bitReverse 64 a.toNat) = a.reverse := by
  ext i hi
  rw [← BitVec.getLsbD_eq_getElem, ← BitVec.getLsbD_eq_getElem, BitVec.getLsbD_ofNat, testBit_bitReverse, BitVec.getLsbD_reverse, BitVec.getMsbD]
  simp [hi, BitVec.getLsbD]

theorem movhi_eq (v : BitVec 32) (x : Word) : v ++ x.extractLsb' 0 32 = (v.setWidth 64 <<< 32) ||| (x &&& 0xFFFFFFFF#64) := by
  apply BitVec.eq_of_toNat_eq
  have hv : v.toNat <<< 32 < 2 ^ 64 := by
    rw [Nat.shiftLeft_eq]
    exact Nat.mul_lt_mul_of_pos_right v.isLt (by decide)
  have hlow : x.toNat &&& 0xFFFFFFFF = x.toNat % 2 ^ 32 := Nat.and_two_pow_sub_one_eq_mod x.toNat 32
  rw [BitVec.toNat_append, BitVec.toNat_or, BitVec.toNat_shiftLeft, BitVec.toNat_setWidth_of_le (by decide), Nat.mod_eq_of_lt hv, BitVec.toNat_and,
    BitVec.extractLsb'_toNat, Nat.shiftRight_zero]
  exact congrArg (_ ||| ·) hlow.symm

/-! ### The words -/

theorem compare_eq (c : ScalarCond) (a b : Word) : condHolds c a b = match c with
    | .eq => decide (a = b)
    | .ne => decide (a ≠ b)
    | .lt => decide (a.toInt < b.toInt)
    | .ge => decide (a.toInt ≥ b.toInt)
    | .ltn => decide (a.toNat < b.toNat)
    | .gen => decide (a.toNat ≥ b.toNat) := by
  cases c with
  | eq => rfl
  | ne => exact decide_not.symm
  | lt => rfl
  | ge => simp [condHolds, BitVec.slt, ← decide_not]
  | ltn => rfl
  | gen => simp [condHolds, BitVec.ult, ← decide_not]

theorem toInt_signExtend_64 (v : BitVec 32) : (v.signExtend 64).toInt = v.toInt := BitVec.toInt_signExtend_of_le (by decide)

theorem exec_effect {s : State} {r : ScalarRegs} (h : s.scalarRegs? = some r) (i : Instr) (n : Nat) (f : ScalarRegs → ScalarRegs)
    (hi : scalarEffect i = some (n, f)) : exec i s = .next (s.retireScalar ((f r).goto (r.pc + BitVec.ofNat 64 n))) := by
  have key : ∀ g : ScalarRegs → ScalarRegs, g r = f r → scalarStep n g s = .next (s.retireScalar ((f r).goto (r.pc + BitVec.ofNat 64 n))) :=
    fun g hg => hg ▸ scalarStep_next h n g
  cases i
  case add | sub | mul | and | or | xor | addi | andi | ori | xori | movi | nop => cases hi; exact key _ rfl
  case mulh u _ _ _ => cases u <;> cases hi <;> exact key _ rfl
  case div u _ _ _ => cases u <;> cases hi <;> exact key _ (by simp only [divWord_true, divWord_false])
  case rem u _ _ _ => cases u <;> cases hi <;> exact key _ (by simp only [remWord_true, remWord_false])
  case min u _ _ _ => cases u <;> cases hi <;> exact key _ (by simp only [minWord, slt_iff, ult_iff, if_true, Bool.false_eq_true, if_false])
  case max u _ _ _ => cases u <;> cases hi <;> exact key _ (by simp only [maxWord, slt_iff, ult_iff, if_true, Bool.false_eq_true, if_false])
  case shl | shli => cases hi; exact key _ (by simp only [shlWord_eq])
  case shr | shri => cases hi; exact key _ (by simp only [shrWord_eq])
  case sar | sari => cases hi; exact key _ (by simp only [sarWord_eq])
  case bfx => cases hi; exact key _ (by simp only [bfx_eq])
  case bfi => cases hi; exact key _ (by simp only [bfi_eq])
  case movhi => cases hi; exact key _ (by simp only [movhi_eq])
  case popc => cases hi; exact key _ (by simp only [popCount_eq]; rfl)
  case clz => cases hi; exact key _ (by simp only [clz_eq _ (BitVec.isLt _)]; rfl)
  case ctz => cases hi; exact key _ (by simp only [ctz_eq]; rfl)
  case brev => cases hi; exact key _ (by simp only [brev_eq])
  case cmp c _ _ _ => cases c <;> cases hi <;> exact key _ (by simp only [compare_eq])
  case cmpi c _ _ _ => cases c <;> cases hi <;> exact key _ (by simp only [compare_eq, toInt_signExtend_64])
  case qop f _ _ _ => cases f <;> cases hi <;> exact key _ rfl
  case sel _ q _ _ => cases hi; exact key _ (by simp only [cond_eq_ite])
  all_goals nomatch hi

/-- Settles O1: each word is one step on the scalar registers, with the result of its rule. -/
theorem scalarWordsComplete : Obligations.ScalarWordsComplete := by
  unfold Obligations.ScalarWordsComplete
  intro i n f hi s r h
  exact exec_effect h i n f hi

/-! ### The frame -/

theorem getQ_setQ_other (r : ScalarRegs) {x y : QReg} (b : Bool) (h : x ≠ y) : (r.setQ x b).getQ y = r.getQ y := by
  unfold ScalarRegs.setQ
  split
  · rfl
  · have hne : x.toNat ≠ y.toNat := fun e => h (BitVec.eq_of_toNat_eq e)
    have hone : (1#16 <<< x.toNat).getLsbD y.toNat = false := by
      rw [BitVec.getLsbD_shiftLeft, BitVec.getLsbD_one]
      have : y.toNat - x.toNat = 0 → y.toNat < x.toNat := by omega
      simp only [Bool.and_eq_false_iff, Bool.not_eq_false', decide_eq_false_iff_not, decide_eq_true_eq]
      omega
    have hy : y.toNat < 16 := y.isLt
    cases b <;> simp only [ScalarRegs.getQ, BitVec.getLsbD_or, BitVec.getLsbD_and, BitVec.getLsbD_not, hone, hy, decide_true, Bool.not_false, Bool.and_true,
      Bool.or_false, if_true, Bool.false_eq_true, if_false, BitVec.ofNat_eq_ofNat, BitVec.getLsbD_zero]

/-- The effect of each of these words leaves every register but its destination as it was. -/
theorem effect_keeps (i : Instr) (n : Nat) (f : ScalarRegs → ScalarRegs) (hi : scalarEffect i = some (n, f)) (r : ScalarRegs) :
    (∀ x, scalarDest i ≠ some x → (f r).getS x = r.getS x) ∧ (∀ q, scalarDestQ i ≠ some q → (f r).getQ q = r.getQ q) := by
  have hS : ∀ d v, (∀ x, some d ≠ some x → (r.setS d v).getS x = r.getS x) ∧ ∀ q : QReg, none ≠ some q → (r.setS d v).getQ q = r.getQ q :=
    fun d v => ⟨fun x hx => getS_setS_other r v fun e => hx (congrArg some e.symm), fun _ _ => rfl⟩
  have hQ : ∀ d b, (∀ x : SReg, none ≠ some x → (r.setQ d b).getS x = r.getS x) ∧ ∀ q, some d ≠ some q → (r.setQ d b).getQ q = r.getQ q :=
    fun d b => ⟨fun x _ => by unfold ScalarRegs.setQ; split <;> rfl, fun q hq => getQ_setQ_other r b fun e => hq (congrArg some e)⟩
  cases i
  case mulh u _ _ _ | div u _ _ _ | rem u _ _ _ | min u _ _ _ | max u _ _ _ => cases u <;> cases hi <;> exact hS _ _
  case cmp c _ _ _ | cmpi c _ _ _ => cases c <;> cases hi <;> exact hQ _ _
  case qop f _ _ _ => cases f <;> cases hi <;> exact hQ _ _
  case nop => cases hi; exact ⟨fun _ _ => rfl, fun _ _ => rfl⟩
  case add | sub | mul | and | or | xor | shl | shr | sar | bfx | bfi | addi | andi | ori | xori | shli | shri | sari | movi | movhi | popc | clz | ctz
      | brev | sel => cases hi; exact hS _ _
  all_goals nomatch hi

/-- Retiring a scalar word in the handler slot. -/
theorem retireScalar_handler {s : State} {c : Cur} (hc : s.cur = some c) (h : c.stream = .handler) (r : ScalarRegs) :
    s.retireScalar r = s.modTeam c.team fun T => { T with handler := { T.handler with regs := r, stall := none } } := by
  simp only [State.retireScalar, hc, h]

/-- Retiring a scalar word of a group. -/
theorem retireScalar_group {s : State} {c : Cur} (hc : s.cur = some c) (h : c.stream ≠ .handler) (r : ScalarRegs) :
    s.retireScalar r = s.modGroup c.team c.grp fun g =>
      { g with regs := r, ric := g.ric + 1, stallS := none, ricSeen := s.tick, skipS := false } := by
  unfold State.retireScalar
  rw [hc]
  dsimp only
  split
  next hs => exact absurd hs h
  next => rfl

/-- Retiring a scalar word changes the registers and marks of its stream alone. -/
theorem onlyScalar_retire {s : State} {c : Cur} (hc : s.cur = some c) (r : ScalarRegs) : OnlyScalar s (s.retireScalar r) := by
  refine ⟨retireScalar_frame s r, ?_⟩
  by_cases hst : c.stream = .handler
  · rw [retireScalar_handler hc hst]
    refine ⟨modifyAt_length .., fun u hu => ?_, fun u T T' hT hT' => ?_, fun u g _ => ?_, fun u g G G' hG hG' => ?_⟩
    · exact team?_modTeam_other s _ fun e => hu (by rw [hc, e]; rfl)
    · rw [team?_modTeam, hT] at hT'
      split at hT' <;> cases hT'
      · exact ⟨rfl, fun h => absurd (by rw [hc, ← hst]; rfl) h, fun _ => rfl⟩
      · exact ⟨rfl, fun _ => rfl, fun _ => rfl⟩
    · exact group?_modTeam_keep s _ u g fun _ => rfl
    · rw [group?_modTeam_keep, hG] at hG'
      · cases hG'
        rfl
      · exact fun _ => rfl
  · rw [retireScalar_group hc hst]
    refine ⟨modifyAt_length .., fun u hu => ?_, fun u T T' hT hT' => ?_, fun u g hne => ?_, fun u g G G' hG hG' => ?_⟩
    · exact team?_modTeam_other s _ fun e => hu (by rw [hc, e]; rfl)
    · rw [team?_modGroup, hT] at hT'
      split at hT' <;> cases hT'
      · exact ⟨rfl, fun _ => rfl, fun h => absurd (by simpa [hc] using h) hst⟩
      · exact ⟨rfl, fun _ => rfl, fun _ => rfl⟩
    · exact group?_modGroup_other s _ fun e => hne (by rw [hc, e.1, e.2]; rfl)
    · rw [group?_modGroup, hG] at hG'
      split at hG' <;> cases hG' <;> rfl

/-- Settles O2: the word's effect keeps the other registers, and retiring keeps everything else. -/
theorem scalarWordsFrame : Obligations.ScalarWordsFrame := by
  unfold Obligations.ScalarWordsFrame
  intro i n f hi s t r r' h ht hr'
  cases (exec_effect h i n f hi).symm.trans ht
  cases (scalarRegs_retire h).symm.trans hr'
  obtain ⟨hS, hQ⟩ := effect_keeps i n f hi r
  obtain ⟨c, hc⟩ : ∃ c, s.cur = some c := by
    cases hcur : s.cur with
    | none => simp [State.scalarRegs?, hcur] at h
    | some c => exact ⟨c, rfl⟩
  refine ⟨hS, hQ, rfl, onlyScalar_retire hc _, fun a => ?_⟩
  rw [retireScalar_frame]

/-- Settles O5: q15 reads 1 by definition, so its complement is 0, which the destination then reads. -/
theorem qFifteenReadsOne : Obligations.QFifteenReadsOne := by
  unfold Obligations.QFifteenReadsOne
  intro q qb s r h
  refine ⟨rfl, by rw [exec_qop, execQop, scalarStep_next h, State.scalarNext, setQ_pc]; rfl, fun hq => ?_⟩
  have hlt : q.toNat < 16 := q.isLt
  have hbit : (1#16 <<< q.toNat).getLsbD q.toNat = true := by
    simp [hlt]
  rw [ScalarRegs.setQ, if_neg hq, ScalarRegs.getQ, beq_eq_false_iff_ne.mpr hq, Bool.false_or, if_neg Bool.false_ne_true, BitVec.getLsbD_or,
    BitVec.getLsbD_and, BitVec.getLsbD_not, hbit, Bool.not_true, Bool.and_false, Bool.and_false, Bool.false_or]
  exact BitVec.getLsbD_zero

end Sys2Proof.Proofs
end

section
/-! SUPPORT. The words written out in the manual, and the state after reset. -/

namespace Sys2Proof.Proofs

open Machine Claims Laws

/-- Settles O56: the decoder evaluated on each of the words. -/
theorem writtenWordsDecode : Obligations.WrittenWordsDecode := by
  unfold Obligations.WrittenWordsDecode
  simp only [writtenWords, List.forall_mem_cons]
  exact ⟨rfl, rfl, rfl, rfl, rfl, rfl, rfl, rfl, rfl, rfl, rfl, rfl, rfl, rfl, rfl, rfl, rfl, rfl, rfl, rfl, rfl, rfl, rfl, rfl, rfl, rfl, rfl, rfl, rfl, rfl,
    rfl, rfl, List.forall_mem_nil _⟩

/-- Settles O59: the reset state evaluated field by field. -/
theorem resetValues : Obligations.ResetValues := by
  unfold Obligations.ResetValues
  refine ⟨rfl, rfl, rfl, rfl, rfl, rfl, rfl, rfl, rfl, rfl, ?classes, rfl, rfl, rfl, rfl, rfl, rfl, rfl, rfl, rfl, rfl, rfl, rfl, rfl, rfl, rfl, rfl, rfl, rfl,
    rfl, rfl, rfl⟩
  case classes =>
    intro v hv
    rw [List.eq_of_mem_replicate hv]
    exact ⟨rfl, rfl, rfl⟩

end Sys2Proof.Proofs
end

section
/-! SUPPORT. What the checks of an access do where one of them fails (R167), and the runs of the words that read and write scalar memory. -/

namespace Sys2Proof.Proofs
open Machine Claims Laws

/-! ### A check that fails -/

theorem trapReqs_nil (k : Cause) (i : Word) (s : State) : trapReqs k i [] s = .ok ((), s) := rfl
theorem trapReqs_cons (k : Cause) (i : Word) (r : Req) (bad : List Req) (s : State) :
    trapReqs k i (r :: bad) s = .error (.trap { cause := k, tlane := laneMask (r :: bad), taddr := BitVec.ofInt 64 r.ea, tinfo := i }, s) := rfl

/-- The faults among located requests, as the claims list them. -/
theorem faults_split (found : List (Option Word × Hit)) :
    (found.filterMap fun x => x.1.map fun m => (m, x.2.req)) = (found.filter fun x => x.1.isSome).map fun x => (x.1.getD 0, x.2.req) := by
  induction found with
  | nil => rfl
  | cons x l ih =>
    obtain ⟨m, h⟩ := x
    cases m <;> simp [ih]

theorem located_faults (hits : List Hit) : ((hits.map fun h => ((none : Option Word), h)).filter fun x => x.1.isSome) = [] := by
  simp [List.filter_eq_nil_iff]

/-- An access that fails a check of R167 raises that check's trap. -/
theorem checkAccess_fails {c : Cur} {T : Team} {G : Group} {C : Context} {ag : Agent} {reqs : List Req} {x : TrapArgs} {s u : State}
    (hh : here s = .ok ((c, T, G), s)) (ha : hereAgent s = .ok (ag, s)) (hC : hereContext s = .ok (C, s))
    (hb : c.stream = .handler → s.teamBusy c.team = false) (hf : CheckFails ag T reqs s x u) :
    checkAccess reqs (fun _ => true) s = .error (.trap x, u) := by
  have aligned (h : ∀ q ∈ reqs, q.ea % (q.align : Int) = 0) : (reqs.filter fun r : Req => r.ea % r.align != 0) = [] :=
    List.filter_eq_nil_iff.2 fun q hq => by simp [h q hq]
  have inside (h : ∀ q ∈ reqs, q.scratch = true → 0 ≤ q.ea ∧ q.ea + q.size ≤ (T.size : Int)) :
      (reqs.filter fun r : Req => r.scratch && (decide (r.ea < 0) || decide (r.ea + r.size > T.size))) = [] :=
    List.filter_eq_nil_iff.2 fun q hq => by
      cases hs : q.scratch with
      | false => simp
      | true => simpa [hs] using h q hq hs
  have free (h : ∀ q ∈ reqs, ∀ l ∈ T.locks, l.against T.core (if q.scratch then 1 else 0) 0 q.ea q.size q.acc.writes = false) :
      (reqs.filter fun r : Req => T.locks.any fun l => l.against T.core (if r.scratch then 1 else 0) 0 r.ea r.size r.acc.writes) = [] :=
    List.filter_eq_nil_iff.2 fun q hq => by simpa using h q hq
  have busy : (c.stream == .handler && s.teamBusy c.team) = false := by
    cases hs : c.stream <;> simp_all
  unfold checkAccess
  rw [bind_ok hh]
  simp only
  rw [bind_ok ha, bind_ok hC, bind_ok (get_run s)]
  simp only [busy, Bool.false_eq_true, if_false]
  cases hf with
  | align r bad h =>
    rw [show (reqs.filter fun r : Req => r.ea % r.align != 0) = r :: bad by rw [← h]; congr 1; funext q; rw [Bool.eq_iff_iff]; simp]
    rw [bind_error (trapReqs_cons ..)]
    rfl
  | address found m r bad _ h1 h2 h3 =>
    rw [faults_split, List.map_eq_cons_iff] at h3
    obtain ⟨f, fs, hfs, hfr, hbad⟩ := h3
    rw [aligned h1, bind_ok (trapReqs_nil ..), bind_ok h2]
    have hsome : f.1 = some m := by
      have : f ∈ found.filter fun x => x.1.isSome := by simp [hfs]
      have := (List.mem_filter.1 this).2
      cases hf1 : f.1 <;> simp_all
    have hreq : (f :: fs).map (fun x => x.2.req) = r :: bad.map (·.2) := by
      simp only [List.map_cons, ← hbad, List.map_map]
      simp_all [Function.comp_def]
    simp only [hfs, hreq, List.head?_cons, Option.bind_some, hsome, Option.getD_some]
    rw [bind_error (trapReqs_cons ..)]
    rfl
  | bounds hits r bad _ h1 h2 h3 =>
    rw [aligned h1, bind_ok (trapReqs_nil ..), bind_ok h2]
    simp only [located_faults, List.map_nil]
    rw [bind_ok (trapReqs_nil ..)]
    rw [show (reqs.filter fun r : Req => r.scratch && (decide (r.ea < 0) || decide (r.ea + r.size > T.size))) = r :: bad by
      rw [← h3]; congr 1; funext q; simp [Bool.decide_or]]
    rw [bind_error (trapReqs_cons ..)]
    rfl
  | range hits r bad _ h1 h2 h3 h4 =>
    rw [aligned h1, bind_ok (trapReqs_nil ..), bind_ok h2]
    simp only [located_faults, List.map_nil]
    rw [bind_ok (trapReqs_nil ..), inside h3, bind_ok (trapReqs_nil ..), h4, bind_error (trapReqs_cons ..)]
    rfl
  | access hits h bad _ h1 h2 h3 h4 h5 =>
    rw [aligned h1, bind_ok (trapReqs_nil ..), bind_ok h2]
    simp only [located_faults, List.map_nil]
    rw [bind_ok (trapReqs_nil ..), inside h3, bind_ok (trapReqs_nil ..), free h4, bind_ok (trapReqs_nil ..), bind_ok (get_run u)]
    have hbad : (((hits.map fun h => ((none : Option Word), h)).map fun x => x.2).filter fun h =>
        (h.parts.any (fun p => !p.permits h.req.acc) || !true) || h.parts.any fun p => !p.open h.req.acc u) = h :: bad := by
      rw [← h5, List.map_map]
      simp only [Function.comp_def, List.map_id', Bool.not_true, Bool.or_false]
      congr 1; funext q
      induction q.parts with
      | nil => rfl
      | cons p ps ih =>
        simp only [List.any_cons, ← ih]
        cases p.permits q.req.acc <;> cases p.open q.req.acc u <;> simp
    simp only [hbad, List.map_cons]
    rw [bind_error (trapReqs_cons ..)]
    have hinfo : (if (h.parts.any (fun p => !p.permits h.req.acc) || !true) = true then (0 : Word) else 0x200)
        = if h.parts.all (fun p => p.permits h.req.acc) = true then 0x200 else 0 := by
      simp only [Bool.not_true, Bool.or_false, List.any_eq_not_all_not, Bool.not_not]
      cases h.parts.all fun p => p.permits h.req.acc <;> rfl
    rw [hinfo]
    rfl

end Sys2Proof.Proofs
end

section
/-! SUPPORT. The runs of the words that load and store scalar memory (R83 to R86). -/

namespace Sys2Proof.Proofs
open Machine Claims Laws

variable {c : Cur} {T : Team} {G : Group} {L : Launch} {C : Context} {r : ScalarRegs} {s s' : State} {a : Agent} {h : Hit}

theorem scalarRegs?_congr {s t : State} (h1 : t.cur = s.cur) (h2 : t.teams = s.teams) : t.scalarRegs? = s.scalarRegs? := by
  simp only [State.scalarRegs?, State.group?, h1, h2]

theorem readsApart_regs (whole : Bool) (x : Apart) (accs : List ReadAt) (s : State) : (s.readsApart whole x accs).1.scalarRegs? = s.scalarRegs? := by
  obtain h | ⟨-, ⟨-, h⟩ | ⟨-, h⟩⟩ := readsApart_cases whole x accs s <;> rw [h] <;> exact scalarRegs?_congr rfl rfl

theorem hereAgent_ok (hc : s.cur = some c) (ha : s.agentOf? c.team = some a) : hereAgent s = .ok (a, s) := by
  simp [hereAgent, hc, ha]

theorem remote_of_peer {p : Part} {rest : List Part} {dev o : Nat} (hp : h.parts = p :: rest) (hw : p.place = .peer dev o) : h.remote = true := by
  simp [Hit.remote, hp, Part.isPeer, hw]

theorem readsLate_run (hh : here s = .ok ((c, T, G), s)) (d : SReg) (ext : Nat) :
    readsLate h d ext s = .ok (decide ((scalarRead c h d ext s).2 ≠ 0), (scalarRead c h d ext s).1) := by
  unfold readsLate
  rw [bind_ok hh]
  rfl

theorem remoteScalar_run {p : Part} {rest : List Part} {dev o : Nat} (hh : here s = .ok ((c, T, G), s)) (hp : h.parts = p :: rest)
    (hw : p.place = .peer dev o) (d : SReg) (ext : Nat) (op : FabricOp) (acq : Option Nat) :
    remoteScalar h d ext op acq s = .error (.stall .remote, s.sendRemote
      { Remote.of c.team c.grp dev o h.req.size G.lanePc with sreg := some (c.stream, d.toNat, ext), acq := acq } op) := by
  obtain ⟨_, _, _, _, _, _, _, _⟩ := p
  simp only at hw
  subst hw
  unfold remoteScalar
  rw [bind_ok hh]
  simp only [hp]
  rfl



/-- A scalar load whose page is not at hand reports it and stalls. -/
theorem scalarLoad_waits {scratch : Bool} {ea : Int} {z : LoadSize} {align : Nat} (d : SReg)
    (hw : waitingRemote s = .ok (false, s)) (hc : checkAccess [scalarReq scratch ea (loadBytes z) align .read] (fun _ => true) s = .ok ([h], s'))
    (hh : here s' = .ok ((c, T, G), s')) (ha : hereAgent s' = .ok (a, s')) (hp : h.waitsHere s' a = true) :
    scalarLoad scratch ea z align d none s = .error (.stall .page, s'.reportParts a h.req.acc h.parts) := by
  unfold scalarReq at hc
  simp only [scalarLoad, reportHits, bind_run, hw, Bool.false_eq_true, if_false, pure_run, hc, hh, ha, forIn_one, Option.isSome_none, get_run, hp, if_true,
    upd_run, stallOn_run]

/-- One of another device asks it, and the stream blocks. -/
theorem scalarLoad_asks {scratch : Bool} {ea : Int} {z : LoadSize} {align : Nat} (d : SReg) {p : Part} {rest : List Part} {dev o : Nat}
    (hw : waitingRemote s = .ok (false, s)) (hc : checkAccess [scalarReq scratch ea (loadBytes z) align .read] (fun _ => true) s = .ok ([h], s'))
    (hh : here s' = .ok ((c, T, G), s')) (ha : hereAgent s' = .ok (a, s')) (hp : h.waitsHere s' a = false)
    (hparts : h.parts = p :: rest) (hpeer : p.place = .peer dev o) :
    scalarLoad scratch ea z align d none s = .error (.stall .remote, s'.sendRemote
      { Remote.of c.team c.grp dev o h.req.size G.lanePc with sreg := some (c.stream, d.toNat, z.code) } (.read (loadBytes z))) := by
  unfold scalarReq at hc
  simp only [scalarLoad, bind_run, hw, Bool.false_eq_true, if_false, pure_run, hc, hh, ha, forIn_one, Option.isSome_none, get_run, hp,
    remote_of_peer hparts hpeer, if_true, remoteScalar_run hh hparts hpeer]
  rfl

/-- One of this device reads, and retires with the last of its pieces. -/
theorem scalarLoad_lands {scratch : Bool} {ea : Int} {z : LoadSize} {align : Nat} (d : SReg) (hreg : s'.scalarRegs? = some r)
    (hw : waitingRemote s = .ok (false, s)) (hc : checkAccess [scalarReq scratch ea (loadBytes z) align .read] (fun _ => true) s = .ok ([h], s'))
    (hh : here s' = .ok ((c, T, G), s')) (ha : hereAgent s' = .ok (a, s')) (hp : h.waitsHere s' a = false) (hl : h.remote = false) :
    scalarLoad scratch ea z align d none s =
      .ok ((), scalarLanded 4 (r.setS d (loadValue z (s'.readHit c.team h))) (scalarRead c h d z.code s')) := by
  have hr : (scalarRead c h d z.code s').1.scalarRegs? = some r := by rw [← hreg]; exact readsApart_regs ..
  unfold scalarReq at hc
  simp only [scalarLoad, bind_run, hw, Bool.false_eq_true, if_false, pure_run, hc, hh, ha, forIn_one, Option.isSome_none, get_run, hp,
    hl, readsLate_run hh, decide_eq_true_eq, scalarLanded]
  by_cases h0 : (scalarRead c h d z.code s').2 = 0
  · simp only [h0, ne_eq, not_true_eq_false, if_false, if_true, bind_run, hereScalar_ok hr, doneScalar_run, pure_run, State.scalarNext, setS_pc]
  · simp only [h0, ne_eq, not_false_eq_true, if_false, if_true, pure_run]

end Sys2Proof.Proofs
end

section
/-! SUPPORT. The loads of scalar memory complete, ask, stall or trap (R83, R167, R253). -/

namespace Sys2Proof.Proofs
open Machine Claims Laws

variable {c : Cur} {T : Team} {G : Group} {L : Launch} {C : Context} {r : ScalarRegs} {s s' u : State} {a : Agent} {h : Hit}

theorem exec_load (scratch : Bool) (z : LoadSize) (d base : SReg) (off : BitVec 10) (hr : s.scalarRegs? = some r) :
    exec (if scratch then .lds z d base off else .ld z d base off) s
      = M.answer (scalarLoad scratch ((r.getS base).toNat + off.toNat * loadBytes z : Nat) z 1 d none) s := by
  cases scratch
  · exact (exec_ld ..).trans (by simp only [execLd, answer_eq, bind_run, hereScalar_ok hr]; rfl)
  · exact (exec_lds ..).trans (by simp only [execLds, answer_eq, bind_run, hereScalar_ok hr]; rfl)

/-- An access of one piece is read whole. -/
theorem scalarRead_onePiece (d : SReg) (ext : Nat) (h1 : onePiece [(h.readAt c.team).blocks] = true) : scalarRead c h d ext s = (s, 0) := by
  simp [scalarRead, State.readsApart, h1]

/-- The bytes of a load as the stream takes them once the last has come. -/
theorem landScalar_load (t : Nat) (z : LoadSize) (d : SReg) (b : List Byte) :
    s.landScalar t d.toNat z.code b r = s.scalarNext 4 (r.setS d (loadValue z b)) := by
  cases z <;> simp [State.landScalar, LoadSize.code, loadValue, State.scalarNext, setS_pc]

theorem putRest_scalar (d : SReg) (ext n : Nat) (b : List Byte) (rest : List (Nat × Nat × Block)) (u : State) :
    u.putRest (scalarRest c d ext n b rest) = u := by
  simp [State.putRest, scalarRest, Apart.of]

theorem readRest_scalar {d : SReg} {ext n : Nat} {b : List Byte} {rest : List (Nat × Nat × Block)} (hr : u.scalarRegs? = some r)
    (hl : u.leftBy c.team c.grp c.stream = false) :
    u.readRest (scalarRest c d ext n b rest) = u.landScalar c.team d.toNat ext (bytesRead b rest u) r := by
  simp only [State.readRest, scalarRest, Apart.of, Option.elim_none, hr, hl, Bool.false_eq_true, if_false, bytesRead]

/-- The rest of a scalar read, once it is performed. -/
theorem performApart_scalar {d : SReg} {ext n : Nat} {b : List Byte} {rest : List (Nat × Nat × Block)} (s : State)
    (hr : ({ s with cur := some c } : State).scalarRegs? = some r) (hl : ({ s with cur := some c } : State).leftBy c.team c.grp c.stream = false) :
    s.performApart (scalarRest c d ext n b rest) =
      ({ ({ s with cur := some c } : State).landScalar c.team d.toNat ext (bytesRead b rest { s with cur := some c }) r with cur := s.cur } : State).settleTeam
        c.team := by
  rw [← readRest_scalar (n := n) hr hl]
  conv =>
    rhs
    rw [← putRest_scalar (c := c) d ext n b rest { s with cur := some c }]
  rfl

/-- A request of a load that fails a check raises its trap. -/
theorem scalarLoad_traps {scratch : Bool} {ea : Int} {z : LoadSize} {align : Nat} (d : SReg) {acq : Option Nat} {stamp : Nat} {x : TrapArgs}
    (hw : waitingRemote s = .ok (false, s)) (ho : acq.isSome = true → orderedWait s = .ok (stamp, s))
    (hc : checkAccess [scalarReq scratch ea (loadBytes z) align .read] (fun _ => true) s = .error (.trap x, u)) :
    scalarLoad scratch ea z align d acq s = .error (.trap x, u) := by
  unfold scalarReq at hc
  cases acq with
  | none => simp only [scalarLoad, bind_run, hw, Bool.false_eq_true, if_false, pure_run, hc]
  | some q => simp only [scalarLoad, bind_run, hw, Bool.false_eq_true, if_false, ho rfl, hc]

theorem loadBytes_load (z : Size) : loadBytes (Size.load z) = sizeBytes z := by cases z <;> rfl

/-- Settles O6. -/
theorem scalarLoadsComplete : Obligations.ScalarLoadsComplete := by
  unfold Obligations.ScalarLoadsComplete
  refine ⟨?_, ?_, ?_⟩
  · intro scratch z d base off c T T' G G' L L' C C' r h s s' hs hw hc hs' a ha i r'
    have hag := hereAgent_ok hs'.cur ha
    have hrun := exec_load scratch z d base off hs.regs
    refine ⟨fun hp hl => ?_, fun p rest dev o hp hparts hpeer => ?_, fun hp => ?_⟩
    · have hnext := hrun.trans (answer_ok (scalarLoad_lands d hs'.regs hw hc (hand_here hs') hag hp hl))
      exact ⟨hnext, fun h1 => hnext.trans (by rw [scalarRead_onePiece d _ h1]; rfl)⟩
    · exact hrun.trans (answer_stall (scalarLoad_asks d hw hc (hand_here hs') hag hp hparts hpeer))
    · exact hrun.trans (answer_stall (scalarLoad_waits d hw hc (hand_here hs') hag hp))
  · intro z d c n b rest r s u hr hl
    rw [performApart_scalar s hr hl, landScalar_load]
  · intro i ordered q c T G L C r ag stamp x s u hacc hread hs ha hb hw ho hf
    have hcheck := checkAccess_fails (hand_here hs) ha (hand_context hs) hb hf
    cases i <;> simp only [scalarAccess, Option.some.injEq, Prod.mk.injEq, reduceCtorEq] at hacc
    all_goals obtain ⟨rfl, rfl⟩ := hacc
    case ld z d b o =>
      exact (exec_load false z d b o hs.regs).trans (answer_trap (scalarLoad_traps (stamp := stamp) d hw nofun hcheck))
    case lds z d b o =>
      exact (exec_load true z d b o hs.regs).trans (answer_trap (scalarLoad_traps (stamp := stamp) d hw nofun hcheck))
    case ldaq sc z d b =>
      rw [← loadBytes_load] at hcheck
      have hrun := scalarLoad_traps (acq := some sc.code) d hw (fun _ => ho rfl) hcheck
      refine (exec_ldaq ..).trans (answer_trap ?_)
      simp only [bind_run, hand_scalar hs, ← loadBytes_load, hrun]
    all_goals exact nomatch hread

end Sys2Proof.Proofs
end

section
/-! SUPPORT. What the memory system leaves as it was: the current stream, the launches and contexts, and the teams but for their scratchpads' bytes, the
count of ordered operations and the parks of their groups; and every memory keeps its canonical form. -/

namespace Sys2Proof.Proofs
open Machine Claims Laws

/-- A group but for its park; a team but for the parks of its groups, and but for its count of ordered operations too. -/
def groupFace (G : Group) : Group := { G with park := none }
def teamFace (T : Team) : Team := { T with groups := T.groups.map groupFace }
def logFace (T : Team) : Team := { teamFace T with ordered := 0 }

/-- `t` has the current stream, the launches and the contexts of `s`, and its teams as far as `face` shows them; its memories have the canonical form
where those of `s` do. -/
structure Same (face : Team → Team) (s t : State) : Prop where
  cur      : t.cur = s.cur
  launches : t.launches = s.launches
  contexts : t.contexts = s.contexts
  teams    : t.teams.map face = s.teams.map face
  wf       : s.memoryWf = true → t.memoryWf = true

/-- `t` differs from `s` at most by what the memory system does; or by the count of ordered operations too. -/
abbrev Kept : State → State → Prop := Same teamFace
abbrev KeptLog : State → State → Prop := Same logFace

namespace Same

variable {face : Team → Team} {s t u : State}

theorem refl (s : State) : Same face s s := ⟨rfl, rfl, rfl, rfl, id⟩

theorem trans (h : Same face s t) (k : Same face t u) : Same face s u :=
  ⟨k.cur.trans h.cur, k.launches.trans h.launches, k.contexts.trans h.contexts, k.teams.trans h.teams, k.wf ∘ h.wf⟩

/-- A change outside what `Same` speaks of. -/
theorem of_eq (hc : t.cur = s.cur) (hl : t.launches = s.launches) (hx : t.contexts = s.contexts) (ht : t.teams = s.teams) (hm : t.mem = s.mem)
    (hh : t.hostMem = s.hostMem) : Same face s t :=
  ⟨hc, hl, hx, by rw [ht], by simp only [State.memoryWf, ht, hm, hh]; exact id⟩

theorem foldl {β : Type} {f : State → β → State} (h : ∀ s x, Same face s (f s x)) (l : List β) (s : State) : Same face s (l.foldl f s) := by
  induction l generalizing s with
  | nil => exact refl s
  | cons x l ih => exact (h s x).trans (ih _)

theorem log (h : Same teamFace s t) : KeptLog s t :=
  ⟨h.cur, h.launches, h.contexts, by
    have := congrArg (List.map fun T : Team => { T with ordered := 0 }) h.teams
    simp only [List.map_map] at this
    exact this, h.wf⟩

end Same

theorem map_modifyAt {α β : Type} {f : α → α} {g : α → β} (h : ∀ x, g (f x) = g x) (i : Nat) (l : List α) : (modifyAt f i l).map g = l.map g := by
  induction l generalizing i with
  | nil => cases i <;> rfl
  | cons x l ih => cases i <;> simp [modifyAt, h, ih]

theorem mem_modifyAt {α : Type} {f : α → α} {x : α} {i : Nat} {l : List α} (h : x ∈ modifyAt f i l) : x ∈ l ∨ ∃ y ∈ l, x = f y := by
  induction l generalizing i with
  | nil => simp [modifyAt] at h
  | cons y l ih =>
    cases i with
    | zero =>
      rcases List.mem_cons.1 h with rfl | h
      · exact .inr ⟨y, by simp, rfl⟩
      · exact .inl (by simp [h])
    | succ i =>
      rcases List.mem_cons.1 h with rfl | h
      · exact .inl (by simp)
      · rcases ih h with h | ⟨z, hz, rfl⟩
        · exact .inl (by simp [h])
        · exact .inr ⟨z, by simp [hz], rfl⟩

theorem memoryWf_iff {s : State} :
    s.memoryWf = true ↔ Memory.wf s.mem = true ∧ Memory.wf s.hostMem = true ∧ ∀ T ∈ s.teams, Memory.wf T.scratch = true := by
  simp [State.memoryWf, and_assoc]

/-- A change of one team that keeps the form of its scratchpad. -/
theorem memoryWf_modTeam {s : State} {t : Nat} {f : Team → Team} (hw : ∀ T, Memory.wf T.scratch = true → Memory.wf (f T).scratch = true)
    (h : s.memoryWf = true) : (s.modTeam t f).memoryWf = true := by
  obtain ⟨hm, hh, ht⟩ := memoryWf_iff.1 h
  refine memoryWf_iff.2 ⟨hm, hh, fun T hT => ?_⟩
  rcases mem_modifyAt hT with hT | ⟨U, hU, rfl⟩
  · exact ht T hT
  · exact hw U (ht U hU)

section
variable (s : State)

theorem kept_modTeam (t : Nat) {f : Team → Team} (hf : ∀ T, teamFace (f T) = teamFace T)
    (hw : ∀ T, Memory.wf T.scratch = true → Memory.wf (f T).scratch = true) : Kept s (s.modTeam t f) :=
  ⟨rfl, rfl, rfl, map_modifyAt hf _ _, memoryWf_modTeam hw⟩

theorem kept_modGroup (t g : Nat) {f : Group → Group} (hf : ∀ G, groupFace (f G) = groupFace G) : Kept s (s.modGroup t g f) :=
  kept_modTeam s t (fun T => by simp only [teamFace, map_modifyAt hf]) fun _ h => h

theorem kept_modDome (f : Dome → Dome) : Kept s (s.modDome f) := .of_eq rfl rfl rfl rfl rfl rfl
theorem kept_modCore (c : Nat) (f : Machine.Core → Machine.Core) : Kept s (s.modCore c f) := .of_eq rfl rfl rfl rfl rfl rfl
theorem kept_caches (quads : List Quad) (cores : List Machine.Core) (l2 : List L2Line) (partials : List Partial) :
    Kept s { s with quads := quads, cores := cores, l2 := l2, partials := partials } := .of_eq rfl rfl rfl rfl rfl rfl
theorem kept_post (e : Event) : Kept s (s.post e) := .of_eq rfl rfl rfl rfl rfl rfl
theorem kept_writeBack (ls : List (Nat × L1Line)) : Kept s (s.writeBack ls) := .of_eq rfl rfl rfl rfl rfl rfl
theorem kept_l2Access (pa len cls : Nat) (host write : Bool) : Kept s (s.l2Access pa len cls host write) := .of_eq rfl rfl rfl rfl rfl rfl

/-! ### Writes of memory -/

theorem cellsSeal_wf (key : Option Nat) (a : Nat) (b : List Byte) {m : Cells} (hw : Memory.wf m = true) : Memory.wf (cellsSeal key a b m) = true := by
  cases key <;> exact cellsWrite_wf _ _ hw

theorem kept_pokeAt (host : Bool) (key : Option Nat) (pa n a : Nat) (b : List Byte) : Kept s (s.pokeAt host key pa n a b) := by
  refine ⟨rfl, rfl, rfl, rfl, fun h => ?_⟩
  obtain ⟨hm, hh, ht⟩ := memoryWf_iff.1 h
  refine memoryWf_iff.2 ⟨?_, ?_, ht⟩
  · cases host
    · exact cellsSeal_wf _ _ _ hm
    · exact hm
  · cases host
    · exact hh
    · exact cellsWrite_wf _ _ hh

theorem kept_pokeMem (host : Bool) (a : Nat) (b : List Byte) (key : Option Nat) : Kept s (s.pokeMem host a b key) := kept_pokeAt ..

theorem kept_wakeFrom (s' : State) (stamp : Nat) (who : Option Nat) : Kept s (s.wakeFrom s' stamp who) := by
  refine .foldl (fun u x => ?_) _ _
  refine Same.trans (kept_modGroup u _ _ ?_) (kept_post _ _)
  exact fun _ => rfl

theorem kept_devPoke (a : Nat) (b : List Byte) (key : Option Nat) : Kept s (s.devPoke a b key) := by
  unfold State.devPoke
  split
  · exact kept_pokeMem ..
  · exact .refl s

theorem kept_devWrite (a : Nat) (b : List Byte) : Kept s (s.devWrite a b) := (kept_devPoke s a b none).trans (kept_wakeFrom ..)
theorem kept_writeMem (host : Bool) (a : Nat) (b : List Byte) (stamp : Nat) : Kept s (s.writeMem host a b stamp) :=
  (kept_pokeMem s host a b none).trans (kept_wakeFrom ..)

theorem kept_writePart (p : Part) (b : List Byte) (stamp : Nat) : Kept s (s.writePart p b stamp) := by
  unfold State.writePart
  split
  · exact (kept_pokeAt ..).trans (kept_wakeFrom ..)
  · exact (kept_pokeAt ..).trans (kept_wakeFrom ..)
  · exact .refl s

theorem kept_writeParts (ps : List Part) (b : List Byte) (stamp : Nat) : Kept s (s.writeParts ps b stamp) := by
  induction ps generalizing b s with
  | nil => exact .refl s
  | cons p ps ih => exact (kept_writePart s p _ stamp).trans (ih _ _)

/-! ### Records and the trace -/

theorem kept_drainRing (n : Nat) : Kept s (s.drainRing n) := by
  induction n generalizing s with
  | zero => exact .refl s
  | succ n ih =>
    unfold State.drainRing
    split
    · exact .refl s
    · split
      · dsimp only
        split
        · exact .refl s
        · exact (((kept_devWrite s _ _).trans (kept_devWrite _ _ _)).trans (kept_modDome _ _)).trans (ih _)
      · exact .refl s

theorem kept_report (r : FaultRec) : Kept s (s.report r) := (kept_modDome s _).trans (kept_drainRing _ _)

theorem kept_traceWrite (unit : Nat) (b : List Byte) : Kept s (s.traceWrite unit b) := by
  unfold State.traceWrite
  split
  · exact .refl s
  · split
    · exact kept_modDome ..
    · exact (kept_devWrite s _ _).trans (kept_modDome _ _)

theorem kept_trace (kind unit core grp ctx p q : Nat) : Kept s (s.trace kind unit core grp ctx p q) := by
  unfold State.trace
  split
  · exact kept_traceWrite ..
  · exact .refl s

theorem kept_traceGroup (t g kind p q : Nat) : Kept s (s.traceGroup t g kind p q) := by
  unfold State.traceGroup
  split
  · exact kept_trace ..
  · exact .refl s

theorem kept_askBack (line : Nat) : Kept s (s.askBack line) := by
  unfold State.askBack
  split
  · exact .refl s
  · exact .of_eq rfl rfl rfl rfl rfl rfl

theorem kept_pageFault (a : Agent) (va bits access : Nat) : Kept s (s.pageFault a va bits access) := by
  unfold State.pageFault
  dsimp only
  split
  · exact .refl s
  · exact (kept_modDome s _).trans (kept_report _ _)

theorem kept_reportParts (a : Agent) (acc : Access) (ps : List Part) : Kept s (s.reportParts a acc ps) := by
  refine .foldl (fun u p => ?_) _ _
  split
  · exact kept_pageFault ..
  · exact kept_askBack ..
  · exact kept_askBack ..
  · exact .refl u

/-! ### Fills, recalls and the walk -/

theorem kept_putPart (stamp : Nat) (k : Block) : Kept s (s.putPart stamp k) := by
  cases k
  · exact .refl s
  · exact kept_writePart ..

/-- What is done as another stream, that stream being put back after it. -/
theorem kept_as {c : Option Cur} {u : State} (h : Kept { s with cur := c } u) : Kept s { u with cur := s.cur } :=
  ⟨rfl, h.launches, h.contexts, h.teams, h.wf⟩

theorem kept_settlePage (pa bits : Nat) : Kept s (s.settlePage pa bits) := by
  unfold State.settlePage
  refine Same.trans (.foldl (fun u x => ?_) s.apart s) (.of_eq rfl rfl rfl rfl rfl rfl)
  exact kept_as u (.foldl (fun u k => kept_putPart u x.stamp k) _ _)

theorem kept_recall (leaf pa bits : Nat) : Kept s (s.recall leaf pa bits) := by
  unfold State.recall
  extract_lets u v
  exact ((kept_settlePage s pa bits).trans (kept_writeBack u _)).trans (kept_caches v _ _ _ _)

theorem kept_fillFrom (a : Agent) (va : Nat) (write : Bool) : Kept s (s.fillFrom a va write).2 := by
  unfold State.fillFrom
  extract_lets path u
  have hu : Kept s u := kept_caches s _ _ _ _
  split
  · exact .refl s
  · split
    · exact hu
    · exact hu
    · exact hu
    · extract_lets w0'
      split
      extract_lets v e x
      have hx : Kept s x := by
        have hv : Kept s v := (hu.trans (kept_devWrite u _ _)).trans (kept_l2Access ..)
        unfold x
        split
        · exact hv.trans (kept_recall ..)
        · exact hv
      split
      · exact hx.trans (kept_caches x _ _ _ _)
      · exact hx

theorem kept_translate (a : Agent) (va : Nat) (write : Bool) : Kept s (s.translate a va write).2 := by
  unfold State.translate
  split
  · exact kept_fillFrom ..
  · extract_lets q
    split
    · exact kept_fillFrom ..
    · extract_lets tlb q' u
      have hu : Kept s u := kept_caches s _ _ _ _
      split
      · exact (hu.trans (kept_caches u _ _ _ _)).trans (kept_fillFrom ..)
      · exact hu

theorem kept_mergePartial (p : Partial) : Kept s (s.mergePartial p) := kept_pokeMem ..

theorem kept_combine (sel : Partial → Bool) : Kept s (s.combine sel) := by
  unfold State.combine
  split
  · extract_lets ps lines
    exact Same.trans (Same.trans (kept_caches s _ _ _ _) (.foldl kept_mergePartial ps _)) (kept_wakeFrom ..)
  · exact .refl s

theorem kept_countLines (a : Agent) (pa len : Nat) (write : Bool) : Kept s (s.countLines a pa len write) := by
  unfold State.countLines
  extract_lets n
  split
  · exact kept_modCore ..
  · exact .refl s

theorem kept_locateOne (a : Agent) (va len : Nat) (write : Bool) : Kept s (s.locateOne a va len write).2 := by
  unfold State.locateOne
  split
  · exact .refl s
  · extract_lets window pod dev off devnum r
    have hr : Kept s r.2 := by
      unfold r
      split
      · exact .refl s
      · exact kept_translate ..
    split
    · exact .refl s
    · split
      · exact .refl s
      · split
        · exact .refl s
        · split
          · exact hr
          · exact hr
          · exact hr
          · exact hr
          · extract_lets pa slice place home x y
            have hhome (b : Bool) (u : State) : Kept u (home b u) := kept_caches u _ _ _ _
            have hx : Kept s x := by
              refine hr.trans ?_
              unfold x
              split
              · exact .refl _
              · split
                · split
                  · extract_lets y u
                    exact ((kept_modCore _ _ _).trans (hhome _ u)).trans (kept_writeBack ..)
                  · exact hhome ..
                · exact (hhome ..).trans (kept_countLines ..)
            unfold y
            split
            · exact hx.trans (kept_combine ..)
            · exact hx

theorem kept_locateFrom (a : Agent) (blk : Nat) (write : Bool) (fuel va len : Nat) : Kept s (s.locateFrom a blk write fuel va len).2 := by
  induction fuel generalizing s va len with
  | zero => exact .refl s
  | succ fuel ih =>
    unfold State.locateFrom
    split
    · exact .refl s
    · extract_lets n
      have h1 := kept_locateOne s a va n write
      split
      · next h => rw [h] at h1; exact h1
      · next u h =>
        rw [h] at h1
        have h2 := ih u (va + n) (len - n)
        split
        · next h => rw [h] at h2; exact h1.trans h2
        · next h => rw [h] at h2; exact h1.trans h2

theorem kept_locate (a : Agent) (va len : Nat) (write : Bool) : Kept s (s.locate a va len write).2 := by
  unfold State.locate
  extract_lets blk
  split
  · exact .refl s
  · exact kept_locateFrom ..

theorem kept_vread (a : Agent) (va len : Nat) : Kept s (s.vread a va len).2 := by
  have h1 := kept_locate s a va len false
  unfold State.vread
  split
  · next h =>
    rw [h] at h1
    split <;> exact h1
  · next h => rw [h] at h1; exact h1

/-- A write by virtual address, where it may not be made nothing. -/
theorem kept_vwrite (a : Agent) (va : Nat) (b : List Byte) (stamp : Nat) : Kept s ((s.vwrite a va b stamp).getD s) := by
  have h1 := kept_locate s a va b.length true
  unfold State.vwrite
  split
  · next h =>
    rw [h] at h1
    split
    · exact h1.trans (kept_writeParts ..)
    · exact .refl s
  · exact .refl s

end
end Sys2Proof.Proofs
end

section
/-! SUPPORT. A property of the state that a computation keeps, through its sequences, checks and choices; and what the log of ordered operations keeps
(R399). -/

namespace Sys2Proof.Proofs
open Machine Claims Laws

/-- However a computation ends, the state it leaves has a property. -/
def Ends {α : Type} (P : State → Prop) (m : M α) (s : State) : Prop :=
  match m s with
  | .ok (_, t) => P t
  | .error (_, t) => P t

section
variable {α β : Type} {P : State → Prop} {s t : State}

theorem ends_of_ok {m : M α} {a : α} (h : Ends P m s) (hm : m s = .ok (a, t)) : P t := by
  unfold Ends at h
  rwa [hm] at h

theorem ends_of_error {m : M α} {e : Halt} (h : Ends P m s) (hm : m s = .error (e, t)) : P t := by
  unfold Ends at h
  rwa [hm] at h

/-- A sequence ends as its parts do. -/
theorem ends_bind {x : M α} {f : α → M β} (hx : Ends P x s) (hf : ∀ a t, P t → Ends P (f a) t) : Ends P (x >>= f) s := by
  unfold Ends
  rw [bind_run]
  cases h : x s with
  | error e => exact ends_of_error hx h
  | ok p => exact hf p.1 p.2 (ends_of_ok hx h)

theorem ends_pure (h : P s) (a : α) : Ends P (pure a) s := h
theorem ends_trap (h : P s) (c : Cause) (l a i : Word) : Ends P (trap c l a i : M α) s := h
theorem ends_stallOn (h : P s) (k : Stall) : Ends P (stallOn k : M α) s := h
theorem ends_set (h : P t) : Ends P (set t : M PUnit) s := h
theorem ends_upd {f : State → State} (h : P (f s)) : Ends P (upd f) s := h

theorem ends_require (h : P s) (b : Bool) (c : Cause) (l a i : Word) : Ends P (require b c l a i) s := by
  unfold require
  split
  · exact ends_pure h _
  · exact ends_trap h _ _ _ _

/-- A sequence that begins by looking at the state, by writing one, or by changing it. -/
theorem ends_get_bind {f : State → M β} (h : Ends P (f s) s) : Ends P (get >>= f) s := h
theorem ends_set_bind {f : PUnit → M β} (h : Ends P (f ⟨⟩) t) : Ends P (set t >>= f) s := h
theorem ends_upd_bind {g : State → State} {f : Unit → M β} (h : Ends P (f ()) (g s)) : Ends P (upd g >>= f) s := h

/-- A reading of the state that only halts or answers. -/
theorem ends_here (h : P s) : Ends P here s := by
  unfold Ends here
  cases hc : s.cur with
  | none => exact h
  | some c => cases ht : s.team? c.team <;> cases hg : s.group? c.team c.grp <;> simpa only [hc, ht, hg] using h

theorem ends_hereLaunch (h : P s) : Ends P hereLaunch s := by
  unfold Ends hereLaunch
  cases s.cur.bind fun c => s.launchOf? c.team <;> exact h

theorem ends_hereContext (h : P s) : Ends P hereContext s := by
  unfold Ends hereContext
  cases s.cur.bind fun c => s.contextOf? c.team <;> exact h

theorem ends_hereAgent (h : P s) : Ends P hereAgent s := by
  unfold Ends hereAgent
  cases s.cur.bind fun c => s.agentOf? c.team <;> exact h

theorem ends_hereScalar (h : P s) : Ends P hereScalar s := by
  unfold Ends hereScalar
  cases s.scalarRegs? <;> exact h

end

/-! ### The log of ordered operations -/

section
variable {s t : State}

theorem kept_awaitPage (a : Agent) (va len : Nat) (h : KeptLog s t) : Ends (KeptLog s) (awaitPage a va len) t := by
  have h1 := (kept_locate t a va len true).log
  refine ends_get_bind ?_
  split
  · next hl => rw [hl] at h1; exact ends_set (h.trans h1)
  · next hl =>
    rw [hl] at h1
    refine ends_set_bind ?_
    split
    · exact ends_upd_bind (ends_stallOn ((h.trans h1).trans (kept_reportParts ..).log) _)
    · exact ends_pure (h.trans h1) _

theorem kept_setReplayStatus (a : Agent) (d bit : Nat) (h : KeptLog s t) : Ends (KeptLog s) (setReplayStatus a d bit) t := by
  have h1 := (kept_vread t a (d + 1) 1).log
  refine ends_get_bind ?_
  split
  · next hl => rw [hl] at h1; exact ends_set ((h.trans h1).trans (kept_vwrite ..).log)
  · next hl => rw [hl] at h1; exact ends_set (h.trans h1)

theorem kept_orderedReplay (a : Agent) (d mode stamp ord kind : Nat) (h : KeptLog s t) : Ends (KeptLog s) (orderedReplay a d mode stamp ord kind) t := by
  unfold orderedReplay
  refine ends_bind (kept_awaitPage _ _ _ h) fun _ u hu => ends_get_bind ?_
  have h1 := (kept_vread u a d 32).log
  split
  · next hl => rw [hl] at h1; exact ends_set (hu.trans h1)
  · next v hl =>
    rw [hl] at h1
    refine ends_set_bind ?_
    extract_lets base count cursor advance goesOn
    have hadvance (w : State) (hw : KeptLog s w) : Ends (KeptLog s) advance w := by
      refine ends_upd_bind ?_
      have := hw.trans (kept_vwrite w a (d + 24) (toBytes 8 (cursor + 1)) 0).log
      split
      · exact kept_setReplayStatus _ _ _ this
      · exact ends_pure this _
    have diverges (w : State) (hw : KeptLog s w) :
        Ends (KeptLog s) (do setReplayStatus a d 2; trap cReplayDiverge 0 0 (BitVec.ofNat 64 cursor) : M Unit) w :=
      ends_bind (kept_setReplayStatus _ _ _ hw) fun _ _ h' => ends_trap h' _ _ _ _
    have hgoesOn (w : State) (hw : KeptLog s w) : Ends (KeptLog s) (goesOn ()) w := by
      unfold goesOn
      split
      · split
        · exact kept_setReplayStatus _ _ _ hw
        · exact ends_upd_bind (hadvance _ (hw.trans (kept_vwrite ..).log))
      · split
        · split
          · exact kept_setReplayStatus _ _ _ hw
          · refine ends_get_bind ?_
            have h2 := (kept_vread w a (base + 16 * cursor) 16).log
            split
            · next hl =>
              rw [hl] at h2
              refine ends_set_bind ?_
              split
              · exact hadvance _ (hw.trans h2)
              · exact diverges _ (hw.trans h2)
            · next hl => rw [hl] at h2; exact ends_set_bind (diverges _ (hw.trans h2))
        · exact ends_pure hw _
    split
    · exact ends_bind (kept_awaitPage _ _ _ (hu.trans h1)) fun _ w hw => hgoesOn w hw
    · exact hgoesOn _ (hu.trans h1)

theorem kept_orderedLog (kind stamp : Nat) (h : KeptLog s t) : Ends (KeptLog s) (orderedLog kind stamp) t := by
  unfold orderedLog
  refine ends_bind (ends_here h) fun x u hu => ends_bind (ends_hereLaunch hu) fun L u hu => ?_
  have counts (u : State) (hu : KeptLog s u) : Ends (KeptLog s) (upd fun s => (s.modTeam x.1.team fun T => { T with ordered := T.ordered + 1 }).traceGroup
      x.1.team x.1.grp 4 stamp (ordinalOf x.2.1 L x.1.grp + kind * 2 ^ 32)) u := by
    refine ends_upd (hu.trans ?_)
    have hcount : KeptLog u (u.modTeam x.1.team fun T => { T with ordered := T.ordered + 1 }) :=
      ⟨rfl, rfl, rfl, map_modifyAt (by exact fun _ => rfl) _ _, memoryWf_modTeam fun _ hT => hT⟩
    exact hcount.trans (kept_traceGroup ..).log
  split
  · exact ends_pure hu _
  · split
    · exact ends_bind (ends_hereAgent hu) fun _ v hv => ends_bind (kept_orderedReplay _ _ _ _ _ _ hv) fun _ w hw => counts w hw
    · exact counts u hu

/-- What is left of the records that a word starts from. -/
theorem Same.launchOf? {face : Team → Team} (hf : ∀ T U, face T = face U → T.launch = U.launch) (h : Same face s t) (u : Nat) :
    t.launchOf? u = s.launchOf? u := by
  have := congrArg (fun l => l[u]?) h.teams
  simp only [List.getElem?_map] at this
  unfold State.launchOf?
  rw [h.launches]
  cases h1 : t.teams[u]? <;> cases h2 : s.teams[u]? <;> simp_all
  rw [hf _ _ this]

theorem Same.contextOf? {face : Team → Team} (hf : ∀ T U, face T = face U → T.launch = U.launch) (h : Same face s t) (u : Nat) :
    t.contextOf? u = s.contextOf? u := by
  unfold State.contextOf? State.context?
  rw [h.launchOf? hf, h.contexts]

theorem teamFace_launch {T U : Team} (h : teamFace T = teamFace U) : T.launch = U.launch := by injection h
theorem logFace_launch {T U : Team} (h : logFace T = logFace U) : T.launch = U.launch := by injection h

end
end Sys2Proof.Proofs
end

section
/-! SUPPORT. The stores of scalar memory complete or trap (R83, R167, R253). -/

namespace Sys2Proof.Proofs
open Machine Claims Laws

variable {c : Cur} {T : Team} {G : Group} {L : Launch} {C : Context} {r : ScalarRegs} {s s' s'' u t : State} {a : Agent} {h : Hit}

/-- The agent of a stream in hand. -/
theorem hand_agent (hs : InHand c T G L C r s) : ∃ a, hereAgent s = .ok (a, s) := by
  unfold hereAgent State.agentOf?
  simp only [hs.cur, Option.bind_some, hs.team, hs.launch, hs.context]
  split
  · exact ⟨_, rfl⟩
  · next h => split at h <;> simp at h

/-- A scalar store of this device writes its blocks and retires. -/
theorem scalarStore_puts {scratch : Bool} {ea : Int} {z : Size} {align : Nat} {v : Word} (hw : waitingRemote s = .ok (false, s))
    (hc : checkAccess [scalarReq scratch ea (sizeBytes z) align .write] (fun _ => true) s = .ok ([h], s')) (hs : InHand c T G L C r s')
    (ha : hereAgent s' = .ok (a, s')) (hp : h.waitsHere s' a = false) (hl : ∀ p rest, h.parts = p :: rest → p.isPeer = false)
    (hr : (s'.storeHit c h (toBytes (sizeBytes z) v.toNat) 0).scalarRegs? = some r) :
    scalarStore scratch ea z align v false s = .ok ((), (s'.storeHit c h (toBytes (sizeBytes z) v.toNat) 0).scalarNext 4 r) := by
  unfold scalarReq at hc
  simp only [scalarStore, bind_run, hw, Bool.false_eq_true, if_false, pure_run, hc, hand_here hs, ha, forIn_one, get_run, hp, hand_launch hs,
    Bool.and_false, Bool.false_and]
  cases hparts : h.parts with
  | nil => simp only [bind_run, upd_run, hereScalar_ok hr, doneScalar_run, pure_run, State.scalarNext]
  | cons p rest =>
    have hlocal := hl p rest hparts
    obtain ⟨_, _, place, _, _, _, _, _⟩ := p
    cases place
    case peer => exact nomatch hlocal
    all_goals simp only [bind_run, upd_run, hereScalar_ok hr, doneScalar_run, pure_run, State.scalarNext]

/-- One of another device is sent there, and the word retires. -/
theorem scalarStore_sends {scratch : Bool} {ea : Int} {z : Size} {align : Nat} {v : Word} {p : Part} {rest : List Part} {dev o : Nat}
    (hw : waitingRemote s = .ok (false, s))
    (hc : checkAccess [scalarReq scratch ea (sizeBytes z) align .write] (fun _ => true) s = .ok ([h], s')) (hs : InHand c T G L C r s')
    (ha : hereAgent s' = .ok (a, s')) (hp : h.waitsHere s' a = false) (hparts : h.parts = p :: rest) (hpeer : p.place = .peer dev o)
    (ht : t = s'.sendRemote (Remote.of c.team c.grp dev o h.req.size G.lanePc) (.write (toBytes (sizeBytes z) v.toNat))) (hr : t.scalarRegs? = some r) :
    scalarStore scratch ea z align v false s = .ok ((), t.scalarNext 4 r) := by
  subst ht
  obtain ⟨_, _, _, _, _, _, _, _⟩ := p
  simp only at hpeer
  subst hpeer
  unfold scalarReq at hc
  simp only [scalarStore, bind_run, hw, Bool.false_eq_true, if_false, pure_run, hc, hand_here hs, ha, forIn_one, get_run, hp, hand_launch hs,
    Bool.and_false, Bool.false_and, hparts, upd_run, hereScalar_ok hr, doneScalar_run, State.scalarNext]

/-- A request of a store that fails a check raises its trap. -/
theorem scalarStore_traps {scratch : Bool} {ea : Int} {z : Size} {align : Nat} {v : Word} {rel : Bool} {stamp : Nat} {x : TrapArgs}
    (hs : InHand c T G L C r s) (hw : waitingRemote s = .ok (false, s)) (hu : rel = true → s.unacked c.team c.grp = false)
    (ho : rel = true → orderedWait s = .ok (stamp, s))
    (hc : checkAccess [scalarReq scratch ea (sizeBytes z) align .write] (fun _ => true) s = .error (.trap x, u)) :
    scalarStore scratch ea z align v rel s = .error (.trap x, u) := by
  unfold scalarReq at hc
  cases rel with
  | false => simp only [scalarStore, bind_run, hw, Bool.false_eq_true, if_false, pure_run, hc]
  | true =>
    simp only [scalarStore, releaseHere, bind_run, hw, Bool.false_eq_true, if_false, if_true, pure_run, hand_here hs, get_run, hu rfl, ho rfl, hc]

theorem releaseHere_ok (hs : InHand c T G L C r s) (hu : s.unacked c.team c.grp = false) : releaseHere s = .ok ((), s) := by
  simp only [releaseHere, bind_run, hand_here hs, get_run, hu, Bool.false_eq_true, if_false, pure_run]

theorem releaseHere_stalls (hs : InHand c T G L C r s) (hu : s.unacked c.team c.grp = true) : releaseHere s = .error (.stall .fence, s) := by
  simp only [releaseHere, bind_run, hand_here hs, get_run, hu, if_true, stallOn_run]

theorem atomicAllowed_ok (hs : InHand c T G L C r s) (hd : L.detm ≠ 1) : atomicAllowed s = .ok ((), s) := by
  unfold atomicAllowed
  rw [bind_ok (hand_launch hs)]
  exact require_ok (by simpa using hd) ..

/-- A request of a read-modify-write that fails a check raises its trap. -/
theorem scalarAtomic_traps {ea : Word} {d : SReg} {kind : Nat} {f : Nat → Nat} {op : FabricOp} {stamp : Nat} {x : TrapArgs}
    (hs : InHand c T G L C r s) (hd : L.detm ≠ 1) (hw : waitingRemote s = .ok (false, s)) (ho : orderedWait s = .ok (stamp, s))
    (hc : checkAccess [scalarReq false ea.toNat 8 8 .atomic] (fun _ => true) s = .error (.trap x, u)) :
    scalarAtomic ea d kind f op s = .error (.trap x, u) := by
  unfold scalarReq at hc
  simp only [scalarAtomic, bind_run, atomicAllowed_ok hs hd, hw, Bool.false_eq_true, if_false, ho, hc]

theorem exec_store (scratch : Bool) (z : Size) (ss base : SReg) (off : BitVec 10) (hr : s.scalarRegs? = some r) :
    exec (if scratch then .sts z ss base off else .st z ss base off) s
      = M.answer (scalarStore scratch ((r.getS base).toNat + off.toNat * sizeBytes z : Nat) z 1 (r.getS ss) false) s := by
  cases scratch
  · exact (exec_st ..).trans (by simp only [execSt, answer_eq, bind_run, hereScalar_ok hr]; rfl)
  · exact (exec_sts ..).trans (by simp only [execSts, answer_eq, bind_run, hereScalar_ok hr]; rfl)

theorem exec_strl_run (sc : Scope) (z : Size) (ss sa : SReg) (hr : s.scalarRegs? = some r) :
    exec (.strl sc z ss sa) s = M.answer (scalarStore false (r.getS sa).toNat z (sizeBytes z) (r.getS ss) true) s :=
  (exec_strl ..).trans (by simp only [execStrl, answer_eq, bind_run, hereScalar_ok hr])

theorem exec_atom_run (op : AtomOp) (sc : Scope) (d sa sb : SReg) (hr : s.scalarRegs? = some r) :
    exec (.atom op sc d sa sb) s = M.answer (scalarAtomic (r.getS sa) d 1 (fun old => atomValue op true 64 old (r.getS sb).toNat)
      (.atom op true 8 (r.getS sb))) s :=
  (exec_atom ..).trans (by simp only [execAtom, answer_eq, bind_run, hereScalar_ok hr])

theorem exec_cas_run (sc : Scope) (d sa sb : SReg) (hr : s.scalarRegs? = some r) :
    exec (.cas sc d sa sb) s = M.answer (scalarAtomic (r.getS sa) d 2 (fun old => if old = (r.getS d).toNat then (r.getS sb).toNat else old)
      (.cas 8 (r.getS sb) (r.getS d))) s :=
  (exec_cas ..).trans (by simp only [execCas, answer_eq, bind_run, hereScalar_ok hr])

/-- Settles O8. -/
theorem scalarStoresComplete : Obligations.ScalarStoresComplete := by
  unfold Obligations.ScalarStoresComplete
  refine ⟨?_, ?_⟩
  · intro scratch z ss base off c T T' G G' L L' C C' r h s s' hs hw hreach hs' i b
    obtain ⟨a, ha⟩ := hand_agent hs'
    have hp := hreach.ready a ha
    refine ⟨fun hl hr => ?_, fun p rest dev o t hparts hpeer ht hr => ?_⟩
    · exact (exec_store scratch z ss base off hs.regs).trans (answer_ok (scalarStore_puts hw hreach.checks hs' ha hp hl hr))
    · exact (exec_store scratch z ss base off hs.regs).trans (answer_ok (scalarStore_sends hw hreach.checks hs' ha hp hparts hpeer ht hr))
  · intro i ordered q c T G L C r ag stamp x s u hacc hwrite hs ha hb hw ho hd hu hf
    have hcheck := checkAccess_fails (hand_here hs) ha (hand_context hs) hb hf
    cases i <;> simp only [scalarAccess, Option.some.injEq, Prod.mk.injEq, reduceCtorEq] at hacc
    all_goals obtain ⟨rfl, rfl⟩ := hacc
    case st z ss b o =>
      exact (exec_store false z ss b o hs.regs).trans (answer_trap (scalarStore_traps (stamp := stamp) hs hw nofun nofun hcheck))
    case sts z ss b o =>
      exact (exec_store true z ss b o hs.regs).trans (answer_trap (scalarStore_traps (stamp := stamp) hs hw nofun nofun hcheck))
    case strl sc z ss sa =>
      exact (exec_strl_run sc z ss sa hs.regs).trans (answer_trap (scalarStore_traps hs hw (fun _ => hu rfl rfl) (fun _ => ho rfl) hcheck))
    case atom op sc d sa sb =>
      exact (exec_atom_run op sc d sa sb hs.regs).trans (answer_trap (scalarAtomic_traps hs (hd rfl) hw (ho rfl) hcheck))
    case cas sc d sa sb =>
      exact (exec_cas_run sc d sa sb hs.regs).trans (answer_trap (scalarAtomic_traps hs (hd rfl) hw (ho rfl) hcheck))
    all_goals exact absurd rfl hwrite

end Sys2Proof.Proofs
end

section
/-! SUPPORT. LDAQ, STRL and FENCE complete, ask or stall (R84, R86, R264, R395). -/

namespace Sys2Proof.Proofs
open Machine Claims Laws

variable {c : Cur} {T : Team} {G : Group} {L : Launch} {C : Context} {r : ScalarRegs} {s s' s'' u t : State} {a : Agent} {h : Hit} {stamp : Nat}

/-! ### What an acquire leaves as it was -/

theorem kept_acquire (s : State) (a : Agent) (scope : Nat) : Kept s (s.acquire a scope) := by
  unfold State.acquire
  split
  · exact .foldl (fun u _ => kept_modCore u _ _) _ _
  · split
    · exact .foldl (fun u _ => kept_modCore u _ _) _ _
    · exact .refl s

theorem foldl_modCore_teams (f : Machine.Core → Machine.Core) (l : List Nat) (s : State) : (l.foldl (fun s c => s.modCore c f) s).teams = s.teams := by
  induction l generalizing s with
  | nil => rfl
  | cons x l ih => exact ih _

theorem acquire_teams (s : State) (a : Agent) (scope : Nat) : (s.acquire a scope).teams = s.teams := by
  unfold State.acquire
  split
  · exact foldl_modCore_teams ..
  · split
    · exact foldl_modCore_teams ..
    · rfl

theorem acquire_regs (s : State) (a : Agent) (scope : Nat) : (s.acquire a scope).scalarRegs? = s.scalarRegs? :=
  scalarRegs?_congr (kept_acquire s a scope).cur (acquire_teams s a scope)

theorem acquireFor_regs (s : State) (t scope : Nat) : (s.acquireFor t scope).scalarRegs? = s.scalarRegs? := by
  unfold State.acquireFor
  split
  · exact acquire_regs ..
  · rfl

/-- The stream stands where it stood after what the memory system and the log of ordered operations do. -/
theorem here_kept (hk : KeptLog s t) (hs : InHand c T G L C r s) : ∃ T' G', here t = .ok ((c, T', G'), t) := by
  have hteam := congrArg (fun l => l[c.team]?) hk.teams
  have hT : s.teams[c.team]? = some T := hs.team
  simp only [List.getElem?_map, hT, Option.map_some] at hteam
  cases ht : t.teams[c.team]? with
  | none => simp [ht] at hteam
  | some T' =>
    have hG : T.groups[c.grp]? = some G := by simpa [State.group?, hT] using hs.group
    simp only [ht, Option.map_some, Option.some.injEq] at hteam
    have hgroups := congrArg (fun U : Team => (U.groups[c.grp]?)) hteam
    simp only [logFace, teamFace, List.getElem?_map, hG, Option.map_some] at hgroups
    cases hg : T'.groups[c.grp]? with
    | none => simp [hg] at hgroups
    | some G' => exact ⟨T', G', here_ok (hk.cur.trans hs.cur) ht (by simp [State.group?, ht, hg])⟩

theorem hereLaunch_kept (hk : KeptLog s t) (hs : InHand c T G L C r s) : hereLaunch t = .ok (L, t) :=
  hereLaunch_ok (hk.cur.trans hs.cur) ((hk.launchOf? (fun _ _ => logFace_launch) c.team).trans hs.launch)

theorem orderedLog_kept {kind : Nat} (h : orderedLog kind stamp s = .ok ((), t)) : KeptLog s t := ends_of_ok (kept_orderedLog kind stamp (.refl s)) h

/-! ### LDAQ -/

theorem effScope_here (hl : h.remote = false) (scope : Nat) : effScope [h] scope = scope := by simp [effScope, hl]
theorem effScope_away (hl : h.remote = true) (scope : Nat) : effScope [h] scope = max scope 4 := by simp [effScope, hl]
theorem loadValue_load (z : Size) (b : List Byte) : loadValue (Size.load z) b = BitVec.ofNat 64 (ofBytes b) := by cases z <;> rfl

theorem exec_ldaq_run (sc : Scope) (z : Size) (x sa : SReg) (hr : s.scalarRegs? = some r) :
    exec (.ldaq sc z x sa) s = M.answer (scalarLoad false (r.getS sa).toNat (Size.load z) (sizeBytes z) x (some sc.code)) s :=
  (exec_ldaq ..).trans (by simp only [execLdaq, answer_eq, bind_run, hereScalar_ok hr])

/-- LDAQ of this device acquires, reads, and retires with the last of its pieces. -/
theorem ldaq_lands {ea : Nat} {z : Size} (d : SReg) {scope : Nat} (hw : waitingRemote s = .ok (false, s)) (ho : orderedWait s = .ok (stamp, s))
    (hreach : Reached (scalarReq false ea (sizeBytes z) (sizeBytes z) .read) h s s') (hs : InHand c T G L C r s') (hl : h.remote = false)
    (hlog : orderedLog 3 stamp s' = .ok ((), s'')) (ha : hereAgent s' = .ok (a, s')) (ht : t = s''.acquire a scope) (hr : t.scalarRegs? = some r) :
    scalarLoad false ea (Size.load z) (sizeBytes z) d (some scope) s =
      .ok ((), scalarLanded 4 (r.setS d (BitVec.ofNat 64 (ofBytes (t.readHit c.team h)))) (scalarRead c h d (Size.load z).code t)) := by
  subst ht
  have hp := hreach.ready a ha
  have hc := hreach.checks
  obtain ⟨T', G', hh⟩ := here_kept ((orderedLog_kept hlog).trans (kept_acquire s'' a scope).log) hs
  have hreg : (scalarRead c h d (Size.load z).code (s''.acquire a scope)).1.scalarRegs? = some r := by rw [← hr]; exact readsApart_regs ..
  unfold scalarReq at hc
  simp only [scalarLoad, bind_run, hw, Bool.false_eq_true, if_false, ho, loadBytes_load, hc, hand_here hs, ha, forIn_one, Option.isSome_some, if_true,
    get_run, hp, hlog, hl, upd_run, effScope_here hl, readsLate_run hh, decide_eq_true_eq, scalarLanded, loadValue_load]
  by_cases h0 : (scalarRead c h d (Size.load z).code (s''.acquire a scope)).2 = 0
  · simp only [h0, ne_eq, not_true_eq_false, if_false, if_true, bind_run, hereScalar_ok hreg, doneScalar_run, pure_run, State.scalarNext, setS_pc]
  · simp only [h0, ne_eq, not_false_eq_true, if_false, if_true, pure_run]

/-- LDAQ of another device asks it, to acquire with the answer. -/
theorem ldaq_asks {ea : Nat} {z : Size} (d : SReg) {scope : Nat} {p : Part} {rest : List Part} {dev o : Nat} (hw : waitingRemote s = .ok (false, s))
    (ho : orderedWait s = .ok (stamp, s)) (hreach : Reached (scalarReq false ea (sizeBytes z) (sizeBytes z) .read) h s s')
    (hs : InHand c T G L C r s') (hparts : h.parts = p :: rest) (hpeer : p.place = .peer dev o) (hlog : orderedLog 3 stamp s' = .ok ((), s''))
    (hs2 : InHand c T G L C r s'') :
    scalarLoad false ea (Size.load z) (sizeBytes z) d (some scope) s = .error (.stall .remote, s''.sendRemote
      { Remote.of c.team c.grp dev o h.req.size G.lanePc with
        sreg := some (c.stream, d.toNat, (Size.load z).code), acq := some (max scope 4) } (.read (sizeBytes z))) := by
  obtain ⟨a, ha⟩ := hand_agent hs
  have hp := hreach.ready a ha
  have hc := hreach.checks
  have hl := remote_of_peer hparts hpeer
  unfold scalarReq at hc
  simp only [scalarLoad, bind_run, hw, Bool.false_eq_true, if_false, ho, loadBytes_load, hc, hand_here hs, ha, forIn_one, Option.isSome_some, if_true,
    get_run, hp, hlog, hl, remoteScalar_run (hand_here hs2) hparts hpeer, Option.map_some, effScope_away hl]

/-! ### STRL -/

/-- STRL waits for the stream's stores to other devices. -/
theorem strl_stalls {scratch : Bool} {ea : Int} {z : Size} {align : Nat} {v : Word} (hs : InHand c T G L C r s) (hw : waitingRemote s = .ok (false, s))
    (hu : s.unacked c.team c.grp = true) : scalarStore scratch ea z align v true s = .error (.stall .fence, s) := by
  simp only [scalarStore, bind_run, hw, Bool.false_eq_true, if_false, if_true, releaseHere_stalls hs hu]

section
variable {ea : Nat} {z : Size} {v : Word} {T' : Team} {G' : Group} {L' : Launch} {C' : Context} (hs : InHand c T G L C r s)
  (hw : waitingRemote s = .ok (false, s)) (hu : s.unacked c.team c.grp = false) (ho : orderedWait s = .ok (stamp, s))
  (hreach : Reached (scalarReq false ea (sizeBytes z) (sizeBytes z) .write) h s s') (hs' : InHand c T' G' L' C' r s')
  (hlog : orderedLog 4 stamp s' = .ok ((), s''))
include hs hw hu ho hreach hs' hlog

/-- STRL of this device writes its blocks and retires. -/
theorem strl_puts (hl : h.remote = false) (ht : t = s''.storeHit c h (toBytes (sizeBytes z) v.toNat) stamp) (hr : t.scalarRegs? = some r) :
    scalarStore false ea z (sizeBytes z) v true s = .ok ((), t.scalarNext 4 r) := by
  subst ht
  obtain ⟨a, ha⟩ := hand_agent hs'
  have hp := hreach.ready a ha
  have hc := hreach.checks
  unfold scalarReq at hc
  simp only [scalarStore, bind_run, hw, Bool.false_eq_true, if_false, if_true, releaseHere_ok hs hu, ho, hc, hand_here hs', ha, forIn_one, get_run, hp,
    hlog, hereLaunch_kept (orderedLog_kept hlog) hs', hl, Bool.false_and]
  cases hparts : h.parts with
  | nil => simp only [bind_run, upd_run, hereScalar_ok hr, doneScalar_run, pure_run, State.scalarNext]
  | cons p rest =>
    have hlocal : p.isPeer = false := by simp_all [Hit.remote]
    obtain ⟨_, _, place, _, _, _, _, _⟩ := p
    cases place
    case peer => exact nomatch hlocal
    all_goals simp only [bind_run, upd_run, hereScalar_ok hr, doneScalar_run, pure_run, State.scalarNext]

variable {p : Part} {rest : List Part} {dev o : Nat} (hs2 : InHand c T' G' L' C' r s'') (hparts : h.parts = p :: rest) (hpeer : p.place = .peer dev o)
include hs2 hparts hpeer

/-- STRL of another device is sent there; outside mode 2 it retires at once. -/
theorem strl_sends (hd : L'.detm ≠ 2) (ht : t = s''.sendRemote (Remote.of c.team c.grp dev o h.req.size G'.lanePc) (.write (toBytes (sizeBytes z) v.toNat)))
    (hr : t.scalarRegs? = some r) : scalarStore false ea z (sizeBytes z) v true s = .ok ((), t.scalarNext 4 r) := by
  subst ht
  obtain ⟨a, ha⟩ := hand_agent hs'
  have hp := hreach.ready a ha
  have hc := hreach.checks
  have hd' : (L'.detm == 2) = false := by simpa using hd
  obtain ⟨_, _, _, _, _, _, _, _⟩ := p
  simp only at hpeer
  subst hpeer
  unfold scalarReq at hc
  simp only [scalarStore, bind_run, hw, Bool.false_eq_true, if_false, if_true, releaseHere_ok hs hu, ho, hc, hand_here hs', ha, forIn_one, get_run, hp,
    hlog, hand_launch hs2, hd', Bool.and_false, Bool.false_and, hparts, upd_run, hereScalar_ok hr, doneScalar_run, pure_run, State.scalarNext]

/-- In mode 2 it retires at its answer. -/
theorem strl_asks (hd : L'.detm = 2) (hst : c.stream ≠ .handler) :
    scalarStore false ea z (sizeBytes z) v true s = .error (.stall .remote, s''.sendRemote
      { Remote.of c.team c.grp dev o h.req.size G'.lanePc with sreg := some (c.stream, 0, 16) } (.write (toBytes (sizeBytes z) v.toNat))) := by
  obtain ⟨a, ha⟩ := hand_agent hs'
  have hp := hreach.ready a ha
  have hc := hreach.checks
  have hl := remote_of_peer hparts hpeer
  have hst' : (c.stream != .handler) = true := by simpa using hst
  unfold scalarReq at hc
  simp only [scalarStore, bind_run, hw, Bool.false_eq_true, if_false, if_true, releaseHere_ok hs hu, ho, hc, hand_here hs', ha, forIn_one, get_run, hp,
    hlog, hand_launch hs2, hd, hl, hst', BEq.rfl, Bool.and_true, remoteScalar_run (hand_here hs2) hparts hpeer]
  rfl

end

/-- Settles O9. -/
theorem acquireReleaseFenceComplete : Obligations.AcquireReleaseFenceComplete := by
  unfold Obligations.AcquireReleaseFenceComplete
  refine ⟨?_, ?_⟩
  · intro sc z x sa c T T' G G' L L' C C' r h stamp a s s' s'' t hs ho hs'
    refine ⟨?_, ?_, ?_, ?_, ?_⟩
    · intro hw hreach hl hlog ha ht hr
      exact (exec_ldaq_run sc z x sa hs.regs).trans (answer_ok (ldaq_lands x hw ho hreach hs' hl hlog ha ht hr))
    · intro p rest dev o hw hreach hparts hpeer hlog hs2
      exact (exec_ldaq_run sc z x sa hs.regs).trans (answer_stall (ldaq_asks x hw ho hreach hs' hparts hpeer hlog hs2))
    · intro hw hu
      exact (exec_strl_run sc z x sa hs.regs).trans (answer_stall (strl_stalls hs hw hu))
    · intro p rest dev o hw hu hreach hparts hpeer hlog hs2 b rem
      refine ⟨fun hd ht hr => ?_, fun hd hst => ?_⟩
      · exact (exec_strl_run sc z x sa hs.regs).trans (answer_ok (strl_sends hs hw hu ho hreach hs' hlog hs2 hparts hpeer hd ht hr))
      · exact (exec_strl_run sc z x sa hs.regs).trans (answer_stall (strl_asks hs hw hu ho hreach hs' hlog hs2 hparts hpeer hd hst))
    · intro hw hu hreach hl hlog ht hr
      exact (exec_strl_run sc z x sa hs.regs).trans (answer_ok (strl_puts hs hw hu ho hreach hs' hlog hl ht hr))
  · intro sc c T G L C r s hs
    refine ⟨fun hu => ?_, fun hu => ?_⟩
    · refine (exec_fence ..).trans (answer_ok ?_)
      have hacq : acquireHere sc.code s = .ok ((), s.acquireFor c.team sc.code) := by simp only [acquireHere, upd_run, hs.cur]
      have hr : (s.acquireFor c.team sc.code).scalarRegs? = some r := (acquireFor_regs ..).trans hs.regs
      simp only [bind_run, releaseHere_ok hs hu, hacq, hereScalar_ok hr, doneScalar_run, State.scalarNext]
    · refine (exec_fence ..).trans (answer_stall ?_)
      simp only [bind_run, releaseHere_stalls hs hu]

end Sys2Proof.Proofs
end

section
/-! SUPPORT. ATOM and CAS exchange their word, ask for it, or trap (R85). -/

namespace Sys2Proof.Proofs
open Machine Claims Laws

variable {c : Cur} {T : Team} {G : Group} {L : Launch} {C : Context} {r : ScalarRegs} {s s' s'' u t : State} {a : Agent} {h : Hit} {stamp : Nat}

theorem ofBytes_lt (b : List Byte) : ofBytes b < 2 ^ (8 * b.length) := by
  induction b with
  | nil => simp [ofBytes]
  | cons x b ih =>
    have hx := x.isLt
    simp only [ofBytes, List.length_cons, Nat.shiftLeft_eq, Nat.mul_add, Nat.pow_add]
    omega

/-- The new value of ATOM's word (R85). -/
def atomNew (op : AtomOp) (old b : Word) : Word :=
  match op with
  | .add => old + b
  | .min => if b.toInt < old.toInt then b else old
  | .max => if old.toInt < b.toInt then b else old
  | .and => old &&& b
  | .or => old ||| b
  | .xor => old ^^^ b
  | .xchg => b

theorem atomValue_toNat (op : AtomOp) (old b : Word) : atomValue op true 64 old.toNat b.toNat = (atomNew op old b).toNat := by
  cases op with
  | add => simp [atomValue, atomNew]
  | min => simp only [atomValue, atomNew, if_true, signed_toNat]; split <;> rfl
  | max => simp only [atomValue, atomNew, if_true, signed_toNat]; split <;> rfl
  | and => simp [atomValue, atomNew]
  | or => simp [atomValue, atomNew]
  | xor => simp [atomValue, atomNew]
  | xchg => rfl

section
variable {ea : Word} {d : SReg} {kind : Nat} {f : Nat → Nat} {op : FabricOp} {T' : Team} {G' : Group} {L' : Launch} {C' : Context}
  (hs : InHand c T G L C r s) (hd : L.detm ≠ 1) (hw : waitingRemote s = .ok (false, s)) (ho : orderedWait s = .ok (stamp, s))
  (hreach : Reached (scalarReq false ea.toNat 8 8 .atomic) h s s') (hs' : InHand c T' G' L' C' r s') (hlog : orderedLog kind stamp s' = .ok ((), s''))
include hs hd hw ho hreach hs' hlog

/-- A read-modify-write of another device's word asks for it. -/
theorem scalarAtomic_asks {p : Part} {rest : List Part} {dev o : Nat} (hs2 : InHand c T' G' L' C' r s'') (hparts : h.parts = p :: rest)
    (hpeer : p.place = .peer dev o) :
    scalarAtomic ea d kind f op s = .error (.stall .remote, s''.sendRemote
      { Remote.of c.team c.grp dev o h.req.size G'.lanePc with sreg := some (c.stream, d.toNat, 3) } op) := by
  obtain ⟨a, ha⟩ := hand_agent hs'
  have hp := hreach.ready a ha
  have hc := hreach.checks
  unfold scalarReq at hc
  simp only [scalarAtomic, bind_run, atomicAllowed_ok hs hd, hw, Bool.false_eq_true, if_false, ho, hc, hand_here hs', ha, forIn_one, get_run, hp, hlog,
    remote_of_peer hparts hpeer, if_true, remoteScalar_run (hand_here hs2) hparts hpeer]
  rfl

/-- One of this device changes it. -/
theorem scalarAtomic_changes {new : Word} (hl : h.remote = false) (hnew : f (ofBytes (s''.readHit c.team h)) = new.toNat)
    (hr : (s''.writeHit c.team h (toBytes 8 new.toNat) stamp).scalarRegs? = some r) :
    scalarAtomic ea d kind f op s = .ok ((), (s''.writeHit c.team h (toBytes 8 new.toNat) stamp).scalarNext 4
      (r.setS d (BitVec.ofNat 64 (ofBytes (s''.readHit c.team h))))) := by
  obtain ⟨a, ha⟩ := hand_agent hs'
  have hp := hreach.ready a ha
  have hc := hreach.checks
  unfold scalarReq at hc
  simp only [scalarAtomic, bind_run, atomicAllowed_ok hs hd, hw, Bool.false_eq_true, if_false, ho, hc, hand_here hs', ha, forIn_one, get_run, hp, hlog,
    hl, upd_run, hnew, hereScalar_ok hr, doneScalar_run, pure_run, State.scalarNext, setS_pc]

end

theorem scalarAtomic_forbidden {ea : Word} {d : SReg} {kind : Nat} {f : Nat → Nat} {op : FabricOp} (hs : InHand c T G L C r s) (hd : L.detm = 1) :
    scalarAtomic ea d kind f op s = .error (.trap { cause := 0x31 }, s) := by
  have hallow : atomicAllowed s = .error (.trap { cause := 0x31 }, s) := by
    unfold atomicAllowed
    rw [bind_ok (hand_launch hs)]
    exact require_fail (by simp [hd]) ..
  unfold scalarAtomic
  rw [bind_error hallow]

/-- Settles O10. -/
theorem scalarAtomics : Obligations.ScalarAtomics := by
  unfold Obligations.ScalarAtomics
  refine ⟨?_, ?_⟩
  · intro op sc d sa sb c T T' G G' L L' C C' r h stamp s s' s'' hs hd hw ho hreach hs' hs2 old b new put asked
    have hold (hlen : (s''.readHit c.team h).length = 8) : ofBytes (s''.readHit c.team h) = old.toNat := by
      have := ofBytes_lt (s''.readHit c.team h)
      rw [hlen] at this
      exact (Nat.mod_eq_of_lt this).symm
    refine ⟨fun p rest dev o hparts hpeer => ⟨fun hlog => ?_, fun hlog => ?_⟩, fun hl hlen hlog hr => ?_, fun hl hlen hlog hr => ?_⟩
    · exact (exec_atom_run op sc d sa sb hs.regs).trans (answer_stall (scalarAtomic_asks hs hd hw ho hreach hs' hlog hs2 hparts hpeer))
    · exact (exec_cas_run sc d sa sb hs.regs).trans (answer_stall (scalarAtomic_asks hs hd hw ho hreach hs' hlog hs2 hparts hpeer))
    · have hnew : atomValue op true 64 (ofBytes (s''.readHit c.team h)) (r.getS sb).toNat = new.toNat := by
        rw [hold hlen, atomValue_toNat]
        cases op <;> rfl
      exact (exec_atom_run op sc d sa sb hs.regs).trans (answer_ok (scalarAtomic_changes hs hd hw ho hreach hs' hlog hl hnew hr))
    · have hnew : (if ofBytes (s''.readHit c.team h) = (r.getS d).toNat then (r.getS sb).toNat else ofBytes (s''.readHit c.team h))
          = (if old = r.getS d then b else old).toNat := by
        rw [hold hlen]
        by_cases heq : old = r.getS d
        · simp [heq, b]
        · rw [if_neg (fun e => heq (BitVec.eq_of_toNat_eq e)), if_neg heq]
      exact (exec_cas_run sc d sa sb hs.regs).trans (answer_ok (scalarAtomic_changes hs hd hw ho hreach hs' hlog hl hnew hr))
  · intro op sc d sa sb c T G L C r s hs hd
    exact ⟨(exec_atom_run op sc d sa sb hs.regs).trans (answer_trap (scalarAtomic_forbidden hs hd)),
      (exec_cas_run sc d sa sb hs.regs).trans (answer_trap (scalarAtomic_forbidden hs hd))⟩

end Sys2Proof.Proofs
end

section
/-! SUPPORT. Branches, the words that feed and drain the lane stream, special registers and TRAP (R44, R87 to R95, R204). -/

namespace Sys2Proof.Proofs
open Machine Claims Laws

variable {c : Cur} {T : Team} {G : Group} {L : Launch} {C : Context} {r : ScalarRegs} {s t : State}

/-! ### What a change of a record leaves of the scalar registers -/

theorem scalarRegs?_modTeam (s : State) (u : Nat) {f : Team → Team} (hh : ∀ T, (f T).handler.regs = T.handler.regs) (hg : ∀ T, (f T).groups = T.groups) :
    (s.modTeam u f).scalarRegs? = s.scalarRegs? := by
  unfold State.scalarRegs?
  rw [modTeam_cur]
  congr 1
  funext c
  have hteam : (s.modTeam u f).teams[c.team]? = s.teams[c.team]?.map fun T => if c.team = u then f T else T := by
    rw [modTeam_teams, modifyAt_get]
    split <;> simp
  simp only [State.group?, hteam]
  cases s.teams[c.team]? with
  | none => rfl
  | some T => by_cases h : c.team = u <;> simp [h, hh, hg]

theorem scalarRegs?_modGroup (s : State) (u g : Nat) {f : Group → Group} (hf : ∀ G, (f G).regs = G.regs) :
    (s.modGroup u g f).scalarRegs? = s.scalarRegs? := by
  unfold State.scalarRegs?
  rw [modGroup_cur]
  congr 1
  funext c
  have hteam : (s.modGroup u g f).teams[c.team]? = s.teams[c.team]?.map fun T =>
      if c.team = u then { T with groups := modifyAt f g T.groups } else T := by
    rw [modGroup_teams, modifyAt_get]
    split <;> simp
  simp only [State.group?, hteam]
  cases s.teams[c.team]? with
  | none => rfl
  | some T =>
    by_cases h : c.team = u
    · simp only [h, if_true, Option.map_some, Option.bind_some, modifyAt_get]
      cases c.stream <;> by_cases h2 : c.grp = g <;> simp [h2, hf, Function.comp_def]
    · simp [h]

/-! ### Branches (R87) -/

section
variable {base size : Nat} (hsec : hereSection s = .ok ((base, size), s))
include hsec

theorem branchTo_taken {x : Word} (hx : x.toNat % 4 = 0 ∧ base ≤ x.toNat ∧ x.toNat < base + size) (r : ScalarRegs) :
    branchTo x r s = .ok ((), s.retireScalar (r.goto x)) := by
  have hb : branchable base size x = true := by simpa [branchable, and_assoc] using hx
  unfold branchTo
  rw [bind_ok hsec]
  exact bind_ok (require_ok hb ..)

theorem branchTo_faults {x : Word} (hx : ¬(x.toNat % 4 = 0 ∧ base ≤ x.toNat ∧ x.toNat < base + size)) (r : ScalarRegs) :
    branchTo x r s = .error (.trap { cause := 0x10, taddr := x }, s) := by
  have hb : branchable base size x = false := by
    rw [← Bool.not_eq_true]
    simpa [branchable, and_assoc] using hx
  unfold branchTo
  rw [bind_ok hsec]
  exact bind_error (require_fail hb ..)

end

theorem branchTarget_eq (pc : Word) (off : BitVec 20) : branchTarget pc off = pc + BitVec.ofInt 64 (4 * off.toInt) := by
  rw [branchTarget, Int.mul_comm]

/-- Settles O11. -/
theorem branchesComplete : Obligations.BranchesComplete := by
  unfold Obligations.BranchesComplete
  intro q neg off sa c T G L C r base size s hs hsec g near ok fault
  have hr := hand_scalar hs
  have hg : r.guard q neg = g := rfl
  have hnear : branchTarget r.pc off = near := branchTarget_eq r.pc off
  refine ⟨fun h => ?_, fun h hok => ?_, fun h hok => ?_, fun h hok => ?_, fun h hok => ?_, fun hok => ?_, fun hok => ?_⟩
  · have hnot : ∀ m : M Unit, (if r.guard q neg then m else doneScalar 4 r) s = .ok ((), s.scalarNext 4 r) := fun m => by
      simp only [hg, h, Bool.false_eq_true, if_false, doneScalar_run, State.scalarNext]
    exact ⟨(exec_br ..).trans (answer_ok ((bind_ok hr).trans (hnot _))), (exec_call ..).trans (answer_ok ((bind_ok hr).trans (hnot _))),
      (exec_ret ..).trans (answer_ok ((bind_ok hr).trans (hnot _)))⟩
  · have htake := fun r => branchTo_taken hsec hok r
    exact ⟨(exec_br ..).trans (answer_ok (by simp only [bind_run, hr, hg, h, if_true, hnear, htake])),
      (exec_call ..).trans (answer_ok (by simp only [bind_run, hr, hg, h, if_true, hnear, htake]))⟩
  · have hfault := fun r => branchTo_faults hsec hok r
    exact ⟨(exec_br ..).trans (answer_trap (by simp only [bind_run, hr, hg, h, if_true, hnear, hfault])),
      (exec_call ..).trans (answer_trap (by simp only [bind_run, hr, hg, h, if_true, hnear, hfault]))⟩
  · exact (exec_ret ..).trans (answer_ok (by simp only [bind_run, hr, hg, h, if_true, branchTo_taken hsec hok]))
  · exact (exec_ret ..).trans (answer_trap (by simp only [bind_run, hr, hg, h, if_true, branchTo_faults hsec hok]))
  · exact (exec_jmpr ..).trans (answer_ok (by simp only [bind_run, hr, branchTo_taken hsec hok]))
  · exact (exec_jmpr ..).trans (answer_trap (by simp only [bind_run, hr, branchTo_faults hsec hok]))

/-! ### LRUN (R88) -/

theorem capture_get (r : ScalarRegs) (sa : SReg) (n : Nat) (j : Fin 8) :
    (capture r sa n)[j] = if j.val < n then r.getS (BitVec.ofNat 6 (sa.toNat + j.val)) else 0 := by
  simp [capture]

/-- Settles O12. -/
theorem lrunCompletes : Obligations.LrunCompletes := by
  unfold Obligations.LrunCompletes
  intro sa n target c T G L C r s hs hst legal
  have hnot := notInHandler_ok hs.cur hst
  have hok (h : legal) : (decide (n.toNat ≤ 8) && decide (sa.toNat + n.toNat ≤ 64) && !(n == 0 && sa != 0)) = true := by
    obtain ⟨h1, h2, h3⟩ := h
    simp only [h1, h2, decide_true, Bool.true_and]
    simpa [Decidable.imp_iff_not_or] using h3
  refine ⟨fun h hp hu => ⟨capture r sa n.toNat, fun j => capture_get r sa n.toNat j, ?_⟩, fun h hp hu => ?_, fun h hp => ?_, fun h => ?_⟩
  · refine (exec_lrun ..).trans (answer_ok ?_)
    simp only [bind_run, hnot, hand_here hs, hand_scalar hs, require_ok (hok h), Nat.not_le.2 hp, ge_iff_le, if_false, releaseHere_ok hs hu, upd_run,
      doneScalar_run, State.scalarNext]
  · refine (exec_lrun ..).trans (answer_stall ?_)
    simp only [bind_run, hnot, hand_here hs, hand_scalar hs, require_ok (hok h), Nat.not_le.2 hp, ge_iff_le, if_false, releaseHere_stalls hs hu]
  · refine (exec_lrun ..).trans (answer_stall ?_)
    simp only [bind_run, hnot, hand_here hs, hand_scalar hs, require_ok (hok h), hp, ge_iff_le, if_true, stallOn_run]
  · have hbad : (decide (n.toNat ≤ 8) && decide (sa.toNat + n.toNat ≤ 64) && !(n == 0 && sa != 0)) = false := by
      rw [← Bool.not_eq_true]
      exact fun e => h (by simpa [legal, and_assoc, Decidable.imp_iff_not_or] using e)
    refine (exec_lrun ..).trans (answer_trap ?_)
    simp only [bind_run, hnot, hand_here hs, hand_scalar hs, require_fail hbad]
    rfl

/-! ### SPOP, WFLG and SDONE (R89, R90, R93) -/

theorem flagsClear_iff (G : Group) (mask : BitVec 12) : G.flagsClear mask = true ↔ ∀ n < 12, mask.getLsbD n = true → G.flag n = 0 := by
  simp only [Group.flagsClear, List.all_eq_true, List.mem_range, Bool.or_eq_true, Bool.not_eq_true', beq_iff_eq]
  refine forall_congr' fun n => forall_congr' fun _ => ?_
  cases mask.getLsbD n <;> simp

theorem flagsClear_false (G : Group) {mask : BitVec 12} (h : ∃ n < 12, mask.getLsbD n = true ∧ G.flag n ≠ 0) : G.flagsClear mask = false := by
  obtain ⟨n, hn, hm, hf⟩ := h
  rw [← Bool.not_eq_true, flagsClear_iff]
  exact fun hall => hf (hall n hn hm)

theorem allFlags_get {n : Nat} (hn : n < 12) : (-1#12).getLsbD n = true := by
  rw [show (-1#12) = BitVec.allOnes 12 by decide, BitVec.getLsbD_allOnes, decide_eq_true hn]

theorem acquireHere_run (hs : InHand c T G L C r s) (scope : Nat) : acquireHere scope s = .ok ((), s.acquireFor c.team scope) := by
  simp only [acquireHere, upd_run, hs.cur]

theorem acquireFor_scalar (hs : InHand c T G L C r s) (scope : Nat) :
    hereScalar (s.acquireFor c.team scope) = .ok (r, s.acquireFor c.team scope) :=
  hereScalar_ok ((acquireFor_regs ..).trans hs.regs)

/-- Settles O13. -/
theorem drainWordsComplete : Obligations.DrainWordsComplete := by
  unfold Obligations.DrainWordsComplete
  intro d mask c T G L C r s hs hst
  have hnot := notInHandler_ok hs.cur hst
  have hh := hand_here hs
  refine ⟨fun v rest hq => ?_, fun hq hp => ?_, fun hq hp => ?_, fun hp hf => ?_, fun hp => ?_, fun hf => ?_, fun hf => ⟨?_, fun hp => ?_⟩,
    fun hp hf => ?_, fun hp => ?_, fun hp hf => ?_⟩
  · have hregs : (s.modGroup c.team c.grp fun g => { g with lq := rest }).scalarRegs? = some r := by
      rw [scalarRegs?_modGroup _ _ _ (by exact fun _ => rfl), hs.regs]
    refine (exec_spop ..).trans (answer_ok ?_)
    simp only [bind_run, hnot, hh, hq, upd_run, hereScalar_ok hregs, doneScalar_run, State.scalarNext, setS_pc]
  · exact (exec_spop ..).trans (answer_trap (by simp only [bind_run, hnot, hh, hq, hp, if_true, trap_run]; rfl))
  · exact (exec_spop ..).trans (answer_stall (by simp only [bind_run, hnot, hh, hq, hp, if_false, stallOn_run]))
  · refine (exec_wflg ..).trans (answer_ok ?_)
    simp only [bind_run, hnot, hh, hp, ne_eq, not_true_eq_false, if_false, (flagsClear_iff G mask).2 hf, Bool.not_true, Bool.false_eq_true,
      acquireHere_run hs, acquireFor_scalar hs, doneScalar_run, State.scalarNext]
  · exact (exec_wflg ..).trans (answer_stall (by simp only [bind_run, hnot, hh, hp, ne_eq, not_false_eq_true, if_true, stallOn_run]))
  · refine (exec_wflgNow ..).trans (answer_ok ?_)
    simp only [bind_run, hnot, hh, (flagsClear_iff G mask).2 hf, Bool.not_true, Bool.false_eq_true, if_false,
      acquireHere_run hs, acquireFor_scalar hs, doneScalar_run, State.scalarNext]
  · exact (exec_wflgNow ..).trans (answer_stall (by
      simp only [bind_run, hnot, hh, flagsClear_false G hf, Bool.not_false, if_true, stallOn_run]))
  · exact (exec_wflg ..).trans (answer_stall (by
      simp only [bind_run, hnot, hh, hp, ne_eq, not_true_eq_false, if_false, flagsClear_false G hf, Bool.not_false, if_true, stallOn_run]))
  · have hall : G.flagsClear (-1#12) = true := (flagsClear_iff G _).2 fun n hn _ => hf n hn
    refine (exec_sdone ..).trans (answer_ok ?_)
    simp only [bind_run, hnot, hh, hp, ne_eq, not_true_eq_false, if_false, hall, Bool.not_true, Bool.false_eq_true, hand_scalar hs, doneScalar_run,
      upd_run, State.scalarNext]
  · exact (exec_sdone ..).trans (answer_stall (by simp only [bind_run, hnot, hh, hp, ne_eq, not_false_eq_true, if_true, stallOn_run]))
  · obtain ⟨n, hn, hfn⟩ := hf
    have hbad := flagsClear_false G (mask := -1#12) ⟨n, hn, allFlags_get hn, hfn⟩
    exact (exec_sdone ..).trans (answer_stall (by
      simp only [bind_run, hnot, hh, hp, ne_eq, not_true_eq_false, if_false, hbad, Bool.not_false, if_true, stallOn_run]))

/-! ### The words of one kind of slot (R46, R95) -/

theorem notInHandler_traps (hc : s.cur = some c) (h : c.stream = .handler) : notInHandler s = .error (.trap { cause := 0x01 }, s) := by
  simp [notInHandler, bind_run, hc, h]
  rfl

theorem onlyInHandler_traps (hc : s.cur = some c) (h : c.stream ≠ .handler) : onlyInHandler s = .error (.trap { cause := 0x01 }, s) := by
  have hb : (c.stream == .handler) = false := by simpa using h
  simp [onlyInHandler, bind_run, hc, hb]
  rfl

/-- A trap of the handler slot is a double fault (R384). -/
theorem takeTrap_handler (hc : s.cur = some c) (h : c.stream = .handler) (x : TrapArgs) : s.takeTrap x = s.doubleFault c.team x.cause := by
  simp [State.takeTrap, hc, h]

/-- Settles O14. -/
theorem slotsRefuse : Obligations.SlotsRefuse := by
  unfold Obligations.SlotsRefuse
  refine ⟨fun i hi c s hc hst => ?_, fun i hi c s hc hst => ?_⟩
  · have hdouble (m : M Unit) : M.answer (do notInHandler; m) s = .next (s.doubleFault c.team 0x01) :=
      (answer_trap (bind_error (notInHandler_traps hc hst))).trans (by rw [takeTrap_handler hc hst])
    cases i <;> simp only at hi
    case lrun => exact (exec_lrun ..).trans (hdouble _)
    case spop => exact (exec_spop ..).trans (hdouble _)
    case wflg => exact (exec_wflg ..).trans (hdouble _)
    case wflgNow => exact (exec_wflgNow ..).trans (hdouble _)
    case lnch => exact (exec_lnch ..).trans (hdouble _)
    case sdone => exact exec_sdone s |>.trans (hdouble _)
  · have htrap (m : M Unit) : M.answer (do onlyInHandler; m) s = .next (s.takeTrap { cause := 0x01 }) :=
      answer_trap (bind_error (onlyInHandler_traps hc hst))
    cases i <;> simp only at hi
    case eret => exact exec_eret s |>.trans (htrap _)
    case trd => exact (exec_trd ..).trans (htrap _)
    case twr => exact (exec_twr ..).trans (htrap _)
    case tres => exact (exec_tres ..).trans (htrap _)
    case tkil => exact (exec_tkil ..).trans (htrap _)
    case dump => exact (exec_dump ..).trans (htrap _)
    case sset => exact (exec_sset ..).trans (htrap _)

end Sys2Proof.Proofs
end

section
/-! SUPPORT. Special registers, MRST and TRAP (R44, R92, R94, R204). -/

namespace Sys2Proof.Proofs
open Machine Claims Laws

variable {c : Cur} {T : Team} {G : Group} {L : Launch} {C : Context} {r : ScalarRegs} {s t : State}

/-! ### SGET, SSET (R44, R92) -/

/-- What a group's stream reads of a special register is the group's or the state's. -/
theorem specialRead_eq (c : Cur) (T : Team) (G : Group) (L : Launch) (s : State) (n : Nat) :
    specialRead c T G L s n = (G.special c.grp n).or (s.special T L n) := by
  unfold specialRead
  split
  case h_16 => 
    unfold Group.special State.special
    split
    case h_6 => split <;> simp_all
    all_goals simp_all
  all_goals rfl

/-- A handler register is no special register of a group or of the state. -/
theorem handlerRead_only {X : Group} {x : Trap} {n : Nat} {v : Word} (h : handlerRead T X x n = some v) :
    n ≠ 1 ∧ G.special c.grp n = none ∧ s.special T L n = none := by
  unfold handlerRead at h
  split at h
  case h_12 => simp at h
  all_goals exact ⟨by decide, rfl, rfl⟩

theorem handlerReg_eq {X : Group} {x : Trap} (hx : T.handler.trap = some x) (hX : s.group? c.team x.grp = some X) (n : Nat) :
    s.handlerReg c.team T.handler n = handlerRead T X x n := by
  unfold State.handlerReg handlerRead
  simp only [hx, Option.getD_some, hX, Option.map_some] <;> rfl

theorem specialRead_ne_one {n : Nat} {v : Word} (h : specialRead c T G L s n = some v) : n ≠ 1 := by
  rintro rfl
  exact nomatch h

section
variable (hs : InHand c T G L C r s) (d : SReg) {code : BitVec 8} {v : Word}
include hs

/-- A group's stream reads a special register of its own or of the state. -/
theorem sget_special (hst : c.stream = .scalar) (h : specialRead c T G L s code.toNat = some v) :
    exec (.sget d 0 code) s = .next (s.scalarNext 4 (r.setS d v)) := by
  have hne := specialRead_ne_one h
  rw [specialRead_eq] at h
  refine (exec_sget ..).trans (answer_ok ?_)
  simp only [bind_run, hand_here hs, hand_launch hs, hand_scalar hs, hne, if_false, require_ok (show ((0 : BitVec 5) == 0) = true from rfl), get_run]
  cases hg : G.special c.grp code.toNat with
  | some w =>
    obtain rfl : w = v := by simpa [hg] using h
    simp only [hst, reduceCtorEq, if_false, doneScalar_run, State.scalarNext, setS_pc]
  | none =>
    have hv : s.special T L code.toNat = some v := by simpa [hg] using h
    simp only [hv, doneScalar_run, State.scalarNext, setS_pc]

/-- The handler slot reads a register of the trap it handles. -/
theorem sget_handler {x : Trap} {X : Group} (hst : c.stream = .handler) (hx : T.handler.trap = some x) (hX : s.group? c.team x.grp = some X)
    (h : handlerRead T X x code.toNat = some v) : exec (.sget d 0 code) s = .next (s.scalarNext 4 (r.setS d v)) := by
  obtain ⟨hne, hg, hsp⟩ := handlerRead_only (c := c) (G := G) (L := L) (s := s) h
  have hst' : (c.stream == .handler) = true := by simpa using hst
  refine (exec_sget ..).trans (answer_ok ?_)
  simp only [bind_run, hand_here hs, hand_launch hs, hand_scalar hs, hne, if_false, require_ok (show ((0 : BitVec 5) == 0) = true from rfl), get_run, hg,
    hsp, handlerReg_eq hx hX, h, require_ok hst', doneScalar_run, State.scalarNext, setS_pc]

theorem sget_refused (hst : c.stream = .scalar) (h : specialRead c T G L s code.toNat = none) (hne : code ≠ 1) :
    exec (.sget d 0 code) s = .next (s.takeTrap { cause := 0x01 }) := by
  have hne' : code.toNat ≠ 1 := fun e => hne (BitVec.eq_of_toNat_eq e)
  rw [specialRead_eq, Option.or_eq_none_iff] at h
  have hst' : (c.stream == .handler) = false := by simp [hst]
  refine (exec_sget ..).trans (answer_trap ?_)
  simp only [bind_run, hand_here hs, hand_launch hs, hand_scalar hs, hne', if_false, require_ok (show ((0 : BitVec 5) == 0) = true from rfl), get_run, h.1, h.2]
  cases s.handlerReg c.team T.handler code.toNat with
  | none => rfl
  | some w => simp only [bind_run, require_fail hst']; rfl

/-- SGET of SUBN gives the elements of its type. -/
theorem sget_subn {ty : BitVec 5} (hty : ty.toNat < 16) :
    exec (.sget d ty 0x01) s = .next (s.scalarNext 4 (r.setS d (BitVec.ofNat 64 (ETy.get ty.toNat 0).subn))) := by
  refine (exec_sget ..).trans (answer_ok ?_)
  have h1 : (0x01 : BitVec 8).toNat = 1 := rfl
  simp only [bind_run, hand_here hs, hand_launch hs, hand_scalar hs, h1, if_true, require_ok (decide_eq_true hty), doneScalar_run, State.scalarNext, setS_pc]

end

/-- Settles O15. -/
theorem specialRegisterWords : Obligations.SpecialRegisterWords := by
  unfold Obligations.SpecialRegisterWords
  refine ⟨?_, ?_⟩
  · intro d sa ty code n c T G L C r v x X s hs
    refine ⟨sget_special hs d, sget_handler hs d, fun hty => ⟨_, sget_subn hs d hty, rfl⟩, fun hst => ?_, fun hst => ?_, sget_refused hs d⟩
    · refine (exec_sset ..).trans (answer_ok ?_)
      simp only [bind_run, onlyInHandler_ok hs.cur hst, hand_here hs, hand_scalar hs, upd_run, doneScalar_run, State.scalarNext]
    · refine (exec_sset ..).trans (answer_trap ?_)
      simp only [bind_run, onlyInHandler_traps hs.cur (show c.stream ≠ .handler by simp [hst])]
  · intro off c T G L C r s hs
    have hregs (w : Word) : hereScalar (s.modGroup c.team c.grp fun g => { g with restart := w }) = .ok (r, s.modGroup c.team c.grp fun g => { g with restart := w }) := by
      apply hereScalar_ok
      rw [scalarRegs?_modGroup _ _ _ (by exact fun _ => rfl), hs.regs]
    have hbit (h : off.toNat = 0xFFFFFFFF) : off = -1#32 := BitVec.eq_of_toNat_eq h
    refine ⟨fun hne h4 hin => ?_, fun hne hbad => ?_, fun hL => ?_, fun hL => ?_⟩
    · have hall : off.toNat ≠ 0xFFFFFFFF := fun e => hne (hbit e)
      refine (exec_mrst ..).trans (answer_ok ?_)
      simp only [bind_run, hand_here hs, hand_launch hs, hne, ne_eq, not_false_eq_true, if_true, if_false, require_ok (decide_eq_true (And.intro h4 hin)),
        Launch.restartAt, hall, upd_run, hregs, doneScalar_run, State.scalarNext]
    · refine (exec_mrst ..).trans (answer_trap ?_)
      simp only [bind_run, hand_here hs, hand_launch hs, hne, ne_eq, not_false_eq_true, if_true, require_fail (decide_eq_false hbad)]
      rfl
    · refine (exec_mrst ..).trans (answer_ok ?_)
      simp only [bind_run, hand_here hs, hand_launch hs, ne_eq, not_true_eq_false, if_true, if_false,
        Launch.restartAt, hL, upd_run, hregs, doneScalar_run, State.scalarNext]
    · refine (exec_mrst ..).trans (answer_ok ?_)
      simp only [bind_run, hand_here hs, hand_launch hs, ne_eq, not_true_eq_false, if_true, if_false,
        Launch.restartAt, hL, upd_run, hregs, doneScalar_run, State.scalarNext]

/-! ### TRAP (R94) -/

theorem traceGroup_off (h : s.dome.tracectl.getLsbD 0 = false) (u g kind p q : Nat) : s.traceGroup u g kind p q = s := by
  unfold State.traceGroup State.trace
  split
  · simp only [h, Bool.false_and, Bool.false_eq_true, if_false]
  · rfl

theorem scalarNext_dome (s : State) (n : Nat) (r : ScalarRegs) : (s.scalarNext n r).dome = s.dome := by
  unfold State.scalarNext
  rw [retireScalar_frame]

/-- Settles O16. -/
theorem trapCompletes : Obligations.TrapCompletes := by
  unfold Obligations.TrapCompletes
  intro imm sa c T G L C r s hs x
  have hrun : exec (.trap imm sa) s = .next (((s.scalarNext 4 r).traceGroup c.team c.grp 7 imm.toNat (r.pc + 4).toNat).takeTrap x) := by
    refine (exec_trap ..).trans (answer_trap ?_)
    simp only [bind_run, hand_here hs, hand_scalar hs, doneScalar_run, upd_run, trap_run]
    rfl
  exact ⟨hrun, fun h => by rw [hrun, traceGroup_off (by rw [scalarNext_dome, h])]⟩

end Sys2Proof.Proofs
end

section
/-! SUPPORT. The handler's words over the stopped groups (R96, R97). -/

namespace Sys2Proof.Proofs
open Machine Claims Laws

variable {c : Cur} {T : Team} {G X : Group} {L : Launch} {C : Context} {r : ScalarRegs} {s t : State}

/-! ### Changes of the same record -/

theorem modifyAt_congr {α : Type} {f g : α → α} {i : Nat} {l : List α} (h : ∀ x, l[i]? = some x → f x = g x) : modifyAt f i l = modifyAt g i l := by
  induction l generalizing i with
  | nil => cases i <;> rfl
  | cons x l ih =>
    cases i with
    | zero => simp [modifyAt, h x rfl]
    | succ i => simp [modifyAt, ih fun y hy => h y hy]

theorem modTeam_congr {u : Nat} {f g : Team → Team} (h : ∀ T, s.team? u = some T → f T = g T) : s.modTeam u f = s.modTeam u g := by
  simp only [State.modTeam, modifyAt_congr (show ∀ T, s.teams[u]? = some T → f T = g T from h)]

theorem modGroup_congr {u k : Nat} {f g : Group → Group} (h : ∀ X, s.group? u k = some X → f X = g X) : s.modGroup u k f = s.modGroup u k g := by
  refine modTeam_congr fun T hT => ?_
  rw [modifyAt_congr fun X hX => h X (by simpa [group?_eq, hT] using hX)]

/-! ### The group that a word names -/

theorem namedGroup_ok (hs : InHand c T G L C r s) {a : Word} (hX : T.groups[a.toNat]? = some X) (hk : X.killed = false) :
    namedGroup a s = .ok ((a.toNat, X), s) := by
  unfold namedGroup
  rw [bind_ok (hand_here hs)]
  simp only [hX]
  exact bind_ok (require_ok (by simp [hk]) ..)

theorem namedGroup_killed (hs : InHand c T G L C r s) {a : Word} (hX : T.groups[a.toNat]? = some X) (hk : X.killed = true) :
    namedGroup a s = .error (.trap { cause := 0x01 }, s) := by
  unfold namedGroup
  rw [bind_ok (hand_here hs)]
  simp only [hX]
  exact bind_error (require_fail (by simp [hk]) ..)

theorem answer_double {m : M Unit} {x : TrapArgs} (hc : s.cur = some c) (hst : c.stream = .handler) (h : m s = .error (.trap x, s)) :
    M.answer m s = .next (s.doubleFault c.team x.cause) :=
  (answer_trap h).trans (by rw [takeTrap_handler hc hst])

section
variable {d sa sb : SReg} {y : Selector} (hs : InHand c T G L C r s) (hst : c.stream = .handler) (hX : T.groups[(r.getS sa).toNat]? = some X)
include hs hst hX

theorem trd_reads (hk : X.killed = false) (hy : selectorOf (r.getS sb) = some y) {v : Word} (hv : X.readSel y = some v)
    (hclean : ∀ u, y.unit? c.team (r.getS sa).toNat = some u → u ∉ s.poison) :
    exec (.trd d sa sb) s = .next ((s.acquireFor c.team (X.trdScope y)).scalarNext 4 (r.setS d v)) := by
  have hany : (y.unit? c.team (r.getS sa).toNat).any s.poison.contains = false := by
    cases hu : y.unit? c.team (r.getS sa).toNat with
    | none => rfl
    | some u => simpa using hclean u hu
  refine (exec_trd ..).trans (answer_ok ?_)
  simp only [bind_run, onlyInHandler_ok hs.cur hst, hand_here hs, hand_scalar hs, namedGroup_ok hs hX hk, hy, hv, get_run, hany, Bool.false_eq_true, if_false,
    acquireHere_run hs, doneScalar_run, State.scalarNext, setS_pc]

theorem trd_poisoned (hk : X.killed = false) (hy : selectorOf (r.getS sb) = some y) {v : Word} (hv : X.readSel y = some v)
    (hbad : ∃ u ∈ s.poison, y.unit? c.team (r.getS sa).toNat = some u) : exec (.trd d sa sb) s = .next (s.doubleFault c.team 0x60) := by
  obtain ⟨u, hu, hyu⟩ := hbad
  have hany : (y.unit? c.team (r.getS sa).toNat).any s.poison.contains = true := by simpa [hyu] using hu
  refine (exec_trd ..).trans (answer_double hs.cur hst (x := { cause := 0x60, taddr := r.getS sb, tinfo := if y.file = 2 then 4 else 5 }) ?_)
  simp only [bind_run, onlyInHandler_ok hs.cur hst, hand_here hs, hand_scalar hs, namedGroup_ok hs hX hk, hy, hv, get_run, hany, if_true, trap_run]
  rfl

theorem trd_refused (hk : X.killed = false) (hy : selectorOf (r.getS sb) = some y) (hv : X.readSel y = none) :
    exec (.trd d sa sb) s = .next (s.doubleFault c.team 0x01) := by
  refine (exec_trd ..).trans (answer_double hs.cur hst (x := { cause := 0x01 }) ?_)
  simp only [bind_run, onlyInHandler_ok hs.cur hst, hand_here hs, hand_scalar hs, namedGroup_ok hs hX hk, hy, hv, trap_run]
  rfl

theorem twr_refused (hk : X.killed = false) (hy : selectorOf (r.getS sb) = some y) (hv : X.writeSel y (r.getS d) = none) :
    exec (.twr d sa sb) s = .next (s.doubleFault c.team 0x01) := by
  refine (exec_twr ..).trans (answer_double hs.cur hst (x := { cause := 0x01 }) ?_)
  simp only [bind_run, onlyInHandler_ok hs.cur hst, hand_here hs, hand_scalar hs, namedGroup_ok hs hX hk, hy, hv, trap_run]
  rfl

/-- A write through a selector leaves the group that it gives. -/
theorem twr_writes {X' : Group} (hk : X.killed = false) (hy : selectorOf (r.getS sb) = some y) (hv : X.writeSel y (r.getS d) = some X')
    (hkeep : y.file ≠ 4 ∨ (r.getS d).setWidth 8 ≠ (255 : BitVec 8)) :
    exec (.twr d sa sb) s = .next ((if y.file = 2 then
        { s.modGroup c.team (r.getS sa).toNat fun _ => X' with poison := s.poison.filter fun p => some p != y.unit? c.team (r.getS sa).toNat }
      else s.modGroup c.team (r.getS sa).toNat fun _ => X').scalarNext 4 r) := by
  have hcond : (decide (y.file = 4) && (r.getS d).setWidth 8 == (255 : BitVec 8)) = false := by
    rcases hkeep with h | h
    · simp [h]
    · simpa using fun _ => h
  have hmod : (s.modGroup c.team (r.getS sa).toNat fun G => (G.writeSel y (r.getS d)).getD G) = s.modGroup c.team (r.getS sa).toNat fun _ => X' := by
    refine modGroup_congr fun Y hY => ?_
    obtain rfl : X = Y := by simpa [group?_eq, hs.team, hX] using hY
    simp [hv]
  refine (exec_twr ..).trans (answer_ok ?_)
  simp only [bind_run, onlyInHandler_ok hs.cur hst, hand_here hs, hand_scalar hs, namedGroup_ok hs hX hk, hy, hv, hcond, Bool.false_eq_true, if_false,
    upd_run, hmod]
  by_cases h2 : y.file = 2
  · simp only [h2, if_true, bind_run, upd_run, doneScalar_run, State.scalarNext, modGroup_poison]
  · simp only [h2, if_false, doneScalar_run, State.scalarNext]

/-- A lane's counter of 255 vacates the lane. -/
theorem twr_vacates {X' : Group} (hk : X.killed = false) (hy : selectorOf (r.getS sb) = some y) (hv : X.writeSel y (r.getS d) = some X') (h4 : y.file = 4)
    (h255 : (r.getS d).setWidth 8 = (255 : BitVec 8)) :
    exec (.twr d sa sb) s = .next (((State.vacate c.team (r.getS sa).toNat y.lane s).modGroup c.team (r.getS sa).toNat fun G =>
      (G.writeSel y (r.getS d)).getD G).scalarNext 4 r) := by
  have hcond : (decide (y.file = 4) && (r.getS d).setWidth 8 == (255 : BitVec 8)) = true := by simp [h4, h255]
  have h2 : y.file ≠ 2 := by omega
  refine (exec_twr ..).trans (answer_ok ?_)
  simp only [bind_run, onlyInHandler_ok hs.cur hst, hand_here hs, hand_scalar hs, namedGroup_ok hs hX hk, hy, hv, hcond, if_true, upd_run, h2, if_false,
    doneScalar_run, State.scalarNext]

end

/-- Settles O21. -/
theorem handlerWordsComplete : Obligations.HandlerWordsComplete := by
  unfold Obligations.HandlerWordsComplete
  intro d sa sb c T G X L C r y s hs hst hX g clean
  refine ⟨fun hk hy => ⟨fun v hv => ⟨trd_reads hs hst hX hk hy hv, trd_poisoned hs hst hX hk hy hv⟩, trd_refused hs hst hX hk hy, fun X' hv hkeep => ?_,
    fun X' hv => twr_vacates hs hst hX hk hy hv, twr_refused hs hst hX hk hy⟩, fun hk => ?_, fun hk => ?_, ?_⟩
  · exact twr_writes hs hst hX hk hy hv hkeep
  · refine (exec_tres ..).trans (answer_ok ?_)
    simp only [bind_run, onlyInHandler_ok hs.cur hst, hand_here hs, hand_scalar hs, namedGroup_ok hs hX hk, upd_run, doneScalar_run, State.scalarNext]
    rfl
  · refine (exec_tres ..).trans (answer_double hs.cur hst (x := { cause := 0x01 }) ?_)
    simp only [bind_run, onlyInHandler_ok hs.cur hst, hand_here hs, hand_scalar hs, namedGroup_killed hs hX hk]
  · have hlt : (r.getS sa).toNat < T.groups.length := (List.getElem?_eq_some_iff.1 hX).1
    refine (exec_tkil ..).trans (answer_ok ?_)
    simp only [bind_run, onlyInHandler_ok hs.cur hst, hand_here hs, hand_scalar hs, require_ok (decide_eq_true hlt), upd_run, doneScalar_run, State.scalarNext]
    rfl

end Sys2Proof.Proofs
end

section
/-! SUPPORT. Taking a trap: what its trace entry commutes with, what the flags' layer leaves of a group, and how a team ends (R375 to R380). -/

namespace Sys2Proof.Proofs
open Machine Claims Laws

variable {c : Cur} {T : Team} {G : Group} {L : Launch} {C : Context} {r : ScalarRegs} {s s' t : State}

/-! ### Wakes and the trace beside a change of a group -/

/-- A change of a group that does not look at its park and leaves it as it is. -/
def ParkFree (f : Group → Group) : Prop := ∀ (G : Group) (p : Option Park), f { G with park := p } = { f G with park := p }

theorem ParkFree.park {f : Group → Group} (h : ParkFree f) (G : Group) : (f G).park = G.park := by
  have e := congrArg Group.park (h G G.park)
  exact e

theorem ParkFree.comm {f : Group → Group} (h : ParkFree f) (w : Option Park → Option Park) (G : Group) :
    f { G with park := w G.park } = { f G with park := w (f G).park } := by
  rw [h G (w G.park), h.park]

theorem modifyAt_comm {α : Type} {f g : α → α} (h : ∀ x, f (g x) = g (f x)) (i j : Nat) (l : List α) :
    modifyAt f i (modifyAt g j l) = modifyAt g j (modifyAt f i l) := by
  induction l generalizing i j with
  | nil => cases i <;> cases j <;> rfl
  | cons x l ih => cases i <;> cases j <;> simp [modifyAt, h, ih]

theorem modGroup_comm {f h : Group → Group} (hc : ∀ G, f (h G) = h (f G)) (t g u k : Nat) (s : State) :
    (s.modGroup u k h).modGroup t g f = (s.modGroup t g f).modGroup u k h := by
  unfold State.modGroup State.modTeam
  congr 1
  exact modifyAt_comm (fun T => by simp only [modifyAt_comm hc]) t u s.teams

/-- A group's park seen through a change that leaves parks alone. -/
theorem parks_modGroup {f : Group → Group} (hf : ParkFree f) (t g : Nat) (s : State) :
    (s.modGroup t g f).teams.map (fun T => T.groups.map Group.park) = s.teams.map fun T => T.groups.map Group.park :=
  map_modifyAt (by exact fun T => map_modifyAt hf.park g T.groups) t s.teams

theorem indexed_flatMap_congr {α β γ : Type} {p q : Nat → α → List γ} {F : α → β} {H : Nat → β → List γ} (hp : ∀ i x, p i x = H i (F x))
    (hq : ∀ i x, q i x = H i (F x)) {l l' : List α} (h : l.map F = l'.map F) (k : Nat) :
    ((indexed k l).flatMap fun x => p x.1 x.2) = (indexed k l').flatMap fun x => q x.1 x.2 := by
  induction l generalizing l' k with
  | nil =>
    cases l' with
    | nil => rfl
    | cons _ _ => simp at h
  | cons x l ih =>
    cases l' with
    | nil => simp at h
    | cons y l' =>
      simp only [List.map_cons, List.cons.injEq] at h
      rw [indexed, indexed, List.flatMap_cons, List.flatMap_cons, ih h.2 (k + 1)]
      congr 1
      rw [hp, hq, h.1]

/-- The groups that a change of memory wakes, by their parks alone. -/
def wokenOf (m : Park → Bool) (t : Nat) (parks : List (Option Park)) : List (Nat × Nat) :=
  (indexed 0 parks).filterMap fun gp => gp.2.bind fun p => if m p then some (t, gp.1) else none

theorem indexed_map {α β : Type} (F : α → β) (l : List α) (k : Nat) : indexed k (l.map F) = (indexed k l).map fun x => (x.1, F x.2) := by
  induction l generalizing k with
  | nil => rfl
  | cons x l ih => simp [indexed, ih]

theorem wakeList_eq (s s' : State) : wakeList s s'
    = (indexed 0 s'.teams).flatMap fun x => wokenOf (fun p => p.changed s s') x.1 (x.2.groups.map Group.park) := by
  unfold wakeList
  congr 1
  funext x
  rw [wokenOf, indexed_map, List.filterMap_map]
  congr 1
  funext y
  rw [Function.comp_apply]
  cases y.2.park <;> rfl

theorem monRead_modGroup (t g : Nat) (f : Group → Group) (s : State) : (s.modGroup t g f).monRead = s.monRead := by
  funext m
  cases m with
  | hbm key a => rfl
  | host a => rfl
  | scratch u o =>
    simp only [State.monRead, modGroup_teams, modifyAt_get]
    by_cases hu : u = t
    · rw [if_pos hu]
      cases s.teams[u]? <;> simp
    · rw [if_neg hu]

theorem wakeList_modGroup {f : Group → Group} (hf : ParkFree f) (t g : Nat) (s s' : State) :
    wakeList (s.modGroup t g f) (s'.modGroup t g f) = wakeList s s' := by
  have hc : (fun p : Park => p.changed (s.modGroup t g f) (s'.modGroup t g f)) = fun p => p.changed s s' := by
    funext p
    unfold Park.changed
    rw [monRead_modGroup, monRead_modGroup]
  rw [wakeList_eq, wakeList_eq, hc]
  exact indexed_flatMap_congr (F := fun T : Team => T.groups.map Group.park) (H := fun i ps => wokenOf _ i ps) (fun _ _ => rfl) (fun _ _ => rfl)
    (parks_modGroup hf t g s') 0

theorem stampFor_modGroup (t g : Nat) (f : Group → Group) (s : State) (u stamp : Nat) (who : Option Nat) :
    (s.modGroup t g f).stampFor u stamp who = s.stampFor u stamp who := by
  have hl : (s.modGroup t g f).launchIx u = s.launchIx u := by
    unfold State.launchIx
    rw [team?_modGroup]
    split
    · cases s.team? u <;> rfl
    · rfl
  unfold State.stampFor
  rw [hl]

theorem wakeFrom_modGroup {f : Group → Group} (hf : ParkFree f) (t g : Nat) (s s' : State) (stamp : Nat) (who : Option Nat) :
    (s'.modGroup t g f).wakeFrom (s.modGroup t g f) stamp who = (s'.wakeFrom s stamp who).modGroup t g f := by
  unfold State.wakeFrom
  rw [wakeList_modGroup hf]
  simp only [stampFor_modGroup]
  suffices h : ∀ (l : List (Nat × Nat)) (u : State),
      l.foldl (fun x tg => (x.modGroup tg.1 tg.2 fun g =>
        { g with park := g.park.map fun p => { p with stamp := max p.stamp (s'.stampFor tg.1 stamp who), written := true } }).post (.parkWake tg.1 tg.2))
        (u.modGroup t g f)
      = (l.foldl (fun x tg => (x.modGroup tg.1 tg.2 fun g =>
        { g with park := g.park.map fun p => { p with stamp := max p.stamp (s'.stampFor tg.1 stamp who), written := true } }).post (.parkWake tg.1 tg.2))
        u).modGroup t g f from h _ _
  intro l
  induction l with
  | nil => exact fun _ => rfl
  | cons x l ih =>
    intro u
    rw [List.foldl_cons, List.foldl_cons, ← ih]
    congr 1
    have hw := hf.comm fun o => o.map fun p => { p with stamp := max p.stamp (s'.stampFor x.1 stamp who), written := true }
    exact congrArg (State.post (.parkWake x.1 x.2)) (modGroup_comm hw t g x.1 x.2 u).symm

theorem curLaunch_modGroup (t g : Nat) (f : Group → Group) (s : State) : (s.modGroup t g f).curLaunch = s.curLaunch := by
  unfold State.curLaunch State.launchIx
  congr 1
  funext c
  rw [team?_modGroup]
  split
  · cases s.team? c.team <;> rfl
  · rfl

theorem devWrite_modGroup {f : Group → Group} (hf : ParkFree f) (t g : Nat) (s : State) (a : Nat) (b : List Byte) :
    (s.modGroup t g f).devWrite a b = (s.devWrite a b).modGroup t g f := by
  have hpoke : (s.modGroup t g f).devPoke a b none = (s.devPoke a b none).modGroup t g f := by
    unfold State.devPoke
    have hmay : (s.modGroup t g f).mayRange .dev a b.length true = s.mayRange .dev a b.length true := rfl
    rw [hmay]
    split <;> rfl
  unfold State.devWrite
  rw [hpoke, curLaunch_modGroup, wakeFrom_modGroup hf]

/-- A trace entry of a group comes out the same beside a change of a group that leaves parks alone. -/
theorem traceGroup_modGroup {f : Group → Group} (hf : ParkFree f) (t g : Nat) (s : State) (u h kind p q : Nat) :
    (s.modGroup t g f).traceGroup u h kind p q = (s.traceGroup u h kind p q).modGroup t g f := by
  have hwrite (unit : Nat) (b : List Byte) : (s.modGroup t g f).traceWrite unit b = (s.traceWrite unit b).modGroup t g f := by
    unfold State.traceWrite
    rw [modGroup_dome]
    cases s.dome.trace with
    | none => rfl
    | some bs =>
      obtain ⟨base, size⟩ := bs
      dsimp only
      by_cases hz : s.dome.traceFree = 0
      · rw [if_pos hz, if_pos hz]
        rfl
      · rw [if_neg hz, if_neg hz, devWrite_modGroup hf]
        rfl
  unfold State.traceGroup
  rw [team?_modGroup, launchOf?_modGroup]
  have htrace (T : Team) (L : Launch) : (s.modGroup t g f).trace kind (T.core / 48) T.core h L.ctx p q
      = (s.trace kind (T.core / 48) T.core h L.ctx p q).modGroup t g f := by
    unfold State.trace
    simp only [modGroup_dome, hwrite, modGroup_tick]
    have hctx : (s.modGroup t g f).context? L.ctx = s.context? L.ctx := rfl
    rw [hctx]
    split <;> rfl
  split
  · next T L hT hL => 
    split at hT
    · cases hs : s.team? u with
      | none => simp [hs] at hT
      | some U =>
        simp only [hs, Option.map_some, Option.some.injEq] at hT
        subst hT
        simp only [hL]
        exact htrace _ _
    · simp only [hT, hL]
      exact htrace _ _
  · next hno =>
    split
    · next T L hT hL => 
      exfalso
      split at hno
      · exact hno _ _ (by rw [hT]; rfl) hL
      · exact hno _ _ hT hL
    · rfl

end Sys2Proof.Proofs
end

section
/-! SUPPORT. A trap joins the held traps of its group (R375, R380). -/

namespace Sys2Proof.Proofs
open Machine Claims Laws

variable {c : Cur} {T : Team} {G : Group} {L : Launch} {C : Context} {r : ScalarRegs} {s s' t : State}

/-- A team of a state that the memory system alone has changed, with the fields the face shows. -/
theorem Same.team? {face : Team → Team} (h : Same face s t) {u : Nat} (hT : s.team? u = some T) :
    ∃ T', t.team? u = some T' ∧ face T' = face T := by
  have e := congrArg (fun l => l[u]?) h.teams
  rw [List.getElem?_map, List.getElem?_map, show s.teams[u]? = some T from hT] at e
  exact Option.map_eq_some_iff.1 e

theorem teamFace_eq {T U : Team} (h : teamFace T = teamFace U) :
    T = { U with groups := T.groups } ∧ T.groups.map groupFace = U.groups.map groupFace := by
  cases T
  cases U
  simp only [teamFace, Team.mk.injEq] at h
  obtain ⟨rfl, rfl, rfl, rfl, rfl, rfl, rfl, rfl, rfl, hg, rfl, rfl, rfl, rfl, rfl, rfl, rfl, rfl, rfl, rfl, rfl, rfl, rfl, rfl, rfl, rfl, rfl, rfl, rfl, rfl⟩ := h
  exact ⟨rfl, hg⟩

theorem groupFace_eq {G H : Group} (h : groupFace G = groupFace H) : G = { H with park := G.park } := by
  cases G
  cases H
  simp only [groupFace, Group.mk.injEq] at h
  simp only [Group.mk.injEq, h, and_self]

theorem teamFace_group {T U : Team} (h : teamFace T = teamFace U) {g : Nat} (hG : U.groups[g]? = some G) :
    ∃ G', T.groups[g]? = some G' ∧ groupFace G' = groupFace G := by
  have e := congrArg (fun l => l[g]?) (teamFace_eq h).2
  rw [List.getElem?_map, List.getElem?_map, hG] at e
  exact Option.map_eq_some_iff.1 e

/-- The marks of a group when its stream raises a trap. -/
def trapMark (a : TrapArgs) (st : Stream) (g : Group) : Group :=
  Group.setSkip { g with stallS := none, stallL := none, woken := false, whole := g.whole && st != Stream.lane } st (a.cause == cWatchpoint)

theorem trapMark_eq (a : TrapArgs) (st : Stream) (G : Group) :
    trapMark a st G = { G with
      stallS := none, stallL := none, woken := false, whole := G.whole && st != Stream.lane
      skipL := if st = .lane then a.cause == cWatchpoint else G.skipL
      skipS := if st = .lane then G.skipS else a.cause == cWatchpoint } := by
  unfold trapMark Group.setSkip
  split <;> rfl

theorem trapMark_parkFree (a : TrapArgs) (st : Stream) : ParkFree (trapMark a st) := by
  intro G p
  rw [trapMark_eq, trapMark_eq]

/-- The trap that a stream outside the handler slot raises. -/
def raisedTrap (a : TrapArgs) (c : Cur) (G : Group) (s : State) : Trap :=
  { cause := a.cause, grp := c.grp, lane := c.stream == .lane, tlpc := a.tlpc.getD G.lanePc, tlane := if c.stream = .lane then a.tlane else 0
    taddr := a.taddr, tinfo := a.tinfo, tick := s.tick, async := false, cmd := none, lost := none }

theorem takeTrap_eq (hc : s.cur = some c) (hG : s.group? c.team c.grp = some G) (hst : c.stream ≠ .handler) (a : TrapArgs) :
    s.takeTrap a = (s.modGroup c.team c.grp (trapMark a c.stream)).holdTrap c.team (raisedTrap a c G s) := by
  unfold State.takeTrap trapMark raisedTrap
  cases hs : c.stream <;> simp_all

/-- The trace entry of a trap, seen from the state it is written to. -/
theorem holdTrap_eq (hc : s.cur = some c) (hG : s.group? c.team c.grp = some G) (hC : s.contextOf? c.team = some C) (hT : s.team? c.team = some T)
    (a : TrapArgs) (hr : T.state ≠ .ended) {v : State} (hv : v = s.traceGroup c.team c.grp 3 a.cause.toNat G.regs.pc.toNat) :
    (s.modGroup c.team c.grp (trapMark a c.stream)).holdTrap c.team (raisedTrap a c G s)
      = if C.handler.isNone && !T.stop && !T.away then
          ((v.modGroup c.team c.grp (trapMark a c.stream)).report
            ((v.modGroup c.team c.grp (trapMark a c.stream)).trapRec c.team (raisedTrap a c G s) 1 a.cause.toNat 0)).killTeam c.team
        else
          ((v.modGroup c.team c.grp (trapMark a c.stream)).modGroup c.team c.grp fun g => { g with held := g.held ++ [raisedTrap a c G s] }).modTeam
            c.team fun T => if T.state = .running then { T with state := .stopping, stopped := v.plat.cycles } else T := by
  have hk : Kept s v := hv ▸ kept_traceGroup s ..
  obtain ⟨T', hT', hf⟩ := hk.team? hT
  have hpc : ((s.modGroup c.team c.grp (trapMark a c.stream)).group? c.team c.grp).map (fun g => g.regs.pc.toNat) = some G.regs.pc.toNat := by
    rw [group?_modGroup, if_pos ⟨rfl, rfl⟩, hG]
    rw [Option.map_some, Option.map_some, trapMark_eq]
  have hctx : v.contextOf? c.team = some C := (hk.contextOf? (fun _ _ => teamFace_launch) _).trans hC
  have htr : (s.modGroup c.team c.grp (trapMark a c.stream)).traceGroup c.team (raisedTrap a c G s).grp 3 (raisedTrap a c G s).cause.toNat G.regs.pc.toNat
      = v.modGroup c.team c.grp (trapMark a c.stream) := (traceGroup_modGroup (trapMark_parkFree a c.stream) ..).trans (by rw [hv]; rfl)
  unfold State.holdTrap
  rw [show (raisedTrap a c G s).grp = c.grp from rfl] at htr ⊢
  simp only [hpc, Option.getD_some, htr]
  rw [team?_modGroup, if_pos rfl, hT', contextOf?_modGroup, hctx]
  have hT'' := (teamFace_eq hf).1
  rw [hT'']
  simp only [Option.map_some, hr, if_false]
  rfl

/-- Settles O17: the trace entry changes no more than the memory system does, and what follows it changes the group and the team's phase. -/
theorem trapIsHeld : Obligations.TrapIsHeld := by
  intro a h c T G L C r s hs hst hrun hh v
  refine ⟨fun ht => traceGroup_off ht .., ?_⟩
  have hk : Kept s v := kept_traceGroup s ..
  obtain ⟨T', hT', hf⟩ := hk.team? hs.team
  obtain ⟨hTeq, -⟩ := teamFace_eq hf
  obtain ⟨G', hG', hg⟩ := teamFace_group hf (g := c.grp) (by have e := hs.group; rw [group?_eq, hs.team] at e; exact e)
  have hGeq := groupFace_eq hg
  have htake := (takeTrap_eq hs.cur hs.group hst a).trans
    (holdTrap_eq hs.cur hs.group hs.context hs.team a (by rw [hrun]; decide) (v := v) rfl)
  rw [hh, show (some h : Option HandlerReg).isNone = false from rfl, Bool.false_and, Bool.false_and, if_neg Bool.false_ne_true] at htake
  have hvg : v.group? c.team c.grp = some G' := by rw [group?_eq, hT']; exact hG'
  rw [htake]
  have hrun' : T'.state = .running := by rw [hTeq]; exact hrun
  refine ⟨{ T' with state := .stopping, stopped := v.plat.cycles, groups := modifyAt (fun g => { g with held := g.held ++ [raisedTrap a c G s] }) c.grp (modifyAt (trapMark a c.stream) c.grp T'.groups) },
    { trapMark a c.stream G' with held := (trapMark a c.stream G').held ++ [raisedTrap a c G s] }, ?_, ?_, rfl, ?_⟩
  · rw [team?_modTeam, if_pos rfl, team?_modGroup, if_pos rfl, team?_modGroup, if_pos rfl, hT']
    simp [hrun']
  · rw [group?_modTeam_keep _ _ _ _ (by intro T; split <;> rfl), group?_modGroup, if_pos ⟨rfl, rfl⟩, group?_modGroup, if_pos ⟨rfl, rfl⟩, hvg]
    rfl
  have hm : trapMark a c.stream G' = { trapMark a c.stream G with park := G'.park } := by
    rw [hGeq]
    exact trapMark_parkFree a c.stream G _
  rw [hm, show T'.scratch = T.scratch by rw [hTeq], show T'.handler = T.handler by rw [hTeq]]
  rw [trapMark_eq]
  refine ⟨rfl, rfl, rfl, rfl, rfl, rfl, rfl, rfl, ?_, rfl, rfl, rfl, rfl⟩
  intro u g hne
  rw [group?_modTeam_keep _ _ _ _ (by intro T; split <;> rfl), group?_modGroup, if_neg (by simpa using hne), group?_modGroup, if_neg (by simpa using hne)]

end Sys2Proof.Proofs
end

section
/-! SUPPORT. How a team ends: its groups that are gone stay gone (R97, R242, R378). -/

namespace Sys2Proof.Proofs
open Machine Claims Laws

variable {c : Cur} {T U V : Team} {G H : Group} {L : Launch} {C : Context} {r : ScalarRegs} {s s' t u : State}

/-! ### The completion flags and the clauses that raise them -/

/-- A group but for its completion flags and the clauses that owe them. -/
def flagFace (G : Group) : Group := { G with f := .replicate 12 0, fscope := [], tags := [] }

theorem flagFace_setFlag (G : Group) (n : Nat) (x : BitVec 8) : flagFace (G.setFlag n x) = flagFace G := by
  unfold Group.setFlag
  split <;> rfl

theorem flagFace_lowerFlag (G : Group) (n scope : Nat) : flagFace (G.lowerFlag n scope) = flagFace G := by
  unfold Group.lowerFlag
  split
  · rfl
  · exact flagFace_setFlag G n _

theorem flagFace_lower? (G : Group) (n : Option Nat) (scope : Nat) : flagFace (G.lower? n scope) = flagFace G := by
  cases n with
  | none => rfl
  | some n => exact flagFace_lowerFlag G n scope

theorem flagFace_modTag (G : Group) (id : Nat) (f : Tag → Tag) : flagFace (G.modTag id f) = flagFace G := rfl

theorem flagFace_settleTag (G : Group) (x : Tag) : flagFace (G.settleTag x).1 = flagFace G := by
  unfold Group.settleTag
  by_cases he : x.ended <;> by_cases hl : x.loads = 0 <;> by_cases hs : x.stores = 0 <;> simp [he, hl, hs, flagFace_lower?]

theorem flagFace_settleTags (G : Group) : flagFace G.settleTags = flagFace G := by
  suffices h : ∀ (l : List Tag) (H : Group), flagFace (l.foldl (fun h t =>
      let r := h.settleTag t
      { r.1 with tags := r.1.tags ++ r.2.toList }) H) = flagFace H from h _ _
  intro l
  induction l with
  | nil => exact fun _ => rfl
  | cons x l ih =>
    intro H
    rw [List.foldl_cons, ih]
    exact flagFace_settleTag H x

theorem flagFace_endStore (G : Group) (scope : Nat) (tag : Option Nat) : flagFace (G.endStore scope tag) = flagFace G := by
  cases tag with
  | none => rfl
  | some tag => exact (flagFace_settleTags _).trans (flagFace_modTag ..)

theorem gone_of_flagFace (h : flagFace G = flagFace H) : G.gone = H.gone := by
  have h1 := congrArg Group.retired h
  have h2 := congrArg Group.killed h
  unfold Group.gone
  rw [show G.retired = H.retired from h1, show G.killed = H.killed from h2]

/-! ### Teams that end -/

/-- A team later on: an end and an idle handler stay, no group comes or goes, and a group that is gone stays gone. -/
structure LaterTeam (T U : Team) : Prop where
  ended : T.state = .ended → U.state = .ended
  idle  : T.handler.trap = none → U.handler.trap = none
  size  : U.groups.length = T.groups.length
  gone  : ∀ (g : Nat) (G H : Group), T.groups[g]? = some G → U.groups[g]? = some H → G.gone = true → H.gone = true

theorem LaterTeam.refl (T : Team) : LaterTeam T T :=
  ⟨id, id, rfl, fun _ _ _ h1 h2 h3 => by rw [h1] at h2; injection h2 with h2; rwa [← h2]⟩

theorem LaterTeam.trans (h : LaterTeam T U) (k : LaterTeam U V) : LaterTeam T V := by
  refine ⟨k.ended ∘ h.ended, k.idle ∘ h.idle, k.size.trans h.size, fun g G H hG hH hg => ?_⟩
  have hlt : g < U.groups.length := h.size ▸ (List.getElem?_eq_some_iff.1 hG).1
  exact k.gone g _ H (List.getElem?_eq_getElem hlt) hH (h.gone g G _ hG (List.getElem?_eq_getElem hlt) hg)

/-- Every team of a state, later on. -/
def Later (s t : State) : Prop := ∀ u T, s.team? u = some T → ∃ U, t.team? u = some U ∧ LaterTeam T U

theorem Later.refl (s : State) : Later s s := fun _ T h => ⟨T, h, .refl T⟩
theorem Later.trans (h : Later s t) (k : Later t u) : Later s u := fun n T hT =>
  let ⟨_, hU, h1⟩ := h n T hT
  let ⟨V, hV, h2⟩ := k n _ hU
  ⟨V, hV, h1.trans h2⟩
theorem Later.of_teams (h : t.teams = s.teams) : Later s t := fun u T hT => ⟨T, by unfold State.team? at *; rw [h]; exact hT, .refl T⟩

theorem Later.foldl {β : Type} {f : State → β → State} (h : ∀ s x, Later s (f s x)) (l : List β) (s : State) : Later s (l.foldl f s) := by
  induction l generalizing s with
  | nil => exact .refl s
  | cons x l ih => exact (h s x).trans (ih _)

theorem Later.of_kept (h : Kept s t) : Later s t := by
  intro u T hT
  obtain ⟨U, hU, hf⟩ := h.team? hT
  obtain ⟨he, hg⟩ := teamFace_eq hf
  refine ⟨U, hU, fun h1 => by rw [he]; exact h1, fun h1 => by rw [he]; exact h1, by simpa using congrArg List.length hg, fun g G H hG hH hgone => ?_⟩
  obtain ⟨G', hG', hgf⟩ := teamFace_group hf hG
  rw [hH] at hG'
  injection hG' with hG'
  rw [hG', groupFace_eq hgf]
  exact hgone

theorem later_modTeam (n : Nat) {f : Team → Team} (hf : ∀ T, LaterTeam T (f T)) (s : State) : Later s (s.modTeam n f) := by
  intro u T hT
  by_cases h : u = n
  · exact ⟨f T, by rw [team?_modTeam, if_pos h, hT]; rfl, hf T⟩
  · exact ⟨T, by rw [team?_modTeam, if_neg h, hT], .refl T⟩

theorem later_modGroup (n g : Nat) {f : Group → Group} (hf : ∀ G, G.gone = true → (f G).gone = true) (s : State) : Later s (s.modGroup n g f) := by
  refine later_modTeam n (by exact fun T => ⟨id, id, by simp, fun k G H hG hH hg => by
    rw [modifyAt_get, hG] at hH
    split at hH
    · injection hH with hH
      exact hH ▸ hf G hg
    · injection hH with hH
      exact hH ▸ hg⟩) s

theorem later_unfinish (n g : Nat) (s : State) : Later s (s.unfinish n g) := by
  unfold State.unfinish
  split
  · refine (Later.of_teams rfl).trans (later_modGroup n g ?_ _)
    exact fun G hg => hg
  · exact .refl s

theorem later_killGroup (n g : Nat) (s : State) : Later s (s.killGroup n g) :=
  (later_unfinish n g s).trans (later_modGroup n g (by intro G _; simp [Group.gone]) _)

theorem later_discardLost (n g : Nat) (lost : Option (Bool × Nat)) (s : State) : Later s (s.discardLost n g lost) := by
  unfold State.discardLost
  split
  · exact .refl s
  · refine (later_modGroup n g (fun G hg => ?_) s).trans (Later.of_teams rfl)
    unfold Group.discard
    split <;> exact hg

theorem later_discardHeld (n g : Nat) (s : State) : Later s (s.discardHeld n g) := by
  unfold State.discardHeld
  split
  · exact .refl s
  · exact Later.foldl (fun s x => later_discardLost n g _ s) _ s

theorem later_settleTeam (n : Nat) (s : State) : Later s (s.settleTeam n) := by
  unfold State.settleTeam
  split
  · split
    · extract_lets v
      have hv : Later s v := (later_modTeam n (by exact fun T => ⟨fun _ => rfl, id, rfl, (LaterTeam.refl T).gone⟩) s).trans (.of_teams rfl)
      split
      · refine hv.trans (Later.foldl (fun s x => later_modTeam _ (fun T => ?_) s) _ v)
        exact ⟨id, id, rfl, (LaterTeam.refl T).gone⟩
      · exact hv
    · exact .refl s
  · exact .refl s

theorem later_noteFlag (n g : Nat) (flag : Option Nat) (s : State) : Later s (s.noteFlag n g flag) := by
  unfold State.noteFlag
  split
  · split
    · exact .of_kept (kept_devPoke ..)
    · exact .refl s
  · exact .refl s

theorem later_dropCmd (n k : Nat) (s : State) : Later s (s.dropCmd n k) := by
  unfold State.dropCmd
  split
  · exact .refl s
  · refine (later_modTeam n (by exact fun T => ⟨id, id, rfl, (LaterTeam.refl T).gone⟩) s).trans
      ((later_modGroup n _ (by
        exact fun G hg => (gone_of_flagFace ((flagFace_endStore ..).trans (flagFace_lower? ..))).trans hg) _).trans ((later_noteFlag n _ _ _).trans (later_settleTeam n _)))

theorem later_dropFaulted (n : Nat) (every : Bool) (s : State) : Later s (s.dropFaulted n every) := by
  unfold State.dropFaulted
  split
  · exact .refl s
  · refine Later.foldl (fun s x => ?_) _ s
    split
    · exact later_dropCmd n x.id s
    · exact .refl s

/-! ### The team that is killed -/

/-- The group `g` of a team is gone, where it has one. -/
def Gone (s : State) (n g : Nat) : Prop := ∀ G, s.group? n g = some G → G.gone = true

theorem Gone.later {n g : Nat} (h : Gone s n g) (k : Later s t) (hT : s.team? n = some T) : Gone t n g := by
  intro H hH
  obtain ⟨U, hU, hl⟩ := k n T hT
  rw [group?_eq, hU] at hH
  have hH' : U.groups[g]? = some H := hH
  have hlt : g < T.groups.length := hl.size ▸ (List.getElem?_eq_some_iff.1 hH').1
  refine hl.gone g T.groups[g] H (List.getElem?_eq_getElem hlt) hH' (h _ ?_)
  rw [group?_eq, hT]
  exact List.getElem?_eq_getElem hlt

theorem gone_killGroup (n g : Nat) (s : State) : Gone (s.killGroup n g) n g := by
  intro G hG
  unfold State.killGroup at hG
  rw [group?_modGroup, if_pos ⟨rfl, rfl⟩] at hG
  obtain ⟨H, -, rfl⟩ := Option.map_eq_some_iff.1 hG
  simp [Group.gone]

/-- A walk over groups that makes each one gone leaves them all gone. -/
theorem gone_foldl {n : Nat} {f : State → Nat → State} (hf : ∀ s g, Later s (f s g)) (P : State → Prop) (hP : ∀ s t, P s → Later s t → P t)
    (hg : ∀ s g, P s → Gone (f s g) n g) (l : List Nat) (hs : P s) (hT : s.team? n = some T) :
    ∀ g ∈ l, Gone (l.foldl f s) n g := by
  induction l generalizing s T with
  | nil => exact fun g h => absurd h (List.not_mem_nil)
  | cons x l ih =>
    obtain ⟨U, hU, -⟩ := hf s x n T hT
    intro g hmem
    rw [List.foldl_cons]
    rcases List.mem_cons.1 hmem with rfl | hmem
    · exact (hg s g hs).later (Later.foldl hf l _) hU
    · exact ih (hP s _ hs (hf s x)) hU g hmem

/-- What the trap in handling waits for goes with it. -/
def dropHandled (n : Nat) (T : Team) (s : State) : State :=
  match T.handler.trap with
  | some x => s.discardLost n x.grp x.lost
  | none => s

/-- One group of the team that ends. -/
def killStep (n : Nat) (T : Team) (x : State) (g : Nat) : State :=
  if (T.groups[g]?).any (·.retired) then x.discardHeld n g else (x.discardHeld n g).killGroup n g

def endTeam (T : Team) : Team := { T with state := .ended, handler := { T.handler with trap := none } }

theorem killTeam_eq {n : Nat} (hT : s.team? n = some T) :
    s.killTeam n = ((((List.range T.groups.length).foldl (killStep n T) (dropHandled n T s)).modTeam n endTeam).dropFaulted n true).settleTeam n := by
  unfold State.killTeam
  rw [hT]
  rfl

theorem later_dropHandled (n : Nat) (T : Team) (s : State) : Later s (dropHandled n T s) := by
  unfold dropHandled
  split
  · exact later_discardLost n _ _ s
  · exact .refl s

theorem later_killStep (n : Nat) (T : Team) (s : State) (g : Nat) : Later s (killStep n T s g) := by
  unfold killStep
  split
  · exact later_discardHeld n g s
  · exact (later_discardHeld n g s).trans (later_killGroup n g _)

theorem gone_killStep {n g : Nat} (hT : s.team? n = some T) (hl : Later s t) : Gone (killStep n T t g) n g := by
  unfold killStep
  split
  · next hr =>
    obtain ⟨V, hV, -⟩ := hl n T hT
    have hge : Gone s n g := by
      intro G hG
      rw [group?_eq, hT] at hG
      rw [show T.groups[g]? = some G from hG, Option.any_some] at hr
      simp [Group.gone, hr]
    exact (hge.later hl hT).later (later_discardHeld n g t) hV
  · exact gone_killGroup n g _

theorem killTeam_ended {n : Nat} (hT : s.team? n = some T) :
    (∃ U, (s.killTeam n).team? n = some U ∧ U.state = .ended ∧ U.handler.trap = none) ∧ ∀ g, Gone (s.killTeam n) n g := by
  rw [killTeam_eq hT]
  have h0 := later_dropHandled n T s
  generalize dropHandled n T s = s0 at h0 ⊢
  obtain ⟨T0, hT0, hl0⟩ := h0 n T hT
  have hfold : Later s0 ((List.range T.groups.length).foldl (killStep n T) s0) := Later.foldl (later_killStep n T) _ s0
  obtain ⟨T1, hT1, hl1⟩ := hfold n T0 hT0
  have hgone (g : Nat) : Gone ((List.range T.groups.length).foldl (killStep n T) s0) n g := by
    by_cases hg : g < T.groups.length
    · exact gone_foldl (later_killStep n T) (fun x => Later s x) (fun _ _ => Later.trans) (fun x g hx => gone_killStep hT hx) _ h0 hT0 g
        (List.mem_range.2 hg)
    · intro G hG
      rw [group?_eq, hT1] at hG
      have hlt := (List.getElem?_eq_some_iff.1 (show T1.groups[g]? = some G from hG)).1
      exact absurd (by rw [hl1.size, hl0.size] at hlt; exact hlt) hg
  generalize (List.range T.groups.length).foldl (killStep n T) s0 = s1 at hT1 hgone
  have hT1' : (s1.modTeam n endTeam).team? n = some (endTeam T1) := by
    rw [team?_modTeam, if_pos rfl, hT1]
    rfl
  have hend := (later_dropFaulted n true (s1.modTeam n endTeam)).trans (later_settleTeam n _)
  obtain ⟨U, hU, hl⟩ := hend n _ hT1'
  refine ⟨⟨U, hU, hl.ended rfl, hl.idle rfl⟩, fun g => Gone.later ?_ hend hT1'⟩
  intro G hG
  rw [group?_modTeam_keep s1 n n g (f := endTeam) (by exact fun _ => rfl)] at hG
  exact hgone g G hG

/-- Settles O18: every group that had not retired is killed, and what ends the team brings none of them back. -/
theorem trapWithoutHandlerKills : Obligations.TrapWithoutHandlerKills := by
  intro a c T G L C r s hs hst hrun hstop haway hh
  have htake := (takeTrap_eq hs.cur hs.group hst a).trans
    (holdTrap_eq hs.cur hs.group hs.context hs.team a (by rw [hrun]; decide) rfl)
  rw [hh, hstop, haway, if_pos (by rfl)] at htake
  obtain ⟨T1, hT1, -⟩ := (kept_traceGroup s c.team c.grp 3 a.cause.toNat G.regs.pc.toNat).team? hs.team
  have hT2 : ((s.traceGroup c.team c.grp 3 a.cause.toNat G.regs.pc.toNat).modGroup c.team c.grp (trapMark a c.stream)).team? c.team
      = some { T1 with groups := modifyAt (trapMark a c.stream) c.grp T1.groups } := by
    rw [team?_modGroup, if_pos rfl, hT1]
    rfl
  obtain ⟨T3, hT3, -⟩ := (kept_report _ _).team? hT2
  obtain ⟨hend, hgone⟩ := killTeam_ended hT3
  rw [htake]
  refine ⟨hend, fun g G' hG' => ?_⟩
  have hg := hgone g G' hG'
  unfold Group.gone at hg
  exact ((Bool.or_eq_true _ _).mp hg).symm

end Sys2Proof.Proofs
end

section
/-! SUPPORT. The handler's entry, its return and the dump (R98, R99, R376, R379 to R381). -/

namespace Sys2Proof.Proofs
open Machine Claims Laws

variable {c : Cur} {T U V : Team} {G H : Group} {L : Launch} {C : Context} {r : ScalarRegs} {s s' t u : State}

/-! ### Which group enters -/

theorem mem_indexed_get {α : Type} {k i : Nat} {x : α} {l : List α} (h : (i, x) ∈ indexed k l) : k ≤ i ∧ l[i - k]? = some x := by
  induction l generalizing k with
  | nil => exact absurd h (List.not_mem_nil)
  | cons y l ih =>
    rw [indexed, List.mem_cons] at h
    rcases h with h | h
    · obtain ⟨rfl, rfl⟩ := Prod.mk.inj h
      simp
    · obtain ⟨hle, hget⟩ := ih h
      refine ⟨by omega, ?_⟩
      rw [show i - k = (i - (k + 1)) + 1 by omega, List.getElem?_cons_succ, hget]

/-- One group beside the best so far. -/
def firstStep (best : Option (Nat × Nat)) (gG : Nat × Group) : Option (Nat × Nat) :=
  match gG.2.held with
  | [] => best
  | x :: _ =>
    match best with
    | none => some (x.tick, gG.1)
    | some (bt, bg) => if x.tick < bt then some (x.tick, gG.1) else some (bt, bg)

theorem firstHeld_eq (gs : List Group) : firstHeld gs = ((indexed 0 gs).foldl firstStep none).map (·.2) := rfl

/-- The group that a best so far names holds a trap. -/
def Holds (gs : List Group) (best : Option (Nat × Nat)) : Prop := ∀ b, best = some b → ∃ G x rest, gs[b.2]? = some G ∧ G.held = x :: rest

theorem holds_firstStep {gs : List Group} {best : Option (Nat × Nat)} {y : Nat × Group} (hb : Holds gs best) (hy : gs[y.1]? = some y.2) :
    Holds gs (firstStep best y) := by
  intro b hs
  unfold firstStep at hs
  cases hheld : y.2.held with
  | nil => exact hb b (by simpa [hheld] using hs)
  | cons x rest =>
    simp only [hheld] at hs
    cases best with
    | none =>
      obtain rfl := Option.some.inj hs
      exact ⟨y.2, x, rest, hy, hheld⟩
    | some best =>
      dsimp only at hs
      split at hs
      · obtain rfl := Option.some.inj hs
        exact ⟨y.2, x, rest, hy, hheld⟩
      · obtain rfl := Option.some.inj hs
        exact hb _ rfl

theorem holds_foldl {gs : List Group} {l : List (Nat × Group)} (hl : ∀ x ∈ l, gs[x.1]? = some x.2) {best : Option (Nat × Nat)} (hb : Holds gs best) :
    Holds gs (l.foldl firstStep best) := by
  induction l generalizing best with
  | nil => exact hb
  | cons y l ih => exact ih (fun x hx => hl x (List.mem_cons_of_mem _ hx)) (holds_firstStep hb (hl y List.mem_cons_self))

theorem firstHeld_held {gs : List Group} {g : Nat} (h : firstHeld gs = some g) : ∃ G x rest, gs[g]? = some G ∧ G.held = x :: rest := by
  rw [firstHeld_eq] at h
  obtain ⟨b, hb, rfl⟩ := Option.map_eq_some_iff.1 h
  exact holds_foldl (fun x hx => by simpa using (mem_indexed_get hx).2) (fun _ hn => by simp at hn) b hb

theorem findIndexFrom_first {α : Type} {p : α → Bool} {l : List α} {i : Nat} {x : α} (k : Nat) (hx : l[i]? = some x) (hp : p x = true)
    (hlt : ∀ j y, j < i → l[j]? = some y → p y = false) : findIndexFrom p k l = some (k + i) := by
  induction l generalizing k i with
  | nil => simp at hx
  | cons y l ih =>
    rw [findIndexFrom]
    cases i with
    | zero =>
      obtain rfl : y = x := by simpa using hx
      rw [if_pos hp]
      rfl
    | succ i =>
      rw [if_neg (by simpa using hlt 0 y (by omega) rfl), ih (k + 1) (by simpa using hx) (fun j z hj hz => hlt (j + 1) z (by omega) (by simpa using hz))]
      congr 1
      omega

theorem findIndexFrom_none {α : Type} {p : α → Bool} {l : List α} (k : Nat) (h : ∀ x ∈ l, p x = false) : findIndexFrom p k l = none := by
  induction l generalizing k with
  | nil => rfl
  | cons y l ih =>
    rw [findIndexFrom, if_neg (by simp [h y]), ih (k + 1) fun x hx => h x (List.mem_cons_of_mem _ hx)]

/-! ### The handler's registers at its entry -/

theorem start_getS (pc : Word) (k : SReg) : (ScalarRegs.start pc).getS k = 0 := by
  unfold ScalarRegs.start ScalarRegs.getS
  exact Vector.getElem_replicate _

theorem start_getQ (pc : Word) {q : QReg} (h : q ≠ 15) : (ScalarRegs.start pc).getQ q = false := by
  have hb : (q == 15) = false := by simpa using h
  rw [ScalarRegs.getQ, hb]
  simp [ScalarRegs.start]

theorem getS_setS (r : ScalarRegs) (a b : SReg) (x : Word) : (r.setS a x).getS b = if b = a then x else r.getS b := by
  unfold ScalarRegs.setS ScalarRegs.getS
  rw [Vector.getElem_set]
  by_cases h : b = a
  · rw [if_pos h, if_pos (congrArg BitVec.toNat h.symm)]
  · rw [if_neg h, if_neg (fun e => h (BitVec.eq_of_toNat_eq e.symm))]

/-- The handler of a team that enters for a trap. -/
def entered (h : HandlerReg) (x : Trap) (now : Nat) (T : Team) : Team :=
  { T with
    state := .handling
    handler := { T.handler with
      regs := (ScalarRegs.start (BitVec.ofNat 64 (h.base + h.entry))).setS 0 h.arg
      trap := some x, since := now, dump := none, stall := none } }

theorem enterHandler_eq {n g : Nat} {x : Trap} {rest : List Trap} {h : HandlerReg} (hG : s.group? n g = some G) (hC : s.contextOf? n = some C)
    (hheld : G.held = x :: rest) (hh : C.handler = some h) :
    s.enterHandler n g = (s.modGroup n g fun G => { G with held := rest }).modTeam n
      (entered h (if x.lane || x.async then x else { x with tlpc := G.lanePc }) s.tick) := by
  unfold State.enterHandler
  simp only [hG, hC, hheld, hh]
  rfl

/-- Settles O19: the group that `firstHeld` names holds a trap, so the entry is `enterHandler`'s. -/
theorem handlerEntryCompletes : Obligations.HandlerEntryCompletes := by
  intro n g h T U G C x rest s u hT hC hh hlive hst hstop haway hset hfirst hu hU hG hCu hheld
  obtain ⟨G0, x0, rest0, hG0, hheld0⟩ := firstHeld_held hfirst
  have hx0 : ((s.group? n g).bind fun G => G.held.head?) = some x0 := by rw [group?_eq, hT]; simp [hG0, hheld0]
  have hexec : exec (.handlerEntry n) s = .next (u.enterHandler n g) := by
    refine (exec_handlerEntry n s).trans ?_
    unfold execHandlerEntry
    simp only [hT, hlive, hst, hstop, haway, hset, hfirst, hC, hx0, hh, hu]
    rfl
  have hTu : (u.modGroup n g fun G => { G with held := rest }).team? n
      = some { U with groups := modifyAt (fun G => { G with held := rest }) g U.groups } := by
    rw [team?_modGroup, if_pos rfl, hU]
    rfl
  refine ⟨_, entered h (if x.lane || x.async then x else { x with tlpc := G.lanePc }) u.tick
      { U with groups := modifyAt (fun G => { G with held := rest }) g U.groups }, { G with held := rest },
    if x.lane || x.async then x else { x with tlpc := G.lanePc }, hexec, ?_, ?_, rfl, rfl, rfl, ?_⟩
  · rw [enterHandler_eq hG hCu hheld hh, team?_modTeam, if_pos rfl, hTu]
    rfl
  · rw [enterHandler_eq hG hCu hheld hh, group?_modTeam_keep _ _ _ _ (by exact fun _ => rfl), group?_modGroup, if_pos ⟨rfl, rfl⟩, hG]
    rfl
  refine ⟨?_, ?_, ?_, ?_, ?_, ?_, ?_, getS_setS .., ?_, ?_, rfl, rfl⟩
  · split <;> rfl
  · split <;> rfl
  · split <;> rfl
  · split <;> rfl
  · split <;> rfl
  · intro h1 h2
    rw [h1, h2]
    rfl
  · intro h1
    rw [h1]
    rfl
  · intro k hk
    exact (getS_setS ..).trans ((if_neg hk).trans (start_getS ..))
  · intro q hq
    exact start_getQ (BitVec.ofNat 64 (h.base + h.entry)) hq

end Sys2Proof.Proofs
end

section
/-! SUPPORT. The return from the handler (R98, R380) and the dump's word (R99, R381). -/

namespace Sys2Proof.Proofs
open Machine Claims Laws

variable {c : Cur} {T U V : Team} {G H : Group} {L : Launch} {C : Context} {r : ScalarRegs} {s s' t u : State}

/-! ### ERET -/

/-- What TRES leaves of a group whose lane stream it does not send elsewhere. -/
theorem applyTres_keeps (h : G.resumeL = none) :
    G.applyTres.regs.s = G.regs.s ∧ G.applyTres.regs.q = G.regs.q ∧ G.applyTres.regs.pc = G.resumeS.getD G.regs.pc ∧ G.applyTres.resumeS = none
      ∧ G.applyTres.lanes = G.lanes ∧ G.applyTres.run = G.run ∧ G.applyTres.clause = G.clause ∧ G.applyTres.f = G.f ∧ G.applyTres.held = G.held
      ∧ G.applyTres.gone = G.gone ∧ G.applyTres.killed = G.killed := by
  unfold Group.applyTres
  cases hS : G.resumeS with
  | none => simp [h, hS]
  | some pc =>
    simp only [h, Group.setSkip]
    exact ⟨rfl, rfl, rfl, rfl, rfl, rfl, rfl, rfl, rfl, rfl, rfl⟩

theorem applyTres_held (h : G.resumeL = none) : G.applyTres.held = G.held := by
  obtain ⟨-, -, -, -, -, -, -, -, hheld, -⟩ := applyTres_keeps h
  exact hheld

theorem applyTres_gone (h : G.resumeL = none) : G.applyTres.gone = G.gone := by
  obtain ⟨-, -, -, -, -, -, -, -, -, hgone, -⟩ := applyTres_keeps h
  exact hgone

theorem applyTres_killed (h : G.resumeL = none) : G.applyTres.killed = G.killed := by
  obtain ⟨-, -, -, -, -, -, -, -, -, -, hkilled⟩ := applyTres_keeps h
  exact hkilled

theorem applyTres_none (hS : G.resumeS = none) (hL : G.resumeL = none) : G.applyTres = G := by
  unfold Group.applyTres
  simp [hS, hL]

/-- One group at the return. -/
def tresStep (n : Nat) (x : State) (g : Nat) : State :=
  match x.group? n g with
  | some G => if G.killed then (if G.retired then x else (x.discardHeld n g).killGroup n g) else x.modGroup n g Group.applyTres
  | none => x

/-- The team and its context at the return, once the first `k` groups have their new addresses. -/
theorem tresStep_fold {n : Nat} (hT : s.team? n = some T) (hk : ∀ X ∈ T.groups, X.killed = false) (k : Nat) :
    ∃ gs, ((List.range k).foldl (tresStep n) s).team? n = some { T with groups := gs } ∧ gs.length = T.groups.length
      ∧ (∀ g, gs[g]? = if g < k then (T.groups[g]?).map Group.applyTres else T.groups[g]?)
      ∧ ((List.range k).foldl (tresStep n) s).contextOf? n = s.contextOf? n := by
  induction k with
  | zero => exact ⟨T.groups, hT, rfl, fun g => by simp, rfl⟩
  | succ k ih =>
    obtain ⟨gs, hteam, hlen, hget, hctx⟩ := ih
    rw [List.range_succ, List.foldl_append, List.foldl_cons, List.foldl_nil]
    generalize (List.range k).foldl (tresStep n) s = x at hteam hctx ⊢
    have hgk : x.group? n k = T.groups[k]? := by
      rw [group?_eq, hteam]
      exact (hget k).trans (if_neg (Nat.lt_irrefl k))
    cases hX : T.groups[k]? with
    | none =>
      refine ⟨gs, ?_, hlen, fun g => ?_, ?_⟩
      · rw [tresStep, hgk, hX]
        exact hteam
      · rw [hget g]
        by_cases hgk' : g = k
        · subst hgk'
          simp [hX]
        · simp only [show g < k + 1 ↔ g < k by omega]
      · rw [tresStep, hgk, hX]
        exact hctx
    | some X =>
      have hkX : X.killed = false := hk X (List.mem_of_getElem? hX)
      have hstep : tresStep n x k = x.modGroup n k Group.applyTres := by
        unfold tresStep
        simp only [hgk, hX, hkX, Bool.false_eq_true, if_false]
      rw [hstep]
      refine ⟨modifyAt Group.applyTres k gs, ?_, by simpa using hlen, fun g => ?_, ?_⟩
      · rw [team?_modGroup, if_pos rfl, hteam]
        rfl
      · rw [modifyAt_get, hget g]
        by_cases hgk' : g = k
        · subst hgk'
          rw [if_pos rfl, if_neg (Nat.lt_irrefl g), if_pos (Nat.lt_succ_self g)]
        · simp only [if_neg hgk', show g < k + 1 ↔ g < k by omega]
      · rw [contextOf?_modGroup]
        exact hctx

theorem tresStep_all {n : Nat} (hT : s.team? n = some T) (hk : ∀ X ∈ T.groups, X.killed = false) :
    ((List.range T.groups.length).foldl (tresStep n) s).team? n = some { T with groups := T.groups.map Group.applyTres }
      ∧ ((List.range T.groups.length).foldl (tresStep n) s).contextOf? n = s.contextOf? n := by
  obtain ⟨gs, hteam, -, hget, hctx⟩ := tresStep_fold hT hk T.groups.length
  have hgs : gs = T.groups.map Group.applyTres := by
    refine List.ext_getElem? fun g => ?_
    rw [hget g, List.getElem?_map]
    split
    · rfl
    · next hlt => rw [List.getElem?_eq_none (by omega)]; rfl
  exact ⟨hgs ▸ hteam, hctx⟩

/-- With no killed group no command that failed is dropped. -/
theorem dropFaulted_live {n : Nat} (hT : s.team? n = some T) (hk : ∀ X ∈ T.groups, X.killed = false) : s.dropFaulted n false = s := by
  unfold State.dropFaulted
  rw [hT]
  dsimp only
  induction T.cmds with
  | nil => rfl
  | cons x l ih =>
    have hany : (s.group? n x.grp).any (·.killed) = false := by
      rw [group?_eq, hT]
      cases hX : T.groups[x.grp]? with
      | none => simp [hX]
      | some X => simp [hX, hk X (List.mem_of_getElem? hX)]
    rw [List.foldl_cons, hany, Bool.or_false, Bool.and_false, if_neg Bool.false_ne_true]
    exact ih

theorem closeTrap_idle {n : Nat} {x : Trap} (hT : s.team? n = some T) (hx : T.handler.trap = some x) (hc : x.cmd = none) (hl : x.lost = none) :
    s.closeTrap n = s := by
  unfold State.closeTrap
  rw [hT]
  simp only [Option.bind_some, hx, hc, hl]
  rfl

/-- The last part of the return: the first held trap enters the handler, or the team goes on, or it ends. -/
def returnRest (n : Nat) (gs : List Group) (s : State) : State :=
  match nextHeld gs with
  | some g => s.enterHandler n g
  | none =>
    if gs.all (·.gone) then (s.modTeam n fun T => { T with state := .ended, handler := { T.handler with trap := none } }).settleTeam n
    else (s.modTeam n fun T => { T with state := .running, handler := { T.handler with trap := none } }).rouse n

theorem returnFromTrap_rest {n : Nat} (hT : (s.closeTrap n).team? n = some T)
    (hU : (((List.range T.groups.length).foldl (tresStep n) (s.closeTrap n)).dropFaulted n false).team? n = some U) :
    s.returnFromTrap n = returnRest n U.groups (((List.range T.groups.length).foldl (tresStep n) (s.closeTrap n)).dropFaulted n false) := by
  unfold State.returnFromTrap
  simp only [hT]
  show (match (((List.range T.groups.length).foldl (tresStep n) (s.closeTrap n)).dropFaulted n false).team? n with
    | none => _
    | some V => returnRest n V.groups (((List.range T.groups.length).foldl (tresStep n) (s.closeTrap n)).dropFaulted n false)) = _
  simp only [hU]

/-- The state that the return reaches before it looks for a held trap. -/
theorem returnFromTrap_eq {n : Nat} {x : Trap} (hT : s.team? n = some T) (hx : T.handler.trap = some x) (hc : x.cmd = none) (hl : x.lost = none)
    (hk : ∀ X ∈ T.groups, X.killed = false ∧ X.resumeL = none) :
    ∃ v : State, v.team? n = some { T with groups := T.groups.map Group.applyTres } ∧ v.contextOf? n = s.contextOf? n
      ∧ s.returnFromTrap n = returnRest n (T.groups.map Group.applyTres) v := by
  obtain ⟨hteam, hctx⟩ := tresStep_all hT fun X hX => (hk X hX).1
  refine ⟨_, hteam, hctx, ?_⟩
  have hdrop := dropFaulted_live hteam fun X hX => by
    obtain ⟨Y, hY, rfl⟩ := List.mem_map.1 hX
    exact (applyTres_killed (hk Y hY).2).trans (hk Y hY).1
  have hclose := closeTrap_idle hT hx hc hl
  refine (returnFromTrap_rest (T := T) (U := { T with groups := T.groups.map Group.applyTres }) (by rw [hclose]; exact hT) ?_).trans ?_
  · rw [hclose, hdrop]
    exact hteam
  · rw [hclose, hdrop]

theorem rouse_team? (n u : Nat) (s : State) : (s.rouse n).team? u = s.team? u := by
  unfold State.rouse
  split <;> rfl

theorem eret_returns (hs : InHand c T G L C r s) (hst : c.stream = .handler) (hu : s.teamUnacked c.team = false) :
    exec .eret s = .next (s.returnFromTrap c.team) := by
  refine (exec_eret s).trans (answer_ok ?_)
  simp only [bind_run, onlyInHandler_ok hs.cur hst, hand_here hs, get_run, hu, Bool.false_eq_true, if_false, upd_run]

/-- With no trap held and a group left, the groups go on where they stopped or where TRES sends them. -/
theorem eret_resumes {x : Trap} (hs : InHand c T G L C r s) (hst : c.stream = .handler) (hx : T.handler.trap = some x) (hcmd : x.cmd = none)
    (hlost : x.lost = none) (hu : s.teamUnacked c.team = false) (hall : ∀ X ∈ T.groups, X.held = [] ∧ X.killed = false ∧ X.resumeL = none)
    (hlive : ∃ X ∈ T.groups, X.retired = false) :
    ∃ s' T', exec .eret s = .next s' ∧ s'.team? c.team = some T' ∧ T'.state = .running ∧ T'.handler.trap = none ∧ T'.handler.hs = T.handler.hs
      ∧ ∀ g X, s.group? c.team g = some X → s'.group? c.team g = some X.applyTres := by
  obtain ⟨v, hv, -, hret⟩ := returnFromTrap_eq hs.team hx hcmd hlost fun X hX => (hall X hX).2
  have hnone : nextHeld (T.groups.map Group.applyTres) = none := by
    refine findIndexFrom_none 0 fun X hX => ?_
    obtain ⟨Y, hY, rfl⟩ := List.mem_map.1 hX
    obtain ⟨hheld, -, hL⟩ := hall Y hY
    simp [applyTres_held hL, hheld]
  have hgone : (T.groups.map Group.applyTres).all (·.gone) = false := by
    obtain ⟨X, hX, hr⟩ := hlive
    refine List.all_eq_false.2 ⟨X.applyTres, List.mem_map_of_mem hX, ?_⟩
    rw [applyTres_gone (hall X hX).2.2]
    simp [Group.gone, hr, (hall X hX).2.1]
  unfold returnRest at hret
  rw [hnone] at hret
  simp only [hgone, Bool.false_eq_true, if_false] at hret
  have hteam : (s.returnFromTrap c.team).team? c.team
      = some { T with groups := T.groups.map Group.applyTres, state := .running, handler := { T.handler with trap := none } } := by
    rw [hret, rouse_team?, team?_modTeam, if_pos rfl, hv]
    rfl
  refine ⟨_, _, eret_returns hs hst hu, hteam, rfl, rfl, rfl, fun g X hX => ?_⟩
  rw [group?_eq, hs.team] at hX
  have hX' : T.groups[g]? = some X := hX
  rw [group?_eq, hteam]
  exact (List.getElem?_map ..).trans (by rw [hX']; rfl)

/-- A held trap of a live group enters the handler again. -/
theorem eret_enters {x y : Trap} {X : Group} {h : HandlerReg} {g : Nat} {rest : List Trap} (hs : InHand c T G L C r s) (hst : c.stream = .handler)
    (hx : T.handler.trap = some x) (hcmd : x.cmd = none) (hlost : x.lost = none) (hu : s.teamUnacked c.team = false) (hh : C.handler = some h)
    (hall : ∀ Y ∈ T.groups, Y.killed = false ∧ Y.resumeS = none ∧ Y.resumeL = none) (hX : T.groups[g]? = some X)
    (hbefore : ∀ k Y, k < g → T.groups[k]? = some Y → Y.held = []) (hheld : X.held = y :: rest) :
    ∃ s' T', exec .eret s = .next s' ∧ s'.team? c.team = some T' ∧ T'.state = .handling ∧ (T'.handler.trap.map fun z => (z.cause, z.grp)) = some (y.cause, y.grp)
      ∧ T'.handler.regs.getS 0 = h.arg ∧ T'.handler.regs.pc = BitVec.ofNat 64 (h.base + h.entry) := by
  obtain ⟨v, hv, hctx, hret⟩ := returnFromTrap_eq hs.team hx hcmd hlost fun X hX => ⟨(hall X hX).1, (hall X hX).2.2⟩
  have hsame : T.groups.map Group.applyTres = T.groups := by
    refine (List.map_congr_left fun X hX => ?_).trans (List.map_id _)
    exact applyTres_none (hall X hX).2.1 (hall X hX).2.2
  rw [hsame] at hret hv
  have hnext : nextHeld T.groups = some g := by
    have hk := (hall X (List.mem_of_getElem? hX)).1
    refine (findIndexFrom_first 0 hX (by simp [hheld, hk]) fun k Y hlt hY => by simp [hbefore k Y hlt hY]).trans ?_
    rw [Nat.zero_add]
  unfold returnRest at hret
  rw [hnext] at hret
  dsimp only at hret
  have hvG : v.group? c.team g = some X := by rw [group?_eq, hv]; exact hX
  rw [enterHandler_eq hvG (hctx.trans hs.context) hheld hh] at hret
  have hteam : (s.returnFromTrap c.team).team? c.team = some (entered h (if y.lane || y.async then y else { y with tlpc := X.lanePc }) v.tick
      { T with groups := modifyAt (fun G => { G with held := rest }) g T.groups }) := by
    rw [hret, team?_modTeam, if_pos rfl, team?_modGroup, if_pos rfl, hv]
    rfl
  refine ⟨_, _, eret_returns hs hst hu, hteam, rfl, ?_, getS_setS .., rfl⟩
  unfold entered
  dsimp only [Option.map_some]
  split <;> rfl

/-- Settles O20. -/
theorem eret : Obligations.Eret := by
  unfold Obligations.Eret
  refine ⟨fun c T G L C r x s hs hst => ⟨fun hu => ?_, fun hx hcmd hlost _ hu hall hlive => ?_⟩, ?_⟩
  · refine (exec_eret s).trans (answer_stall ?_)
    simp only [bind_run, onlyInHandler_ok hs.cur hst, hand_here hs, get_run, hu, if_true, stallOn_run]
  · obtain ⟨s', T', hexec, hT', hrun, hidle, hhs, hgroups⟩ := eret_resumes hs hst hx hcmd hlost hu hall hlive
    refine ⟨s', T', hexec, hT', hrun, hidle, hhs, fun g X hX => ⟨_, hgroups g X hX, ?_⟩⟩
    have hmem : X ∈ T.groups := by
      rw [group?_eq, hs.team] at hX
      exact List.mem_of_getElem? hX
    obtain ⟨h1, h2, h3, h4, h5, h6, h7, h8, -⟩ := applyTres_keeps (hall X hmem).2.2
    exact ⟨h1, h2, h3, h4, h5, h6, h7, h8⟩
  · intro c T G X L C h r x y g rest s hs hst hx hcmd hlost _ hu hh hall hX hbefore hheld
    exact eret_enters hs hst hx hcmd hlost hu hh hall hX hbefore hheld

/-! ### DUMP -/

/-- Settles O22. -/
theorem dumpCompletes : Obligations.DumpCompletes := by
  intro d sa sb c T T' G G' L L' C C' r n s s' hs hst
  have hrun := onlyInHandler_ok hs.cur hst
  refine ⟨fun ha hb => ?_, fun ha => ?_, fun ha hb hT hd hdump hs' hT' => ?_, fun ha hb hT hd => ?_⟩
  · refine (exec_dump ..).trans (answer_ok ?_)
    simp only [bind_run, hrun, hand_scalar hs, hand_here hs, require_ok (beq_iff_eq.2 ha), hb, if_true, doneScalar_run, State.scalarNext, setS_pc]
  · refine (exec_dump ..).trans (answer_double hs.cur hst (x := { cause := 0x10, taddr := r.getS sa }) ?_)
    simp only [bind_run, hrun, hand_scalar hs, hand_here hs, require_fail (beq_false_of_ne ha)]
    rfl
  · have hany : (s'.team? c.team).any (fun T => T.state == .dumping) = true := by simp [hs'.team, hT']
    refine (exec_dump ..).trans (answer_ok ?_)
    simp only [bind_run, hrun, hand_scalar hs, hand_here hs, require_ok (beq_iff_eq.2 ha), Nat.not_lt.2 hb, if_false, hT, bne_self_eq_false,
      Bool.false_eq_true, get_run, hd, Bool.not_true, hdump, hany, if_true, upd_run, doneScalar_run, State.scalarNext, setS_pc]
  · refine (exec_dump ..).trans (answer_stall ?_)
    simp only [bind_run, hrun, hand_scalar hs, hand_here hs, require_ok (beq_iff_eq.2 ha), Nat.not_lt.2 hb, if_false, hT, bne_self_eq_false,
      Bool.false_eq_true, get_run, hd, Bool.not_false, if_true, stallOn_run]

end Sys2Proof.Proofs
end

section
/-! SUPPORT. A turn of the device: what a stream fetches and executes, and what an event is (R8, R46, R53, R298, R299, R408). -/

namespace Sys2Proof.Proofs
open Machine Claims Laws

variable {c : Cur} {T U V : Team} {G H : Group} {L : Launch} {C : Context} {r : ScalarRegs} {s s' t u : State}

/-! ### Fetching a word -/

theorem scalarSection_run (hc : s.cur = some c) {base size : Nat} (h : sectionOf c s = some (base, size)) : scalarSection s = .ok ((base, size), s) := by
  unfold sectionOf at h
  unfold scalarSection
  by_cases hst : c.stream = .handler
  · rw [if_pos hst] at h
    obtain ⟨g, hg, he⟩ := Option.map_eq_some_iff.1 h
    obtain ⟨C, hC, hh⟩ := Option.bind_eq_some_iff.1 hg
    have hin : inHandler s = .ok (true, s) := by simp [inHandler, hc, hst]
    simp only [bind_run, hin, if_true, hereContext_ok hc hC, hh, pure_run, he]
  · rw [if_neg hst] at h
    obtain ⟨L, hL, he⟩ := Option.map_eq_some_iff.1 h
    have hin : inHandler s = .ok (false, s) := by simp [inHandler, hc, hst]
    simp only [bind_run, hin, Bool.false_eq_true, if_false, hereLaunch_ok hc hL, pure_run, he]

theorem reads_getD {ε : Type} {d : Except ε Instr} {reserved i : Instr} (h : Reads d reserved i) : d.toOption.getD reserved = i := by
  rcases h with h | ⟨⟨e, h⟩, rfl⟩ <;> rw [h] <;> rfl

theorem inSection {pc base size n : Nat} (h4 : pc % 4 = 0) (hb : base ≤ pc) (hs : pc + n ≤ base + size) :
    (pc % 4 == 0 && decide (base ≤ pc) && decide (pc + n ≤ base + size)) = true := by
  simp [h4, hb, hs]

theorem fetchScalar_run {i : Instr} (hc : s.cur = some c) (h : ScalarAt c i s s') : fetchScalar s = .ok (i, s') := by
  unfold fetchScalar
  cases h with
  | short r base size b _ _ hr hsec h4 hb hs hf hw hd =>
    simp only [bind_run, hereScalar_ok hr, scalarSection_run hc hsec, require_ok (inSection h4 hb hs), hf, hw, Bool.false_eq_true, if_false, pure_run,
      reads_getD hd]
  | wide r base size b b' _ s1 _ hr hsec h4 hb hs hf hw hf' hd =>
    simp only [bind_run, hereScalar_ok hr, scalarSection_run hc hsec, require_ok (inSection h4 hb (by omega : r.pc.toNat + 4 ≤ base + size)), hf, hw, if_true,
      require_ok (decide_eq_true hs), hf', pure_run, reads_getD hd]

theorem fetchLane_run {i : Instr} (hc : s.cur = some c) (h : LaneAt c i s s') : fetchLane s = .ok (i, s') := by
  obtain ⟨T, G, L, k, b, hT, hG, hL, hk, hf, hd⟩ := h
  unfold fetchLane
  simp only [bind_run, here_ok hc hT hG, hereLaunch_ok hc hL, hk, hf, pure_run, reads_getD hd]

/-! ### A fetch that gives no word -/

/-- A fetch of bytes that ends in a halt ends the fetch of the word there. -/
theorem fetchNext_error {va n : Nat} {h : Halt} (hc : s.cur = some c) (hw : WordAt c va n s) (hf : fetchBytes va n s = .error (h, t)) :
    fetchNext c s = .error (h, t) := by
  unfold fetchNext
  cases hw with
  | scalar r base size _ hst hr hsec h4 hb hs =>
    rw [if_neg hst]
    unfold fetchScalar
    simp only [bind_run, hereScalar_ok hr, scalarSection_run hc hsec, require_ok (inSection h4 hb hs), hf]
  | lane T G L k _ hst hT hG hL hk =>
    rw [if_pos hst]
    unfold fetchLane
    simp only [bind_run, here_ok hc hT hG, hereLaunch_ok hc hL, hk, hf]

theorem fetchNext_noWord (hc : s.cur = some c) (h : NoWord c s s') : ∃ x v, fetchNext c s = .error (x, v) ∧ x.answer v = .next s' := by
  cases h with
  | outside r base size _ hst hr hsec hbad =>
    have hcond : (r.pc.toNat % 4 == 0 && decide (base ≤ r.pc.toNat) && decide (r.pc.toNat + 4 ≤ base + size)) = false := by
      rw [Bool.eq_false_iff]
      simp only [ne_eq, Bool.and_eq_true, beq_iff_eq, decide_eq_true_eq]
      omega
    refine ⟨.trap { cause := 0x10, taddr := r.pc }, s, ?_, rfl⟩
    unfold fetchNext
    rw [if_neg hst]
    unfold fetchScalar
    simp only [bind_run, hereScalar_ok hr, scalarSection_run hc hsec, require_fail hcond]
    rfl
  | second r base size b _ v hst hr hsec h4 hb hs hbad hf hw =>
    refine ⟨.trap { cause := 0x10, taddr := r.pc + 4 }, v, ?_, rfl⟩
    unfold fetchNext
    rw [if_neg hst]
    unfold fetchScalar
    simp only [bind_run, hereScalar_ok hr, scalarSection_run hc hsec, require_ok (inSection h4 hb hs), hf, hw, if_true,
      require_fail (decide_eq_false (by omega : ¬ r.pc.toNat + 8 ≤ base + size))]
    rfl
  | untranslated a va n bad _ v hw ha hl =>
    refine ⟨.trap { cause := 0x10, taddr := BitVec.ofNat 64 va, tinfo := if bad then 0x100 else 0 }, v, fetchNext_error hc hw ?_, rfl⟩
    unfold fetchBytes
    simp only [bind_run, hereAgent_ok hc ha, get_run, hl, set_run, trap_run]
    rfl
  | forbidden a va n ps _ v hw ha hl hbad =>
    have hcond : (ps.all fun p => p.permits .fetch && !p.isPeer) = false := by
      obtain ⟨p, hp, hbad⟩ := hbad
      exact List.all_eq_false.2 ⟨p, hp, by rcases hbad with h | h <;> simp [h]⟩
    refine ⟨.trap { cause := 0x11, taddr := BitVec.ofNat 64 va }, v, fetchNext_error hc hw ?_, rfl⟩
    unfold fetchBytes
    simp only [bind_run, hereAgent_ok hc ha, get_run, hl, set_run, require_fail hcond]
    rfl
  | absent a va n ps _ v hw ha hl hok habs =>
    have hcond : (ps.all fun p => p.permits .fetch && !p.isPeer) = true :=
      List.all_eq_true.2 fun p hp => by simp [(hok p hp).1, (hok p hp).2.1]
    have hopen : (ps.all fun p => p.open .fetch v) = true := List.all_eq_true.2 fun p hp => (hok p hp).2.2
    have hany : (ps.any fun p => p.isAbsent || p.isHeld) = true := by
      obtain ⟨p, hp, h⟩ := habs
      exact List.any_eq_true.2 ⟨p, hp, by rcases h with h | h <;> simp [h]⟩
    refine ⟨.stall .fetch, v.reportParts { a with l1 := false } .fetch ps, fetchNext_error hc hw ?_, rfl⟩
    unfold fetchBytes
    simp only [bind_run, hereAgent_ok hc ha, get_run, hl, set_run, require_ok hcond, require_ok hopen, hany, if_true, upd_run, stallOn_run]

/-! ### The turns -/

/-- An event of the agenda is executed as the instruction of the opcode table. -/
theorem runEvent_exec {e : Event} {i : Instr} (h : eventIs e i) (s : State) : runEvent e s = exec i s := by
  cases e <;> exact (congrArg (exec · s) h).symm

/-- The state in which a stream fetches: its earlier accesses are performed, and it is the current one. -/
def streamOn (c : Cur) (s : State) : State := { s.settleApart fun x => x.isOf c with cur := some c }

theorem streamStep_runs {i : Instr} (h : ScalarAt c i (streamOn c s) s' ∧ c.stream ≠ .lane ∨ LaneAt c i (streamOn c s) s' ∧ c.stream = .lane) :
    streamStep c s = Issued c (exec i s') := by
  have hf : fetchNext c (streamOn c s) = .ok (i, s') := by
    unfold fetchNext
    rcases h with ⟨h, hst⟩ | ⟨h, hst⟩
    · rw [if_neg hst]
      exact fetchScalar_run rfl h
    · rw [if_pos hst]
      exact fetchLane_run rfl h
  unfold streamStep
  unfold streamOn at hf
  simp only [hf]

theorem streamStep_noWord (h : NoWord c (streamOn c s) s') : streamStep c s = .next s' := by
  obtain ⟨x, v, hf, ha⟩ := fetchNext_noWord rfl h
  unfold streamStep
  unfold streamOn at hf
  simp only [hf, ha]

theorem step_turn {x : Turn} {rest : List Turn} (h : s.agenda = x :: rest) : step s = runTurn x { s with agenda := rest } := by
  unfold step
  rw [h]

theorem runTurn_handler {n : Nat} {x : Trap} (hT : s.team? n = some T) (hx : T.handler.trap = some x) (hm : s.handlerMay n = true) :
    runTurn (.handler n) s = streamStep ⟨n, x.grp, .handler⟩ s := by
  unfold runTurn
  simp only [hT, Option.bind_some, hx, hm, if_true]

section
variable {n g : Nat} (hm : s.laneMay n g = true) (hG : s.group? n g = some G)
include hm hG

theorem runTurn_lane_run (hr : G.run = none) : runTurn (.lane n g) s = exec (.runStart n g) s := by
  refine (if_pos hm).trans ?_
  unfold laneTurn
  simp only [hG, hr, Option.isNone_none, if_true]
  rfl

theorem runTurn_lane_clause (hr : G.run.isSome = true) (hk : G.clause = none) : runTurn (.lane n g) s = exec (.clauseStart n g) s := by
  refine (if_pos hm).trans ?_
  unfold laneTurn
  simp only [hG, Option.isNone_eq_false_iff.2 hr, hk, Option.isNone_none, if_true, Bool.false_eq_true, if_false]
  rfl

theorem runTurn_lane_word (hr : G.run.isSome = true) (hk : G.clause.isSome = true) : runTurn (.lane n g) s = streamStep ⟨n, g, .lane⟩ s := by
  refine (if_pos hm).trans ?_
  unfold laneTurn
  simp only [hG, Option.isNone_eq_false_iff.2 hr, Option.isNone_eq_false_iff.2 hk, Bool.false_eq_true, if_false]

end

/-- Settles O58: each turn is `runTurn`'s, and a stream's word is fetched from the bytes at its place. -/
theorem stepRunsDecoded : Obligations.StepRunsDecoded := by
  intro t g n i e d x T G st rest s s' u on runs
  have hruns (st : Stream) (g : Nat) (h : step s = streamStep ⟨t, g, st⟩ u) : runs st g :=
    ⟨fun hat => h.trans (streamStep_runs hat), fun hno => h.trans (streamStep_noWord hno)⟩
  refine ⟨fun ha hm => ?_, fun ha hm => ?_, fun ha hT hx hm => ?_, fun ha hm hG => ⟨fun hr => ?_, fun hr hk => ?_, fun hr hk => ?_⟩,
    fun ha => ⟨fun hn => ?_, fun v hv => ?_⟩, fun ha he hok => ?_, fun ha h1 h2 => ?_, fun ha => step_turn ha, fun ha => ?_, fun ha => ?_, fun ha => ?_⟩
  · exact hruns .scalar g ((step_turn ha).trans (if_pos hm))
  · exact (step_turn ha).trans (if_neg (by simpa using hm))
  · exact hruns .handler x.grp ((step_turn ha).trans (runTurn_handler (show u.team? t = some T from hT) hx hm))
  · exact (step_turn ha).trans (runTurn_lane_run hm hG hr)
  · exact (step_turn ha).trans (runTurn_lane_clause hm hG hr hk)
  · exact hruns .lane g ((step_turn ha).trans (runTurn_lane_word hm hG hr hk))
  · refine (step_turn ha).trans (congrArg Host.Outcome.next ?_)
    unfold State.attempt
    rw [show State.tried _ _ = none from hn]
  · refine (step_turn ha).trans (congrArg Host.Outcome.next ?_)
    unfold State.attempt
    rw [show State.tried _ _ = some v from hv]
  · refine (step_turn ha).trans ((if_neg ?_).trans (runEvent_exec he u))
    rcases hok with h | h
    · rw [show State.dome _ = s.dome from rfl, h]
      exact Bool.false_ne_true
    · rw [h, Bool.not_true, Bool.and_false]
      exact Bool.false_ne_true
  · exact (step_turn ha).trans (if_pos (by rw [h2, Bool.not_false, Bool.and_true]; exact h1))
  · refine (step_turn ha).trans ?_
    exact (apply_ite Host.Outcome.next _ _ _).symm
  · refine (step_turn ha).trans ?_
    exact (apply_ite Host.Outcome.next _ _ _).symm
  · unfold step
    rw [ha]
    exact (exec_globalTick s).symm

end Sys2Proof.Proofs
end

section
/-! SUPPORT. The writes of the control registers (R11, R260, R301, R302, R322, R343, R404, R405, R408, R412). -/

namespace Sys2Proof.Proofs
open Machine Claims Laws

variable {s : State}

/-- What makes the Dome discard a write of CLS0RSV. -/
theorem cls0rsv_bad (n : Nat) : ([0, 4, 8].any fun lo => decide (natBits n (lo + 3) lo > 8)) = true ↔ 8 < natBits n 3 0 ∨ 8 < natBits n 7 4 ∨ 8 < natBits n 11 8 := by
  simp

theorem classcfg_bad (n : Nat) : (natBits n 19 0 = 0 || natBits n 19 0 > 1000000 || natBits n 47 32 = 0 : Bool) = true
    ↔ natBits n 19 0 = 0 ∨ 1000000 < natBits n 19 0 ∨ natBits n 47 32 = 0 := by
  simp [or_assoc]

theorem podcfg_bad (n : Nat) (s : State) :
    (natBits n 9 0 ≥ natBits n 26 16 || natBits n 26 16 = 0 || natBits n 26 16 > 1024 || s.contexts.any (·.podTag.isSome) : Bool) = true
      ↔ natBits n 26 16 ≤ natBits n 9 0 ∨ 1024 < natBits n 26 16 ∨ ∃ C ∈ s.contexts, C.podTag ≠ none := by
  have hany : (s.contexts.any (·.podTag.isSome)) = true ↔ ∃ C ∈ s.contexts, C.podTag ≠ none := by
    simp [List.any_eq_true, Option.isSome_iff_ne_none]
  rw [Bool.or_eq_true, hany]
  simp only [Bool.or_eq_true, decide_eq_true_eq]
  constructor
  · rintro (((h | h) | h) | h)
    · exact .inl h
    · exact .inl (by omega)
    · exact .inr (.inl h)
    · exact .inr (.inr h)
  · rintro (h | h | h)
    · exact .inl (.inl (.inl h))
    · exact .inl (.inr h)
    · exact .inr h

theorem clkctl_bad (n : Nat) :
    (natBits n 43 32 < 400 || natBits n 43 32 > 3600 || natBits n 31 24 < 70 || natBits n 31 24 > 105 || natBits n 11 8 > 8 : Bool) = true
      ↔ ¬ (400 ≤ natBits n 43 32 ∧ natBits n 43 32 ≤ 3600 ∧ 70 ≤ natBits n 31 24 ∧ natBits n 31 24 ≤ 105 ∧ natBits n 11 8 ≤ 8) := by
  simp only [Bool.or_eq_true, decide_eq_true_eq]
  omega

theorem stopctl_bad (v : Word) (s : State) :
    (v.getLsbD 0 && (decide (s.dome.stoptick.toNat ≤ s.tick) || s.contexts.any (·.conf))) = true
      ↔ v.getLsbD 0 = true ∧ (s.dome.stoptick.toNat ≤ s.tick ∨ ∃ C ∈ s.contexts, C.conf = true) := by
  rw [Bool.and_eq_true, Bool.or_eq_true, decide_eq_true_eq, List.any_eq_true]

/-- An address that is none of the registers'. -/
theorem registerWrite_elsewhere (addr : Nat) (v : Word) (s : State)
    (h : addr ∉ [0x1F018, 0x2000, 0x2010, 0x2018, 0x2020, 0x4000, 0x5000, 0x1F000, 0x1F010, 0x1F020, 0x3000, 0x3008, 0x3010, 0x3018]) :
    execRegisterWrite addr v s = .next s := by
  simp only [List.mem_cons, List.not_mem_nil, or_false, not_or] at h
  obtain ⟨h1, h2, h3, h4, h5, h6, h7, h8, h9, h10, h11, h12, h13, h14⟩ := h
  unfold execRegisterWrite
  simp only [h1, h2, h3, h4, h5, h6, h7, h8, h9, h10, if_false]
  exact if_neg (by omega)

theorem registerWrite_classcfg (cls : BitVec 2) (v : Word) (s : State) : execRegisterWrite (0x3000 + 8 * cls.toNat) v s = execCpClasscfg cls v s := by
  have hlt := cls.isLt
  have hne (k : Nat) (hk : k < 0x3000 ∨ 0x3020 ≤ k) : 0x3000 + 8 * cls.toNat ≠ k := by omega
  unfold execRegisterWrite
  rw [if_neg (hne _ (by decide)), if_neg (hne _ (by decide)), if_neg (hne _ (by decide)), if_neg (hne _ (by decide)), if_neg (hne _ (by decide)),
    if_neg (hne _ (by decide)), if_neg (hne _ (by decide)), if_neg (hne _ (by decide)), if_neg (hne _ (by decide)), if_neg (hne _ (by decide)),
    if_pos (by omega), Nat.add_sub_cancel_left, Nat.mul_div_cancel_left _ (by decide), BitVec.ofNat_toNat, BitVec.setWidth_eq]

/-- Settles O54. -/
theorem registerEventsComplete : Obligations.RegisterEventsComplete := by
  intro v cls addr s n
  refine ⟨fun h => ?_, fun h => if_pos h, fun h1 h2 h3 => if_neg ?_, fun h => if_pos ((classcfg_bad n).2 h), fun h1 h2 h3 => if_neg ?_,
    fun h => if_pos ((cls0rsv_bad n).2 h), fun h => if_neg ?_, fun h => if_pos ?_, fun h1 h2 h3 => if_neg ?_,
    fun h => if_pos ((podcfg_bad n s).2 h), fun h => if_pos h, fun h => if_neg ?_, rfl, fun h1 h2 => if_pos ((stopctl_bad v s).2 ⟨h1, h2⟩),
    fun h => if_neg ?_, ⟨fun h => if_neg ?_, fun h => if_pos ((clkctl_bad n).2 h)⟩, rfl, rfl, rfl, rfl, rfl, rfl, rfl, rfl, rfl, rfl,
    registerWrite_classcfg cls v s, registerWrite_elsewhere addr v s⟩
  · exact if_neg (by rw [h]; exact Bool.false_ne_true)
  · exact mt (classcfg_bad n).1 (by omega)
  · exact mt (cls0rsv_bad n).1 (by omega)
  · rw [Bool.and_eq_true, beq_iff_eq]
    exact fun ⟨h1, h2⟩ => h h1 h2
  · rw [Bool.and_eq_true, beq_iff_eq]
    exact h
  · refine mt (podcfg_bad n s).1 ?_
    rintro (h | h | ⟨C, hC, h⟩)
    · omega
    · omega
    · exact h (h3 C hC)
  · rw [h]
    exact Bool.false_ne_true
  · rw [stopctl_bad]
    rintro ⟨h1, h2⟩
    rcases h with h | ⟨ht, hc⟩
    · rw [h] at h1
      exact Bool.false_ne_true h1
    · rcases h2 with h2 | ⟨C, hC, h2⟩
      · omega
      · rw [hc C hC] at h2
        exact Bool.false_ne_true h2
  · rw [clkctl_bad]
    exact Classical.not_not.2 h

end Sys2Proof.Proofs
end

section
/-! SUPPORT. Reset requests, firmware images, attestation and confidential contexts (R389, R408, R410, R414 to R419). -/

namespace Sys2Proof.Proofs
open Machine Claims Laws

variable {s : State} {i : Image}

/-! ### Reset requests -/

theorem requestReset_idle (trip : Bool) (h1 : s.plat.phase ≠ .draining) (h2 : s.plat.phase ≠ .held) :
    s.requestReset trip = s.portsDown.modPlat fun p =>
      { p with phase := .draining, served := s.hostServed, loading := none, oldOps := none, liveDue := none, trip := trip, pulsed := false } :=
  if_neg (not_or.2 ⟨h1, h2⟩)

theorem requestReset_busy (trip : Bool) (h : s.plat.phase = .draining ∨ s.plat.phase = .held) : s.requestReset trip = s := if_pos h

/-! ### Images -/

theorem doeBegin_refused (len : BitVec 32) (hdr : List Byte) (h : s.plat.phase.takes = none) :
    execDoeBegin len hdr s = .next (s.send (.doe 1 [])) := by
  unfold execDoeBegin
  rw [h]
  rfl

theorem doeBegin_taken {kind : Nat} (len : BitVec 32) (hdr : List Byte) (h : s.plat.phase.takes = some kind) :
    execDoeBegin len hdr s = .next ((s.modPlat fun p => { p with
      loading := if headerStatus kind len.toNat (if kind = 1 then s.plat.minRoot else s.plat.minOps) hdr = 0 then some ⟨hdr, []⟩ else none }).send
        (.doe (headerStatus kind len.toNat (if kind = 1 then s.plat.minRoot else s.plat.minOps) hdr) [])) := by
  unfold execDoeBegin
  rw [h]
  rfl

section
variable {off : BitVec 32} {body : List Byte} (hl : s.plat.loading = some i) (ho : off.toNat = i.body.length) (h4 : off.toNat % 4096 = 0)
  (hb : body.length ≤ 4096)
include hl ho h4 hb

theorem doeChunk_inOrder (hn : (i.body ++ body).length ≤ fld i.header 12 4) :
    execDoeChunk off body s = if (i.body ++ body).length = fld i.header 12 4 ∧ !({ i with body := i.body ++ body } : Image).good then
        .next ((s.modPlat fun p => { p with loading := none }).send (.doe 3 []))
      else .next ((s.modPlat fun p => { p with loading := some { i with body := i.body ++ body } }).send (.doe 0 [])) := by
  unfold execDoeChunk
  rw [hl]
  refine if_neg ?_
  simp only [ho, Bool.or_eq_true, decide_eq_true_eq]
  omega

theorem doeChunk_taken (h : (i.body ++ body).length < fld i.header 12 4
      ∨ ((i.body ++ body).length = fld i.header 12 4 ∧ ({ i with body := i.body ++ body } : Image).good = true)) :
    execDoeChunk off body s = .next ((s.modPlat fun p => { p with loading := some { i with body := i.body ++ body } }).send (.doe 0 [])) := by
  rw [doeChunk_inOrder hl ho h4 hb (by rcases h with h | ⟨h, -⟩ <;> omega)]
  refine if_neg ?_
  rintro ⟨h1, h2⟩
  rcases h with h | ⟨-, h⟩
  · omega
  · rw [h] at h2
    exact Bool.false_ne_true h2

theorem doeChunk_bad (h : (i.body ++ body).length = fld i.header 12 4) (hg : ({ i with body := i.body ++ body } : Image).good = false) :
    execDoeChunk off body s = .next ((s.modPlat fun p => { p with loading := none }).send (.doe 3 [])) := by
  rw [doeChunk_inOrder hl ho h4 hb (Nat.le_of_eq h)]
  exact if_pos ⟨h, by rw [hg]; rfl⟩

end

theorem doeEnd_good (hl : s.plat.loading = some i) (hg : i.good = true) :
    execDoeEnd s = match s.plat.phase with
      | .rootLoad => .next (((s.modPlat fun p => { p with loading := none }).modPlat fun p => { p with phase := .rootRun, root := some i }).doe 0)
      | .opsLoad => .next ((((s.modPlat fun p => { p with loading := none }).modPlat fun p => { p with phase := .opsStart, ops := some i }).placeOps (some i)).doe 0)
      | .ready =>
        .next (((s.modPlat fun p => { p with loading := none }).modPlat fun p =>
          { p with phase := .live, oldOps := p.ops, ops := some i, liveDue := some (s.tick + 1000000000) }).placeOps (some i))
      | _ => .next ((s.modPlat fun p => { p with loading := none }).doe 1) := by
  unfold execDoeEnd
  rw [hl]
  refine (if_neg (by rw [hg]; exact Bool.false_ne_true)).trans ?_
  rfl

theorem wakeFrom_mem (s s' : State) (stamp : Nat) (who : Option Nat) : (s.wakeFrom s' stamp who).mem = s.mem := by
  unfold State.wakeFrom
  suffices h : ∀ (l : List (Nat × Nat)) (u : State), (l.foldl (fun x tg => (x.modGroup tg.1 tg.2 fun g =>
      { g with park := g.park.map fun p => { p with stamp := max p.stamp (s.stampFor tg.1 stamp who), written := true } }).post (.parkWake tg.1 tg.2))
      u).mem = u.mem from h _ _
  intro l
  induction l with
  | nil => exact fun _ => rfl
  | cons x l ih => exact fun u => (ih _).trans rfl

theorem placeOps_bytes (hw : Memory.wf s.mem = true) {j : Nat} (hj : j < (i.header ++ i.body).length) :
    cellGet ((blocks Config.opsRegion).1 + j) (s.placeOps (some i)).mem = (i.header ++ i.body).getD j 0 := by
  have hmem : (s.placeOps (some i)).mem = cellsWrite (blocks Config.opsRegion).1 (i.header ++ i.body) s.mem := wakeFrom_mem _ _ _ _
  rw [hmem, cellGet_write _ _ hw hj, List.getD_eq_getElem?_getD, List.getElem?_eq_getElem hj, Option.getD_some]

/-! ### Attestation and confidential contexts -/

theorem doeAttest_signs {c : BitVec 32} (nonce : List Byte) (hp : s.plat.phase.late = true) (hc : c = 0 ∨ (s.context? c.toNat).isSome = true) :
    ∃ k, 0 < k ∧ k < ecQ ∧ execDoeAttest c nonce s = .next ({ s with free := s.free + 1 }.send (.doe 0
      (s.report256 c.toNat nonce ++ ecdsaSign identityKey k (sha384 (s.report256 c.toNat nonce))))) := by
  refine ⟨Config.freeNat s.free % (ecQ - 1) + 1, Nat.succ_pos _, ?_, if_neg ?_⟩
  · have hpos : 0 < ecQ - 1 := by decide
    have := Nat.mod_lt (Config.freeNat s.free) hpos
    omega
  · rw [hp]
    rcases hc with rfl | hc
    · simp
    · simp [Option.isNone_eq_false_iff.2 hc]

theorem confidentialCreate_taken {key : List Byte} {x y : Nat} (ctx : Nat) (hk : ecDecode key = some (x, y)) (hon : ecOn x y = true) (hlen : key.length = 97)
    (hstop : s.dome.stopctl.getLsbD 0 = false) (hr : s.ready = true) :
    execConfidentialContextCreate ctx key s = .next ({ s with free := s.free + 1 }.modContext ctx fun C =>
      if C.conf then C else { C with conf := true, tenant := key, memKey := some s.free }).programFirewall := by
  unfold execConfidentialContextCreate
  rw [hk]
  refine if_neg ?_
  simp only [hon, hlen, hstop, hr]
  decide

theorem confidentialCreate_refused {key : List Byte} (ctx : Nat) (hk : ecDecode key = none) : execConfidentialContextCreate ctx key s = .next s := by
  unfold execConfidentialContextCreate
  rw [hk]
  rfl

end Sys2Proof.Proofs
end

section
/-! SUPPORT. The checks of an access change no more than the memory system does (R167, R387, R407). -/

namespace Sys2Proof.Proofs
open Machine Claims Laws

variable {s t : State}

section
variable {α β : Type} {P : State → Prop}

theorem ends_mapM {f : α → M β} {l : List α} (hf : ∀ x t, P t → Ends P (f x) t) (h : P s) : Ends P (l.mapM f) s := by
  induction l generalizing s with
  | nil => exact ends_pure h _
  | cons x l ih =>
    rw [List.mapM_cons]
    exact ends_bind (hf x s h) fun _ _ h1 => ends_bind (ih h1) fun _ _ h2 => ends_pure h2 _

theorem ends_forIn {f : α → β → M (ForInStep β)} {l : List α} {b : β} (hf : ∀ x b t, P t → Ends P (f x b) t) (h : P s) :
    Ends P (forIn (m := M) l b f) s := by
  induction l generalizing s b with
  | nil => exact ends_pure h _
  | cons x l ih =>
    rw [List.forIn_cons]
    refine ends_bind (hf x b s h) fun a t h1 => ?_
    cases a with
    | done b => exact ends_pure h1 _
    | yield b => exact ih h1

theorem ends_trapReqs (h : P s) (k : Cause) (x : Word) (bad : List Req) : Ends P (trapReqs k x bad) s := by
  cases bad with
  | nil => exact ends_pure h _
  | cons r bad => exact ends_trap h _ _ _ _

end

theorem kept_locateReq (a : Agent) (r : Req) (h : Kept s t) : Ends (Kept s) (locateReq a r) t := by
  unfold locateReq
  split
  · exact ends_pure h _
  · split
    · exact ends_pure h _
    · refine ends_get_bind ?_
      have hl := kept_locate t { a with adds := r.acc == .radd } r.ea.toNat r.size r.acc.writes
      split
      · next he => rw [he] at hl; exact ends_set_bind (ends_pure (h.trans hl) _)
      · next he => rw [he] at hl; exact ends_set_bind (ends_pure (h.trans hl) _)

theorem kept_checkWatch (C : Context) (reqs : List Req) (h : Kept s t) : Ends (Kept s) (checkWatch C reqs) t := by
  unfold checkWatch
  refine ends_bind (ends_bind (ends_here h) fun _ _ h1 => ends_pure h1 _) fun on t1 h1 => ?_
  split
  · refine ends_bind (ends_here h1) fun c t2 h2 => ends_bind (ends_forIn (fun x b t3 h3 => ?_) h2) fun _ _ h4 => ends_pure h4 _
    dsimp only
    split
    · exact ends_pure h3 _
    · exact ends_upd_bind (ends_trap (h3.trans (kept_traceGroup ..)) _ _ _ _)
  · exact ends_pure h1 _

theorem kept_checkAccess (reqs : List Req) (suits : Hit → Bool) (h : Kept s t) : Ends (Kept s) (checkAccess reqs suits) t := by
  unfold checkAccess
  refine ends_bind (ends_here h) fun c t1 h1 => ends_bind (ends_hereAgent h1) fun a t2 h2 => ends_bind (ends_hereContext h2) fun C t3 h3 => ?_
  refine ends_get_bind ?_
  extract_lets deny rest
  have hrest (u : State) (hu : Kept s u) : Ends (Kept s) (rest ()) u := by
    refine ends_bind (ends_trapReqs hu _ _ _) fun _ _ hu => ends_bind (ends_mapM (fun r t ht => kept_locateReq a r ht) hu) fun found _ hu => ?_
    extract_lets faults hits
    refine ends_bind (ends_trapReqs hu _ _ _) fun _ _ hu => ends_bind (ends_trapReqs hu _ _ _) fun _ _ hu => ends_bind (ends_trapReqs hu _ _ _) fun _ _ hu => ?_
    refine ends_get_bind (ends_bind (ends_trapReqs hu _ _ _) fun _ _ hu => ?_)
    split
    · exact ends_bind (kept_checkWatch _ _ hu) fun _ _ hu => ends_pure hu _
    · exact ends_bind (ends_trap hu _ _ _ _) fun _ _ hu => ends_bind (kept_checkWatch _ _ hu) fun _ _ hu => ends_pure hu _
  split
  · exact ends_bind (ends_stallOn h3 _) fun _ _ hu => hrest _ hu
  · exact hrest _ h3

end Sys2Proof.Proofs
end

section
/-! SUPPORT. Barriers and sync words of the scalar stream (R176 to R180). -/

namespace Sys2Proof.Proofs
open Machine Claims Laws

variable {c : Cur} {T : Team} {G : Group} {L : Launch} {C : Context} {r : ScalarRegs} {s s' t : State} {b : Barrier}

/-! ### Slots -/

/-- The number of a slot whose selector is legal. -/
def slotNum (a : Nat) : Nat := natBits a 3 0 + if natBit a 63 then 16 else 0

theorem slotOf_run {a : Nat} (h : natBits a 61 4 = 0) (hc : natBit a 63 = true → natBits a 3 0 < 4) (s : State) : slotOf a s = .ok (slotNum a, s) := by
  have hcond : (natBits a 61 4 == 0 && !(natBit a 63 && decide (natBits a 3 0 ≥ 4))) = true := by
    cases hb : natBit a 63 with
    | false => simp [h]
    | true =>
      have := hc hb
      simp [h]
      omega
  unfold slotOf
  rw [bind_ok (require_ok hcond ..)]
  rfl

theorem readySlot_ok {n k : Nat} (hb : s.slot? n k = some b) (hi : b.init = true) : readySlot n k s = .ok (b, s) := by
  unfold readySlot
  simp only [bind_run, get_run, hb, require_ok hi, pure_run]

theorem readySlot_traps {n k : Nat} (hb : s.slot? n k = some b) (hi : b.init = false) :
    readySlot n k s = .error (.trap { cause := 0x01, tinfo := BitVec.ofNat 64 k }, s) := by
  unfold readySlot
  simp only [bind_run, get_run, hb, require_fail hi]
  rfl

theorem teamFace_bars {T U : Team} (h : teamFace T = teamFace U) : T.bars = U.bars := by rw [(teamFace_eq h).1]
theorem teamFace_cluster {T U : Team} (h : teamFace T = teamFace U) : T.cluster = U.cluster := by rw [(teamFace_eq h).1]

/-- The memory system changes no barrier slot. -/
theorem Same.slot? (h : Kept s t) {n k : Nat} (hb : s.slot? n k = some b) : t.slot? n k = some b := by
  unfold State.slot? at hb ⊢
  rw [h.launchOf? (fun _ _ => teamFace_launch)]
  obtain ⟨T, hT, hb⟩ := Option.bind_eq_some_iff.1 hb
  obtain ⟨U, hU, hf⟩ := h.team? hT
  rw [hU, Option.bind_some, teamFace_bars hf, teamFace_cluster hf]
  exact hb

theorem kept_wakeSlot (n k stamp : Nat) (s : State) : Kept s (s.wakeSlot n k stamp) :=
  Same.foldl (by exact fun s x => (kept_modGroup s x.1 x.2 (by exact fun _ => rfl)).trans (kept_post _ _)) _ s

theorem wakeSlot_mem (n k stamp : Nat) (s : State) : (s.wakeSlot n k stamp).mem = s.mem ∧ (s.wakeSlot n k stamp).hostMem = s.hostMem := by
  unfold State.wakeSlot
  generalize s.waiters n k = l
  induction l generalizing s with
  | nil => exact ⟨rfl, rfl⟩
  | cons x l ih => exact ih _

theorem setSlot_mem (n k : Nat) (b : Barrier) (s : State) : (s.setSlot n k b).mem = s.mem ∧ (s.setSlot n k b).hostMem = s.hostMem := by
  unfold State.setSlot
  split
  · exact ⟨rfl, rfl⟩
  · split <;> exact ⟨rfl, rfl⟩

/-- A slot that is there holds what is set. -/
theorem slot?_setSlot {n k : Nat} (hb : s.slot? n k = some b) (x : Barrier) : (s.setSlot n k x).slot? n k = some x := by
  unfold State.slot? at hb
  obtain ⟨T, hT, hb⟩ := Option.bind_eq_some_iff.1 hb
  unfold State.setSlot
  rw [hT]
  by_cases hk : k < 16
  · rw [if_pos hk] at hb
    dsimp only
    rw [if_pos hk]
    unfold State.slot?
    rw [team?_modTeam, if_pos rfl, hT]
    simp only [Option.map_some, Option.bind_some, if_pos hk]
    exact List.getElem?_set_self (List.getElem?_eq_some_iff.1 hb).1
  · rw [if_neg hk] at hb
    obtain ⟨l, hl, hb⟩ := Option.bind_eq_some_iff.1 hb
    obtain ⟨L, hL, hl⟩ := Option.bind_eq_some_iff.1 hl
    have hL' : s.launches[T.launch]? = some L := by
      unfold State.launchOf? at hL
      rwa [show s.teams[n]? = some T from hT] at hL
    dsimp only
    rw [if_neg hk]
    unfold State.slot? State.launchOf? State.team?
    rw [modLaunch_teams, show s.teams[n]? = some T from hT]
    simp only [Option.bind_some, if_neg hk, modLaunch_launches, modifyAt_get_same, hL', Option.map_some, hl]
    exact List.getElem?_set_self (List.getElem?_eq_some_iff.1 hb).1

/-- An arrival leaves the slot with the arrivals and the phase of its rule, and no byte of memory changed. -/
theorem arriveAll_slot {n k : Nat} (hb : s.slot? n k = some b) (v stamp : Nat) :
    (s.arriveAll n k [v] stamp).slot? n k = some (b.arrive v stamp) ∧ (s.arriveAll n k [v] stamp).mem = s.mem
      ∧ (s.arriveAll n k [v] stamp).hostMem = s.hostMem := by
  have hset := slot?_setSlot hb (b.arrive v stamp)
  obtain ⟨hm, hh⟩ := setSlot_mem n k (b.arrive v stamp) s
  unfold State.arriveAll
  simp only [List.foldl_cons, List.foldl_nil, hb]
  split
  · exact ⟨hset, hm, hh⟩
  · obtain ⟨hm', hh'⟩ := wakeSlot_mem n k (max b.stamp stamp) (s.setSlot n k (b.arrive v stamp))
    exact ⟨(kept_wakeSlot ..).slot? hset, hm'.trans hm, hh'.trans hh⟩

/-! ### Parking -/

/-- The park that a word records. -/
def parkOf (st : Stream) (mask now : Nat) (w : Wait) : Park :=
  { stream := st, kind := w.kind, tcode := w.tcode, space := w.space, addr := w.addr, value := w.value, mask := mask
    mons := w.mons, words := w.words, word := w.word, since := now
    deadline := if w.tcode = 0 then none else some (now + 4 ^ (w.tcode + 4)), stamp := 0, written := false
    polls := w.polls }

theorem parkOn_run (hh : here s = .ok ((c, T, G), s)) (hst : c.stream ≠ .handler) (mask : Nat) (w : Wait) :
    parkOn mask w s = .ok ((), s.modGroup c.team c.grp fun g =>
      { g with stallS := none, stallL := none, park := some (parkOf c.stream mask s.tick w) }) := by
  unfold parkOn
  simp only [bind_run, hh, hst, if_false, upd_run]
  rfl

theorem parked_group {n g mask : Nat} {st : Stream} {w : Wait} (hG : s.group? n g = some G) :
    (s.modGroup n g fun G => { G with stallS := none, stallL := none, park := some (parkOf st mask s.tick w) }).group? n g
      = some { G with stallS := none, stallL := none, park := some (parkOf st mask s.tick w) } := by
  rw [group?_modGroup, if_pos ⟨rfl, rfl⟩, hG]
  rfl

/-! ### SBARA and SBARW -/

section
variable {d sa sb : SReg} (hs : InHand c T G L C r s) (h4 : natBits (r.getS sa).toNat 61 4 = 0)
  (hc : natBit (r.getS sa).toNat 63 = true → natBits (r.getS sa).toNat 3 0 < 4)
include hs h4 hc

theorem sbara_sets (h62 : natBit (r.getS sa).toNat 62 = true) (hv : (r.getS sb).toNat ≠ 0) (hv' : (r.getS sb).toNat < 2 ^ 32) :
    exec (.sbara d sa sb) s = .next (((s.setSlot c.team (slotNum (r.getS sa).toNat) ⟨BitVec.ofNat 32 (r.getS sb).toNat, 0, 0, true, 0⟩).wakeSlot
      c.team (slotNum (r.getS sa).toNat) 0).scalarNext 4 (r.setS d 0)) := by
  refine (exec_sbara ..).trans (answer_ok ?_)
  simp only [bind_run, hand_here hs, hand_scalar hs, slotOf_run h4 hc, require_ok (decide_eq_true hv'), h62, if_true, require_ok (bne_iff_ne.2 hv), upd_run,
    doneScalar_run, State.scalarNext, setS_pc]

section
variable (h62 : natBit (r.getS sa).toNat 62 = false) (hv : (r.getS sb).toNat < 2 ^ 32) (hb : s.slot? c.team (slotNum (r.getS sa).toNat) = some b)
include h62 hv hb

theorem sbara_arrives {stamp : Nat} (hi : b.init = true) (hu : s.unacked c.team c.grp = false) (ho : orderedWait s = .ok (stamp, s))
    (hlog : orderedLog 6 stamp s = .ok ((), s')) :
    exec (.sbara d sa sb) s = .next ((s'.arriveAll c.team (slotNum (r.getS sa).toNat) [(r.getS sb).toNat] stamp).scalarNext 4
      (r.setS d (b.phase.setWidth 64))) := by
  refine (exec_sbara ..).trans (answer_ok ?_)
  simp only [bind_run, hand_here hs, hand_scalar hs, slotOf_run h4 hc, require_ok (decide_eq_true hv), h62, Bool.false_eq_true, if_false, readySlot_ok hb hi,
    releaseHere_ok hs hu, ho, hlog, upd_run, doneScalar_run, State.scalarNext, setS_pc]

theorem sbara_waits (hi : b.init = true) (hu : s.unacked c.team c.grp = true) : exec (.sbara d sa sb) s = .next (s.markStall .fence) := by
  refine (exec_sbara ..).trans (answer_stall ?_)
  simp only [bind_run, hand_here hs, hand_scalar hs, slotOf_run h4 hc, require_ok (decide_eq_true hv), h62, Bool.false_eq_true, if_false, readySlot_ok hb hi,
    releaseHere_stalls hs hu]

theorem sbara_traps (hi : b.init = false) :
    exec (.sbara d sa sb) s = .next (s.takeTrap { cause := 0x01, tinfo := BitVec.ofNat 64 (slotNum (r.getS sa).toNat) }) := by
  refine (exec_sbara ..).trans (answer_trap ?_)
  simp only [bind_run, hand_here hs, hand_scalar hs, slotOf_run h4 hc, require_ok (decide_eq_true hv), h62, Bool.false_eq_true, if_false, readySlot_traps hb hi]

end

variable (h62 : natBit (r.getS sa).toNat 62 = false) (hb : s.slot? c.team (slotNum (r.getS sa).toNat) = some b)
include h62 hb

theorem sbarw_goes (hi : b.init = true) (hp : b.phase ≠ (r.getS sb).setWidth 32) :
    exec (.sbarw sa sb) s = .next ((s.acquireFor c.team (slotScope (slotNum (r.getS sa).toNat))).scalarNext 4 r) := by
  refine (exec_sbarw ..).trans (answer_ok ?_)
  simp only [bind_run, hand_here hs, hand_scalar hs, slotOf_run h4 hc, require_ok (show (!natBit (r.getS sa).toNat 62) = true by rw [h62]; rfl),
    readySlot_ok hb hi, if_neg hp, acquireHere_run hs, doneScalar_run, State.scalarNext]

theorem sbarw_parks (hi : b.init = true) (hp : b.phase = (r.getS sb).setWidth 32) (hst : c.stream = .scalar) :
    exec (.sbarw sa sb) s = .next (s.modGroup c.team c.grp fun g => { g with
      stallS := none, stallL := none
      park := some (parkOf c.stream 0 s.tick
        { kind := 0x5D, addr := BitVec.ofNat 64 (slotNum (r.getS sa).toNat), value := ((r.getS sb).setWidth 32).setWidth 64, word := .sbarw sa sb }) }) := by
  refine (exec_sbarw ..).trans (answer_ok ?_)
  simp only [bind_run, hand_here hs, hand_scalar hs, slotOf_run h4 hc, require_ok (show (!natBit (r.getS sa).toNat 62) = true by rw [h62]; rfl),
    readySlot_ok hb hi, if_pos hp, parkOn_run (hand_here hs) (by rw [hst]; decide)]

theorem sbarw_traps (hi : b.init = false) :
    exec (.sbarw sa sb) s = .next (s.takeTrap { cause := 0x01, tinfo := BitVec.ofNat 64 (slotNum (r.getS sa).toNat) }) := by
  refine (exec_sbarw ..).trans (answer_trap ?_)
  simp only [bind_run, hand_here hs, hand_scalar hs, slotOf_run h4 hc, require_ok (show (!natBit (r.getS sa).toNat 62) = true by rw [h62]; rfl),
    readySlot_traps hb hi]

end

/-- Settles O28. -/
theorem barrierWordsComplete : Obligations.BarrierWordsComplete := by
  intro d sa sb c T G L C r b stamp s s' hs a v n h4 hc
  refine ⟨fun h62 hv hv' => sbara_sets hs h4 hc h62 hv hv', fun h62 hv hb hi hu ho hlog hb' => ?_,
    fun h62 hv hb hi hu => sbara_waits hs h4 hc h62 hv hb hi hu,
    fun h62 hb hi => ⟨fun hp => sbarw_goes hs h4 hc h62 hb hi hp, fun hp hst => ?_⟩,
    fun h62 hb hi => ⟨sbarw_traps hs h4 hc h62 hb hi, fun hv => sbara_traps hs h4 hc h62 hv hb hi⟩⟩
  · obtain ⟨hslot, hm, hh⟩ := arriveAll_slot hb' v stamp
    exact ⟨_, _, sbara_arrives hs h4 hc h62 hv hb hi hu ho hlog, hslot, rfl, rfl, rfl, hi, hm, hh⟩
  · exact ⟨_, _, _, sbarw_parks hs h4 hc h62 hb hi hp hst, parked_group hs.group, rfl, rfl, rfl, rfl⟩

/-! ### SWINI and SWAIT -/

theorem toBytes_add (m n x : Nat) : toBytes (m + n) x = toBytes m x ++ toBytes n (x >>> (8 * m)) := by
  induction m generalizing x with
  | zero => simp [toBytes]
  | succ m ih =>
    rw [Nat.succ_add, toBytes, toBytes, ih, List.cons_append, ← Nat.shiftRight_add, show 8 + 8 * m = 8 * (m + 1) by omega]

theorem toBytes_word {x : Nat} (h : x < 2 ^ 32) : toBytes 8 x = toBytes 4 x ++ toBytes 4 0 := by
  rw [toBytes_add 4 4, Nat.shiftRight_eq_div_pow, Nat.div_eq_of_lt h]

/-- Settles O29. -/
theorem syncWordsComplete : Obligations.SyncWordsComplete := by
  intro sa sb c T G L C r h s s' hs off
  refine ⟨fun hchk => ?_, fun hchk => ⟨fun hg => ?_, fun hg hst => ?_⟩⟩
  · have hx : (r.getS sb).toNat % 2 ^ 32 < 2 ^ 32 := Nat.mod_lt _ (by decide)
    obtain ⟨T', G', hh⟩ := here_kept (ends_of_ok (kept_checkAccess _ _ (.refl s)) hchk).log hs
    unfold scalarReq at hchk
    refine (exec_swini ..).trans (answer_ok ?_)
    simp only [bind_run, hand_scalar hs, off, hchk, hh, upd_run, toBytes_word hx, doneScalar_run, State.scalarNext]
  · unfold scalarReq at hchk
    have hgen : (s.generation c.team off = (r.getS sb).toNat % 2 ^ 32) = False := by
      unfold State.generation State.readScratch
      simp only [hs.team]
      exact eq_false hg
    refine (exec_swait ..).trans (answer_ok ?_)
    simp only [bind_run, hand_here hs, hand_scalar hs, off, hchk, get_run, hgen, if_false, acquireHere_run hs, doneScalar_run, State.scalarNext]
  · unfold scalarReq at hchk
    have hgen : (s.generation c.team off = (r.getS sb).toNat % 2 ^ 32) = True := by
      unfold State.generation State.readScratch
      simp only [hs.team]
      exact eq_true hg
    have hpark : exec (.swait sa sb) s = .next (s.modGroup c.team c.grp fun g => { g with
        stallS := none, stallL := none
        park := some (parkOf c.stream 0 s.tick { kind := 0x5A, addr := BitVec.ofNat 64 off, value := BitVec.ofNat 64 ((r.getS sb).toNat % 2 ^ 32)
                                                 mons := [.scratch c.team (off + 8)], word := .swait sa sb }) }) := by
      refine (exec_swait ..).trans (answer_ok ?_)
      simp only [bind_run, hand_here hs, hand_scalar hs, off, hchk, get_run, hgen, if_true, parkOn_run (hand_here hs) (show c.stream ≠ .handler by rw [hst]; decide)]
    exact ⟨_, _, _, hpark, parked_group hs.group, rfl, rfl, rfl, congrArg (BitVec.ofNat 64) hg.symm, rfl⟩

end Sys2Proof.Proofs
end

section
/-! SUPPORT. The scalar WAITA (R175, R176, R250, R395, R399). -/

namespace Sys2Proof.Proofs
open Machine Claims Laws

variable {c : Cur} {T T' : Team} {G G' : Group} {L L' : Launch} {C C' : Context} {r : ScalarRegs} {s s' s'' t : State} {a : Agent} {h : Hit}

theorem noTimeout_ok (hs : InHand c T G L C r s) {tcode : Nat} (hd : L.detm = 2 → tcode = 0) : noTimeout tcode s = .ok ((), s) := by
  have hcond : (L.detm != 2 || tcode == 0) = true := by
    by_cases h2 : L.detm = 2
    · simp [hd h2]
    · simp [h2]
  unfold noTimeout
  rw [bind_ok (hand_launch hs), require_ok hcond]

theorem noTimeout_traps (hs : InHand c T G L C r s) {tcode : Nat} (h2 : L.detm = 2) (ht : tcode ≠ 0) :
    noTimeout tcode s = .error (.trap { cause := 0x31 }, s) := by
  unfold noTimeout
  rw [bind_ok (hand_launch hs), require_fail (by simp [h2, ht])]
  rfl

/-- The selector of a scalar WAITA that names a word and a scope. -/
def waitaLegal (a : Nat) : Bool := !natBit a 56 && !(natBit a 63 && natBits a 55 32 != 0) && decide (natBits a 62 60 < 6)

theorem waitaLegal_iff (a : Nat) :
    waitaLegal a = true ↔ natBit a 56 = false ∧ (natBit a 63 = true → natBits a 55 32 = 0) ∧ natBits a 62 60 < 6 := by
  unfold waitaLegal
  cases natBit a 56 <;> cases natBit a 63 <;> simp

/-- The address that the selector names. -/
def waitaEa (a : Nat) : Nat := if natBit a 63 then natBits a 31 0 else natBits a 55 0

theorem wasWoken_run (hh : here s = .ok ((c, T, G), s)) :
    wasWoken s = .ok (G.woken, s.modGroup c.team c.grp fun g => { g with woken := false }) := by
  unfold wasWoken
  simp only [bind_run, hh, upd_run, pure_run]

section
variable {d sa sb : SReg} {stamp : Nat} (hs : InHand c T G L C r s) (hl : waitaLegal (r.getS sa).toNat = true)
  (hd : L.detm = 2 → natBits (r.getS sa).toNat 59 57 = 0)
include hs hl

theorem waita_refusesTimeout (h2 : L.detm = 2) (ht : natBits (r.getS sa).toNat 59 57 ≠ 0) :
    exec (.waita d sa sb) s = .next (s.takeTrap { cause := 0x31 }) := by
  refine (exec_waita ..).trans (answer_trap ?_)
  unfold waitaLegal at hl
  simp only [bind_run, hand_scalar hs, require_ok hl, noTimeout_traps hs h2 ht]

variable (hw : waitingRemote s = .ok (false, s)) (ho : orderedWait s = .ok (stamp, s))
  (hreach : Reached (scalarReq (natBit (r.getS sa).toNat 63) (waitaEa (r.getS sa).toNat) 8 8 .read) h s s')
include hd hw ho hreach

section
variable (hrem : h.remote = false) (hs' : InHand c T G L C r s') (hlog : if G.woken then s'' = s' else orderedLog 5 stamp s' = .ok ((), s''))
  (ha : hereAgent s' = .ok (a, s')) (ht : t = s''.acquire a (natBits (r.getS sa).toNat 62 60)) (hst : InHand c T' G' L' C' r t)
  (hwoken : G'.woken = G.woken)
include hrem hs' hlog ha ht hst hwoken

theorem waita_completes (hv : BitVec.ofNat 64 (ofBytes (t.readHit c.team h)) ≠ r.getS sb ∨ G.woken = true) :
    exec (.waita d sa sb) s = .next ((t.modGroup c.team c.grp fun g => { g with woken := false }).scalarNext 4
      (r.setS d (BitVec.ofNat 64 (ofBytes (t.readHit c.team h))))) := by
  have hp := hreach.ready a ha
  have hc := hreach.checks
  have hcond : (decide (BitVec.ofNat 64 (ofBytes (t.readHit c.team h)) = r.getS sb) && !G.woken) = false := by
    rcases hv with hv | hv <;> simp [hv]
  subst ht
  unfold waitaLegal at hl
  unfold waitaEa scalarReq at hc
  refine (exec_waita ..).trans (answer_ok ?_)
  simp only [bind_run, hand_scalar hs, require_ok hl, noTimeout_ok hs hd, hw, Bool.false_eq_true, if_false, ho, hc, hand_here hs', ha, forIn_one, get_run, hp]
  have hlocal : ∀ p rest, h.parts = p :: rest → p.isPeer = false := fun p rest hp => by simp_all [Hit.remote]
  cases hwk : G.woken with
  | true =>
    rw [hwk] at hlog hcond
    obtain rfl : s'' = s' := hlog
    cases hparts : h.parts with
    | nil =>
      simp only [Bool.not_true, Bool.false_eq_true, if_false, bind_run, upd_run, get_run, effScope_here hrem, wasWoken_run (hand_here hst), hwoken, hwk,
        Bool.and_false, doneScalar_run, pure_run, State.scalarNext, setS_pc]
    | cons p rest =>
      have hpeer := hlocal p rest hparts
      obtain ⟨_, _, place, _, _, _, _, _⟩ := p
      cases place
      case peer => exact nomatch hpeer
      all_goals simp only [Bool.not_true, Bool.false_eq_true, if_false, bind_run, upd_run, get_run, effScope_here hrem, wasWoken_run (hand_here hst), hwoken,
        hwk, Bool.and_false, doneScalar_run, pure_run, State.scalarNext, setS_pc]
  | false =>
    rw [hwk, Bool.not_false] at hcond
    rw [hwk] at hlog
    have hlog' : orderedLog 5 stamp s' = .ok ((), s'') := hlog
    cases hparts : h.parts with
    | nil =>
      simp only [Bool.not_false, if_true, bind_run, hlog', upd_run, get_run, effScope_here hrem, wasWoken_run (hand_here hst), hwoken, hwk, hcond,
        Bool.false_eq_true, if_false, doneScalar_run, pure_run, State.scalarNext, setS_pc]
    | cons p rest =>
      have hpeer := hlocal p rest hparts
      obtain ⟨_, _, place, _, _, _, _, _⟩ := p
      cases place
      case peer => exact nomatch hpeer
      all_goals simp only [Bool.not_false, if_true, bind_run, hlog', upd_run, get_run, effScope_here hrem, wasWoken_run (hand_here hst), hwoken, hwk, hcond,
        Bool.false_eq_true, if_false, doneScalar_run, pure_run, State.scalarNext, setS_pc]

/-- What the scalar WAITA waits for, as its park records it. -/
def waitaWait (d sa sb : SReg) (r : ScalarRegs) (h : Hit) (n : Nat) (u : State) : Wait :=
  { kind := 0x5B, tcode := natBits (r.getS sa).toNat 59 57, space := natBit (r.getS sa).toNat 63, addr := BitVec.ofNat 64 (waitaEa (r.getS sa).toNat)
    value := r.getS sb, mons := (h.mon n).toList, words := (h.monWord u n).toList, word := .waita d sa sb }

theorem waita_parks (hv : BitVec.ofNat 64 (ofBytes (t.readHit c.team h)) = r.getS sb) (hwk : G.woken = false) (hscalar : c.stream = .scalar) :
    exec (.waita d sa sb) s = .next ((t.modGroup c.team c.grp fun g => { g with woken := false }).modGroup c.team c.grp fun g =>
      { g with stallS := none, stallL := none
               park := some (parkOf c.stream 0 t.tick (waitaWait d sa sb r h c.team (t.modGroup c.team c.grp fun g => { g with woken := false }))) }) := by
  have hp := hreach.ready a ha
  have hc := hreach.checks
  have hne : c.stream ≠ .handler := by rw [hscalar]; decide
  have hlocal : ∀ p rest, h.parts = p :: rest → p.isPeer = false := fun p rest hp => by simp_all [Hit.remote]
  have hgroup : (t.modGroup c.team c.grp fun g => { g with woken := false }).group? c.team c.grp = some { G' with woken := false } := by
    rw [group?_modGroup, if_pos ⟨rfl, rfl⟩, hst.group]
    rfl
  have hteam : (t.modGroup c.team c.grp fun g => { g with woken := false }).team? c.team
      = some { T' with groups := modifyAt (fun g => { g with woken := false }) c.grp T'.groups } := by
    rw [team?_modGroup, if_pos rfl, hst.team]
    rfl
  have hh := here_ok (s := t.modGroup c.team c.grp fun g => { g with woken := false }) hst.cur hteam hgroup
  subst ht
  rw [hwk] at hlog
  have hlog' : orderedLog 5 stamp s' = .ok ((), s'') := hlog
  unfold waitaLegal at hl
  unfold scalarReq at hc
  refine (exec_waita ..).trans (answer_ok ?_)
  unfold waitaWait
  unfold waitaEa at hc ⊢
  simp only [bind_run, hand_scalar hs, require_ok hl, noTimeout_ok hs hd, hw, Bool.false_eq_true, if_false, ho, hc, hand_here hs', ha, forIn_one, get_run, hp,
    hwk, Bool.not_false, if_true, hlog']
  cases hparts : h.parts with
  | nil =>
    simp only [bind_run, upd_run, get_run, effScope_here hrem, wasWoken_run (hand_here hst), hwoken, hwk, hv, decide_true, Bool.not_false, Bool.and_self,
      if_true, parkOn_run hh hne, pure_run]
    rfl
  | cons p rest =>
    have hpeer := hlocal p rest hparts
    obtain ⟨_, _, place, _, _, _, _, _⟩ := p
    cases place
    case peer => exact nomatch hpeer
    all_goals
      simp only [bind_run, upd_run, get_run, effScope_here hrem, wasWoken_run (hand_here hst), hwoken, hwk, hv, decide_true, Bool.not_false, Bool.and_self,
        if_true, parkOn_run hh hne, pure_run]
      rfl

end

/-- A word of another device is asked for, to acquire with its answer. -/
theorem waita_asks {p : Part} {rest : List Part} {dev o : Nat} (hs' : InHand c T' G' L' C' r s')
    (hlog : if G'.woken then s'' = s' else orderedLog 5 stamp s' = .ok ((), s'')) (hparts : h.parts = p :: rest) (hpeer : p.place = .peer dev o) :
    exec (.waita d sa sb) s = .next ((s''.sendRemote { Remote.of c.team c.grp dev o 8 G'.lanePc with
      sreg := some (c.stream, d.toNat, 32 + sb.toNat + 64 * sa.toNat), acq := some (max (natBits (r.getS sa).toNat 62 60) 4) } (.read 8)).markStall .remote) := by
  obtain ⟨a, ha⟩ := hand_agent hs'
  have hp := hreach.ready a ha
  have hc := hreach.checks
  obtain ⟨_, _, _, _, _, _, _, _⟩ := p
  simp only at hpeer
  subst hpeer
  unfold waitaLegal at hl
  unfold waitaEa scalarReq at hc
  refine (exec_waita ..).trans (answer_stall ?_)
  simp only [bind_run, hand_scalar hs, require_ok hl, noTimeout_ok hs hd, hw, Bool.false_eq_true, if_false, ho, hc, hand_here hs', ha, forIn_one, get_run, hp]
  cases hwk : G'.woken with
  | true =>
    rw [hwk] at hlog
    obtain rfl : s'' = s' := hlog
    simp only [hparts, Bool.not_true, Bool.false_eq_true, if_false, bind_run, upd_run, stallOn_run, waitaCode]
  | false =>
    rw [hwk] at hlog
    have hlog' : orderedLog 5 stamp s' = .ok ((), s'') := hlog
    simp only [hparts, Bool.not_false, if_true, bind_run, hlog', upd_run, stallOn_run, waitaCode]

end

/-- Settles O27: the word is followed through its checks, its turn, its acquire and its read. -/
theorem waita : Obligations.Waita := by
  unfold Obligations.Waita
  refine ⟨?_, ?_, ?_⟩
  · intro d sa sb c T T' G G' L L' C C' r h stamp ag s s' s'' hs hw ho a sp scope tcode ea h56 h63 hscope hd hreach hrem hs' hlog ha t hst hwoken v u
    have hl := (waitaLegal_iff (r.getS sa).toNat).2 ⟨h56, h63, hscope⟩
    refine ⟨fun hv => waita_completes hs hl hd hw ho hreach hrem hs' hlog ha rfl hst hwoken hv, fun hv hwk hscalar => ?_⟩
    have hpark := waita_parks (d := d) hs hl hd hw ho hreach hrem hs' hlog ha rfl hst hwoken hv hwk hscalar
    have hgroup : (t.modGroup c.team c.grp fun g => { g with woken := false }).group? c.team c.grp = some { G' with woken := false } := by
      rw [group?_modGroup, if_pos ⟨rfl, rfl⟩, hst.group]
      rfl
    exact ⟨_, _, _, hpark, parked_group hgroup, rfl, rfl, rfl, rfl, rfl, rfl, rfl, rfl, rfl, rfl, rfl⟩
  · intro d sa sb c T T' G G' L L' C C' r h stamp p rest dev o s s' s'' hs hw ho a scope h63 h56 hscope hd hreach hparts hpeer hs' hlog
    have hl := (waitaLegal_iff (r.getS sa).toNat).2 ⟨h56, fun h => absurd (h63.symm.trans h) Bool.false_ne_true, hscope⟩
    have hea : waitaEa (r.getS sa).toNat = natBits (r.getS sa).toNat 55 0 := if_neg (by rw [h63]; exact Bool.false_ne_true)
    exact waita_asks hs hl hd hw ho (by rw [h63, hea]; exact hreach) hs' hlog hparts hpeer
  · intro d sa sb c T G L C r s hs a legal
    refine ⟨fun hn => ?_, fun hl h2 ht => waita_refusesTimeout hs ((waitaLegal_iff _).2 hl) h2 ht⟩
    have hl : waitaLegal (r.getS sa).toNat = false := Bool.eq_false_iff.2 fun h => hn ((waitaLegal_iff _).1 h)
    unfold waitaLegal at hl
    refine (exec_waita ..).trans (answer_trap ?_)
    simp only [bind_run, hand_scalar hs, require_fail hl]
    rfl

end Sys2Proof.Proofs
end

section
/-! SUPPORT. The issue of a command (R181, R182): a flag that rises from 0 drops the scope of its earlier completions, which `issued` keeps. -/

namespace Sys2Proof.Proofs
open Sys2Proof Machine Claims Laws Tests

set_option maxRecDepth 100000

/-- A state whose group's flags have had completions at the scope that 5 codes. -/
def withScopes (s : State) : State := s.modGroup 0 0 fun g => { g with fscope := List.replicate 12 5 }

/-- The scopes of the flags of the group, after an answer. -/
def scopesAfter : Answer → Option (List Nat)
  | .next v => (v.group? 0 0).map fun G => G.fscope
  | _ => none

/-- Refutes O23: flag 3 of the group reads 0 and its last completion acted at scope 5; CPY raises the flag and sets its scope back to 0 (R264), where
`issued` leaves it at 5. -/
theorem not_commandsIssue : ¬ Obligations.CommandsIssue := by
  intro h
  have hs : Ready cScalar (withScopes sceneCpy) := ready_of (by decide +kernel)
  have hspans : ((cpySpans cpyDesc).all fun x => ends (checkSpan x (withScopes sceneCpy)) fun b t => b == () && t == withScopes sceneCpy) = true := by decide +kernel
  have hexec := h (.cpy 3 1) .cpy 3 1 cpyFields cpySpans cScalar _ _ _ _ _ _ _ _ _ cpyDesc 0 (withScopes sceneCpy) (withScopes sceneCpy) rfl hs
    ⟨by decide, by decide +kernel, by decide +kernel, by decide +kernel, by decide +kernel⟩ (by decide +kernel)
    (fun x hx => of_ends_same (List.all_eq_true.mp hspans x hx)) (canIssue_of (by decide +kernel)) hs
  exact absurd (congrArg scopesAfter hexec) (by decide +kernel)

/-- Refutes O25, by the same scope: PLCL too raises flag 3 from 0. -/
theorem not_plclIssues : ¬ Obligations.PlclIssues := by
  intro h
  have hs : Ready cScalar (withScopes sceneP) := ready_of (by decide +kernel)
  have hexec := h 3 1 cScalar _ _ _ _ _ _ _ _ _ plclDesc ringOne 0 (withScopes sceneP) (withScopes sceneP) _ hs
    ⟨by decide, by decide +kernel, by decide +kernel, by decide +kernel, by decide +kernel⟩ (by decide +kernel) (by decide +kernel) (by decide +kernel)
    (by decide +kernel) (canIssue_of (by decide +kernel)) hs (by decide +kernel) rfl (by decide +kernel)
  exact absurd (congrArg scopesAfter hexec) (by decide +kernel)

/-- Refutes O26, by the same scope: PLVAL too raises flag 3 from 0. -/
theorem not_tileWordsComplete : ¬ Obligations.TileWordsComplete := by
  intro h
  have hs : Ready cScalar (withScopes (sceneT false 0 0)) := ready_of (by decide +kernel)
  have hk : hereTile ((regsIn (withScopes (sceneT false 0 0))).getS 1) ((regsIn (withScopes (sceneT false 0 0))).getS 2).toNat (withScopes (sceneT false 0 0))
      = .ok (((tileIn (sceneT false 0 0)).1, (tileIn (sceneT false 0 0)).2), withScopes (sceneT false 0 0)) := of_ends_same (by decide +kernel)
  obtain ⟨-, -, -, -, hview⟩ := h 3 3 1 2 cScalar _ (teamIn cScalar (withScopes (sceneT false 0 0))) _ (groupIn cScalar (withScopes (sceneT false 0 0))) _
    (launchIn cScalar (withScopes (sceneT false 0 0))) _ (contextIn cScalar (withScopes (sceneT false 0 0))) _ (tileIn (sceneT false 0 0)).1
    (tileIn (sceneT false 0 0)).2 (valOf (hereAgent (sceneT false 0 0)) (canalAgent probeContext)) 0 { num := 0, coll := 0, tiles := [], count := 0, refused := [] }
    (withScopes (sceneT false 0 0)) (withScopes (sceneT false 0 0)) hs
  have hexec := hview (by decide) hk (by decide +kernel) (by decide +kernel) (by decide +kernel) (canIssue_of (by decide +kernel)) hs
  exact absurd (congrArg scopesAfter hexec) (by decide +kernel)

end Sys2Proof.Proofs
end

section
/-! SUPPORT. The words of the copy engine and the one-sided fabric words at issue: what traps and what stalls (R181, R182). -/

namespace Sys2Proof.Proofs
open Machine Claims Laws

variable {c : Cur} {T : Team} {G : Group} {L : Launch} {C : Context} {r : ScalarRegs} {s t : State} {kind : CmdKind} {flag : BitVec 6} {sa : SReg}
  {fields : State → Cur → Team → List Byte → List (Nat × Bool)} {spans : List Byte → List Span} {d : List Byte}

theorem answer_congr {m m' : M Unit} (h : m s = m' s) : M.answer m s = M.answer m' s := by
  unfold M.answer
  rw [h]

theorem exec_descWord {i : Instr} (h : descWord i = some (kind, flag, sa, fields, spans)) (s : State) :
    exec i s = M.answer (descCommand kind flag sa fields spans) s := by
  unfold descWord at h
  split at h
  case h_7 => simp at h
  all_goals
    simp only [Option.some.injEq, Prod.mk.injEq] at h
    obtain ⟨rfl, rfl, rfl, rfl, rfl⟩ := h
    rfl

theorem commandFlag_run (hc : s.cur = some c) (hf : flag.toNat < 12 ∨ flag = 63) : commandFlag flag s = .ok (raised c flag, s) := by
  have hcond : (decide (flag.toNat < 12) || flag == 63) = true := by rcases hf with h | h <;> simp [h]
  unfold commandFlag raised
  rw [bind_ok (require_ok hcond ..), bind_run]
  by_cases hst : c.stream = .handler <;> simp [inHandler, hc, hst, flagField]

theorem readDesc_run (hs : InHand c T G L C r s) {off : Word} (hd : DescAt flag off T d s) : readDesc off 64 64 s = .ok (d, s) := by
  unfold readDesc
  simp only [bind_run, hand_here hs, require_ok (beq_iff_eq.2 hd.align), require_ok (decide_eq_true hd.inside), get_run]
  rw [show s.scratchPoison c.team off.toNat 64 = none by unfold State.scratchPoison; rw [hd.clean]; rfl]
  simp only [pure_run, State.readScratch, hs.team, ← hd.bytes]

theorem checkFields_ok {fs : List (Nat × Bool)} (h : ∀ f ∈ fs, f.2 = true) (s : State) : checkFields fs s = .ok ((), s) := by
  unfold checkFields
  rw [List.find?_eq_none.2 fun f hf => by simp [h f hf]]
  rfl

theorem checkFields_traps {fs : List (Nat × Bool)} {f : Nat × Bool} (h : fs.find? (fun f => !f.2) = some f) (s : State) :
    checkFields fs s = .error (.trap { cause := 0x01, tinfo := BitVec.ofNat 64 f.1 }, s) := by
  unfold checkFields
  rw [h]
  rfl

/-- A loop of computations that each leave the state as it is. -/
theorem forIn_same {α : Type} {f : α → M Unit} {l : List α} (h : ∀ x ∈ l, f x s = .ok ((), s)) :
    (forIn (m := M) l PUnit.unit fun x _ => do f x; pure (ForInStep.yield PUnit.unit)) s = .ok (PUnit.unit, s) := by
  induction l with
  | nil => rfl
  | cons x l ih =>
    rw [List.forIn_cons, bind_run, bind_run, h x List.mem_cons_self]
    exact ih fun y hy => h y (List.mem_cons_of_mem _ hy)

/-- What a legal descriptor leaves to do. -/
theorem descCommand_run (hs : InHand c T G L C r s) (hd : DescAt flag (r.getS sa) T d s) (hf : ∀ f ∈ fields s c T d, f.2 = true)
    (hsp : ∀ x ∈ spans d, checkSpan x s = .ok ((), s)) :
    descCommand kind flag sa fields spans s = (do
      let id ← issueCommand { kind := kind, flag := raised c flag, desc := d, srec := (r.getS sa).toNat, scope := fld d 22 1, locks := spans d }
      doneScalar 4 (← hereScalar)
      upd fun s => s.beginCmd c.team id : M Unit) s := by
  unfold descCommand startCommand
  simp only [bind_run, commandFlag_run hs.cur hd.flag, hand_here hs, hand_scalar hs, readDesc_run hs hd, get_run, checkFields_ok hf, forIn_same hsp]

section
variable {x : Issue} (hs : InHand c T G L C r s)
include hs

theorem issueCommand_full (h : 32 ≤ s.queued T.core false) : issueCommand x s = .error (.stall .queueFull, s) := by
  simp only [issueCommand, bind_run, hand_here hs, get_run, show s.queued T.core false ≥ 32 from h, if_true, stallOn_run]

variable (hq : s.queued T.core false < 32)
include hq

theorem issueCommand_flag (h : ∃ n, x.flag = some n ∧ 255 ≤ G.flag n) : issueCommand x s = .error (.stall .flag, s) := by
  obtain ⟨n, hn, h⟩ := h
  have hany : (x.flag.any fun n => decide (G.flag n ≥ 255)) = true := by rw [hn]; simpa using h
  simp only [issueCommand, bind_run, hand_here hs, get_run, Nat.not_le.2 hq, ge_iff_le, if_false, hany, if_true, stallOn_run]

variable (hn : ∀ n, x.flag = some n → G.flag n < 255)
include hn

omit hs hq in
theorem flag_below : (x.flag.any fun n => decide (G.flag n ≥ 255)) = false := by
  cases hx : x.flag with
  | none => rfl
  | some n => simpa using hn n hx

theorem issueCommand_lock (h : T.admits x.locks = false) : issueCommand x s = .error (.stall .lock, s) := by
  have hany := flag_below hn
  simp only [ge_iff_le] at hany
  simp only [issueCommand, bind_run, hand_here hs, get_run, Nat.not_le.2 hq, ge_iff_le, if_false, hany, Bool.false_eq_true, h, Bool.not_false, if_true,
    stallOn_run]

theorem issueCommand_fence (h : T.admits x.locks = true) (hu : s.unacked c.team c.grp = true) : issueCommand x s = .error (.stall .fence, s) := by
  have hany := flag_below hn
  simp only [ge_iff_le] at hany
  simp only [issueCommand, bind_run, hand_here hs, get_run, Nat.not_le.2 hq, ge_iff_le, if_false, hany, Bool.false_eq_true, h, Bool.not_true,
    releaseHere_stalls hs hu]

end

/-- Settles O24: the descriptor is read and its fields and ranges checked before anything stalls the issue. -/
theorem commandsTrapOrStall : Obligations.CommandsTrapOrStall := by
  constructor
  · intro i kind flag sa fields spans c T G L C r d f s hi hs hflag
    refine ⟨fun hd hf => ?_, fun ha => ?_, fun ha hb => ?_⟩
    · refine (exec_descWord hi s).trans (answer_trap ?_)
      simp only [descCommand, bind_run, commandFlag_run hs.cur hflag, hand_here hs, hand_scalar hs, readDesc_run hs hd, get_run, checkFields_traps hf]
    · refine (exec_descWord hi s).trans (answer_trap ?_)
      simp only [descCommand, readDesc, bind_run, commandFlag_run hs.cur hflag, hand_here hs, hand_scalar hs, require_fail (beq_false_of_ne ha)]
      rfl
    · refine (exec_descWord hi s).trans (answer_trap ?_)
      simp only [descCommand, readDesc, bind_run, commandFlag_run hs.cur hflag, hand_here hs, hand_scalar hs, require_ok (beq_iff_eq.2 ha),
        require_fail (decide_eq_false (Nat.not_le.2 hb))]
      rfl
  · intro i kind flag sa fields spans c T G L C r d s hi hs hd hf hsp
    have hrun := (exec_descWord hi s).trans (answer_congr (descCommand_run hs hd hf hsp))
    refine ⟨fun hq => ?_, fun hq hn => ?_, fun hq hn hl => ?_, fun hq hn hl hu => ?_⟩
    · exact hrun.trans (answer_stall (bind_error (issueCommand_full hs hq)))
    · exact hrun.trans (answer_stall (bind_error (issueCommand_flag hs hq hn)))
    · exact hrun.trans (answer_stall (bind_error (issueCommand_lock hs hq hn hl)))
    · exact hrun.trans (answer_stall (bind_error (issueCommand_fence hs hq hn hl hu)))

end Sys2Proof.Proofs
end

section
/-! SUPPORT. The words of the operand buffer and the companding tables, and LNCH (R91, R192 to R194). -/

namespace Sys2Proof.Proofs
open Machine Claims Laws

variable {c : Cur} {T T' : Team} {G G' : Group} {L L' : Launch} {C C' : Context} {r : ScalarRegs} {s s' t : State} {h : Hit} {d sa sb : SReg}
  {rec : List Byte}

section
variable (hs : InHand c T G L C r s) (hd : readDesc (r.getS sa) 32 32 s = .ok (rec, s)) (ho : (r.getS sb).toNat ≤ 15)
  (hf : T.live? (r.getS sb).toNat = none) (hr : ∀ f ∈ recordFields rec, f.2 = true)
include hs hd ho hf hr

theorem obres_full (h : freeRun (s.coreResv T.core) (fld rec 0 4) = none) :
    exec (.obres d sa sb) s = .next (s.scalarNext 4 (r.setS d (-1#64))) := by
  refine (exec_obres ..).trans (answer_ok ?_)
  have hreq : (decide ((r.getS sb).toNat ≤ 15) && (T.live? (r.getS sb).toNat).isNone) = true := by simp [ho, hf]
  simp only [bind_run, hand_scalar hs, hd, hand_here hs, require_ok hreq, checkFields_ok hr, get_run, h, doneScalar_run, State.scalarNext, setS_pc]

theorem obres_reserves {base : Nat} (h : freeRun (s.coreResv T.core) (fld rec 0 4) = some base) :
    exec (.obres d sa sb) s = .next (
      ({ s.modTeam c.team fun T => { T with resv := T.resv.set (r.getS sb).toNat (some { record := rec, base := base, free := s.free, cells := [] }) }
         with free := s.free + 1 }).scalarNext 4 (r.setS d (BitVec.ofNat 64 base))) := by
  refine (exec_obres ..).trans (answer_ok ?_)
  have hreq : (decide ((r.getS sb).toNat ≤ 15) && (T.live? (r.getS sb).toNat).isNone) = true := by simp [ho, hf]
  simp only [bind_run, hand_scalar hs, hd, hand_here hs, require_ok hreq, checkFields_ok hr, get_run, h, upd_run, doneScalar_run, State.scalarNext, setS_pc]

end

section
variable (hs : InHand c T G L C r s) (ho : (r.getS sa).toNat ≤ 15) (hl : (T.live? (r.getS sa).toNat).isSome = true)
include hs ho hl

theorem obrel_waits (hb : (T.locks.any fun l => l.space == 3 && l.core == (r.getS sa).toNat) = true) :
    exec (.obrel sa) s = .next (s.markStall .lock) := by
  refine (exec_obrel ..).trans (answer_stall ?_)
  have hreq : (decide ((r.getS sa).toNat ≤ 15) && (T.live? (r.getS sa).toNat).isSome) = true := by simp [ho, hl]
  simp only [bind_run, hand_scalar hs, hand_here hs, require_ok hreq, hb, if_true, stallOn_run]

/-- The reservation `o` of a team let go. -/
def released (t o : Nat) (s : State) : State :=
  { s.modTeam t fun T => { T with resv := T.resv.set o none } with
    poison := s.poison.filter fun u => match u with
      | .obuf t' o' _ => !(t' == t && o' == o)
      | _ => true }

theorem obrel_frees (hb : (T.locks.any fun l => l.space == 3 && l.core == (r.getS sa).toNat) = false) :
    exec (.obrel sa) s = .next ((released c.team (r.getS sa).toNat s).scalarNext 4 r) := by
  refine (exec_obrel ..).trans (answer_ok ?_)
  have hreq : (decide ((r.getS sa).toNat ≤ 15) && (T.live? (r.getS sa).toNat).isSome) = true := by simp [ho, hl]
  simp only [bind_run, hand_scalar hs, hand_here hs, require_ok hreq, hb, Bool.false_eq_true, if_false, upd_run, doneScalar_run, State.scalarNext]
  rfl

end

/-- What CTAB has done once its bytes have come: the table is loaded, or the word traps. -/
def tableLanded (ctx core n : Nat) (r : ScalarRegs) (b : List Byte) (s : State) : State :=
  (s.loadTable ctx core n b).elim (s.takeTrap { cause := 0x01 }) (State.scalarNext 4 r)

theorem ctab_reads (hs : InHand c T G L C r s) (h7 : (r.getS sa).toNat ≤ 7)
    (hq : (s.remotes.any fun q => q.team == c.team && q.grp == c.grp && q.sreg.any fun x => x.1 == c.stream) = false)
    (hr : Reached (scalarReq false (r.getS sb).toNat 68 4 .read) h s s') (hl : h.remote = false) (hs' : InHand c T' G' L' C' r s') :
    exec (.ctab sa sb) s = .next (
      let q := scalarRead c h 0 (8 + (r.getS sa).toNat) s'
      if q.2 ≠ 0 then q.1 else tableLanded C.id T.core (r.getS sa).toNat r (q.1.readHit c.team h) q.1) := by
  obtain ⟨a, ha⟩ := hand_agent hs'
  have hc := hr.checks
  unfold scalarReq at hc
  have hregs : (scalarRead c h 0 (8 + (r.getS sa).toNat) s').1.scalarRegs? = some r := by rw [← hs'.regs]; exact readsApart_regs ..
  refine (exec_ctab ..).trans ?_
  simp only [execCtab, answer_eq, bind_run, hand_scalar hs, hand_here hs, hand_context hs, require_ok (decide_eq_true h7), get_run, hq,
    Bool.false_eq_true, if_false, hc, ha, forIn_one, hr.ready a ha]
  have hlate := readsLate_run (h := h) (hand_here hs') 0 (8 + (r.getS sa).toNat)
  generalize scalarRead c h 0 (8 + (r.getS sa).toNat) s' = q at hlate hregs
  unfold tableLanded
  rcases hparts : h.parts with _ | ⟨⟨_, _, place, _, _, _, _, _⟩, rest⟩
  case' cons => cases place
  case cons.peer => exact absurd (remote_of_peer hparts rfl) (by simp [hl])
  all_goals
    simp only [bind_run, hlate]
    by_cases h0 : q.2 = 0
    · simp only [h0, ne_eq, not_true_eq_false, decide_false, Bool.false_eq_true, if_false, bind_run, get_run]
      cases q.1.loadTable C.id T.core (r.getS sa).toNat (q.1.readHit c.team h) <;> rfl
    · simp only [h0, ne_eq, not_false_eq_true, decide_true, if_true, pure_run]

theorem landScalar_table {u : Team} {K : Context} {n : Nat} {b : List Byte} (hu : s.team? c.team = some u) (hc : s.contextOf? c.team = some K)
    (hl : s.loadTable K.id u.core n b = some t) (x : Nat) : s.landScalar c.team x (8 + n) b r = t.scalarNext 4 r := by
  have h8 : 8 + n ≥ 8 := Nat.le_add_right 8 n
  unfold State.landScalar
  rw [if_pos h8, hu, hc]
  simp only [Option.bind_some, Option.map_some, Option.getD_some, Nat.add_sub_cancel_left, hl]
  rfl

theorem released_team (hX : s.team? c.team = some T) (o : Nat) :
    (released c.team o s).team? c.team = some { T with resv := T.resv.set o none } :=
  (team?_modTeam s c.team c.team _).trans (by rw [if_pos rfl, hX]; rfl)

/-- Settles O30. -/
theorem operandWordsComplete : Obligations.OperandWordsComplete := by
  intro d sa sb c T T' G G' L L' C C' r rec h s s' hs
  refine ⟨fun hd ho hf hr => ⟨obres_full hs hd ho hf hr, fun base => obres_reserves hs hd ho hf hr⟩, fun ho hl => ⟨obrel_waits hs ho hl, fun hb => ?_⟩,
    fun h7 hq hr hl hs' => ctab_reads hs h7 hq hr hl hs', fun h7 hq hr hl hs' h1 t ht => ?_, fun n k b rest t ht hl => ?_⟩
  · exact ⟨_, _, obrel_frees hs ho hl hb, released_team hs.team _, rfl, rfl, rfl⟩
  · refine (ctab_reads hs h7 hq hr hl hs').trans ?_
    simp only [scalarRead_onePiece 0 _ h1, ne_eq, not_true_eq_false, if_false, tableLanded, ht, Option.elim_some]
  · have hcur : ({ s with cur := some c } : State) = s := by rw [← hs.cur]
    rw [performApart_scalar s (by rw [hcur]; exact hs.regs) (by rw [hcur]; exact hl), hcur]
    rw [landScalar_table hs.team hs.context ht]

/-- What LNCH does with a record that has been taken, refused or waited for. -/
def lnchTaken (C : Context) (d : SReg) (r : ScalarRegs) : Taken → M Unit
  | .wait => stallOn .page
  | .refused code => doneScalar 4 (r.setS d (BitVec.ofNat 64 code))
  | .ok L hs => do
    if ((← get).launches.filter fun l => l.ctx == C.id && !l.ended).length ≥ Config.launchQueueSize then doneScalar 4 (r.setS d 1)
    else
      upd fun s => (s.accept L hs).writeStatus C L.completion 0xFFFFFFFF
      doneScalar 4 (r.setS d 0)

section
variable (hs : InHand c T G L C r s) (hst : c.stream ≠ .handler)
include hs hst

/-- LNCH of a record's place takes the record, once nothing holds it up. -/
theorem lnch_takes {x : Taken} (ha : (r.getS sa).toNat % 128 = 0) (hb : (r.getS sa).toNat < 2 ^ 56) (hu : s.unacked c.team c.grp = false)
    (hr : s.ready = true) (h : s.takeRecord C (r.getS sa).toNat = (x, t)) : exec (.lnch d sa) s = M.answer (lnchTaken C d r x) t := by
  have hlegal : ((r.getS sa).toNat % 128 == 0 && decide ((r.getS sa).toNat < 2 ^ 56)) = true := by simpa [ha] using hb
  refine (exec_lnch ..).trans ?_
  simp only [execLnch, answer_eq, bind_run, notInHandler_ok hs.cur hst, hand_scalar hs, hand_context hs, require_ok hlegal, releaseHere_ok hs hu, get_run, hr,
    Bool.not_true, Bool.false_eq_true, if_false, h, set_run]
  cases x <;> rfl

end

theorem lnch_full {L' : Launch} {l : List (Nat × Nat)} (h : Config.launchQueueSize ≤ (t.launches.filter fun l => l.ctx == C.id && !l.ended).length) :
    M.answer (lnchTaken C d r (.ok L' l)) t = .next (t.scalarNext 4 (r.setS d 1)) := by
  refine answer_ok ?_
  rw [lnchTaken, bind_ok (get_run t), if_pos h]
  simp only [doneScalar_run, State.scalarNext, setS_pc]

theorem lnch_accepts {L' : Launch} {l : List (Nat × Nat)} (h : (t.launches.filter fun l => l.ctx == C.id && !l.ended).length < Config.launchQueueSize) :
    M.answer (lnchTaken C d r (.ok L' l)) t = .next (((t.accept L' l).writeStatus C L'.completion 0xFFFFFFFF).scalarNext 4 (r.setS d 0)) := by
  refine answer_ok ?_
  rw [lnchTaken, bind_ok (get_run t), if_neg (Nat.not_le.2 h)]
  simp only [bind_run, upd_run, doneScalar_run, State.scalarNext, setS_pc]

/-- Settles O31. -/
theorem lnchCompletes : Obligations.LnchCompletes := by
  intro d sa c T G L C r code L' l s u hs hst
  refine ⟨fun ha hb hu hr => ⟨fun h => lnch_takes hs hst ha hb hu hr h, fun h => (lnch_takes hs hst ha hb hu hr h).trans ?_,
    fun h hf => (lnch_takes hs hst ha hb hu hr h).trans (lnch_full hf), fun h hf => (lnch_takes hs hst ha hb hu hr h).trans (lnch_accepts hf)⟩,
    fun ha hb hu hr => (exec_lnch ..).trans (answer_stall ?_), fun ha hb hu => (exec_lnch ..).trans (answer_stall ?_),
    fun hbad => (exec_lnch ..).trans (answer_trap ?_)⟩
  · exact answer_ok (by simp only [lnchTaken, doneScalar_run, State.scalarNext, setS_pc])
  · have hlegal : ((r.getS sa).toNat % 128 == 0 && decide ((r.getS sa).toNat < 2 ^ 56)) = true := by simpa [ha] using hb
    simp only [bind_run, notInHandler_ok hs.cur hst, hand_scalar hs, hand_context hs, require_ok hlegal, releaseHere_ok hs hu, get_run, hr, Bool.not_false,
      if_true, stallOn_run]
  · have hlegal : ((r.getS sa).toNat % 128 == 0 && decide ((r.getS sa).toNat < 2 ^ 56)) = true := by simpa [ha] using hb
    simp only [bind_run, notInHandler_ok hs.cur hst, hand_scalar hs, hand_context hs, require_ok hlegal, releaseHere_stalls hs hu]
  · have hbad' : ((r.getS sa).toNat % 128 == 0 && decide ((r.getS sa).toNat < 2 ^ 56)) = false := by simpa using hbad
    simp only [bind_run, notInHandler_ok hs.cur hst, hand_scalar hs, hand_context hs, require_fail hbad']
    rfl

end Sys2Proof.Proofs
end

section
/-! SUPPORT. The lane words that compute in each lane by itself (R104 to R129, R140, R141, R152 to R163). -/

namespace Sys2Proof.Proofs
open Machine Claims Laws

variable {i : Instr} {fx : LaneFx} {w : LaneWord} {x : LaneCtx} {s : State}

theorem exec_integer (h : integerFx i = some fx) (s : State) : exec i s = laneRun i (computes fx) s := by
  cases i <;> simp only [integerFx, Option.some.injEq, reduceCtorEq] at h
  all_goals subst h; rfl

theorem exec_bit (h : bitFx i = some fx) (s : State) : exec i s = laneRun i (computes fx) s := by
  cases i <;> simp only [bitFx, Option.some.injEq, reduceCtorEq] at h
  case bscmp c _ => subst h; cases c <;> rfl
  case laneCmp c _ => subst h; cases c <;> rfl
  all_goals subst h; rfl

theorem exec_float (h : floatFx i = some fx) (s : State) : exec i s = laneRun i (computes fx) s := by
  cases i <;> simp only [floatFx, Option.some.injEq, reduceCtorEq] at h
  case fcmp c _ => subst h; cases c <;> rfl
  all_goals subst h; rfl

theorem exec_acc (h : accFx i = some fx) (s : State) : exec i s = laneRun i (computes fx) s := by
  cases i <;> simp only [accFx, Option.some.injEq, reduceCtorEq] at h
  all_goals subst h; rfl

/-- Settles O32. -/
theorem laneArithmeticComplete : Obligations.LaneArithmeticComplete :=
  ⟨fun _ fx _ _ s h hr => (exec_integer h s).trans (computes_next fx hr), fun _ fx _ _ s h hr => (exec_bit h s).trans (computes_next fx hr),
    fun _ fx _ _ s h hr => (h.elim (exec_float · s) (exec_acc · s)).trans (computes_next fx hr)⟩

end Sys2Proof.Proofs
end

section
/-! SUPPORT. What a lane word that computes in each lane by itself leaves as it was (R53, R104 to R163). -/

namespace Sys2Proof.Proofs
open Machine Claims Laws

variable {i : Instr} {fx : LaneFx} {w : LaneWord} {x : LaneCtx} {s t : State} {G : Group} {l l' : Lane}

/-! ### The next word of the clause -/

/-- A group with other lanes. -/
def withLanes (ls : List Lane) (G : Group) : Group := { G with lanes := ls }

theorem withLanes_lowerFlag (ls : List Lane) (n scope : Nat) (G : Group) : (withLanes ls G).lowerFlag n scope = withLanes ls (G.lowerFlag n scope) := by
  unfold Group.lowerFlag Group.setFlag
  by_cases h : G.flag n = 0
  · rw [if_pos h, if_pos (show (withLanes ls G).flag n = 0 from h)]
  · rw [if_neg h, if_neg (show ¬(withLanes ls G).flag n = 0 from h)]
    by_cases hn : n < 12
    · simp only [hn, dif_pos]; rfl
    · simp only [hn]; rfl

theorem withLanes_lower? (ls : List Lane) (n : Option Nat) (scope : Nat) (G : Group) :
    (withLanes ls G).lower? n scope = withLanes ls (G.lower? n scope) := by
  cases n with
  | none => rfl
  | some n => exact withLanes_lowerFlag ls n scope G

theorem withLanes_settleTag (ls : List Lane) (G : Group) (x : Tag) :
    (withLanes ls G).settleTag x = (withLanes ls (G.settleTag x).1, (G.settleTag x).2) := by
  unfold Group.settleTag
  by_cases he : x.ended <;> by_cases hl : x.loads = 0 <;> by_cases hs : x.stores = 0 <;> simp [he, hl, hs, withLanes_lower?]

theorem withLanes_settleTags (ls : List Lane) (G : Group) : (withLanes ls G).settleTags = withLanes ls G.settleTags := by
  refine List.foldl_hom (withLanes ls) (init := { G with tags := [] }) fun H x => ?_
  simp only [withLanes_settleTag]
  rfl

theorem withLanes_endClause (ls : List Lane) (G : Group) : (withLanes ls G).endClause = withLanes ls G.endClause := by
  unfold Group.endClause
  rw [show (withLanes ls G).clause = G.clause from rfl]
  cases G.clause with
  | none => rfl
  | some k => exact withLanes_settleTags ls ({ G with clause := none }.modTag k.tag fun t => { t with ended := true })

theorem withLanes_stepClause (ls : List Lane) (G : Group) : (withLanes ls G).stepClause = withLanes ls G.stepClause := by
  unfold Group.stepClause
  rw [withLanes_endClause, show (withLanes ls G).clause = G.clause from rfl, show (withLanes ls G).run = G.run from rfl]
  cases G.clause with
  | none => rfl
  | some k =>
    cases G.run with
    | none => rfl
    | some r =>
      by_cases hk : k.next + 1 ≥ k.stop
      · simp only [if_pos hk]; rfl
      · simp only [if_neg hk]; rfl

/-- A group but for its flags and what is left of its clause and its run. -/
def stepFace (G : Group) : Group := { flagFace G with clause := none, run := none }

theorem stepFace_stepClause (G : Group) : stepFace G.stepClause = stepFace G := by
  unfold Group.stepClause
  split
  · split
    · rename_i k r hc hr hk
      have h : flagFace G.endClause = flagFace { G with clause := none } := by
        unfold Group.endClause
        rw [hc]
        exact (flagFace_settleTags _).trans (flagFace_modTag ..)
      show ({ flagFace G.endClause with clause := none, run := none } : Group) = _
      rw [h]; rfl
    · rfl
  · rfl

theorem stepClause_run (G : Group) : G.stepClause.run.map (·.k) = G.run.map (·.k) := by
  unfold Group.stepClause
  split
  · rename_i k r hc hr
    split
    · rw [hr]; rfl
    · rfl
  · rfl

theorem stepClause_flags (h : ∀ k, G.clause = some k → k.next + 1 < k.stop) : G.stepClause.f = G.f := by
  unfold Group.stepClause
  split
  · rename_i k r hc hr
    rw [if_neg (Nat.not_le.2 (h k hc))]
  · rfl

theorem stepClause_within {k : Clause} (hc : G.clause = some k) (hr : G.run.isSome = true) (hk : k.next + 1 < k.stop) :
    G.stepClause = { G with clause := some { k with next := k.next + 1 } } := by
  obtain ⟨r, hr⟩ := Option.isSome_iff_exists.1 hr
  simp only [Group.stepClause, hc, hr, if_neg (Nat.not_le.2 hk)]

end Sys2Proof.Proofs
end

section
/-! SUPPORT. What a computing lane word writes in a lane, and what it leaves there (R53, R104 to R163). -/

namespace Sys2Proof.Proofs
open Machine Claims Laws

variable {i : Instr} {fx : LaneFx} {w : LaneWord} {x : LaneCtx} {s t : State} {G : Group} {l l' : Lane}

/-- What a computing word leaves of a lane: its destination written, in the file that the word names. -/
inductive Wrote (i : Instr) (w : LaneWord) (l : Lane) : Lane → Prop
  | vreg (v : Nat) : destFile i = 0 → Wrote i w l (l.setV w.vd.toNat v)
  | acc (a : Acc) : destFile i = 1 → Wrote i w l (l.setA w.vd.toNat a)
  | pred (b : Bool) : destFile i = 2 → Wrote i w l (l.setP w.vd.toNat b)
  | drawn (c : Word) (v : Nat) : (∃ v, i = .rng v) → Wrote i w l ({ l with rngc := c }.setV w.vd.toNat v)
  | content (v : Nat) (b : Bool) : (∃ v, i = .ageti v) → Wrote i w l ((l.setV w.vd.toNat v).setP w.vc.toNat b)
  | preds (p : BitVec 96) : (∃ v, i = .pput v) → Wrote i w l { l with p := p }

theorem integer_wrote (h : integerFx i = some fx) (x : LaneCtx) (w : LaneWord) (l : Lane) : Wrote i w l (fx x w l) := by
  cases i <;> simp only [integerFx, Option.some.injEq, reduceCtorEq] at h
  all_goals subst h; exact .vreg _ rfl

theorem draws_rngc (n : Nat) (l : Lane) : ∃ c, (Lane.draws n l).2 = { l with rngc := c } := by
  induction n generalizing l with
  | zero => exact ⟨l.rngc, rfl⟩
  | succ n ih => exact ih { l with rngc := l.rngc + 1 }

theorem bit_wrote (h : bitFx i = some fx) (x : LaneCtx) (w : LaneWord) (l : Lane) : Wrote i w l (fx x w l) := by
  cases i <;> simp only [bitFx, Option.some.injEq, reduceCtorEq] at h
  case rng v =>
    subst h
    obtain ⟨c, hc⟩ := draws_rngc w.ety.subn l
    simp only [hc]
    exact .drawn c _ ⟨v, rfl⟩
  case pput v => subst h; exact .preds _ ⟨v, rfl⟩
  case laneCmp | pand | por | pxor | pandn | pnot | pmov | pset => subst h; exact .pred _ rfl
  all_goals subst h; exact .vreg _ rfl

theorem float_wrote (h : floatFx i = some fx) (x : LaneCtx) (w : LaneWord) (l : Lane) : Wrote i w l (fx x w l) := by
  cases i <;> simp only [floatFx, Option.some.injEq, reduceCtorEq] at h
  case fcmp => subst h; exact .pred _ rfl
  all_goals subst h; exact .vreg _ rfl

theorem acc_wrote (h : accFx i = some fx) (x : LaneCtx) (w : LaneWord) (l : Lane) : Wrote i w l (fx x w l) := by
  cases i <;> simp only [accFx, Option.some.injEq, reduceCtorEq] at h
  case azero | aadd | amac | cres | adot | ared => subst h; exact .acc _ rfl
  case ageti v =>
    subst h
    by_cases hb : w.bits 0 0 = 1
    · simp only [hb, if_true]; exact .content _ _ ⟨v, rfl⟩
    · simp only [hb, if_false]; exact .vreg _ rfl
  all_goals subst h; exact .vreg _ rfl

theorem setV_other (l : Lane) {n k : Nat} (v : Nat) (h : k ≠ n) : (l.setV n v).v[k]? = l.v[k]? := by
  simp [Lane.setV, h.symm]

theorem setA_other (l : Lane) {n k : Nat} (a : Acc) (h : k ≠ n) : (l.setA n a).a[k]? = l.a[k]? := by
  simp [Lane.setA, h.symm]

theorem setP_other (l : Lane) {n k : Nat} (b : Bool) (h : k ≠ n) : (l.setP n b).p.getLsbD k = l.p.getLsbD k := by
  have hbit : (1#96 <<< n).getLsbD k = false := by
    simp only [BitVec.getLsbD_shiftLeft, BitVec.getLsbD_one, Bool.and_eq_false_iff, decide_eq_false_iff_not, Bool.not_eq_false', decide_eq_true_eq]
    omega
  have hp : l.p.getLsbD k = true → k < 96 := BitVec.lt_of_getLsbD
  cases b <;> simpa [Lane.setP, hbit] using hp

/-- What a computing word leaves of a lane, by the file of its destination. -/
def LaneFrame (i : Instr) (w : LaneWord) (l l' : Lane) : Prop :=
  l'.nest = l.nest ∧ l'.item = l.item ∧ l'.holds = l.holds ∧ l'.rngk = l.rngk ∧ ((∀ v, i ≠ .rng v) → l'.rngc = l.rngc)
    ∧ (∀ k, k ≠ w.vd.toNat → l'.v[k]? = l.v[k]? ∧ l'.a[k]? = l.a[k]?)
    ∧ (destFile i = 0 → l'.a = l.a ∧ ((∀ v, i ≠ .ageti v) → l'.p = l.p) ∧ ∀ k, k ≠ w.vc.toNat → l'.p.getLsbD k = l.p.getLsbD k)
    ∧ (destFile i = 1 → l'.v = l.v ∧ l'.p = l.p)
    ∧ (destFile i = 2 → l'.v = l.v ∧ l'.a = l.a ∧ ((∀ v, i ≠ .pput v) → ∀ k, k ≠ w.vd.toNat → l'.p.getLsbD k = l.p.getLsbD k))

theorem Wrote.frame (h : Wrote i w l l') : LaneFrame i w l l' := by
  unfold LaneFrame
  cases h with
  | vreg v h0 =>
    exact ⟨rfl, rfl, rfl, rfl, fun _ => rfl, fun k hk => ⟨setV_other l v hk, rfl⟩, fun _ => ⟨rfl, fun _ => rfl, fun _ _ => rfl⟩,
      fun h1 => by simp [h0] at h1, fun h2 => by simp [h0] at h2⟩
  | acc a h1 =>
    exact ⟨rfl, rfl, rfl, rfl, fun _ => rfl, fun k hk => ⟨rfl, setA_other l a hk⟩, fun h0 => by simp [h1] at h0, fun _ => ⟨rfl, rfl⟩,
      fun h2 => by simp [h1] at h2⟩
  | pred b h2 =>
    exact ⟨rfl, rfl, rfl, rfl, fun _ => rfl, fun k hk => ⟨rfl, rfl⟩, fun h0 => by simp [h2] at h0, fun h1 => by simp [h2] at h1,
      fun _ => ⟨rfl, rfl, fun _ k hk => setP_other l b hk⟩⟩
  | drawn c v hi =>
    obtain ⟨u, rfl⟩ := hi
    exact ⟨rfl, rfl, rfl, rfl, fun hn => absurd rfl (hn u), fun k hk => ⟨setV_other l v hk, rfl⟩, fun _ => ⟨rfl, fun _ => rfl, fun _ _ => rfl⟩,
      nofun, nofun⟩
  | content v b hi =>
    obtain ⟨u, rfl⟩ := hi
    exact ⟨rfl, rfl, rfl, rfl, fun _ => rfl, fun k hk => ⟨setV_other l v hk, rfl⟩,
      fun _ => ⟨rfl, fun hn => absurd rfl (hn u), fun k hk => setP_other (l.setV _ v) b hk⟩, nofun, nofun⟩
  | preds p hi =>
    obtain ⟨u, rfl⟩ := hi
    exact ⟨rfl, rfl, rfl, rfl, fun _ => rfl, fun k hk => ⟨rfl, rfl⟩, nofun, nofun, fun _ => ⟨rfl, rfl, fun hn => absurd rfl (hn u)⟩⟩

theorem getElem?_indexed {α : Type} (k : Nat) (l : List α) (j : Nat) : (indexed k l)[j]? = l[j]?.map fun a => (k + j, a) := by
  induction l generalizing k j with
  | nil => rfl
  | cons a l ih =>
    cases j with
    | zero => rfl
    | succ j => simp only [indexed, List.getElem?_cons_succ, ih]; congr 1; funext a; simp only [Prod.mk.injEq, and_true]; omega

theorem mapLanes_get (G : Group) (ps : List Nat) (f : Lane → Lane) (j : Nat) :
    (G.mapLanes ps f).lanes[j]? = G.lanes[j]?.map fun l => if ps.contains j then f l else l := by
  simp only [Group.mapLanes, List.getElem?_map, getElem?_indexed, Option.map_map, Nat.zero_add]
  rfl

theorem length_indexed {α : Type} (k : Nat) (l : List α) : (indexed k l).length = l.length := by
  induction l generalizing k with
  | nil => rfl
  | cons a l ih => simp [indexed, ih]

/-- The group after a computing word. -/
def steppedGroup (fx : LaneFx) (x : LaneCtx) (w : LaneWord) (tick : Nat) : Group := ((x.G.mapLanes x.parts (fx x w)).countLane tick).stepClause

theorem steppedGroup_eq (fx : LaneFx) (x : LaneCtx) (w : LaneWord) (tick : Nat) :
    steppedGroup fx x w tick = { (x.G.countLane tick).stepClause with lanes := (x.G.mapLanes x.parts (fx x w)).lanes } :=
  withLanes_stepClause (x.G.mapLanes x.parts (fx x w)).lanes (x.G.countLane tick)

theorem laneComputed_teams (fx : LaneFx) (x : LaneCtx) (w : LaneWord) (s : State) :
    laneComputed fx x w s = { s with teams := (laneComputed fx x w s).teams } := rfl

theorem laneComputed_group (hG : s.group? x.c.team x.c.grp = some x.G) (u g : Nat) :
    (laneComputed fx x w s).group? u g = if u = x.c.team ∧ g = x.c.grp then some (steppedGroup fx x w s.tick) else s.group? u g := by
  unfold laneComputed State.laneNext
  rw [group?_modGroup, group?_modGroup]
  by_cases h : u = x.c.team ∧ g = x.c.grp
  · simp only [h, and_self, if_true, hG, Option.map_some]
    rfl
  · simp only [h, if_false]

end Sys2Proof.Proofs
end

section
/-! SUPPORT. The frame of the computing lane words (R53). -/

namespace Sys2Proof.Proofs
open Machine Claims Laws

variable {i : Instr} {fx : LaneFx} {w : LaneWord} {x : LaneCtx} {s t : State} {X : Group} {l l' : Lane}

/-- A word that computes in each lane by itself. -/
def Computing (i : Instr) (fx : LaneFx) : Prop := integerFx i = some fx ∨ bitFx i = some fx ∨ floatFx i = some fx ∨ accFx i = some fx

theorem Computing.exec (h : Computing i fx) (s : State) : exec i s = laneRun i (computes fx) s :=
  h.elim (exec_integer · s) fun h => h.elim (exec_bit · s) fun h => h.elim (exec_float · s) (exec_acc · s)

theorem Computing.wrote (h : Computing i fx) (x : LaneCtx) (w : LaneWord) (l : Lane) : Wrote i w l (fx x w l) :=
  h.elim (integer_wrote · x w l) fun h => h.elim (bit_wrote · x w l) fun h => h.elim (float_wrote · x w l) (acc_wrote · x w l)

theorem laneComputed_team {X : Team} (hT : s.team? x.c.team = some x.T) (hX : (laneComputed fx x w s).team? x.c.team = some X) :
    X = { x.T with groups := X.groups } := by
  unfold laneComputed State.laneNext at hX
  rw [team?_modGroup, if_pos rfl, team?_modGroup, if_pos rfl, hT] at hX
  injection hX with hX
  rw [← hX]

section
variable (hX : X = steppedGroup fx x w s.tick)
include hX

theorem stepped_within {k : Clause} (hc : x.G.clause = some k) (hr : x.G.run.isSome = true) (hk : k.next + 1 < k.stop) :
    X = { x.G with ric := x.G.ric + 1, stallL := none, ricSeen := s.tick, skipL := false, whole := false
                   clause := some { k with next := k.next + 1 }, lanes := X.lanes } := by
  have h := stepClause_within (G := x.G.countLane s.tick) hc hr hk
  rw [hX, steppedGroup_eq, h]
  rfl

/-- Everything but lanes, flags and what is left of the clause and the run is counted, and stands as it stood. -/
theorem stepped_face : stepFace X = stepFace { x.G.countLane s.tick with lanes := X.lanes } := by
  have h := congrArg (withLanes X.lanes) (stepFace_stepClause (x.G.countLane s.tick))
  rw [hX, steppedGroup_eq] at h ⊢
  exact h

theorem stepped_run : X.run.map (·.k) = x.G.run.map (·.k) := by
  rw [hX, steppedGroup_eq]
  exact stepClause_run (x.G.countLane s.tick)

theorem stepped_flags (h : ∀ k, x.G.clause = some k → k.next + 1 < k.stop) : X.f = x.G.f := by
  rw [hX, steppedGroup_eq]
  exact stepClause_flags (G := x.G.countLane s.tick) h

theorem stepped_length : X.lanes.length = x.G.lanes.length := by
  rw [hX, steppedGroup_eq]
  exact (List.length_map ..).trans (length_indexed ..)

theorem stepped_lane {j : Nat} (hj : j ∉ x.parts) : X.lanes[j]? = x.G.lanes[j]? := by
  rw [hX, steppedGroup_eq]
  show (x.G.mapLanes x.parts (fx x w)).lanes[j]? = _
  rw [mapLanes_get]
  simp [hj]

theorem stepped_wrote (hfx : Computing i fx) {j : Nat} {l l' : Lane} (hl : x.G.lanes[j]? = some l) (hl' : X.lanes[j]? = some l') : l' = l ∨ Wrote i w l l' := by
  rw [hX, steppedGroup_eq] at hl'
  replace hl' : (x.G.mapLanes x.parts (fx x w)).lanes[j]? = some l' := hl'
  rw [mapLanes_get, hl, Option.map_some, Option.some.injEq] at hl'
  by_cases hj : x.parts.contains j
  · exact .inr (by rw [← hl', if_pos hj]; exact hfx.wrote x w l)
  · exact .inl (by rw [← hl', if_neg hj])

end

theorem Wrote.frame_or (h : l' = l ∨ Wrote i w l l') : LaneFrame i w l l' := by
  obtain rfl | h := h
  · unfold LaneFrame
    exact ⟨rfl, rfl, rfl, rfl, fun _ => rfl, fun _ _ => ⟨rfl, rfl⟩, fun _ => ⟨rfl, fun _ => rfl, fun _ _ => rfl⟩, fun _ => ⟨rfl, rfl⟩,
      fun _ => ⟨rfl, rfl, fun _ _ _ => rfl⟩⟩
  · exact h.frame

/-- Settles O33. -/
theorem laneWordsFrame : Obligations.LaneWordsFrame := by
  intro i fx w x s t hfx hr ht
  have hfx : Computing i fx := hfx
  obtain rfl : laneComputed fx x w s = t := by
    have h := (hfx.exec s).trans (computes_next fx hr)
    rw [h] at ht
    injection ht
  have hgroup := laneComputed_group (fx := fx) (w := w) hr.group
  have hX := (hgroup x.c.team x.c.grp).trans (if_pos ⟨rfl, rfl⟩)
  have hF := stepped_face (X := steppedGroup fx x w s.tick) rfl
  refine ⟨laneComputed_teams .., fun u g hne => (hgroup u g).trans (if_neg fun h => hne (by rw [h.1, h.2])), fun X hX => laneComputed_team hr.team hX,
    steppedGroup fx x w s.tick, hX, by rw [steppedGroup_eq], fun k hc hr hk => stepped_within rfl hc hr hk, congrArg (·.ric) hF, congrArg (·.regs) hF,
    congrArg (·.lq) hF, congrArg (·.tiles) hF, congrArg (·.runs) hF, congrArg (·.loads) hF, congrArg (·.stores) hF, congrArg (·.restart) hF,
    congrArg (·.gitem) hF, stepped_flags rfl, congrArg (·.held) hF, congrArg (·.park) hF, congrArg (·.killed) hF, congrArg (·.retired) hF,
    congrArg (·.mmas) hF, congrArg (·.batch) hF, congrArg (·.latch) hF, congrArg (·.cancel) hF, stepped_run rfl, stepped_length rfl,
    fun j hj => stepped_lane rfl hj, fun j l l' hl hl' => Wrote.frame_or (stepped_wrote rfl hfx hl hl')⟩

end Sys2Proof.Proofs
end

section
/-! SUPPORT. Lane words that no lane executes, and those whose fields are illegal (R47, R57, R135). -/

namespace Sys2Proof.Proofs
open Machine Claims Laws

variable {i : Instr} {w : LaneWord} {c : Cur} {T : Team} {G : Group} {L : Launch} {f f' : Form} {s : State}

/-- How a lane word that is skipped where no lane takes part executes: by one of four frames, each of which enters the lanes first. -/
inductive Enters (i : Instr) (w : LaneWord) : Prop
  | run (eff : LaneCtx → LaneWord → M Unit) : (∀ s, exec i s = laneRun i eff s) → Enters i w
  | waits (rest : LaneCtx → M Unit) : (∀ s, exec i s = M.answer (do
      match ← laneEnter w.guard.toNat w.neg w.guardOk with
      | none => retireLane (← here).1
      | some x =>
        laneChecks x i
        rest x) s) → Enters i w
  | matrix (more : LaneCtx → Bool) (eff : LaneCtx → M Unit) : (∀ n, laneForm n i = laneForm 64 i) → (∀ s, exec i s = matrixRun i w more eff s) → Enters i w
  | spire (reads merge : Bool) (checks : LaneCtx → Nat → Nat → M SpireIssue) : (∀ s, exec i s = spireRun i w reads merge checks s) → Enters i w

theorem enters_of_form (h : laneForm 64 i = some (f, w)) (ha : actsIdle i = false) : Enters i w := by
  cases i <;> simp only [laneForm, Option.some.injEq, Prod.mk.injEq, reduceCtorEq] at h
  all_goals obtain ⟨-, rfl⟩ := h
  case laneIf | laneElse | laneEndif | laneLoop | laneBrk | laneCont | laneEndloop | laneStop | rfil | mfen | mwait | mwaitLast => cases ha
  case laneWaita | barw | cbarw | laneSwait => exact .waits _ fun s => rfl
  case mma | mmaKreg | mzero | mstRnd | mstRaw | mstAdd => exact .matrix _ _ (fun n => rfl) fun s => rfl
  case vpjs w => exact .spire _ _ _ (exec_vpjs w)
  case vpjr w => exact .spire _ _ _ (exec_vpjr w)
  case vpjm w => exact .spire _ _ _ (exec_vpjm w)
  case vpjx w => exact .spire _ _ _ (exec_vpjx w)
  case vpjb w => exact .spire _ _ _ (exec_vpjb w)
  case lget w => exact .run _ (exec_lget w)
  case qnt w => exact .run _ (exec_qnt w)
  case dqnt w => exact .run _ (exec_dqnt w)
  case laneExit w => exact .run _ (exec_laneExit w)
  case pollThr w => exact .run _ (exec_pollThr w)
  case pollMask w => exact .run _ (exec_pollMask w)
  case pollRank w => exact .run _ (exec_pollRank w)
  case keyg w => exact .run _ (exec_keyg w)
  case lead w => exact .run _ (exec_lead w)
  case lpush w => exact .run _ (exec_lpush w)
  case xlnGet w => exact .run _ (exec_xlnGet w)
  case xlnFlip w => exact .run _ (exec_xlnFlip w)
  case xlnRot w => exact .run _ (exec_xlnRot w)
  case xlnSlide w => exact .run _ (exec_xlnSlide w)
  case bcst w => exact .run _ (exec_bcst w)
  case gred o w => exact .run _ (exec_gred o w)
  case gscan o e w => exact .run _ (exec_gscan o e w)
  case gsync w => exact .run _ (exec_gsync w)
  case aadda w => exact .run _ (exec_aadda w)
  case aneg w => exact .run _ (exec_aneg w)
  case ald w => exact .run _ (exec_ald w)
  case ast w => exact .run _ (exec_ast w)
  case laneLd w => exact .run _ (exec_laneLd w)
  case laneSt w => exact .run _ (exec_laneSt w)
  case laneLds w => exact .run _ (exec_laneLds w)
  case laneSts w => exact .run _ (exec_laneSts w)
  case laneAtom o w => exact .run _ (exec_laneAtom o w)
  case laneCas w => exact .run _ (exec_laneCas w)
  case radd w => exact .run _ (exec_radd w)
  case raddAcc w => exact .run _ (exec_raddAcc w)
  case laneFence w => exact .run _ (exec_laneFence w)
  case bara w => exact .run _ (exec_bara w)
  case cbara w => exact .run _ (exec_cbara w)
  all_goals exact .run _ fun s => rfl

end Sys2Proof.Proofs
end

section
/-! SUPPORT. Lane words that no lane executes are skipped; illegal fields trap (R47, R57, R135). -/

namespace Sys2Proof.Proofs
open Machine Claims Laws

variable {i : Instr} {w : LaneWord} {c : Cur} {T : Team} {G : Group} {L : Launch} {f f' : Form} {s : State} {eff : LaneCtx → LaneWord → M Unit}

section
variable (hc : s.cur = some c) (hT : s.team? c.team = some T) (hG : s.group? c.team c.grp = some G)
include hc hT hG

/-- No lane takes part: none is active, or no active lane's guard is true. -/
theorem laneEnter_none (h : G.active = [] ∨ (w.guardOk = true ∧ ∀ j ∈ G.active, (G.lane j).passes w.guard.toNat w.neg = false)) :
    laneEnter w.guard.toNat w.neg w.guardOk s = .ok (none, s) := by
  unfold laneEnter
  rw [bind_ok (here_ok hc hT hG)]
  obtain h | ⟨hg, h⟩ := h
  · simp [h]
  · by_cases ha : G.active.isEmpty = true
    · simp only [ha, if_true, pure_run]
    · have hnone : (G.active.filter fun i => (G.lane i).passes w.guard.toNat w.neg).isEmpty = true := by
        rw [List.isEmpty_iff, List.filter_eq_nil_iff]
        exact fun j hj => by simp [h j hj]
      simp only [ha, Bool.false_eq_true, if_false, bind_ok (require_ok hg ..), hnone, if_true, pure_run]

theorem laneEnter_refuses (ha : G.active ≠ []) (hg : w.guardOk = false) :
    laneEnter w.guard.toNat w.neg w.guardOk s = .error (.trap { cause := 0x01 }, s) := by
  unfold laneEnter
  rw [bind_ok (here_ok hc hT hG)]
  have : G.active.isEmpty = false := by simpa using ha
  simp only [this, Bool.false_eq_true, if_false, bind_run, require_fail hg]
  rfl

variable (hL : s.launchOf? c.team = some L)
include hL

theorem laneEnter_some (h : ∃ j ∈ G.active, (G.lane j).passes w.guard.toNat w.neg = true) (hg : w.guardOk = true) :
    laneEnter w.guard.toNat w.neg w.guardOk s
      = .ok (some { c := c, T := T, G := G, L := L, parts := G.active.filter fun j => (G.lane j).passes w.guard.toNat w.neg }, s) := by
  obtain ⟨j, hj, hp⟩ := h
  unfold laneEnter
  rw [bind_ok (here_ok hc hT hG)]
  have ha : G.active.isEmpty = false := by cases hx : G.active <;> simp_all
  have hsome : (G.active.filter fun i => (G.lane i).passes w.guard.toNat w.neg).isEmpty = false := by
    rw [List.isEmpty_eq_false_iff_exists_mem]
    exact ⟨j, List.mem_filter.2 ⟨hj, hp⟩⟩
  simp only [ha, Bool.false_eq_true, if_false, bind_ok (require_ok hg ..), hsome]
  rw [bind_ok (laneCtx_ok (x := { c := c, T := T, G := G, L := L, parts := _ }) hc hT hG hL), pure_run]

omit hL in
theorem enters_skips (h : Enters i w) (hf : laneForm 64 i = some (f, w)) (he : laneEnter w.guard.toNat w.neg w.guardOk s = .ok (none, s)) :
    exec i s = .next (s.laneNext c) := by
  have hh := here_ok hc hT hG
  cases h with
  | run eff hx =>
    refine (hx s).trans (answer_ok ?_)
    simp only [hf]
    rw [bind_ok he]
    simp only
    rw [bind_ok hh]; rfl
  | waits rest hx => exact (hx s).trans (answer_ok (by rw [bind_ok he]; simp only; rw [bind_ok hh]; rfl))
  | matrix more eff hn hx =>
    refine (hx s).trans (answer_ok ?_)
    have : matrixEnter i w more s = .ok (none, s) := by unfold matrixEnter; rw [bind_ok he]; rfl
    rw [bind_ok this]; simp only; rw [bind_ok hh]; rfl
  | spire reads merge checks hx => exact (hx s).trans (answer_ok (by rw [bind_ok he]; simp only; rw [bind_ok hh]; rfl))

omit hL in
theorem enters_refuses (h : Enters i w) (hf : laneForm 64 i = some (f, w)) (ha : G.active ≠ []) (hg : w.guardOk = false) :
    exec i s = .next (s.takeTrap { cause := 0x01 }) := by
  have he := laneEnter_refuses hc hT hG ha hg
  cases h with
  | run eff hx => exact (hx s).trans (answer_trap (by simp only [hf]; rw [bind_error he]))
  | waits rest hx => exact (hx s).trans (answer_trap (bind_error he))
  | matrix more eff hn hx => exact (hx s).trans (answer_trap (bind_error (bind_error he)))
  | spire reads merge checks hx => exact (hx s).trans (answer_trap (bind_error he))

omit hc hT hG hL in
theorem laneChecks_illegal {x : LaneCtx} (hf : laneForm x.G.lanes.length i = some (f, w)) (hl : f.legal w x.L.vregs x.L.aregs x.L.tiles = false) :
    laneChecks x i s = .error (.trap { cause := 0x01 }, s) := by
  unfold laneChecks
  rw [hf]
  exact bind_error (require_fail hl ..)

theorem enters_illegal (h : Enters i w) (hf' : laneForm 64 i = some (f', w)) (hf : laneForm G.lanes.length i = some (f, w))
    (hp : ∃ j ∈ G.active, (G.lane j).passes w.guard.toNat w.neg = true) (hl : f.legal w L.vregs L.aregs L.tiles = false) :
    exec i s = .next (s.takeTrap { cause := 0x01 }) := by
  by_cases hg : w.guardOk = true
  case neg =>
    obtain ⟨j, hj, -⟩ := hp
    exact enters_refuses hc hT hG h hf' (List.ne_nil_of_mem hj) (Bool.eq_false_iff.2 hg)
  have he := laneEnter_some hc hT hG hL hp hg
  have hx (ps : List Nat) := laneChecks_illegal (s := s) (x := { c := c, T := T, G := G, L := L, parts := ps }) hf hl
  cases h with
  | run eff hr => exact (hr s).trans (answer_trap (by simp only [hf']; rw [bind_ok he]; exact bind_error (hx _)))
  | waits rest hr => exact (hr s).trans (answer_trap (by rw [bind_ok he]; exact bind_error (hx _)))
  | matrix more eff hn hr =>
    refine (hr s).trans (answer_trap (bind_error ?_))
    have hleg : (w.guard == 127 && f'.legal w L.vregs L.aregs L.tiles
        && more { c := c, T := T, G := G, L := L, parts := G.active.filter fun j => (G.lane j).passes w.guard.toNat w.neg }) = false := by
      rw [hn, hf'] at hf
      obtain rfl : f' = f := by injection hf with hf; exact congrArg Prod.fst hf
      simp [hl]
    unfold matrixEnter
    rw [bind_ok he]
    simp only [hf']
    exact bind_error (require_fail hleg ..)
  | spire reads merge checks hr => exact (hr s).trans (answer_trap (by rw [bind_ok he]; exact bind_error (hx _)))

end

/-- Settles O34: every such word enters its lanes first. -/
theorem idleWordsSkip : Obligations.IdleWordsSkip := by
  refine ⟨fun i c T G L f w s hc hT hG _ hf ha => ?_, fun i c T G L f f' w s hc hT hG hL hf' hf ha => ?_⟩
  · have h := enters_of_form hf ha
    exact ⟨fun h0 => enters_skips hc hT hG h hf (laneEnter_none hc hT hG (.inl h0)),
      fun hg h0 => enters_skips hc hT hG h hf (laneEnter_none hc hT hG (.inr ⟨hg, h0⟩))⟩
  · have h := enters_of_form hf' ha
    exact ⟨fun h0 hg => enters_refuses hc hT hG h hf' h0 hg, fun hp hl => enters_illegal hc hT hG hL h hf' hf hp hl⟩

end Sys2Proof.Proofs
end

section
/-! SUPPORT. LGET, QNT, DQNT, AADDA and ANEG (R44, R110, R119 to R121, R157). -/

namespace Sys2Proof.Proofs
open Machine Claims Laws

variable {w : LaneWord} {x : LaneCtx} {s : State} {t : Option CTable}

theorem special_of_laneSpecial {i v : Nat} {l : Lane} (h : laneSpecial x s (w.bits 7 0) i l = some v) : x.special s w i l = v := by
  unfold laneSpecial at h
  unfold LaneCtx.special
  generalize hn : w.bits 7 0 = n at h ⊢
  by_cases h1 : n = 1
  · subst h1
    simp [specialRead] at h
  · split at h
    case h_5 h0 h7 hC hD =>
      rw [specialRead_eq] at h
      cases hg : x.G.special x.c.grp n <;> cases hs : s.special x.T x.L n <;> simp_all
    all_goals exact Option.some.inj h

theorem lget_run (x : LaneCtx) (w : LaneWord) (s : State) :
    (do let s ← get; writesV x w.vd.toNat fun i l => x.special s w i l : M Unit) s
      = .ok ((), s.modGroup x.c.team x.c.grp fun g => g.mapLanesI x.parts fun i l => l.setV w.vd.toNat (x.special s w i l)) := rfl

theorem exec_lget_written (hr : LaneReady (.lget w) w x s) :
    exec (.lget w) s = .next (laneWritten (fun i l => l.setV w.vd.toNat (x.special s w i l)) x s) :=
  (exec_lget ..).trans (laneRun_next hr (lget_run x w s) hr.clean)

theorem qnt_counts (hr : LaneReady (.qnt w) w x s) (ht : wordTable x w s = .ok (t, s)) :
    exec (.qnt w) s = .next (((s.modGroup x.c.team x.c.grp fun g => g.mapLanes x.parts fun l =>
        l.setV w.vd.toNat (convertPart (ETy.get (w.bits 12 8) 0) w.ety (w.bits 4 0)
          (fun e => (quantise w.ty.toNat (scaleOf w (x.b w l)) t ((ETy.get (w.bits 12 8) 0).value e)).1) (x.a w l) (l.getV w.vd.toNat))).modCore x.T.core
        (Core.addNans ((x.parts.map fun i => nanElems w t (x.a w (x.G.lane i)) (x.b w (x.G.lane i))).foldl (· + ·) 0))).laneNext x.c) := by
  refine (exec_qnt ..).trans (laneRun_next hr ?_ ?_)
  · simp only [bind_ok ht]
    rfl
  · exact hr.clean

theorem dqnt_writes (hr : LaneReady (.dqnt w) w x s) (ht : wordTable x w s = .ok (t, s)) :
    exec (.dqnt w) s = .next (laneComputed (fun x w l => l.setV w.vd.toNat (convertPart (ETy.get (w.bits 12 8) 0) w.ety (w.bits 4 0)
        (dequantise w.ety.fmt (Rm.ofCode w.rm.toNat) (w.bits 12 8) (scaleOf w (x.b w l)) t) (x.a w l) (l.getV w.vd.toNat))) x w s) := by
  refine (exec_dqnt ..).trans (laneRun_next hr ?_ ?_)
  · simp only [bind_ok ht]
    rfl
  · exact hr.clean

/-- Settles O35. -/
theorem openLaneWordsComplete : Obligations.OpenLaneWordsComplete := by
  intro w x t s
  refine ⟨fun hr hv => ?_, fun hr h1 => ?_, fun hr ht => qnt_counts hr ht, fun hr ht => dqnt_writes hr ht, ?_⟩
  · rw [exec_lget_written hr]
    congr 3
    funext i l
    obtain ⟨v, hv⟩ := Option.isSome_iff_exists.1 (hv i l)
    rw [hv, special_of_laneSpecial hv]
    rfl
  · rw [exec_lget_written hr]
    congr 3
    funext i l
    simp only [LaneCtx.special, h1]
    rfl
  · rintro i (rfl | rfl) hr
    · exact ⟨fun j => freeCounters (s.free + j), (exec_aadda ..).trans (laneRun_next hr rfl hr.clean)⟩
    · exact ⟨fun j => freeCounters (s.free + j), (exec_aneg ..).trans (laneRun_next hr rfl hr.clean)⟩

end Sys2Proof.Proofs
end

section
/-! SUPPORT. The cross-lane words (R142 to R147). -/

namespace Sys2Proof.Proofs
open Machine Claims Laws

variable {i : Instr} {w : LaneWord} {x : LaneCtx} {s s' : State} {eff : LaneCtx → LaneWord → M Unit} {v : Nat} {fx : Nat → Lane → Lane}

/-- A lane word whose effect halts answers the halt. -/
theorem laneRun_halts {e : Halt} (h : LaneReady i w x s) (he : eff x w s = .error (e, s')) : laneRun i eff s = e.answer s' := by
  obtain ⟨f, f', hf', -, -, -⟩ := h.form
  unfold laneRun
  rw [answer_eq]
  simp only [hf']
  rw [bind_ok (laneEnter_ok h)]
  simp only
  rw [bind_ok (laneChecks_ok h), bind_error he]

/-! ### Room in the queue (R143) -/

theorem roomToPush_ok (h : x.G.lq.length < 64) (s : State) : roomToPush x s = .ok ((), s) := by
  simp only [roomToPush, ge_iff_le, Nat.not_le.2 h, if_false, pure_run]

theorem roomToPush_hangs (h : 64 ≤ x.G.lq.length) (hw : x.L.detm = 2 ∨ x.G.stallS = some .runs) (s : State) :
    roomToPush x s = .error (.trap { cause := 0x38, tinfo := 3 }, s) := by
  have hc : (decide (x.L.detm = 2) || x.G.stallS == some .runs) = true := by simpa using hw
  simp only [roomToPush, ge_iff_le, h, if_true, hc, bind_run, trap_run]
  rfl

theorem roomToPush_stalls (h : 64 ≤ x.G.lq.length) (hw : ¬(x.L.detm = 2 ∨ x.G.stallS = some .runs)) (s : State) :
    roomToPush x s = .error (.stall .queueFull, s) := by
  have hc : (decide (x.L.detm = 2) || x.G.stallS == some .runs) = false := by simpa using hw
  simp only [roomToPush, ge_iff_le, h, if_true, hc, Bool.false_eq_true, if_false, stallOn_run]

/-- VD of every participant written, after the entry that `.push` asks for. -/
def pollRun (x : LaneCtx) (w : LaneWord) (v : Nat) (fx : Nat → Lane → Lane) : M Unit := do
  roomIf x w
  pushIf x w v
  upd fun s => s.modGroup x.c.team x.c.grp fun g => g.mapLanesI x.parts fx

theorem poll_exec (h : pollFx x w i = some (v, fx)) :
    ∃ eff, (∀ s, exec i s = laneRun i eff s) ∧ eff x w = pollRun x w v fx := by
  cases i <;> simp only [pollFx, Option.some.injEq, Prod.mk.injEq, reduceCtorEq] at h
  all_goals obtain ⟨rfl, rfl⟩ := h
  case pollThr u => exact ⟨_, exec_pollThr u, rfl⟩
  case pollMask u => exact ⟨_, exec_pollMask u, rfl⟩
  case pollRank u => exact ⟨_, exec_pollRank u, rfl⟩
  case keyg u => exact ⟨_, exec_keyg u, rfl⟩
  case lead u => exact ⟨_, exec_lead u, rfl⟩
  case gred op u => exact ⟨_, exec_gred op u, rfl⟩

theorem pollRun_writes (h : w.md.toNat % 2 = 0) (s : State) :
    pollRun x w v fx s = .ok ((), s.modGroup x.c.team x.c.grp fun g => g.mapLanesI x.parts fx) := by
  have h1 : ¬w.md.toNat % 2 = 1 := by omega
  simp only [pollRun, roomIf, pushIf, h1, if_false, bind_run, pure_run, upd_run]

theorem pollRun_pushes (h : w.md.toNat % 2 = 1) (hq : x.G.lq.length < 64) (s : State) :
    pollRun x w v fx s = .ok ((), (pushed x v s).modGroup x.c.team x.c.grp fun g => g.mapLanesI x.parts fx) := by
  simp only [pollRun, roomIf, pushIf, h, if_true, bind_run, roomToPush_ok hq, pushEntry, upd_run, pushed]

theorem pollRun_halts {e : Halt} (h : w.md.toNat % 2 = 1) (hr : roomToPush x s = .error (e, s)) : pollRun x w v fx s = .error (e, s) := by
  simp only [pollRun, roomIf, h, if_true, bind_run, hr]

/-- Words that push wait for room, or raise HANG. -/
theorem push_waits {e : Halt} (hr : LaneReady i w x s) (h : (pollFx x w i).isSome = true ∧ w.md.toNat % 2 = 1 ∨ i = .lpush w)
    (hq : roomToPush x s = .error (e, s)) : exec i s = e.answer s := by
  obtain ⟨hp, hm⟩ | rfl := h
  · obtain ⟨⟨v, fx⟩, hp⟩ := Option.isSome_iff_exists.1 hp
    obtain ⟨eff, hx, he⟩ := poll_exec hp
    exact (hx s).trans (laneRun_halts hr ((congrFun he s).trans (pollRun_halts hm hq)))
  · exact (exec_lpush ..).trans (laneRun_halts hr (bind_error hq))

/-! ### Moves across the group (R145, R146) -/

theorem across_eq (x : LaneCtx) (w : LaneWord) (n : Nat) : x.across w n = if (x.G.lane n).nest != 255 then x.a w (x.G.lane n) else 0 := rfl

/-- What an XLN leaves in a lane, element by element. -/
def moved (x : LaneCtx) (w : LaneWord) (f : Nat → Nat → Int) (j : Nat) (l : Lane) : Nat :=
  packElems w.ety.w ((List.range w.ety.subn).map fun e =>
    if f j e < 0 ∨ f j e ≥ x.G.lanes.length * w.ety.subn then elemAt w.ety.w e (x.a w l)
    else elemAt w.ety.w ((f j e).toNat % w.ety.subn)
      (if (x.G.lane ((f j e).toNat / w.ety.subn)).nest != 255 then x.a w (x.G.lane ((f j e).toNat / w.ety.subn)) else 0))

theorem gathered_eq {f : Nat → Nat → Int} {g : Nat → Int} {j : Nat} (h : ∀ e, g (j * w.ety.subn + e) = f j e) (l : Lane) :
    x.gathered w g j l = moved x w f j l := by
  unfold LaneCtx.gathered moved LaneCtx.sourceElem
  simp only [h, across_eq, Bool.or_eq_true, decide_eq_true_eq]

theorem moves_next {g : LaneCtx → LaneWord → Nat → Nat → Int} {f : Nat → Nat → Int} (hr : LaneReady i w x s) (hx : ∀ s, exec i s = laneRun i (moves g) s)
    (h : ∀ j e, g x w j (j * w.ety.subn + e) = f j e) :
    exec i s = .next (laneWritten (fun j l => l.setV w.vd.toNat (moved x w f j l)) x s) := by
  refine (hx s).trans (laneRun_next hr (s' := s.modGroup x.c.team x.c.grp fun g' => g'.mapLanesI x.parts fun j l =>
    l.setV w.vd.toNat (x.gathered w (g x w j) j l)) ?_ hr.clean) |>.trans ?_
  · unfold moves
    rw [bind_ok (checkRegs_clean hr.clean ..)]
    rfl
  · simp only [gathered_eq (h _)]
    rfl

theorem xln_next (hr : LaneReady i w x s) (h : ∀ j e, (xlnSource x w j e i).isSome = true) :
    exec i s = .next (laneWritten (fun j l => l.setV w.vd.toNat (moved x w (fun j e => (xlnSource x w j e i).getD 0) j l)) x s) := by
  have h0 := h 0 0
  cases i <;> simp only [xlnSource, Option.isSome_none, Bool.false_eq_true] at h0
  case xlnGet u =>
    refine moves_next hr (exec_xlnGet u) fun j e => ?_
    simp only [xlnSource, Option.getD_some, Nat.add_sub_cancel_left]
  case xlnFlip u => exact moves_next hr (exec_xlnFlip u) fun j e => rfl
  case xlnRot u => exact moves_next hr (exec_xlnRot u) fun j e => rfl
  case xlnSlide u => exact moves_next hr (exec_xlnSlide u) fun j e => rfl

theorem bcst_next (hr : LaneReady (.bcst w) w x s) : exec (.bcst w) s = .next (laneWritten (fun _ l => l.setV w.vd.toNat
    (if (x.G.lane (w.bits 5 0)).nest != 255 then x.a w (x.G.lane (w.bits 5 0)) else 0)) x s) := by
  refine (exec_bcst ..).trans (laneRun_next hr ?_ hr.clean)
  by_cases h : (!w.kA && (x.G.lane (w.bits 5 0)).occupied) = true
  · simp only [h, if_true]
    rw [bind_ok (checkRegs_clean hr.clean ..)]
    rfl
  · simp only [h]
    rfl

/-- Settles O36. -/
theorem laneExchangeComplete : Obligations.LaneExchangeComplete := by
  refine ⟨fun i v fx w x s hr => ⟨fun hp => ?_, fun hi hq => ?_, fun hp hq => ⟨fun hw => ?_, fun hw => ?_⟩⟩, fun i w x s hr => ⟨xln_next hr, ?_, ?_⟩⟩
  · obtain ⟨eff, hx, he⟩ := poll_exec hp
    exact ⟨fun hm => (hx s).trans (laneRun_next hr ((congrFun he s).trans (pollRun_writes hm s)) hr.clean),
      fun hm hq => (hx s).trans (laneRun_next hr ((congrFun he s).trans (pollRun_pushes hm hq s)) hr.clean)⟩
  · subst hi
    refine (exec_lpush ..).trans (laneRun_next hr ?_ hr.clean)
    rw [bind_ok (roomToPush_ok hq s)]
    rfl
  · exact push_waits hr hp (roomToPush_hangs hq hw s)
  · exact push_waits hr hp (roomToPush_stalls hq hw s)
  · rintro rfl
    exact bcst_next hr
  · rintro op excl rfl
    exact (exec_gscan ..).trans (laneRun_next hr rfl hr.clean)

end Sys2Proof.Proofs
end

section
/-! SUPPORT. GSYNC (R147). -/

namespace Sys2Proof.Proofs
open Machine Claims Laws

variable {w : LaneWord} {x : LaneCtx} {s : State}

/-- The lanes that a participant of GSYNC names. -/
def gsyncNamed (x : LaneCtx) (w : LaneWord) (j : Nat) : Nat := x.a w (x.G.lane j) &&& maskLanes x.G.occupied

theorem headD_map (hp : x.parts ≠ []) (f : Nat → Nat) : (x.parts.map f).headD 0 = f (x.parts.headD 0) := by
  cases h : x.parts with
  | nil => exact absurd h hp
  | cons a l => rfl

/-- What GSYNC does, in the order of its checks. -/
def gsyncRun (x : LaneCtx) (w : LaneWord) : M Unit := do
  let p := maskLanes x.parts
  let m := gsyncNamed x w (x.parts.headD 0)
  require (x.parts.all fun j => gsyncNamed x w j == m) 0x04 (BitVec.ofNat 64 p)
  require (p &&& m == p) 0x04 (BitVec.ofNat 64 p)
  require (m &&& p == m) 0x03 (BitVec.ofNat 64 p) 0 1
  if (← get).laneBusy x.c.team x.c.grp x.T.core x.parts then stallOn .fence

theorem exec_gsync_run (hr : LaneReady (.gsync w) w x s) : ∃ eff, exec (.gsync w) s = laneRun (.gsync w) eff s ∧ eff x w = gsyncRun x w := by
  refine ⟨_, exec_gsync w s, ?_⟩
  unfold gsyncRun
  simp only [headD_map hr.acts, List.all_map]
  rfl

section
variable (hr : LaneReady (.gsync w) w x s)
include hr

theorem gsync_halts {e : Halt} (h : gsyncRun x w s = .error (e, s)) : exec (.gsync w) s = e.answer s := by
  obtain ⟨eff, hx, he⟩ := exec_gsync_run hr
  exact hx.trans (laneRun_halts hr ((congrFun he s).trans h))

theorem gsync_next (h : gsyncRun x w s = .ok ((), s)) : exec (.gsync w) s = .next (s.laneNext x.c) := by
  obtain ⟨eff, hx, he⟩ := exec_gsync_run hr
  exact hx.trans (laneRun_next hr ((congrFun he s).trans h) hr.clean)

/-- Every participant names the same lanes: the participants. -/
theorem gsync_agrees (h : ∀ j ∈ x.parts, gsyncNamed x w j = maskLanes x.parts) :
    gsyncRun x w s = (if s.laneBusy x.c.team x.c.grp x.T.core x.parts = true then .error (.stall .fence, s) else .ok ((), s)) := by
  obtain ⟨a, l, hl⟩ := List.exists_cons_of_ne_nil hr.acts
  have hm : gsyncNamed x w (x.parts.headD 0) = maskLanes x.parts := h _ (by simp [hl])
  have hall : (x.parts.all fun j => gsyncNamed x w j == maskLanes x.parts) = true := by simpa using h
  unfold gsyncRun
  simp only [hm, bind_run, require_ok hall, Nat.and_self, BEq.rfl, require_ok, get_run]
  by_cases hb : s.laneBusy x.c.team x.c.grp x.T.core x.parts = true
  · simp only [hb, if_true, stallOn_run]
  · simp only [hb]; rfl

end

theorem gsync_differs (h : ∃ j ∈ x.parts, gsyncNamed x w j ≠ gsyncNamed x w (x.parts.headD 0)) :
    gsyncRun x w s = .error (.trap { cause := 0x04, tlane := BitVec.ofNat 64 (maskLanes x.parts) }, s) := by
  obtain ⟨j, hj, hne⟩ := h
  have hall : (x.parts.all fun j => gsyncNamed x w j == gsyncNamed x w (x.parts.headD 0)) = false :=
    List.all_eq_false.2 ⟨j, hj, by simpa using hne⟩
  exact bind_error (require_fail hall ..)

section
variable (h : ∀ j ∈ x.parts, gsyncNamed x w j = gsyncNamed x w (x.parts.headD 0))
include h

theorem gsync_leavesOut (hp : maskLanes x.parts &&& gsyncNamed x w (x.parts.headD 0) ≠ maskLanes x.parts) :
    gsyncRun x w s = .error (.trap { cause := 0x04, tlane := BitVec.ofNat 64 (maskLanes x.parts) }, s) := by
  have hall : (x.parts.all fun j => gsyncNamed x w j == gsyncNamed x w (x.parts.headD 0)) = true := by simpa using h
  unfold gsyncRun
  exact (bind_ok (require_ok hall ..)).trans (bind_error (require_fail (beq_false_of_ne hp) ..))

theorem gsync_namesOther (hp : maskLanes x.parts &&& gsyncNamed x w (x.parts.headD 0) = maskLanes x.parts)
    (hne : gsyncNamed x w (x.parts.headD 0) ≠ maskLanes x.parts) :
    gsyncRun x w s = .error (.trap { cause := 0x03, tlane := BitVec.ofNat 64 (maskLanes x.parts), tinfo := 1 }, s) := by
  have hall : (x.parts.all fun j => gsyncNamed x w j == gsyncNamed x w (x.parts.headD 0)) = true := by simpa using h
  have hsub : (gsyncNamed x w (x.parts.headD 0) &&& maskLanes x.parts == gsyncNamed x w (x.parts.headD 0)) = false := by
    rw [Nat.and_comm, hp]
    exact beq_false_of_ne hne.symm
  unfold gsyncRun
  exact (bind_ok (require_ok hall ..)).trans ((bind_ok (require_ok (beq_iff_eq.2 hp) ..)).trans (bind_error (require_fail hsub ..)))

end

/-- Settles O37. -/
theorem gsyncCompletes : Obligations.GsyncCompletes := by
  intro w x s hr
  refine ⟨fun h hb => gsync_next hr ((gsync_agrees hr h).trans (if_neg (Bool.eq_false_iff.1 hb))), fun h hb => gsync_halts hr ((gsync_agrees hr h).trans (if_pos hb)),
    fun h => gsync_halts hr (gsync_differs h), fun h hp => gsync_halts hr (gsync_leavesOut h hp),
    fun h hp hne => gsync_halts hr (gsync_namesOther h hp hne)⟩

end Sys2Proof.Proofs
end

section
/-! SUPPORT. The words of structured control (R132 to R136). -/

namespace Sys2Proof.Proofs
open Machine Claims Laws

variable {i : Instr} {w : LaneWord} {c : Cur} {T : Team} {G X : Group} {L : Launch} {form : Form} {s s' : State} {eff : LaneCtx → LaneWord → M Unit}
  {f : Lane → Nat}

/-- The context of a word of structured control: the active lanes. -/
def controlCtx (c : Cur) (T : Team) (G : Group) (L : Launch) : LaneCtx := { c := c, T := T, G := G, L := L, parts := G.active }

section
variable (hc : s.cur = some c) (hT : s.team? c.team = some T) (hG : s.group? c.team c.grp = some G) (hL : s.launchOf? c.team = some L)
include hc hT hG hL

theorem controlCtx_ok : laneCtx G.active s = .ok (controlCtx c T G L, s) := laneCtx_ok (x := controlCtx c T G L) hc hT hG hL

theorem controlRun_ok (hf : laneForm 64 i = some (form, w))
    (hl : G.active ≠ [] → w.guard = 127 ∧ w.neg = false ∧ form.legal w L.vregs L.aregs L.tiles = true) :
    controlRun i eff s = M.answer (eff (controlCtx c T G L) w) s := by
  unfold controlRun
  refine answer_congr ?_
  simp only [hf]
  rw [bind_ok (here_ok hc hT hG)]
  simp only
  rw [bind_ok (controlCtx_ok hc hT hG hL)]
  by_cases ha : G.active = []
  · simp [ha, controlCtx]
  · obtain ⟨h1, h2, h3⟩ := hl ha
    have hreq : (w.guard == 127 && !w.neg && form.legal w L.vregs L.aregs L.tiles) = true := by simp [h1, h2, h3]
    have hne : (!G.active.isEmpty) = true := by simpa using ha
    simp only [hne, if_true]
    exact bind_ok (require_ok hreq ..)

theorem controlRun_illegal (hf : laneForm 64 i = some (form, w)) (ha : G.active ≠ [])
    (hl : ¬(w.guard = 127 ∧ w.neg = false ∧ form.legal w L.vregs L.aregs L.tiles = true)) :
    controlRun i eff s = .next (s.takeTrap { cause := 0x01 }) := by
  unfold controlRun
  refine answer_trap ?_
  simp only [hf]
  rw [bind_ok (here_ok hc hT hG)]
  simp only
  rw [bind_ok (controlCtx_ok hc hT hG hL)]
  have hreq : (w.guard == 127 && !w.neg && form.legal w L.vregs L.aregs L.tiles) = false := by
    simpa only [Bool.eq_false_iff, ne_eq, Bool.and_eq_true, beq_iff_eq, Bool.not_eq_true', and_assoc] using hl
  have hne : (!G.active.isEmpty) = true := by simpa using ha
  simp only [hne, if_true]
  exact bind_error (require_fail hreq ..)

end

/-- A word of structured control in hand does what it does to the active lanes. -/
theorem controlReady_run (h : ControlReady i w c T G L s) : controlRun i eff s = M.answer (eff (controlCtx c T G L) w) s := by
  obtain ⟨f, hf, hl⟩ := h.form
  exact controlRun_ok h.cur h.team h.group h.launch hf hl

theorem setCounters_run (f : Lane → Nat) (s : State) : M.answer (setCounters (controlCtx c T G L) f) s = .next (counted c f s) := rfl

theorem depthCheck_ok {n : Nat} (h : deepLanes G n = []) (s : State) : depthCheck (controlCtx c T G L) n s = .ok ((), s) :=
  require_ok (show (deepLanes G n).isEmpty = true by simp [h]) ..

theorem depthCheck_traps {n : Nat} (h : deepLanes G n ≠ []) (s : State) :
    depthCheck (controlCtx c T G L) n s = .error (.trap { cause := 0x03, tlane := BitVec.ofNat 64 (maskLanes (deepLanes G n)), tinfo := 2 }, s) :=
  require_fail (show (deepLanes G n).isEmpty = false by simpa using h) ..

/-- Every counter changed, once none can pass 254. -/
def countRun (limit : Nat) (f : Lane → Nat) (x : LaneCtx) : M Unit := do
  if limit < 256 then depthCheck x limit
  setCounters x f

/-- How the words that change counters execute: the depth is checked where the counter can rise past 254. -/
theorem counter_exec (h : counterFx w i = some f) :
    ∃ eff, (∀ s, exec i s = controlRun i eff s) ∧ ∀ x, eff x w = countRun (counterLimit i) f x := by
  cases i <;> simp only [counterFx, Option.some.injEq, reduceCtorEq] at h
  all_goals subst h
  case laneIf u => exact ⟨_, exec_laneIf u, fun x => rfl⟩
  case laneElse u => exact ⟨_, exec_laneElse u, fun x => rfl⟩
  case laneEndif u => exact ⟨_, exec_laneEndif u, fun x => rfl⟩
  case laneLoop u => exact ⟨_, exec_laneLoop u, fun x => rfl⟩
  case laneBrk u => exact ⟨_, exec_laneBrk u, fun x => rfl⟩
  case laneCont u => exact ⟨_, exec_laneCont u, fun x => rfl⟩

theorem counters_change (hr : ControlReady i w c T G L s) (hf : counterFx w i = some f) (hd : deepLanes G (counterLimit i) = []) :
    exec i s = .next (counted c f s) := by
  obtain ⟨eff, hx, he⟩ := counter_exec hf
  refine (hx s).trans ((controlReady_run hr).trans ?_)
  rw [he, countRun]
  by_cases hl : counterLimit i < 256
  · simp only [hl, if_true]
    exact (answer_congr (bind_ok (depthCheck_ok hd s))).trans (setCounters_run ..)
  · simp only [hl, if_false]
    exact setCounters_run ..

theorem counters_trap (hr : ControlReady i w c T G L s) (hf : counterFx w i = some f) (hd : deepLanes G (counterLimit i) ≠ []) (hl : counterLimit i < 256) :
    exec i s = .next (s.takeTrap { cause := 0x03, tlane := BitVec.ofNat 64 (maskLanes (deepLanes G (counterLimit i))), tinfo := 2 }) := by
  obtain ⟨eff, hx, he⟩ := counter_exec hf
  refine (hx s).trans ((controlReady_run hr).trans ?_)
  rw [he, countRun]
  simp only [hl, if_true]
  exact answer_trap (bind_error (depthCheck_traps hd s))

/-! ### ENDLOOP and STOP -/

/-- A group at the end of its clause, its lanes and registers as they were. -/
theorem endClause_face (G : Group) : flagFace G.endClause = flagFace { G with clause := none } := by
  unfold Group.endClause
  split
  · rename_i h
    rw [← h]
  · exact (flagFace_settleTags _).trans (flagFace_modTag ..)

/-- The group after ENDLOOP sends its run on. -/
def loopedGroup (imm : BitVec 32) (tick : Nat) (X : Group) : Group := ((X.joinLanes.countLane tick).endClause).aimRun imm

theorem loopedGroup_fields (imm : BitVec 32) (tick : Nat) (X : Group) :
    (loopedGroup imm tick X).lanes = X.lanes.map (fun l => if l.nest = 1 then { l with nest := 0 } else l)
      ∧ (loopedGroup imm tick X).clause = none ∧ (loopedGroup imm tick X).run = X.run.map (fun r => { r with target := imm })
      ∧ (loopedGroup imm tick X).ric = X.ric + 1 ∧ (loopedGroup imm tick X).regs = X.regs := by
  have h := endClause_face (X.joinLanes.countLane tick)
  have hrun : (X.joinLanes.countLane tick).endClause.run = X.run := congrArg (·.run) h
  exact ⟨congrArg (·.lanes) h, congrArg (·.clause) h, by show ((X.joinLanes.countLane tick).endClause.run).map _ = _; rw [hrun], congrArg (·.ric) h,
    congrArg (·.regs) h⟩

/-- The group after STOP. -/
def haltedGroup (tick : Nat) (G : Group) : Group := { (G.countLane tick).endClause with run := none }

theorem haltedGroup_fields (tick : Nat) (G : Group) :
    (haltedGroup tick G).run = none ∧ (haltedGroup tick G).clause = none ∧ (haltedGroup tick G).ric = G.ric + 1 ∧ (haltedGroup tick G).lanes = G.lanes
      ∧ (haltedGroup tick G).regs = G.regs ∧ (haltedGroup tick G).runs = G.runs := by
  have h := endClause_face (G.countLane tick)
  exact ⟨rfl, congrArg (·.clause) h, congrArg (·.ric) h, congrArg (·.lanes) h, congrArg (·.regs) h, congrArg (·.runs) h⟩

/-- The lanes that ENDLOOP finds still in the loop. -/
def loopLanes (G : Group) : List Nat := G.occupied.filter fun j => (G.lane j).nest.toNat ≤ 1

theorem loopLanes_none (h : ∀ j ∈ G.occupied, 2 ≤ (G.lane j).nest.toNat) : (loopLanes G).isEmpty = true := by
  rw [List.isEmpty_iff, loopLanes, List.filter_eq_nil_iff]
  exact fun j hj => by simpa using Nat.lt_of_lt_of_le (Nat.lt_succ_self 1) (h j hj)

theorem loopLanes_some (h : ∃ j ∈ G.occupied, (G.lane j).nest.toNat ≤ 1) : (loopLanes G).isEmpty = false := by
  obtain ⟨j, hj, hn⟩ := h
  rw [List.isEmpty_eq_false_iff_exists_mem]
  exact ⟨j, List.mem_filter.2 ⟨hj, by simpa using hn⟩⟩

/-- ENDLOOP, by whether a lane is left in the loop and a header lies at its target. -/
def endloopRun (w : LaneWord) (x : LaneCtx) : M Unit := do
  if (loopLanes x.G).isEmpty then setCounters x fun l => l.nest.toNat - 2
  else
    match ← headerAt w.imm.toNat with
    | none => halt (.trap { cause := cIllegalHeader, tlpc := some w.imm })
    | some _ => upd fun s => s.modGroup x.c.team x.c.grp (loopedGroup w.imm s.tick)

section
variable (hr : ControlReady (.laneEndloop w) w c T G L s)
include hr

theorem endloop_exec : exec (.laneEndloop w) s = M.answer (endloopRun w (controlCtx c T G L)) s :=
  (exec_laneEndloop w s).trans (controlReady_run hr)

theorem endloop_ends (h : ∀ j ∈ G.occupied, 2 ≤ (G.lane j).nest.toNat) :
    exec (.laneEndloop w) s = .next (counted c (fun l => l.nest.toNat - 2) s) := by
  rw [endloop_exec hr, endloopRun, if_pos (show (loopLanes (controlCtx c T G L).G).isEmpty = true from loopLanes_none h)]
  rfl

variable (h : ∃ j ∈ G.occupied, (G.lane j).nest.toNat ≤ 1)
include h

theorem endloop_loops {hd : Header} (hh : headerAt w.imm.toNat s = .ok (some hd, s')) (hX : s'.group? c.team c.grp = some X) :
    exec (.laneEndloop w) s = .next (s'.modGroup c.team c.grp fun _ => loopedGroup w.imm s'.tick X) := by
  rw [endloop_exec hr, endloopRun, if_neg (show ¬(loopLanes (controlCtx c T G L).G).isEmpty = true from Bool.eq_false_iff.1 (loopLanes_some h))]
  refine answer_ok (s' := s'.modGroup c.team c.grp fun _ => loopedGroup w.imm s'.tick X) ?_
  rw [bind_ok hh]
  exact congrArg (fun t => Except.ok ((), t)) (modGroup_congr fun Y hY => by injection hX.symm.trans hY with hY; rw [hY])

theorem endloop_noHeader (hh : headerAt w.imm.toNat s = .ok (none, s')) :
    exec (.laneEndloop w) s = .next (s'.takeTrap { cause := 0x06, tlpc := some w.imm }) := by
  rw [endloop_exec hr, endloopRun, if_neg (show ¬(loopLanes (controlCtx c T G L).G).isEmpty = true from Bool.eq_false_iff.1 (loopLanes_some h))]
  refine answer_trap ?_
  rw [bind_ok hh]
  rfl

end

theorem headerAt_beyond (hc : s.cur = some c) (hL : s.launchOf? c.team = some L) {n : Nat} (h : L.lsize ≤ n) : headerAt n s = .ok (none, s) := by
  unfold headerAt
  rw [bind_ok (hereLaunch_ok hc hL)]
  simp only [ge_iff_le, h, if_true, pure_run]

theorem stop_exec (hr : ControlReady (.laneStop w) w c T G L s) : exec (.laneStop w) s = M.answer (do
    require (deepLanes G 1).isEmpty cIllegalConvergence (BitVec.ofNat 64 (maskLanes (deepLanes G 1))) 0 3
    upd fun s => s.modGroup c.team c.grp (haltedGroup s.tick)) s :=
  (exec_laneStop w s).trans (controlReady_run hr)

theorem stop_ends (hr : ControlReady (.laneStop w) w c T G L s) (h : deepLanes G 1 = []) :
    exec (.laneStop w) s = .next (s.modGroup c.team c.grp fun _ => haltedGroup s.tick G) := by
  rw [stop_exec hr]
  refine answer_ok (s' := s.modGroup c.team c.grp fun _ => haltedGroup s.tick G) ?_
  rw [bind_ok (require_ok (show (deepLanes G 1).isEmpty = true by simp [h]) ..)]
  exact congrArg (fun t => Except.ok ((), t)) (modGroup_congr fun Y hY => by rw [hr.group] at hY; injection hY with hY; rw [hY])

theorem stop_traps (hr : ControlReady (.laneStop w) w c T G L s) (h : deepLanes G 1 ≠ []) :
    exec (.laneStop w) s = .next (s.takeTrap { cause := 0x03, tlane := BitVec.ofNat 64 (maskLanes (deepLanes G 1)), tinfo := 3 }) := by
  rw [stop_exec hr]
  exact answer_trap (bind_error (require_fail (show (deepLanes G 1).isEmpty = false by simpa using h) ..))

/-! ### Illegal fields -/

theorem controlRun_of_idle (ha : actsIdle i = true) (hn : ∀ v, i ≠ .rfil v) : ∃ eff, ∀ s, exec i s = controlRun i eff s := by
  cases i <;> simp only [actsIdle, Bool.false_eq_true] at ha
  case laneIf u => exact ⟨_, exec_laneIf u⟩
  case laneElse u => exact ⟨_, exec_laneElse u⟩
  case laneEndif u => exact ⟨_, exec_laneEndif u⟩
  case laneLoop u => exact ⟨_, exec_laneLoop u⟩
  case laneBrk u => exact ⟨_, exec_laneBrk u⟩
  case laneCont u => exact ⟨_, exec_laneCont u⟩
  case laneEndloop u => exact ⟨_, exec_laneEndloop u⟩
  case laneStop u => exact ⟨_, exec_laneStop u⟩
  case rfil u => exact absurd rfl (hn u)
  case mfen u => exact ⟨_, exec_mfen u⟩
  case mwait u => exact ⟨_, fun s => (exec_mwait u s).trans (by unfold execMwait mwaitRun; rfl)⟩
  case mwaitLast u => exact ⟨_, fun s => (exec_mwaitLast u s).trans (by unfold execMwaitLast mwaitRun; rfl)⟩

/-- Settles O38. -/
theorem controlWordsComplete : Obligations.ControlWordsComplete := by
  refine ⟨fun i f w c T G L s s' hr => ⟨counters_change hr, counters_trap hr, ?_, ?_, ?_, ?_⟩, fun i f w c T G L s s' => ⟨?_, ?_⟩⟩
  · rintro rfl h
    exact endloop_ends hr h
  · rintro rfl h hd X hh hX
    exact ⟨_, endloop_loops hr h hh hX, loopedGroup_fields ..⟩
  · rintro rfl h
    exact ⟨_, stop_ends hr h, haltedGroup_fields ..⟩
  · rintro rfl h
    exact stop_traps hr h
  · intro hc hT hG hL hf ha hn hact hl
    obtain ⟨eff, hx⟩ := controlRun_of_idle ha hn
    exact (hx s).trans (controlRun_illegal hc hT hG hL hf hact hl)
  · rintro rfl hr h
    exact ⟨endloop_noHeader hr h, fun hs => endloop_noHeader hr h (headerAt_beyond hr.cur hr.launch hs)⟩

end Sys2Proof.Proofs
end

section
/-! SUPPORT. EXIT and RFIL (R133, R138, R139, R231, R242, R243). -/

namespace Sys2Proof.Proofs
open Machine Claims Laws

variable {w : LaneWord} {x : LaneCtx} {c : Cur} {T : Team} {G : Group} {L : Launch} {s s' s'' : State} {stamp : Nat} {plan : List (Nat × Barge)}

theorem exit_next (hr : LaneReady (.laneExit w) w x s) :
    exec (.laneExit w) s = .next (((s.modLaunch x.T.launch fun l => { l with finished := l.finished + x.finishing }).modGroup x.c.team
      x.c.grp fun g => g.mapLanes x.parts fun l => l.setNest 255).laneNext x.c) :=
  (exec_laneExit ..).trans (laneRun_next hr rfl hr.clean)

/-- RFIL stands in its launch's refill clause. -/
def Placed (G : Group) (L : Launch) : Prop := ∃ k, G.clause = some k ∧ k.header = L.refill ∧ L.refill ≠ 0xFFFFFFFF
/-- Its fields are legal wherever a lane is active. -/
def RfilLegal (w : LaneWord) (G : Group) (L : Launch) : Prop :=
  G.active ≠ [] → w.guard = 127 ∧ w.neg = false ∧ fNone.legal w L.vregs L.aregs L.tiles = true

theorem placed_iff : (L.refill != 0xFFFFFFFF && G.clause.any fun k => k.header == L.refill) = true ↔ Placed G L := by
  simp only [Placed, Bool.and_eq_true, bne_iff_ne, ne_eq, Option.any_eq_true, beq_iff_eq]
  exact ⟨fun ⟨h, k, hk, e⟩ => ⟨k, hk, e, h⟩, fun ⟨k, hk, e, h⟩ => ⟨h, k, hk, e⟩⟩

/-- The registers that a fill may write. -/
def fillRegs (L : Launch) : List (Bool × Nat) := ((List.range L.vregs).map fun i => (false, i)) ++ ((List.range L.aregs).map fun i => (true, i))

/-- What RFIL does once its place and its fields are legal. -/
def rfilRun (x : LaneCtx) : M Unit := do
  require (x.deep 1).isEmpty cRefillDepth (BitVec.ofNat 64 (maskLanes (x.deep 1)))
  roomToPush x
  if x.G.outstanding (fillRegs x.L) then stallOn .landing
  let stamp ← orderedWait
  let plan ← refillPlan x
  orderedLog 7 stamp
  applyRefill x plan
  let n := plan.length
  upd fun s => (s.modLaunch x.T.launch fun l => { l with claim := l.claim + n }).modTeam x.c.team fun T =>
    { T with claimed := T.claimed || decide (n > 0) }
  match (← get).group? x.c.team x.c.grp with
  | some g => pushEntry x (refillEntry g.occupied.length (decide (x.L.claim + n ≥ x.L.nitems)))
  | none => pure ()
  retireLane x.c

section
variable (hc : s.cur = some c) (hT : s.team? c.team = some T) (hG : s.group? c.team c.grp = some G) (hL : s.launchOf? c.team = some L)
include hc hT hG hL

theorem rfil_misplaced (h : ¬Placed G L) : exec (.rfil w) s = .next (s.takeTrap { cause := 0x01 }) := by
  refine (exec_rfil ..).trans (answer_trap ?_)
  rw [bind_ok (here_ok hc hT hG)]
  simp only
  rw [bind_ok (hereLaunch_ok hc hL)]
  exact bind_error (require_fail (Bool.eq_false_iff.2 fun hp => h (placed_iff.1 hp)) ..)

theorem rfil_illegal (hp : Placed G L) (h : ¬RfilLegal w G L) : exec (.rfil w) s = .next (s.takeTrap { cause := 0x01 }) := by
  refine (exec_rfil ..).trans (answer_trap ?_)
  have ha : G.active ≠ [] := fun ha => h fun hn => absurd ha hn
  have hne : (!G.active.isEmpty) = true := by simpa using ha
  have hreq : (w.guard == 127 && !w.neg && fNone.legal w L.vregs L.aregs L.tiles) = false := by
    refine Bool.eq_false_iff.2 fun hl => h fun _ => ?_
    simpa only [Bool.and_eq_true, beq_iff_eq, Bool.not_eq_true', and_assoc] using hl
  rw [bind_ok (here_ok hc hT hG)]
  simp only
  rw [bind_ok (hereLaunch_ok hc hL), bind_ok (require_ok (placed_iff.2 hp) ..), bind_ok (controlCtx_ok hc hT hG hL)]
  simp only [hne, if_true]
  exact bind_error (require_fail hreq ..)

theorem rfil_exec (hp : Placed G L) (h : RfilLegal w G L) : exec (.rfil w) s = M.answer (rfilRun (controlCtx c T G L)) s := by
  refine (exec_rfil ..).trans (answer_congr ?_)
  rw [bind_ok (here_ok hc hT hG)]
  simp only
  rw [bind_ok (hereLaunch_ok hc hL), bind_ok (require_ok (placed_iff.2 hp) ..), bind_ok (controlCtx_ok hc hT hG hL)]
  by_cases ha : G.active = []
  · have hne : (!G.active.isEmpty) = false := by simp [ha]
    simp only [hne, Bool.false_eq_true, if_false]
    rfl
  · obtain ⟨h1, h2, h3⟩ := h ha
    have hreq : (w.guard == 127 && !w.neg && fNone.legal w L.vregs L.aregs L.tiles) = true := by simp [h1, h2, h3]
    have hne : (!G.active.isEmpty) = true := by simpa using ha
    simp only [hne, if_true]
    exact bind_ok (require_ok hreq ..)

end

theorem rfil_deep (h : deepLanes G 1 ≠ []) :
    rfilRun (controlCtx c T G L) s = .error (.trap { cause := 0x05, tlane := BitVec.ofNat 64 (maskLanes (deepLanes G 1)) }, s) :=
  bind_error (require_fail (show (deepLanes G 1).isEmpty = false by simpa using h) ..)

theorem rfil_waits {e : Halt} (h : deepLanes G 1 = []) (hq : roomToPush (controlCtx c T G L) s = .error (e, s)) :
    rfilRun (controlCtx c T G L) s = .error (e, s) :=
  (bind_ok (require_ok (show (deepLanes G 1).isEmpty = true by simp [h]) ..)).trans (bind_error hq)

/-- The group as a plan fills it. -/
def filledGroup (L : Launch) (plan : List (Nat × Barge)) (G : Group) : Group :=
  match L.grpMode, plan with
  | true, [] => G
  | true, ib :: _ => L.fillGroup ib.2 G
  | false, _ => L.fillLanes plan G

theorem applyRefill_run (hp : s.poison = []) (hG : s.group? c.team c.grp = some G) :
    applyRefill (controlCtx c T G L) plan s = .ok ((), s.modGroup c.team c.grp fun _ => filledGroup L plan G) := by
  unfold applyRefill clearFilled
  rw [bind_ok (clearRegs_clean hp ..)]
  exact congrArg (fun t => Except.ok ((), t)) (modGroup_congr fun Y hY => by injection hG.symm.trans hY with hY; rw [hY]; rfl)

/-- The state after a plan's claims. -/
def refilled (c : Cur) (T : Team) (G : Group) (L : Launch) (plan : List (Nat × Barge)) (s : State) : State :=
  (((s.modGroup c.team c.grp fun _ => filledGroup L plan G).modLaunch T.launch fun l => { l with claim := l.claim + plan.length }).modTeam c.team
    fun T => { T with claimed := T.claimed || decide (plan.length > 0) })

theorem refilled_group (hG : s.group? c.team c.grp = some G) : (refilled c T G L plan s).group? c.team c.grp = some (filledGroup L plan G) := by
  unfold refilled
  rw [group?_modTeam_keep _ _ _ _ (by exact fun _ => rfl)]
  show (s.modGroup c.team c.grp fun _ => filledGroup L plan G).group? c.team c.grp = _
  rw [group?_modGroup, if_pos ⟨rfl, rfl⟩, hG]
  rfl

theorem rfil_fills (hd : deepLanes G 1 = []) (hq : G.lq.length < 64) (ho : G.outstanding (fillRegs L) = false) (hw : orderedWait s = .ok (stamp, s))
    (hp : refillPlan (controlCtx c T G L) s = .ok (plan, s')) (hlog : orderedLog 7 stamp s' = .ok ((), s'')) (hc : s''.poison = [])
    (hG : s''.group? c.team c.grp = some G) :
    rfilRun (controlCtx c T G L) s = .ok ((), (pushed (controlCtx c T G L)
      ((filledGroup L plan G).occupied.length + if L.nitems ≤ L.claim + plan.length then 256 else 0) (refilled c T G L plan s'')).laneNext c) := by
  unfold rfilRun
  rw [bind_ok (require_ok (show ((controlCtx c T G L).deep 1).isEmpty = true from by show (deepLanes G 1).isEmpty = true; simp [hd]) ..),
    bind_ok (roomToPush_ok (x := controlCtx c T G L) hq s)]
  simp only [show (controlCtx c T G L).G.outstanding (fillRegs (controlCtx c T G L).L) = false from ho, Bool.false_eq_true, if_false]
  rw [bind_ok hw, bind_ok hp, bind_ok hlog, bind_ok (applyRefill_run hc hG), bind_ok (upd_run _ _), bind_ok (get_run _)]
  have hg := refilled_group (T := T) (L := L) (plan := plan) hG
  unfold refilled at hg
  simp only [controlCtx] at hg ⊢
  rw [hg]
  simp only [ge_iff_le, refillEntry, decide_eq_true_eq]
  rfl

/-- Settles O39. -/
theorem itemWordsComplete : Obligations.ItemWordsComplete := by
  intro w x c T G L stamp plan s s' s''
  refine ⟨fun hr => exit_next hr, fun hc hT hG hL hp hl hd hq ho hw hplan hlog hcl hG'' => ?_, fun hc hT hG hL => ⟨fun hp => ?_, fun hp hl => ?_,
    fun hp hl hd => ?_, fun hp hl hd hq hw => ?_, fun hp hl hd hq hw => ?_⟩⟩
  · exact (rfil_exec hc hT hG hL hp hl).trans (answer_ok (rfil_fills hd hq ho hw hplan hlog hcl hG''))
  · exact rfil_misplaced hc hT hG hL hp
  · exact rfil_illegal hc hT hG hL hp hl
  · exact (rfil_exec hc hT hG hL hp hl).trans (answer_trap (rfil_deep hd))
  · exact (rfil_exec hc hT hG hL hp hl).trans (answer_trap (rfil_waits hd (roomToPush_hangs (x := controlCtx c T G L) hq hw s)))
  · exact (rfil_exec hc hT hG hL hp hl).trans (answer_stall (rfil_waits hd (roomToPush_stalls (x := controlCtx c T G L) hq hw s)))

end Sys2Proof.Proofs
end

section
/-! SUPPORT. What lane memory words share: accesses at hand, the accesses in flight (R166, R253, R264). -/

namespace Sys2Proof.Proofs
open Machine Claims Laws

variable {i : Instr} {w : LaneWord} {x : LaneCtx} {hits : List Hit} {h : Hit} {s s' t : State} {X : Group} {ctx core n : Nat} {ag : Agent}

theorem modifyAt_id {α : Type} {f : α → α} (hf : ∀ a, f a = a) (k : Nat) (l : List α) : modifyAt f k l = l := by
  induction l generalizing k with
  | nil => cases k <;> rfl
  | cons a l ih =>
    cases k with
    | zero => simp [modifyAt, hf]
    | succ k => simp [modifyAt, ih]

theorem logAll_nil (s : State) (core : Nat) : s.logAll core [] = s := by
  unfold State.logAll State.modCore
  rw [modifyAt_id (by intro c; rw [List.append_nil])]

/-! ### Accesses at hand -/

theorem atHand_eq {p : Part} (h : s.atHand ctx core p = true) : s.mustLog ctx core p = false ∧ p.isPeer = false ∧ p.isHeld = false := by
  simpa [State.atHand, and_assoc] using h

/-- Every piece of some accesses is at hand. -/
def AllAtHand (ctx core : Nat) (hits : List Hit) (s : State) : Prop := ∀ h ∈ hits, ∀ p ∈ h.parts, s.atHand ctx core p = true

theorem peerReqs_atHand (ha : AllAtHand ctx core hits s) (op : Hit → Part → FabricOp) : peerReqs hits op = [] := by
  unfold peerReqs
  refine List.flatMap_eq_nil_iff.2 fun h hh => List.filterMap_eq_nil_iff.2 fun p hp => ?_
  obtain ⟨-, hpeer, -⟩ := atHand_eq (ha h hh p hp)
  obtain ⟨_, _, place, _, _, _, _, _⟩ := p
  cases place
  case peer => exact nomatch hpeer
  all_goals rfl

theorem effScope_atHand (ha : AllAtHand ctx core hits s) (scope : Nat) : effScope hits scope = scope := by
  have : (hits.any fun h => h.remote) = false := List.any_eq_false.2 fun h hh => by
    simpa [Hit.remote] using fun p hp => (atHand_eq (ha h hh p hp)).2.1
  simp [effScope, this]

theorem readsAtHand_eq (hh : ∀ p ∈ h.parts, s.atHand ctx core p = true) : s.readsAtHand ctx core n h = h.readAt n := by
  unfold State.readsAtHand
  rw [List.filter_eq_self.2 hh]

theorem bytesAtHand_eq (hh : ∀ p ∈ h.parts, s.atHand ctx core p = true) : s.bytesAtHand ctx core n h = s.readHit n h := by
  unfold State.bytesAtHand State.readHit
  split
  · rfl
  · unfold State.readParts
    refine congrArg List.flatten (List.map_congr_left fun p hp => if_pos (hh p hp))

theorem logEntries_atHand (hh : ∀ p ∈ h.parts, s.atHand x.L.ctx x.T.core p = true) (kind reg sub scope id : Nat) (op : Word) (data : List Byte) :
    logEntries x s h kind reg sub scope id op data = [] := by
  have hnil : h.parts.filter (s.mustLog x.L.ctx x.T.core) = [] := List.filter_eq_nil_iff.2 fun p hp => by simp [(atHand_eq (hh p hp)).1]
  simp [logEntries, State.logged, hnil]

/-- A word that has asked no other device, and needs not ask one, waits for no answer. -/
theorem awaitPeers_none (h : x.asked = false) (hits : List Hit) (size : Nat) (s : State) : awaitPeers x hits [] size 0 s = .ok (none, s) := by
  have hf : x.G.loads.find? (·.blocks) = none := List.find?_eq_none.2 fun r hr => by
    simpa using List.any_eq_false.1 (show (x.G.loads.any (·.blocks)) = false from h) r hr
  unfold awaitPeers
  rw [hf]
  rfl

/-! ### Accesses in flight -/

theorem enterLoad_run (hX : s.group? x.c.team x.c.grp = some X) (dsts : List LoadDst) (late scope : Nat) :
    enterLoad x dsts [] late scope s = .ok ((), loadEntered x X.nextRec scope dsts s late) := by
  unfold enterLoad
  simp only [bind_run, get_run, hX, upd_run, List.map_nil, logAll_nil, List.length_nil, Nat.zero_add, Option.elim_some]
  unfold loadEntered
  by_cases h0 : late = 0
  · simp only [h0, if_true, upd_run]
  · simp only [h0, if_false, pure_run]

theorem hereContext_of_agent (h : hereAgent s = .ok (ag, s)) : ∃ C, hereContext s = .ok (C, s) := by
  unfold hereAgent at h
  split at h
  case h_2 => cases h
  case h_1 a ha =>
    obtain ⟨c, hc, ha⟩ := Option.bind_eq_some_iff.1 ha
    unfold State.agentOf? at ha
    split at ha
    case h_2 => cases ha
    case h_1 T L C hT hL hC => exact ⟨C, hereContext_ok hc hC⟩

end Sys2Proof.Proofs
end

section
/-! SUPPORT. LD, LDS and ALD of lanes (R161, R166 to R169, R253). -/

namespace Sys2Proof.Proofs
open Machine Claims Laws

variable {i : Instr} {w : LaneWord} {x : LaneCtx} {reqs : List Req} {hits : List Hit} {s s' s'' t u : State} {X : Group} {ag : Agent} {stamp : Nat}
  {acc acq : Bool} {ty : Nat} {tr : TrapArgs}

/-- The state in which a load reads: an acquiring one is logged at its turn, and reads after its acquire. -/
structure LoadReads (x : LaneCtx) (acq : Bool) (scope stamp : Nat) (ag : Agent) (hits : List Hit) (s s' s'' t : State) : Prop where
  plain   : acq = false → t = s'
  turn    : acq = true → orderedWait s = .ok (stamp, s) ∧ orderedLog 3 stamp s' = .ok ((), s'') ∧ hereAgent s'' = .ok (ag, s'') ∧ t = s''.acquire ag scope
  hand    : AllAtHand x.L.ctx x.T.core hits t

theorem readsApart_teams (whole : Bool) (y : Apart) (accs : List ReadAt) (s : State) : (s.readsApart whole y accs).1.teams = s.teams := by
  obtain h | ⟨-, ⟨-, h⟩ | ⟨-, h⟩⟩ := readsApart_cases whole y accs s <;> rw [h] <;> rfl

theorem readsApart_poison (whole : Bool) (y : Apart) (accs : List ReadAt) (s : State) : (s.readsApart whole y accs).1.poison = s.poison := by
  obtain h | ⟨-, ⟨-, h⟩ | ⟨-, h⟩⟩ := readsApart_cases whole y accs s <;> rw [h] <;> rfl

theorem group?_congr {s t : State} (h : t.teams = s.teams) (u g : Nat) : t.group? u g = s.group? u g := by
  simp only [State.group?, h]

/-- The destinations of loads that read now. -/
def loadDsts (x : LaneCtx) (hits : List Hit) (acc : Bool) (reg ty : Nat) (s : State) : List LoadDst :=
  hits.map fun h => { lane := h.req.lane, acc := acc, reg := reg, ty := ty, bytes := s.readHit x.c.team h }

/-- The last part of a lane load: it reads, and is in flight. -/
def landLoads (x : LaneCtx) (hits : List Hit) (acc : Bool) (reg ty kind scope sc : Nat) (clocked : Bool) : M Unit := do
  let s ← get
  let dsts : List LoadDst := hits.map fun h =>
    { lane := h.req.lane, acc := acc, reg := reg, ty := ty
      bytes := withAnswers none h (s.bytesAtHand x.L.ctx x.T.core x.c.team h) }
  let (s', late) := s.readsApart clocked { Apart.of x.c 0 with load := some x.G.nextRec } (hits.map (s.readsAtHand x.L.ctx x.T.core x.c.team))
  set s'
  enterLoad x dsts (hits.flatMap fun h => logEntries x s h kind reg ty scope 0 0 []) late sc

theorem landLoads_run {reg ty kind scope sc : Nat} {clocked : Bool} (hh : AllAtHand x.L.ctx x.T.core hits t) (hX : t.group? x.c.team x.c.grp = some X) :
    landLoads x hits acc reg ty kind scope sc clocked t = .ok ((), loadEntered x X.nextRec sc (loadDsts x hits acc reg ty t) (lanesRead x clocked hits t).1
      (lanesRead x clocked hits t).2) := by
  have hlog : (hits.flatMap fun h => logEntries x t h kind reg ty scope 0 0 []) = [] :=
    List.flatMap_eq_nil_iff.2 fun h hm => logEntries_atHand (hh h hm) ..
  have hreads : hits.map (t.readsAtHand x.L.ctx x.T.core x.c.team) = hits.map fun h => h.readAt x.c.team :=
    List.map_congr_left fun h hm => readsAtHand_eq (hh h hm)
  have hbytes : (hits.map fun h =>
      ({ lane := h.req.lane, acc := acc, reg := reg, ty := ty
         bytes := withAnswers none h (t.bytesAtHand x.L.ctx x.T.core x.c.team h) : LoadDst })) = loadDsts x hits acc reg ty t :=
    List.map_congr_left fun h hm => by rw [bytesAtHand_eq (hh h hm)]; rfl
  have hXq : (lanesRead x clocked hits t).1.group? x.c.team x.c.grp = some X := (group?_congr (readsApart_teams ..) ..).trans hX
  unfold landLoads
  rw [bind_ok (get_run t)]
  simp only [hlog, hreads, hbytes]
  rw [bind_ok (set_run ..)]
  exact enterLoad_run hXq ..

/-- Lane loads of addresses at hand. -/
theorem laneLoad_run {reg ty kind scope : Nat} (hr : LanesReach x acq false reqs hits s s') (ht : LoadReads x acq scope stamp ag hits s s' s'' t)
    (hX : t.group? x.c.team x.c.grp = some X) :
    let q := lanesRead x (acq && x.L.detm == 2) hits t
    laneLoad x reqs acc reg ty kind scope acq s = .ok ((), loadEntered x X.nextRec (if acq then scope else 0) (loadDsts x hits acc reg ty t) q.1 q.2) := by
  intro q
  have hpeers := peerReqs_atHand hr.hand fun _ p => .read p.len
  unfold laneLoad
  cases acq with
  | false =>
    obtain rfl := ht.plain rfl
    simp only [Bool.false_eq_true, if_false, bind_run, pure_run, hr.checks, hr.ready, Bool.false_and, hpeers, awaitPeers_none hr.asked]
    exact landLoads_run ht.hand hX
  | true =>
    obtain ⟨ho, hl, ha, rfl⟩ := ht.turn rfl
    simp only [if_true, bind_run, ho, hr.checks, hr.ready, hr.asked, Bool.true_and, Bool.not_false, hl, hpeers, awaitPeers_none hr.asked, ha, upd_run,
      effScope_atHand ht.hand]
    exact landLoads_run ht.hand hX

theorem loadEntered_poison (id scope late : Nat) (dsts : List LoadDst) (s : State) : (loadEntered x id scope dsts s late).poison = s.poison := by
  unfold loadEntered
  by_cases h : late = 0
  · simp only [h, if_true]; rfl
  · simp only [h, if_false]; rfl

/-- A lane load's word, its kind and its scope. -/
theorem load_exec (h : loadOf x w i = some (reqs, acc, ty)) : ∃ eff kind, (∀ s, exec i s = laneRun i eff s)
    ∧ eff x w = laneLoad x reqs acc w.vd.toNat ty kind (if acc then 0 else scopeOf w) (laneAcquires w acc) := by
  cases i <;> simp only [loadOf, Option.some.injEq, Prod.mk.injEq, reduceCtorEq] at h
  all_goals obtain ⟨rfl, rfl, rfl⟩ := h
  case laneLd u => exact ⟨_, 0, exec_laneLd u, rfl⟩
  case laneLds u => exact ⟨_, 0, exec_laneLds u, rfl⟩
  case ald u => exact ⟨_, 4, exec_ald u, rfl⟩

theorem laneLoad_traps {reg ty kind scope : Nat} (ho : acq = true → orderedWait s = .ok (stamp, s))
    (hc : checkAccess reqs (fun _ => true) s = .error (.trap tr, u)) : laneLoad x reqs acc reg ty kind scope acq s = .error (.trap tr, u) := by
  unfold laneLoad
  cases acq with
  | false => simp only [Bool.false_eq_true, if_false, bind_run, pure_run, hc]
  | true => simp only [if_true, bind_run, ho rfl, hc]

/-- Settles O40. -/
theorem laneLoadsComplete : Obligations.LaneLoadsComplete := by
  refine ⟨fun i reqs acc ty w x hits stamp ag X s s' s'' t hl hr hreach hplain hacq hX => ?_,
    fun i reqs acc ty w x stamp ag tr s u hl hr ha hb ho hf => ?_⟩
  · obtain ⟨eff, kind, hx, he⟩ := load_exec hl
    have hscope : (if laneAcquires w acc = true then if acc = true then 0 else scopeOf w else 0) = if laneAcquires w acc = true then scopeOf w else 0 := by
      cases acc <;> simp [laneAcquires]
    have hpoison : t.poison = [] := by
      cases hq : laneAcquires w acc with
      | false => rw [hplain hq]; exact hreach.clean
      | true => exact (hacq hq).2.2.2.2.2
    have hreads : LoadReads x (laneAcquires w acc) (if acc = true then 0 else scopeOf w) stamp ag hits s s' s'' t := by
      refine ⟨hplain, fun hq => ?_, ?_⟩
      · obtain ⟨h1, h2, h3, h4, -⟩ := hacq hq
        have : acc = false := by cases acc <;> simp_all [laneAcquires]
        exact ⟨h1, h2, h3, by rw [this]; exact h4⟩
      · cases hq : laneAcquires w acc with
        | false => rw [hplain hq]; exact hreach.hand
        | true => exact (hacq hq).2.2.2.2.1
    refine (hx s).trans ((laneRun_next hr ((congrFun he s).trans (laneLoad_run hreach hreads hX)) ?_).trans ?_)
    · rw [loadEntered_poison]
      exact (readsApart_poison ..).trans hpoison
    · rw [hscope]
      rfl
  · obtain ⟨eff, kind, hx, he⟩ := load_exec hl
    obtain ⟨C, hC⟩ := hereContext_of_agent ha
    have hc := checkAccess_fails (here_ok hr.cur hr.team hr.group) ha hC hb hf
    exact (hx s).trans (laneRun_halts hr ((congrFun he s).trans (laneLoad_traps ho hc)))

end Sys2Proof.Proofs
end

section
/-! SUPPORT. ATOM, CAS, RADD and FENCE of lanes (R171, R173, R174, R264, R334). -/

namespace Sys2Proof.Proofs
open Machine Claims Laws

variable {i : Instr} {w : LaneWord} {x : LaneCtx} {reqs : List Req} {hits : List Hit} {s s' s'' t u : State} {X : Group} {ag : Agent} {stamp : Nat}
  {f : Lane → Nat → Nat} {k ty : Nat} {add : Lane → List (List Byte)} {r : Bool × Nat}

/-! ### What an acquire and an entered store leave of the poison -/

theorem acquire_poison (s : State) (a : Agent) (scope : Nat) : (s.acquire a scope).poison = s.poison := by
  have hfold (l : List Nat) (s : State) : (l.foldl (fun s c => s.modCore c Core.dropShared) s).poison = s.poison := by
    induction l generalizing s with
    | nil => rfl
    | cons x l ih => exact ih _
  unfold State.acquire
  split
  · exact hfold ..
  · split
    · exact hfold ..
    · rfl

theorem acquireFor_poison (s : State) (n scope : Nat) : (s.acquireFor n scope).poison = s.poison := by
  unfold State.acquireFor
  split
  · exact acquire_poison ..
  · rfl

theorem storeEntered_poison (id scope : Nat) (s : State) (late : Bool) : (storeEntered x id scope s late).poison = s.poison := by
  cases late <;> rfl

theorem enterStore_run (hX : s.group? x.c.team x.c.grp = some X) (late : Bool) (scope : Nat) :
    enterStore x [] late.toNat scope s = .ok (X.nextRec, storeEntered x X.nextRec scope s late) := by
  unfold enterStore
  simp only [bind_run, get_run, hX, upd_run, List.map_nil, logAll_nil, List.length_nil, Nat.zero_add, Option.elim_some]
  cases late <;> rfl

/-! ### ATOM and CAS -/

/-- How ATOM and CAS execute. -/
theorem atomic_exec (h : atomicOf x w i = some (k, f)) : ∃ eff kind sub op entry, (∀ s, exec i s = laneRun i eff s)
    ∧ eff x w = laneAtomic x w kind k sub f op entry := by
  cases i <;> simp only [atomicOf, Option.some.injEq, Prod.mk.injEq, reduceCtorEq] at h
  all_goals obtain ⟨rfl, rfl⟩ := h
  case laneAtom o u => exact ⟨_, _, _, _, _, exec_laneAtom o u, rfl⟩
  case laneCas u => exact ⟨_, _, _, _, _, exec_laneCas u, rfl⟩

theorem laneAtomic_forbidden {kind sub : Nat} {op : Lane → FabricOp} {entry : Lane → Word × List Byte} (hr : LaneReady i w x s) (hd : x.L.detm = 1) :
    laneAtomic x w kind k sub f op entry s = .error (.trap { cause := 0x31 }, s) := by
  unfold laneAtomic atomicAllowed
  have : (x.L.detm != 1) = false := by simp [hd]
  exact bind_error ((bind_ok (hereLaunch_ok hr.cur hr.launch)).trans (require_fail this ..))

theorem laneAtomic_allowed (hr : LaneReady i w x s) (hd : x.L.detm ≠ 1) : atomicAllowed s = .ok ((), s) := by
  unfold atomicAllowed
  rw [bind_ok (hereLaunch_ok hr.cur hr.launch)]
  exact require_ok (by simpa using hd) ..

/-- The last part of ATOM and CAS: each lane reads, changes and writes, and the old values are in flight. -/
def swapLanes (x : LaneCtx) (w : LaneWord) (kind sub stamp : Nat) (f : Lane → Nat → Nat) (entry : Lane → Word × List Byte) (hits : List Hit) : M Unit := do
  let s ← get
  set (atomicSteps x w stamp f hits s).2
  enterLoad x (atomicSteps x w stamp f hits s).1 (hits.flatMap fun h =>
    let e := entry (x.G.lane h.req.lane)
    (logEntries x s h kind w.vd.toNat sub (scopeOf w) 0 e.1 e.2)) 0 (if w.rm != 0 then scopeOf w else 0)

theorem swapLanes_run {kind sub : Nat} {entry : Lane → Word × List Byte} (hh : AllAtHand x.L.ctx x.T.core hits t)
    (hX : (atomicSteps x w stamp f hits t).2.group? x.c.team x.c.grp = some X) :
    swapLanes x w kind sub stamp f entry hits t = .ok ((), loadEntered x X.nextRec (if w.rm ≠ 0 then scopeOf w else 0)
      (atomicSteps x w stamp f hits t).1 (atomicSteps x w stamp f hits t).2) := by
  have hlog : (hits.flatMap fun h =>
      let e := entry (x.G.lane h.req.lane)
      (logEntries x t h kind w.vd.toNat sub (scopeOf w) 0 e.1 e.2)) = [] :=
    List.flatMap_eq_nil_iff.2 fun h hm => logEntries_atHand (hh h hm) ..
  have hscope : (if (w.rm != 0) = true then scopeOf w else 0) = if w.rm ≠ 0 then scopeOf w else 0 := by simp
  unfold swapLanes
  rw [bind_ok (get_run t), bind_ok (set_run ..), hlog, hscope]
  exact enterLoad_run hX ..

theorem laneAtomic_run {kind sub : Nat} {op : Lane → FabricOp} {entry : Lane → Word × List Byte} (hr : LaneReady i w x s) (hd : x.L.detm ≠ 1)
    (ho : orderedWait s = .ok (stamp, s)) (hreach : LanesReach x (w.rm != 0) (x.L.detm == 2) (atomReqs x w) hits s s')
    (hl : orderedLog k stamp s' = .ok ((), s'')) (ha : hereAgent s'' = .ok (ag, s''))
    (ht : t = if w.rm = 1 ∨ w.rm = 3 then s''.acquire ag (scopeOf w) else s'') (hh : AllAtHand x.L.ctx x.T.core hits t)
    (hX : (atomicSteps x w stamp f hits t).2.group? x.c.team x.c.grp = some X) :
    laneAtomic x w kind k sub f op entry s = .ok ((), loadEntered x X.nextRec (if w.rm ≠ 0 then scopeOf w else 0) (atomicSteps x w stamp f hits t).1
      (atomicSteps x w stamp f hits t).2) := by
  have hpeers := peerReqs_atHand hreach.hand fun h _ => op (x.G.lane h.req.lane)
  unfold laneAtomic
  simp only [bind_run, laneAtomic_allowed hr hd, ho, hreach.checks, hreach.ready, hreach.asked, Bool.not_false, if_true, hl, hpeers,
    awaitPeers_none hreach.asked]
  by_cases hq : w.rm = 1 ∨ w.rm = 3
  · have hq' : (decide (w.rm = 1) || decide (w.rm = 3)) = true := by simpa using hq
    rw [if_pos hq] at ht
    simp only [hq', if_true, bind_run, ha, upd_run, effScope_atHand hreach.hand]
    exact ht ▸ swapLanes_run hh hX
  · have hq' : (decide (w.rm = 1) || decide (w.rm = 3)) = false := by simpa using hq
    rw [if_neg hq] at ht
    simp only [hq', Bool.false_eq_true, if_false, effScope_atHand hreach.hand]
    exact ht ▸ swapLanes_run hh hX

/-! ### RADD and FENCE -/

theorem releaseLanes_ok (h : s.laneBusy x.c.team x.c.grp x.T.core x.parts = false) : releaseLanes x s = .ok ((), s) := by
  simp only [releaseLanes, bind_run, get_run, h, Bool.false_eq_true, if_false, pure_run]

theorem releaseLanes_stalls (h : s.laneBusy x.c.team x.c.grp x.T.core x.parts = true) : releaseLanes x s = .error (.stall .fence, s) := by
  simp only [releaseLanes, bind_run, get_run, h, if_true, stallOn_run]

/-- Accesses of this device ask nothing of another. -/
theorem peerReqs_local (h : ∀ h ∈ hits, h.remote = false) (op : Hit → Part → FabricOp) : peerReqs hits op = [] := by
  unfold peerReqs
  refine List.flatMap_eq_nil_iff.2 fun h' hh => List.filterMap_eq_nil_iff.2 fun p hp => ?_
  have hpeer : p.isPeer = false := by simpa using List.any_eq_false.1 (h h' hh) p hp
  obtain ⟨_, _, place, _, _, _, _, _⟩ := p
  cases place
  case peer => exact nomatch hpeer
  all_goals rfl

theorem effScope_local (h : ∀ h ∈ hits, h.remote = false) (scope : Nat) : effScope hits scope = scope := by
  have : (hits.any fun h => h.remote) = false := List.any_eq_false.2 fun h' hh => by simp [h h' hh]
  simp [effScope, this]

/-- A step that is made on a condition and leaves the state as it is. -/
theorem ite_bind_run {β : Type} {b : Prop} [Decidable b] {m : M Unit} {k : Unit → M β} (h : b → m s = .ok ((), s)) :
    (if b then m >>= k else k ()) s = k () s := by
  by_cases hb : b
  · rw [if_pos hb, bind_ok (h hb)]
  · rw [if_neg hb]

/-- Commutative adds of this device, at hand, enter their partials, and are performed. -/
theorem laneAdds_run {adds : List (Nat × Int × List (List Byte))} {rel : Option Nat}
    (hb : rel.isSome = true → s.laneBusy x.c.team x.c.grp x.T.core x.parts = false) (ha : hereAgent s = .ok (ag, s))
    (hq : (adds.mapM fun ad => raddReq ag ad.1 ad.2.1) s = .ok (reqs, s')) (hc : checkAccess reqs (takesType ty) s' = .ok (hits, s''))
    (hrep : reportHits hits s'' = .ok ((), s'')) (hl : ∀ h ∈ hits, h.waitsHere s'' ag = false ∧ h.remote = false)
    (ht : t = (hits.zip adds).foldl (fun s hd => hd.1.parts.foldl (fun s p => s.enterAdd ag p ty hd.2.2.2) s) s'')
    (hX : t.group? x.c.team x.c.grp = some X) : laneAdds x adds ty rel s = .ok ((), storeEntered x X.nextRec (rel.getD 0) t) := by
  have hwaits : (hits.any fun h => h.waitsHere s'' ag) = false := List.any_eq_false.2 fun h hh => by simp [(hl h hh).1]
  have hreqs : ((hits.zip adds).flatMap fun hd => peerReqs [hd.1] fun _ _ => .radd hd.2.2.2 ty) = [] :=
    List.flatMap_eq_nil_iff.2 fun hd hm => peerReqs_local (fun h hh => by
      rw [List.mem_singleton.1 hh]; exact (hl _ (List.of_mem_zip hm).1).2) _
  have hscope : rel.elim 0 (effScope hits) = rel.getD 0 := by
    cases rel with
    | none => rfl
    | some n => exact effScope_local (fun h hh => (hl h hh).2) n
  unfold laneAdds
  refine (ite_bind_run fun h => releaseLanes_ok (hb h)).trans ?_
  simp only [bind_run, ha, hq, hc, hrep, get_run, hwaits, Bool.false_eq_true, if_false, upd_run, ← ht, hreqs, List.length_nil, hscope]
  rw [show enterStore x [] 0 (rel.getD 0) t = _ from enterStore_run hX false (rel.getD 0)]
  rfl

/-- The type and the addends of RADD, and its release. -/
theorem radd_exec (h : addendsOf x w i = some (ty, add)) : ∃ eff, (∀ s, exec i s = laneRun i eff s)
    ∧ eff x w = laneAdds x (x.parts.map fun j => (j, laneEa false (x.a w (x.G.lane j)) (offOf w), add (x.G.lane j))) ty (relScope w) := by
  cases i <;> simp only [addendsOf, Option.some.injEq, Prod.mk.injEq, reduceCtorEq] at h
  all_goals obtain ⟨rfl, rfl⟩ := h
  case radd u => exact ⟨_, exec_radd u, rfl⟩
  case raddAcc u => exact ⟨_, exec_raddAcc u, rfl⟩

theorem relScope_isSome : (relScope w).isSome = true ↔ w.rm = 2 := by
  unfold relScope
  split <;> simp_all

theorem relScope_getD : (relScope w).getD 0 = if w.rm = 2 then scopeOf w else 0 := by
  unfold relScope
  split <;> rfl

theorem fence_exec (w : LaneWord) (s : State) : exec (.laneFence w) s = laneRun (.laneFence w) (fun x w => do
    releaseLanes x
    acquireHere (scopeOf w)) s := exec_laneFence w s

/-- Settles O41. -/
theorem laneAtomicsComplete : Obligations.LaneAtomicsComplete := by
  intro i f k ty add w x reqs hits stamp ag X s s' s'' t hr busy
  refine ⟨fun ha hd ho hreach hl hag ht hh hp hX => ?_, fun ha hd => ?_, fun ha hb hag hq hc hrep hl ht hp hX => ?_, fun ha hw hb => ?_, ?_⟩
  · obtain ⟨eff, kind, sub, op, entry, hx, he⟩ := atomic_exec ha
    refine (hx s).trans (laneRun_next hr ((congrFun he s).trans (laneAtomic_run hr hd ho hreach hl hag ht hh hX)) ?_)
    exact (loadEntered_poison ..).trans hp
  · obtain ⟨⟨k, f⟩, ha⟩ := Option.isSome_iff_exists.1 ha
    obtain ⟨eff, kind, sub, op, entry, hx, he⟩ := atomic_exec ha
    exact (hx s).trans (laneRun_halts hr ((congrFun he s).trans (laneAtomic_forbidden hr hd)))
  · obtain ⟨eff, hx, he⟩ := radd_exec ha
    have hrun := laneAdds_run (rel := relScope w) (adds := x.parts.map fun j => (j, laneEa false (x.a w (x.G.lane j)) (offOf w), add (x.G.lane j)))
      (fun h => hb (relScope_isSome.1 h)) hag (by rw [List.mapM_map]; exact hq) hc hrep hl
      (by rw [ht, List.zip_map_right, List.foldl_map]; rfl) hX
    rw [relScope_getD] at hrun
    exact (hx s).trans (laneRun_next hr ((congrFun he s).trans hrun) ((storeEntered_poison ..).trans hp))
  · obtain ⟨⟨ty, add⟩, ha⟩ := Option.isSome_iff_exists.1 ha
    obtain ⟨eff, hx, he⟩ := radd_exec ha
    refine (hx s).trans (laneRun_halts (e := .stall .fence) (s' := s) hr ((congrFun he s).trans ?_))
    unfold laneAdds
    simp only [relScope_isSome.2 hw, if_true, bind_run, releaseLanes_stalls hb]
  · rintro rfl
    refine ⟨fun hb => (fence_exec w s).trans (laneRun_next hr ?_ ((acquireFor_poison ..).trans hr.clean)), fun hb =>
      (fence_exec w s).trans (laneRun_halts (e := .stall .fence) (s' := s) hr (bind_error (releaseLanes_stalls hb)))⟩
    rw [bind_ok (releaseLanes_ok hb)]
    simp only [acquireHere, upd_run, hr.cur]

end Sys2Proof.Proofs
end

section
/-! SUPPORT. ST, STS and AST of lanes (R53, R166 to R169, R203, R253). -/

namespace Sys2Proof.Proofs
open Machine Claims Laws

variable {i : Instr} {w : LaneWord} {x : LaneCtx} {reqs : List Req} {hits : List Hit} {s s' s'' t u : State} {X : Group} {ag : Agent} {stamp : Nat}
  {data : List (List Byte)} {rel : Bool} {rc : LoadRec} {tr : TrapArgs}

theorem mem_topData {ds : List (Hit × List Byte)} {hd : Hit × List Byte} (h : hd ∈ topData ds) : ∃ b, (hd.1, b) ∈ ds := by
  unfold topData at h
  obtain ⟨d, hd', rfl⟩ := List.mem_map.1 h
  exact ⟨d.2, hd'⟩

theorem peerStores_atHand {ds : List (Hit × List Byte)} {ctx core : Nat} (h : ∀ hd ∈ ds, ∀ p ∈ hd.1.parts, s.atHand ctx core p = true) : peerStores ds = [] := by
  induction ds with
  | nil => rfl
  | cons hd ds ih =>
    obtain ⟨h', b⟩ := hd
    unfold peerStores
    rw [ih fun hd hm => h hd (List.mem_cons_of_mem _ hm), List.append_nil]
    refine List.flatMap_eq_nil_iff.2 fun p hp => ?_
    obtain ⟨-, hpeer, -⟩ := atHand_eq (h (h', b) List.mem_cons_self p hp)
    obtain ⟨_, _, place, _, _, _, _, _⟩ := p
    cases place
    case peer => exact nomatch hpeer
    all_goals rfl

theorem topData_atHand (hh : AllAtHand x.L.ctx x.T.core hits s) : ∀ hd ∈ topData (hits.zip data), ∀ p ∈ hd.1.parts, s.atHand x.L.ctx x.T.core p = true :=
  fun _ hm p hp => by
    obtain ⟨b, hb⟩ := mem_topData hm
    exact hh _ (List.of_mem_zip hb).1 p hp

theorem logStores_atHand (hh : AllAtHand x.L.ctx x.T.core hits s) (kind sub scope : Nat) :
    ((topData (hits.zip data)).flatMap fun hd => logEntries x s hd.1 kind 0 sub scope 0 0 hd.2) = [] :=
  List.flatMap_eq_nil_iff.2 fun hd hm => logEntries_atHand (topData_atHand hh hd hm) ..

theorem putApart_nil (y : Apart) (s : State) : s.putApart false y [] = (s, false) := by
  unfold State.putApart
  split <;> rfl

/-- The last part of a lane store: its blocks are performed, or entered to be performed later, and it is in flight. -/
def landStores (x : LaneCtx) (hits : List Hit) (data : List (List Byte)) (kind sub scope sc stamp : Nat) (clocked : Bool) : M Unit := do
  let s ← get
  let ds := topData (hits.zip data)
  let rs := peerStores ds
  let blocks := if clocked && x.asked then [] else storeBlocks x.c.team (s.atHand x.L.ctx x.T.core) (hits.zip data)
  let own := some x.G.nextRec
  let (s', late) := s.putApart false { Apart.of x.c stamp with store := if clocked then none else own, load := if clocked then own else none } blocks
  set s'
  if clocked then
    let _ ← awaitPeers x hits rs 0 late.toNat
  let id ← enterStore x (ds.flatMap fun hd => logEntries x s hd.1 kind 0 sub scope 0 0 hd.2) (if clocked then 0 else rs.length + late.toNat) sc
  if !clocked then sendStores x id rs

/-- What a store's word does after its blocks. -/
def storeLands (x : LaneCtx) (hits : List Hit) (clocked : Bool) (n sc : Nat) (q : State × Bool) : Except (Halt × State) (Unit × State) :=
  if clocked && q.2 then
    .error (.stall .remote, q.1.modGroup x.c.team x.c.grp fun g =>
      { g with nextRec := x.G.nextRec + 1
               loads := g.loads ++ [{ id := x.G.nextRec, tag := 0, waiting := 1, nacks := [], blocks := true
                                      dsts := hits.map fun h => { lane := h.req.lane, acc := false, reg := 0, ty := 0, bytes := [] } }] })
  else .ok ((), storeEntered x n sc q.1 q.2)

/-- A store of the logical clock whose blocks are still to come waits for them itself. -/
theorem awaitPeers_late (ha : x.asked = false) (hits : List Hit) (s : State) : awaitPeers x hits [] 0 1 s
    = .error (.stall .remote, s.modGroup x.c.team x.c.grp fun g =>
      { g with nextRec := x.G.nextRec + 1
               loads := g.loads ++ [{ id := x.G.nextRec, tag := 0, waiting := 1, nacks := [], blocks := true
                                      dsts := hits.map fun h => { lane := h.req.lane, acc := false, reg := 0, ty := 0, bytes := [] } }] }) := by
  have hf : x.G.loads.find? (·.blocks) = none := List.find?_eq_none.2 fun r hr => by
    simpa using List.any_eq_false.1 (show (x.G.loads.any (·.blocks)) = false from ha) r hr
  unfold awaitPeers
  rw [hf]
  rfl

theorem landStores_run {kind sub scope sc : Nat} {clocked : Bool} (ha : x.asked = false) (hh : AllAtHand x.L.ctx x.T.core hits s)
    (hX : (lanesStored x clocked stamp (hits.zip data) s).1.group? x.c.team x.c.grp = some X) :
    landStores x hits data kind sub scope sc stamp clocked s
      = storeLands x hits clocked X.nextRec sc (lanesStored x clocked stamp (hits.zip data) s) := by
  unfold landStores storeLands
  rw [bind_ok (get_run s)]
  simp only [ha, Bool.and_false, Bool.false_eq_true, if_false, peerStores_atHand (topData_atHand hh), logStores_atHand hh, List.length_nil, Nat.zero_add]
  rw [bind_ok (set_run ..)]
  unfold lanesStored at hX ⊢
  generalize s.putApart false _ _ = q at hX ⊢
  obtain ⟨u, late⟩ := q
  cases clocked with
  | false =>
    simp only [Bool.false_eq_true, if_false, Bool.not_false, if_true, Bool.false_and]
    rw [bind_ok (enterStore_run hX late sc)]
    rfl
  | true =>
    cases late with
    | false =>
      simp only [if_true, Bool.toNat_false, Bool.not_true, Bool.false_eq_true, if_false, Bool.and_false]
      rw [bind_ok (awaitPeers_none ha hits 0 u), bind_ok (show enterStore x [] 0 sc u = _ from enterStore_run hX false sc)]
      rfl
    | true =>
      simp only [if_true, Bool.toNat_true, Bool.and_self]
      exact bind_error (awaitPeers_late ha hits u)

/-- A lane store to addresses at hand. -/
theorem laneStore_run {kind sub scope : Nat} (hr : LanesReach x rel false reqs hits s s') (hp : rel = false → stamp = 0 ∧ s'' = s')
    (ho : rel = true → orderedWait s = .ok (stamp, s) ∧ orderedLog 4 stamp s' = .ok ((), s'')) (hh : AllAtHand x.L.ctx x.T.core hits s'')
    (hX : (lanesStored x (rel && x.L.detm == 2) stamp (hits.zip data) s'').1.group? x.c.team x.c.grp = some X) :
    laneStore x reqs data kind sub scope rel s
      = storeLands x hits (rel && x.L.detm == 2) X.nextRec (if rel then scope else 0) (lanesStored x (rel && x.L.detm == 2) stamp (hits.zip data) s'') := by
  rw [← landStores_run (kind := kind) (sub := sub) (scope := scope) hr.asked hh hX]
  unfold laneStore
  cases rel with
  | false =>
    obtain ⟨rfl, rfl⟩ := hp rfl
    rw [if_neg Bool.false_ne_true, bind_ok (pure_run ..)]
    dsimp only
    rw [bind_ok hr.checks, bind_ok hr.ready]
    rfl
  | true =>
    obtain ⟨ho, hl⟩ := ho rfl
    have hna : (true && !x.asked) = true := by rw [hr.asked]; rfl
    rw [if_pos rfl, bind_ok ho]
    dsimp only
    rw [bind_ok hr.checks, bind_ok hr.ready, if_pos hna, bind_ok hl]
    simp only [effScope_atHand hr.hand]
    rfl

/-- The stores' word once more, after its blocks were entered to be performed later: it waits, or is done with them. -/
theorem landStores_again {kind sub scope sc : Nat} (hf : x.G.loads.find? (·.blocks) = some rc) (hn : rc.nacks = [])
    (hh : AllAtHand x.L.ctx x.T.core hits s) (hX : s.group? x.c.team x.c.grp = some X) :
    landStores x hits data kind sub scope sc stamp true s
      = if rc.waiting ≠ 0 then .error (.stall .remote, s)
        else .ok ((), storeEntered x X.nextRec sc (s.modGroup x.c.team x.c.grp fun g => { g with loads := g.loads.filter fun l => l.id != rc.id })) := by
  have ha : x.asked = true := List.any_eq_true.2 ⟨rc, List.mem_of_find?_eq_some hf, List.find?_some (p := LoadRec.blocks) hf⟩
  have hX' : (s.modGroup x.c.team x.c.grp fun g => { g with loads := g.loads.filter fun l => l.id != rc.id }).group? x.c.team x.c.grp
      = some { X with loads := X.loads.filter fun l => l.id != rc.id } := by
    rw [group?_modGroup, hX, if_pos ⟨rfl, rfl⟩]; rfl
  have hw : worstNack ([] : List Nack) = none := rfl
  unfold landStores
  rw [bind_ok (get_run s)]
  simp only [ha, Bool.and_self, if_true, putApart_nil, logStores_atHand hh, peerStores_atHand (topData_atHand hh), List.length_nil, Bool.toNat_false]
  rw [bind_ok (set_run ..)]
  unfold awaitPeers
  simp only [hf]
  by_cases hw0 : rc.waiting = 0
  · simp only [hw0, ne_eq, not_true_eq_false, if_false, bind_run, upd_run, hn, hw, pure_run]
    rw [show enterStore x [] 0 sc _ = _ from enterStore_run hX' false sc]
    rfl
  · simp only [hw0, ne_eq, not_false_eq_true, if_true, bind_run, stallOn_run]

/-- How a store's word executes: its kind, and its scope where it releases. -/
theorem store_exec (h : storeOf x w i = some (reqs, data, rel)) : ∃ eff kind sub scope, (∀ s, exec i s = laneRun i eff s)
    ∧ eff x w = laneStore x reqs data kind sub scope rel ∧ (if rel then scope else 0) = if rel then scopeOf w else 0 := by
  cases i <;> simp only [storeOf, Option.some.injEq, Prod.mk.injEq, reduceCtorEq] at h
  all_goals obtain ⟨rfl, rfl, rfl⟩ := h
  case laneSt u => exact ⟨_, _, _, _, exec_laneSt u, rfl, rfl⟩
  case laneSts u => exact ⟨_, _, _, _, exec_laneSts u, rfl, rfl⟩
  case ast u => exact ⟨_, _, _, _, exec_ast u, rfl, rfl⟩

theorem laneStore_traps {kind sub scope : Nat} (ho : rel = true → orderedWait s = .ok (stamp, s))
    (hc : checkAccess reqs (fun _ => true) s = .error (.trap tr, u)) : laneStore x reqs data kind sub scope rel s = .error (.trap tr, u) := by
  unfold laneStore
  cases rel with
  | false => simp only [Bool.false_eq_true, if_false, bind_run, pure_run, hc]
  | true => simp only [if_true, bind_run, ho rfl, hc]

theorem laneAtomic_traps {kind sub k : Nat} {f : Lane → Nat → Nat} {op : Lane → FabricOp} {entry : Lane → Word × List Byte} (hr : LaneReady i w x s)
    (hd : x.L.detm ≠ 1) (ho : orderedWait s = .ok (stamp, s)) (hc : checkAccess (atomReqs x w) (fun _ => true) s = .error (.trap tr, u)) :
    laneAtomic x w kind k sub f op entry s = .error (.trap tr, u) := by
  unfold laneAtomic
  simp only [bind_run, laneAtomic_allowed hr hd, ho, hc]

/-- Settles O42. -/
theorem laneStoresComplete : Obligations.LaneStoresComplete := by
  refine ⟨fun i reqs data rel w x hits stamp X rc s s' s'' hst hr => ?_,
    fun i reqs data rel k f w x stamp ag tr s u hr ha hb hor hf => ?_⟩
  · obtain ⟨eff, kind, sub, sc, hx, he, hsc⟩ := store_exec hst
    intro clocked scope
    refine ⟨fun hreach hp ho hh hpo hX => ?_, fun hcl hfind hn ho hc hprep hh hpo hX => ?_⟩
    · have hrun := (congrFun he s).trans (laneStore_run (kind := kind) (sub := sub) (scope := sc) hreach hp ho hh hX)
      rw [hsc] at hrun
      refine (hx s).trans ?_
      unfold storeLands at hrun
      unfold lanesStoredNext
      by_cases hlate : (clocked && (lanesStored x clocked stamp (hits.zip data) s'').2) = true
      · rw [if_pos hlate] at hrun ⊢
        exact laneRun_halts hr hrun
      · rw [if_neg hlate] at hrun ⊢
        exact laneRun_next hr hrun ((storeEntered_poison ..).trans hpo)
    · obtain ⟨rfl, hdetm⟩ : rel = true ∧ (x.L.detm == 2) = true := Bool.and_eq_true_iff.1 hcl
      have ha : x.asked = true := List.any_eq_true.2 ⟨rc, List.mem_of_find?_eq_some hfind, List.find?_some (p := LoadRec.blocks) hfind⟩
      have hna : ¬ (true && !x.asked) = true := by rw [ha]; decide
      have hrun : laneStore x reqs data kind sub sc true s = if rc.waiting ≠ 0 then .error (.stall .remote, s')
          else .ok ((), storeEntered x X.nextRec sc (s'.modGroup x.c.team x.c.grp fun g => { g with loads := g.loads.filter fun l => l.id != rc.id })) := by
        rw [← landStores_again (x := x) (data := data) (kind := kind) (sub := sub) (scope := sc) (sc := sc) (stamp := stamp) hfind hn hh hX]
        unfold laneStore
        rw [if_pos rfl, bind_ok ho]
        dsimp only
        rw [bind_ok hc, bind_ok hprep, if_neg hna, Bool.true_and, hdetm]
        simp only [effScope_atHand hh]
        rfl
      refine ⟨fun hw => (hx s).trans (laneRun_halts (e := .stall .remote) (s' := s') hr ((congrFun he s).trans (hrun.trans (if_pos hw)))), fun hw => ?_⟩
      have hrun' := (congrFun he s).trans (hrun.trans (if_neg (Classical.not_not.2 hw)))
      rw [show sc = scope from hsc] at hrun'
      exact (hx s).trans (laneRun_next hr hrun' ((storeEntered_poison ..).trans hpo))
  · obtain ⟨C, hC⟩ := hereContext_of_agent ha
    have hc := checkAccess_fails (here_ok hr.cur hr.team hr.group) ha hC hb hf
    obtain ⟨hst, ho⟩ | ⟨hat, rfl, hd, ho⟩ := hor
    · obtain ⟨eff, kind, sub, sc, hx, he, -⟩ := store_exec hst
      exact (hx s).trans (laneRun_halts hr ((congrFun he s).trans (laneStore_traps ho hc)))
    · obtain ⟨eff, kind, sub, op, entry, hx, he⟩ := atomic_exec hat
      exact (hx s).trans (laneRun_halts hr ((congrFun he s).trans (laneAtomic_traps hr hd ho hc)))

end Sys2Proof.Proofs
end

section
/-! SUPPORT. The lane words that wait: WAITA, BARA, BARW, CBARA, CBARW and SWAIT (R175 to R180, R264). -/

namespace Sys2Proof.Proofs
open Machine Claims Laws

variable {i : Instr} {w : LaneWord} {x : LaneCtx} {hits : List Hit} {s s' s'' t : State} {T' : Team} {X : Group} {b : Barrier} {ag : Agent} {stamp base : Nat}
  {kind : BitVec 8}

/-- A lane word that waits, with lanes that execute it, answers what follows its entry and its checks. -/
theorem waits_entered {rest : LaneCtx → M Unit} (hr : LaneReady i w x s) : M.answer (do
      match ← laneEnter w.guard.toNat w.neg w.guardOk with
      | none => retireLane (← here).1
      | some x =>
        laneChecks x i
        rest x) s = M.answer (rest x) s := by
  rw [answer_eq, answer_eq, bind_ok (laneEnter_ok hr)]
  dsimp only
  rw [bind_ok (laneChecks_ok hr)]

/-- A word retires from the state that it leaves. -/
theorem retireLane_run (c : Cur) (s : State) : retireLane c s = .ok ((), s.laneNext c) := rfl

/-- What a lane word that goes on or parks has done, as the group's park shows it. -/
theorem lane_parks (hr : s.cur = some x.c) (hT : s.team? x.c.team = some T') (hX : s.group? x.c.team x.c.grp = some X) (hst : x.c.stream = .lane)
    (p : Wait) (mask : Nat) : ∃ (u : State) (Y : Group), parkOn mask p s = .ok ((), u) ∧ u.group? x.c.team x.c.grp = some Y
      ∧ Y.park = some (parkOf x.c.stream mask s.tick p) ∧ Y.lanes = X.lanes ∧ Y.regs = X.regs :=
  ⟨_, _, parkOn_run (here_ok hr hT hX) (by rw [hst]; decide) mask p, parked_group hX, rfl, rfl, rfl⟩

/-! ### WAITA -/

/-- The last part of a lane WAITA: it reads, and goes on or parks. -/
def laneWaitaLands (x : LaneCtx) (w : LaneWord) (hits : List Hit) (r : Option LoadRec) : M Unit := do
  let s ← get
  let vs := hits.map fun h => (h.req.lane, ofBytes (withAnswers r h (s.bytesAtHand x.L.ctx x.T.core x.c.team h)))
  let woken ← wasWoken
  let low := x.G.lane (x.parts.headD 0)
  if vs.any (fun iv => iv.2 == x.b w (x.G.lane iv.1)) && (!woken || (x.L.detm == 2 && r.isSome)) then
    if r.isSome then upd fun s => s.post (.parkWake x.c.team x.c.grp)
    parkOn (maskLanes x.parts)
      { kind := 0xE0, tcode := w.bits 2 0, space := w.bits 24 24 == 1, addr := BitVec.ofNat 64 (x.a w low), value := BitVec.ofNat 64 (x.b w low)
        mons := hits.filterMap (Hit.mon x.c.team), words := hits.filterMap (Hit.monWord s x.c.team), polls := r.isSome, word := .laneWaita w }
  else
    clearRegs x [(false, w.vd.toNat)]
    writesV x w.vd.toNat fun i _ => ((vs.find? fun iv => iv.1 == i).map (·.2)).getD 0
    retireLane x.c

/-- The words that a lane WAITA reads at hand. -/
def wordsRead (x : LaneCtx) (hits : List Hit) (t : State) : List (Nat × Nat) := hits.map fun h => (h.req.lane, ofBytes (t.readHit x.c.team h))

theorem wordsRead_eq (hh : AllAtHand x.L.ctx x.T.core hits t) :
    (hits.map fun h => (h.req.lane, ofBytes (withAnswers none h (t.bytesAtHand x.L.ctx x.T.core x.c.team h)))) = wordsRead x hits t :=
  List.map_congr_left fun h hm => by rw [bytesAtHand_eq (hh h hm)]; rfl

theorem wordsRead_find (j : Nat) : ((wordsRead x hits t).find? fun iv => iv.1 == j).map (·.2)
    = (hits.find? fun h => h.req.lane == j).map fun h => ofBytes (t.readHit x.c.team h) := by
  unfold wordsRead
  rw [List.find?_map, Option.map_map]
  rfl

section
variable (hc : t.cur = some x.c) (hT : t.team? x.c.team = some T') (hX : t.group? x.c.team x.c.grp = some X) (hwk : X.woken = x.G.woken)
  (hh : AllAtHand x.L.ctx x.T.core hits t)
include hc hT hX hwk hh

theorem laneWaitaLands_goes (hp : t.poison = [])
    (hv : (∀ h ∈ hits, ofBytes (t.readHit x.c.team h) ≠ x.b w (x.G.lane h.req.lane)) ∨ x.G.woken = true) :
    laneWaitaLands x w hits none t = .ok ((), laneWritten (fun j l => l.setV w.vd.toNat
      (((hits.find? fun h => h.req.lane == j).map fun h => ofBytes (t.readHit x.c.team h)).getD 0)) x
        (t.modGroup x.c.team x.c.grp fun g => { g with woken := false })) := by
  have hcond : ((wordsRead x hits t).any (fun iv => iv.2 == x.b w (x.G.lane iv.1)) && !X.woken) = false := by
    rw [hwk]
    rcases hv with hv | hv
    · have : (wordsRead x hits t).any (fun iv => iv.2 == x.b w (x.G.lane iv.1)) = false := List.any_eq_false.2 fun iv hm => by
        obtain ⟨h, hm', rfl⟩ := List.mem_map.1 hm
        simpa using hv h hm'
      rw [this, Bool.false_and]
    · rw [hv, Bool.not_true, Bool.and_false]
  have hp' : (t.modGroup x.c.team x.c.grp fun g => { g with woken := false }).poison = [] := hp
  unfold laneWaitaLands
  simp only [bind_run, get_run, wordsRead_eq hh, wasWoken_run (here_ok hc hT hX), Option.isSome_none, Bool.and_false, Bool.or_false, hcond,
    Bool.false_eq_true, if_false, clearRegs_clean hp', writesV, wordsRead_find, upd_run]
  rfl

theorem laneWaitaLands_parks (he : ∃ h ∈ hits, ofBytes (t.readHit x.c.team h) = x.b w (x.G.lane h.req.lane)) (hw : x.G.woken = false)
    (hst : x.c.stream = .lane) : ∃ (u : State) (Y : Group) (p : Park), laneWaitaLands x w hits none t = .ok ((), u) ∧ u.group? x.c.team x.c.grp = some Y
      ∧ Y.park = some p ∧ p.kind = 0xE0 ∧ p.addr = BitVec.ofNat 64 (x.a w (x.G.lane (x.parts.headD 0)))
      ∧ p.value = BitVec.ofNat 64 (x.b w (x.G.lane (x.parts.headD 0))) ∧ Y.lanes = X.lanes ∧ Y.regs = X.regs := by
  have hcond : ((wordsRead x hits t).any (fun iv => iv.2 == x.b w (x.G.lane iv.1)) && !X.woken) = true := by
    rw [hwk, hw, Bool.not_false, Bool.and_true]
    obtain ⟨h, hm, he⟩ := he
    exact List.any_eq_true.2 ⟨_, List.mem_map.2 ⟨h, hm, rfl⟩, by simpa using he⟩
  have hX' : (t.modGroup x.c.team x.c.grp fun g => { g with woken := false }).group? x.c.team x.c.grp = some { X with woken := false } := by
    rw [group?_modGroup, if_pos ⟨rfl, rfl⟩, hX]; rfl
  have hT' : (t.modGroup x.c.team x.c.grp fun g => { g with woken := false }).team? x.c.team
      = some { T' with groups := modifyAt (fun g => { g with woken := false }) x.c.grp T'.groups } := by
    rw [team?_modGroup, if_pos rfl, hT]; rfl
  obtain ⟨u, Y, hpark, hY, hp, hl, hr⟩ := lane_parks (x := x) (s := t.modGroup x.c.team x.c.grp fun g => { g with woken := false }) hc hT' hX' hst
    { kind := 0xE0, tcode := w.bits 2 0, space := w.bits 24 24 == 1, addr := BitVec.ofNat 64 (x.a w (x.G.lane (x.parts.headD 0)))
      value := BitVec.ofNat 64 (x.b w (x.G.lane (x.parts.headD 0))), mons := hits.filterMap (Hit.mon x.c.team)
      words := hits.filterMap (Hit.monWord t x.c.team), word := .laneWaita w } (maskLanes x.parts)
  refine ⟨u, Y, _, ?_, hY, hp, rfl, rfl, rfl, hl, hr⟩
  unfold laneWaitaLands
  simp only [bind_run, get_run, wordsRead_eq hh, wasWoken_run (here_ok hc hT hX), Option.isSome_none, Bool.and_false, Bool.or_false, hcond, if_true,
    Bool.false_eq_true, if_false]
  exact hpark

end

/-- A lane WAITA passes its checks and takes its turn, acquires, and then reads. -/
theorem laneWaita_reads (hr : LaneReady (.laneWaita w) w x s) (hd : x.L.detm = 2 → w.bits 2 0 = 0) (ho : orderedWait s = .ok (stamp, s))
    (hreach : LanesReach x true false (x.reqs (w.bits 24 24 == 1) 8 8 .read fun l => laneEa (w.bits 24 24 == 1) (x.a w l) 0) hits s s')
    (hlog : if x.G.woken then s'' = s' else orderedLog 5 stamp s' = .ok ((), s'')) (ha : hereAgent s'' = .ok (ag, s'')) :
    exec (.laneWaita w) s = M.answer (laneWaitaLands x w hits none) (s''.acquire ag (scopeOf w)) := by
  have hnt : noTimeout (w.bits 2 0) s = .ok ((), s) := by
    unfold noTimeout
    rw [bind_ok (hereLaunch_ok hr.cur hr.launch)]
    exact require_ok (by by_cases h2 : x.L.detm = 2 <;> simp_all) ..
  have hpeers := peerReqs_atHand hreach.hand fun _ p => .read p.len
  refine (exec_laneWaita ..).trans ((waits_entered hr).trans ?_)
  rw [answer_eq, answer_eq]
  simp only [bind_run, hnt, ho, hreach.checks, hreach.ready, hreach.asked, Bool.not_false, Bool.and_true, hpeers,
    effScope_atHand hreach.hand]
  cases hwk : x.G.woken with
  | true =>
    rw [hwk] at hlog
    obtain rfl : s'' = s' := hlog
    simp only [Bool.not_true, Bool.false_eq_true, if_false, bind_run, awaitPeers_none hreach.asked, ha, upd_run, laneWaitaLands]
  | false =>
    rw [hwk] at hlog
    have hlog' : orderedLog 5 stamp s' = .ok ((), s'') := hlog
    simp only [Bool.not_false, if_true, bind_run, hlog', awaitPeers_none hreach.asked, ha, upd_run, laneWaitaLands]

/-! ### Barriers -/

theorem arrive_exec (h : arriveBase i = some base) : ∀ s, exec i s = laneRun i (laneArrive base) s := by
  cases i <;> simp only [arriveBase, Option.some.injEq, reduceCtorEq] at h
  all_goals subst h
  case bara u => exact exec_bara u
  case cbara u => exact exec_cbara u

theorem laneArrive_run (hb : s.slot? x.c.team (base + w.bits 3 0) = some b) (hi : b.init = true)
    (hbusy : s.laneBusy x.c.team x.c.grp x.T.core x.parts = false) (ho : orderedWait s = .ok (stamp, s)) (hl : orderedLog 6 stamp s = .ok ((), s')) :
    laneArrive base x w s = .ok ((), (s'.arriveAll x.c.team (base + w.bits 3 0) (x.parts.map fun j => x.a w (x.G.lane j) % 2 ^ 32) stamp).modGroup
      x.c.team x.c.grp fun g => g.mapLanesI x.parts fun _ l => l.setV w.vd.toNat b.phase.toNat) := by
  unfold laneArrive
  simp only [bind_run, readySlot_ok hb hi, releaseLanes_ok hbusy, ho, hl, upd_run, writesV]

theorem laneArrive_stalls (hb : s.slot? x.c.team (base + w.bits 3 0) = some b) (hi : b.init = true)
    (hbusy : s.laneBusy x.c.team x.c.grp x.T.core x.parts = true) : laneArrive base x w s = .error (.stall .fence, s) := by
  unfold laneArrive
  simp only [bind_run, readySlot_ok hb hi, releaseLanes_stalls hbusy]

/-- What BARW and CBARW do once they are entered: the phases that the lanes name are compared with the slot's. -/
def waitPhases (x : LaneCtx) (i : Instr) (w : LaneWord) (base : Nat) (kind : BitVec 8) : M Unit := do
  let n := base + w.bits 3 0
  let b ← readySlot x.c.team n
  let phases := x.parts.map fun j => x.a w (x.G.lane j) % 2 ^ 32
  if phases.contains b.phase.toNat then
    parkOn (maskLanes x.parts) { kind := kind, addr := BitVec.ofNat 64 n, value := b.phase.setWidth 64, word := i }
  else
    acquireHere (slotScope n)
    retireLane x.c

theorem wait_exec (h : waitBase i = some (base, kind)) (hr : LaneReady i w x s) : exec i s = M.answer (waitPhases x i w base kind) s := by
  obtain ⟨f, f', hf, -⟩ := hr.form
  cases i <;> simp only [waitBase, Option.some.injEq, Prod.mk.injEq, reduceCtorEq] at h
  all_goals
    obtain ⟨rfl, rfl⟩ := h
    simp only [laneForm, Option.some.injEq, Prod.mk.injEq] at hf
    obtain ⟨-, rfl⟩ := hf
  case barw u => exact (exec_barw ..).trans (waits_entered hr)
  case cbarw u => exact (exec_cbarw ..).trans (waits_entered hr)

theorem acquireHere_lane (hr : LaneReady i w x s) (n : Nat) : acquireHere n s = .ok ((), s.acquireFor x.c.team n) := by
  simp only [acquireHere, upd_run, hr.cur]

theorem waitPhases_goes (hr : LaneReady i w x s) (hb : s.slot? x.c.team (base + w.bits 3 0) = some b) (hi : b.init = true)
    (hv : ∀ j ∈ x.parts, x.a w (x.G.lane j) % 2 ^ 32 ≠ b.phase.toNat) :
    waitPhases x i w base kind s = .ok ((), (s.acquireFor x.c.team (slotScope (base + w.bits 3 0))).laneNext x.c) := by
  have hcond : (x.parts.map fun j => x.a w (x.G.lane j) % 2 ^ 32).contains b.phase.toNat = false := by
    simpa [List.contains_eq_any_beq] using hv
  unfold waitPhases
  simp only [bind_run, readySlot_ok hb hi, hcond, Bool.false_eq_true, if_false, acquireHere_lane hr, retireLane_run]

theorem waitPhases_parks (hr : LaneReady i w x s) (hb : s.slot? x.c.team (base + w.bits 3 0) = some b) (hi : b.init = true)
    (hv : ∃ j ∈ x.parts, x.a w (x.G.lane j) % 2 ^ 32 = b.phase.toNat) : waitPhases x i w base kind s
      = parkOn (maskLanes x.parts) { kind := kind, addr := BitVec.ofNat 64 (base + w.bits 3 0), value := b.phase.setWidth 64, word := i } s := by
  have hcond : (x.parts.map fun j => x.a w (x.G.lane j) % 2 ^ 32).contains b.phase.toNat = true := by
    rw [List.contains_iff_mem, List.mem_map]
    exact hv
  unfold waitPhases
  simp only [bind_run, readySlot_ok hb hi, hcond, if_true]

/-! ### SWAIT -/

/-- What SWAIT does once it is entered. -/
def waitSync (x : LaneCtx) (w : LaneWord) : M Unit := do
  let off (i : Nat) : Nat := x.a w (x.G.lane i) % 2 ^ 32
  let gen (i : Nat) : Nat := x.b w (x.G.lane i) % 2 ^ 32
  checkSync (x.parts.map fun i => { lane := i, scratch := true, ea := off i, size := 16, align := 16, acc := .read })
  let s ← get
  match x.parts.filter fun i => s.generation x.c.team (off i) == gen i with
  | [] =>
    acquireHere ((x.parts.map fun i => (s.syncNote x.c.team (off i)).doneScope).foldl max 0)
    retireLane x.c
  | i :: _ =>
    parkOn (maskLanes x.parts)
      { kind := 0xE3, addr := BitVec.ofNat 64 (off i), value := BitVec.ofNat 64 (gen i)
        mons := x.parts.map fun j => .scratch x.c.team (off j + 8), word := .laneSwait w }

theorem laneSwait_exec (hr : LaneReady (.laneSwait w) w x s) : exec (.laneSwait w) s = M.answer (waitSync x w) s :=
  (exec_laneSwait ..).trans (waits_entered hr)

/-- Settles O43: each word is followed past its entry to what it does, goes on or parks. -/
theorem laneWaitsComplete : Obligations.LaneWaitsComplete := by
  intro i base kind w x hits b stamp ag T' X s s' s'' hr parked busy sp
  refine ⟨?_, fun ha hb hi hbusy ho hl => ?_, fun ha hb hi hbusy => ?_, fun hw hb hi => ⟨fun hv => ?_, fun hv hst => ?_⟩, ?_⟩
  · rintro rfl hd ho hreach hlog hag t hh hc hT hX hwk hp
    have hx := laneWaita_reads hr hd ho hreach hlog hag
    refine ⟨fun hv => hx.trans (answer_ok (laneWaitaLands_goes hc hT hX hwk hh hp hv)), fun he hw hst => ?_⟩
    obtain ⟨u, Y, p, hrun, hY⟩ := laneWaitaLands_parks (w := w) hc hT hX hwk hh he hw hst
    exact ⟨u, Y, p, hx.trans (answer_ok hrun), hY⟩
  · exact fun hp => (arrive_exec ha s).trans (laneRun_next hr (laneArrive_run hb hi hbusy ho hl) hp)
  · exact (arrive_exec ha s).trans (laneRun_halts (e := .stall .fence) (s' := s) hr (laneArrive_stalls hb hi hbusy))
  · exact (wait_exec hw hr).trans (answer_ok (waitPhases_goes hr hb hi hv))
  · obtain ⟨u, Y, hrun, hY, hp, hl, hg⟩ := lane_parks hr.cur hr.team hr.group hst
      { kind := kind, addr := BitVec.ofNat 64 (base + w.bits 3 0), value := b.phase.setWidth 64, word := i } (maskLanes x.parts)
    exact ⟨u, Y, _, (wait_exec hw hr).trans (answer_ok ((waitPhases_parks hr hb hi hv).trans hrun)), hY, hp, rfl, rfl, rfl, hl, hg⟩
  · rintro rfl off gen hchk
    refine ⟨fun hg => (laneSwait_exec hr).trans (answer_ok ?_), fun j rest hf hst => ?_⟩
    · have hf : (x.parts.filter fun j => s.generation x.c.team (off j) == gen j) = [] := List.filter_eq_nil_iff.2 fun j hj => by simpa using hg j hj
      unfold waitSync
      simp only [off, gen] at hchk hf ⊢
      simp only [bind_run, hchk, get_run, hf, acquireHere_lane hr, retireLane_run]
    · obtain ⟨u, Y, hrun, hY, hp, hl, hg⟩ := lane_parks hr.cur hr.team hr.group hst
        { kind := 0xE3, addr := BitVec.ofNat 64 (off j), value := BitVec.ofNat 64 (gen j)
          mons := x.parts.map fun j => .scratch x.c.team (off j + 8), word := .laneSwait w } (maskLanes x.parts)
      refine ⟨u, Y, _, (laneSwait_exec hr).trans (answer_ok ?_), hY, hp, rfl, rfl, rfl, hl, hg⟩
      unfold waitSync
      simp only [off, gen] at hchk hf hrun ⊢
      simp only [bind_run, hchk, get_run, hf, hrun]

end Sys2Proof.Proofs
end

section
/-! SUPPORT. MST.add checks its addresses before it waits for its lanes' accesses (R167, R203, R264). -/

namespace Sys2Proof.Proofs
open Sys2Proof Machine Claims Laws Tests

set_option maxRecDepth 100000

/-- Lanes whose address 1 no accumulator image has, with an earlier store that is not performed. -/
def sceneOdd : State := asking0 (sceneU (fun _ => 1) fun _ => 0)

/-- Why the lane stream of the group stalls, after an answer. -/
def laneStallAfter : Answer → Option (Option Stall)
  | .next v => (v.group? 0 0).map fun G => G.stallL
  | _ => none

/-- Refutes O45: a releasing MST.add whose address is misaligned takes its trap, where the statement makes it wait for its lanes' accesses: its stall
for them holds no premise that the row's checks pass. -/
theorem not_tileMatrixWordsComplete : ¬ Obligations.TileMatrixWordsComplete := by
  intro h
  have hr : MatrixReady (.mstAdd wRel2) wRel2 (laneIn wRel2 sceneOdd) sceneOdd := matrix_of (by decide +kernel)
  obtain ⟨-, -, -, -, -, -, hfence, -⟩ := h (.mstAdd wRel2) cLane (teamIn cLane sceneOdd) (groupIn cLane sceneOdd) (launchIn cLane sceneOdd) [] [] [] [] 0
    (canalAgent probeContext) (groupIn cLane sceneOdd) wRel2 (laneIn wRel2 sceneOdd) false sceneOdd sceneOdd sceneOdd sceneOdd sceneOdd
  have hexec := hfence rfl hr (by decide +kernel) (by decide) (by decide +kernel)
  exact absurd (congrArg laneStallAfter hexec) (by decide +kernel)

end Sys2Proof.Proofs
end

section
/-! SUPPORT. The words over tiles: their entry; MMA (R196 to R200). -/

namespace Sys2Proof.Proofs
open Machine Claims Laws

variable {i : Instr} {w : LaneWord} {x : LaneCtx} {s t : State} {G X : Group} {T : Team} {f : Form} {more : LaneCtx → Bool} {eff : LaneCtx → M Unit}
  {K : Nat} {r : Reservation} {l : Latch}

/-! ### Entry -/

/-- A word that some lane executes enters with the lanes that pass its guard. -/
theorem laneEnter_parts (hc : s.cur = some x.c) (hT : s.team? x.c.team = some x.T) (hG : s.group? x.c.team x.c.grp = some x.G)
    (hL : s.launchOf? x.c.team = some x.L) (hp : x.parts = x.G.active.filter fun j => (x.G.lane j).passes w.guard.toNat w.neg) (hne : x.parts ≠ [])
    (hg : w.guardOk = true) : laneEnter w.guard.toNat w.neg w.guardOk s = .ok (some x, s) := by
  obtain ⟨j, hj⟩ := List.exists_mem_of_ne_nil _ hne
  rw [hp] at hj
  obtain ⟨hj, hpass⟩ := List.mem_filter.1 hj
  rw [laneEnter_some hc hT hG hL ⟨j, hj, hpass⟩ hg, ← hp]

theorem matrixEnter_illegal (he : laneEnter w.guard.toNat w.neg w.guardOk s = .ok (some x, s)) (hf : laneForm 64 i = some (f, w))
    (hl : (w.guard == 127 && f.legal w x.L.vregs x.L.aregs x.L.tiles && more x) = false) :
    matrixEnter i w more s = .error (.trap { cause := 0x01 }, s) := by
  unfold matrixEnter
  rw [bind_ok he]
  simp only [hf]
  exact bind_error (require_fail hl ..)

theorem matrixEnter_diverged (he : laneEnter w.guard.toNat w.neg w.guardOk s = .ok (some x, s)) (hf : laneForm 64 i = some (f, w))
    (hl : (w.guard == 127 && f.legal w x.L.vregs x.L.aregs x.L.tiles && more x) = true) (hw : x.G.active.length ≠ x.G.lanes.length) :
    matrixEnter i w more s = .error (.trap { cause := 0x03, tinfo := 4 }, s) := by
  unfold matrixEnter
  rw [bind_ok he]
  simp only [hf]
  rw [bind_ok (require_ok hl ..)]
  exact bind_error (require_fail (beq_false_of_ne hw) ..)

theorem matrixEnter_ok (he : laneEnter w.guard.toNat w.neg w.guardOk s = .ok (some x, s)) (hf : laneForm 64 i = some (f, w))
    (hl : (w.guard == 127 && f.legal w x.L.vregs x.L.aregs x.L.tiles && more x) = true) (hw : x.G.active.length = x.G.lanes.length) :
    matrixEnter i w more s = .ok (some x, s) := by
  unfold matrixEnter
  rw [bind_ok he]
  simp only [hf]
  rw [bind_ok (require_ok hl ..), bind_ok (require_ok (beq_iff_eq.2 hw) ..)]
  rfl

theorem matrixRun_enter (h : matrixEnter i w more s = .ok (some x, s)) : matrixRun i w more eff s = M.answer (do eff x; retireLane x.c) s :=
  answer_congr (bind_ok h)

theorem matrixRun_traps {tr : TrapArgs} (h : matrixEnter i w more s = .error (.trap tr, s)) : matrixRun i w more eff s = .next (s.takeTrap tr) :=
  answer_trap (bind_error h)

theorem matrixReady_enter (hr : MatrixReady i w x s) (hm : more x = true) : matrixEnter i w more s = .ok (some x, s) := by
  obtain ⟨hg, hn⟩ := hr.guard
  obtain ⟨f, hf, hl, -⟩ := hr.form
  obtain ⟨hw, hne⟩ := hr.whole
  have hgn : w.guard.toNat = 127 := by rw [hg]; rfl
  have hp : x.parts = x.G.active.filter fun j => (x.G.lane j).passes w.guard.toNat w.neg := by
    rw [hr.parts, List.filter_eq_self.2]
    intro j _
    simp [Lane.passes, hgn]
  have he := laneEnter_parts hr.cur hr.team hr.group hr.launch hp hne (by simp [LaneWord.guardOk, hg, hn])
  exact matrixEnter_ok he hf (by simp [hg, hl, hm]) hw

/-- A word over a tile in hand whose effect ends retires after it. -/
theorem matrixRun_next (hr : MatrixReady i w x s) (hm : more x = true) (he : eff x s = .ok ((), t)) : matrixRun i w more eff s = .next (t.laneNext x.c) :=
  (matrixRun_enter (matrixReady_enter hr hm)).trans (answer_ok ((bind_ok he).trans rfl))

/-- A lane word's retirement changes flags, marks and what is left of the clause, no more. -/
theorem laneNext_group (h : s.group? n g = some X) (c : Cur) (hc : c.team = n ∧ c.grp = g) :
    ∃ Y, (s.laneNext c).group? n g = some Y ∧ Y.mmas = X.mmas ∧ Y.latch = X.latch ∧ Y.lanes = X.lanes ∧ Y.tiles = X.tiles ∧ Y.regs = X.regs
      ∧ Y.ric = X.ric + 1 := by
  obtain ⟨rfl, rfl⟩ := hc
  have hf := stepFace_stepClause (X.countLane s.tick)
  refine ⟨(X.countLane s.tick).stepClause, ?_, congrArg (·.mmas) hf, congrArg (·.latch) hf, congrArg (·.lanes) hf, congrArg (·.tiles) hf,
    congrArg (·.regs) hf, congrArg (·.ric) hf⟩
  unfold State.laneNext
  rw [group?_modGroup, if_pos ⟨rfl, rfl⟩, h]
  rfl

/-! ### MMA -/

/-- Whether an MMA's block, format and reservation pass the checks of its encoding. -/
theorem mmaLegal_iff : mmaLegal w x = true ↔ (∃ v, x.T.live? w.vb.toNat = some v ∧ fld v.record 4 1 = w.bits 28 24)
    ∧ ∀ l, x.G.latch = some l → l.va = w.va.toNat ∧ l.ty = w.ty.toNat ∧ l.ct = mmaTable w := by
  unfold mmaLegal latchFits
  cases x.T.live? w.vb.toNat <;> cases x.G.latch <;> simp [and_assoc]

/-- The table of a core by its number, if it is loaded. -/
def loadedTable (core : Nat) (s : State) (n : Option Nat) : Option CTable :=
  n.bind fun n => (((((s.cores[core]?).map (·.tables)).getD [])[n]?).bind id)

theorem tablesLoaded_iff {a b : Option Nat} {core : Nat} : ([a, b].all fun n => n.isNone || (loadedTable core s n).isSome) = true
    ↔ ∀ n, (a = some n ∨ b = some n) → ∃ c t, s.cores[core]? = some c ∧ c.tables[n]? = some (some t) := by
  have hn (n : Nat) : (loadedTable core s (some n)).isSome = true ↔ ∃ c t, s.cores[core]? = some c ∧ c.tables[n]? = some (some t) := by
    unfold loadedTable
    cases s.cores[core]? with
    | none => simp
    | some c => cases hc : c.tables[n]? with
      | none => simp [hc]
      | some o => cases o <;> simp [hc]
  cases a <;> cases b <;> simp [hn, or_imp, forall_and]

/-- The MMA that a word issues. -/
def mmaEntered (w : LaneWord) (x : LaneCtx) (r : Reservation) (l : Latch) (lock : Nat) (s : State) : Mma :=
  { id := s.nextId, tile := w.vd.toNat, o := w.vb.toNat, ta := w.ty.toNat, cb := (mmaBlock x w).1, ks := (mmaBlock x w).2, aregs := l.aregs
    scales := l.scales, ctA := loadedTable x.T.core s l.ct, ctB := loadedTable x.T.core s (recordTable r.record), batch := 0, fenced := false
    lock := lock }

/-- The state once an MMA has joined the engine's work, the team's locks changed. -/
def mmaJoined (w : LaneWord) (x : LaneCtx) (l : Latch) (m : Mma) (locks : Team → Team) (s : State) : State :=
  (({ s.modTeam x.c.team locks with nextId := s.nextId + 1 } : State).modGroup x.c.team x.c.grp fun g =>
    { g with mmas := g.mmas ++ [m], latch := if natBit w.md.toNat 0 then some l else none }).post (.mmaComplete x.c.team x.c.grp m.id)

/-- The lock entry of an MMA: the one that the group's last MMA of the reservation shares, widened, or a new one. -/
def mmaLocks (x : LaneCtx) (o : Nat) (y : Nat × Nat) : Nat × (Team → Team) :=
  match x.G.sharedLock o with
  | some k => (k, fun T => { T with locks := T.locks.map fun l => if l.cmd = k then l.widen y.1 y.2 else l })
  | none => (x.T.nextCmd, fun T => { T with locks := T.locks ++ spanLocks x.c.grp x.T.nextCmd [⟨3, o, y.1, y.2 - y.1, false⟩], nextCmd := x.T.nextCmd + 1 })

theorem mmaLocks_groups (x : LaneCtx) (o : Nat) (y : Nat × Nat) (T : Team) : ((mmaLocks x o y).2 T).groups = T.groups := by
  unfold mmaLocks
  split <;> rfl

/-- The last part of an MMA's issue: room in the engine and in the table of locks, its lock entry, its work. -/
def mmaEnqueue (w : LaneWord) (x : LaneCtx) (K : Nat) (d : List Byte) (tab : Option Nat → Option CTable) (latch : Latch) : M Unit := do
  let (cb, ks) := mmaBlock x w
  let o := w.vb.toNat
  if (← get).mmaCount x.T.core ≥ 16 then stallOn .engine
  let (lo, hi) := mmaSpan d K cb ks
  if x.T.locks.any fun l => l.against x.T.core 3 o lo (hi - lo) false then stallOn .lock
  let id := (← get).nextId
  let num := x.T.nextCmd
  let lock ← match x.G.sharedLock o with
    | some k =>
      upd fun s => s.modTeam x.c.team fun T => { T with locks := T.locks.map fun l => if l.cmd = k then l.widen lo hi else l }
      pure k
    | none =>
      if x.T.locks.length ≥ 32 then stallOn .lock
      upd fun s => s.modTeam x.c.team fun T =>
        { T with locks := T.locks ++ spanLocks x.c.grp num [⟨3, o, lo, hi - lo, false⟩], nextCmd := num + 1 }
      pure num
  let m : Mma :=
    { id := id, tile := w.vd.toNat, o := o, ta := w.ty.toNat, cb := cb, ks := ks, aregs := latch.aregs, scales := latch.scales
      ctA := tab latch.ct, ctB := tab (recordTable d), batch := 0, fenced := false, lock := lock }
  upd fun s => (({ s with nextId := id + 1 } : State).modGroup x.c.team x.c.grp fun g =>
    { g with mmas := g.mmas ++ [m], latch := if natBit w.md.toNat 0 then some latch else none }).post (.mmaComplete x.c.team x.c.grp id)

theorem mmaEnqueue_run (hm : MmaReady w x K r l s) : mmaEnqueue w x K r.record (loadedTable x.T.core s) l s = .ok ((),
    let y := mmaLocks x w.vb.toNat (mmaSpan r.record K (mmaBlock x w).1 (mmaBlock x w).2)
    mmaJoined w x l (mmaEntered w x r l y.1 s) y.2 s) := by
  have hfree : (x.T.locks.any fun k => k.against x.T.core 3 w.vb.toNat (mmaSpan r.record K (mmaBlock x w).1 (mmaBlock x w).2).1
    ((mmaSpan r.record K (mmaBlock x w).1 (mmaBlock x w).2).2 - (mmaSpan r.record K (mmaBlock x w).1 (mmaBlock x w).2).1) false) = false := hm.free
  unfold mmaEnqueue mmaLocks
  simp only [bind_run, get_run, Nat.not_le.2 hm.room, hfree, Bool.false_eq_true, if_false, ge_iff_le]
  cases hs : x.G.sharedLock w.vb.toNat with
  | some k =>
    simp only [bind_run, upd_run, pure_run]
    rfl
  | none =>
    have hroom : ¬ 32 ≤ x.T.locks.length := by
      obtain he | he := hm.entry
      · rw [hs] at he; cases he
      · exact Nat.not_le.2 he
    simp only [hroom, if_false, bind_run, upd_run, pure_run]
    rfl

/-- The checks of an MMA, its operand taken from the latch or read from the registers. -/
theorem mmaIssue_checked (hr : MatrixReady i w x s) (hm : MmaReady w x K r l s) :
    mmaIssue i w x s = mmaEnqueue w x K r.record (loadedTable x.T.core s) l s := by
  have hscale : (!(quantA w.ty.toNat && fld r.record 6 1 == 1 && decide ((K + blockLen (fld r.record 5 1) - 1) / blockLen (fld r.record 5 1) > 4))) = true := by
    simpa [not_and, Decidable.imp_iff_not_or, or_assoc] using hm.scale
  have htabs := (tablesLoaded_iff (core := x.T.core) (s := s)).2 hm.table
  unfold mmaIssue
  simp only [hm.kind, hm.live]
  rw [bind_ok (require_ok (decide_eq_true hm.block) ..), bind_ok (require_ok hscale ..), bind_ok (get_run s)]
  refine (bind_ok (require_ok htabs ..)).trans ?_
  obtain ⟨hn, rfl⟩ | ⟨hs, -⟩ := hm.latch
  · obtain ⟨f, hf, -, hout⟩ := hr.form
    simp only [hn, hf]
    rw [bind_ok (checkRegs_clean hr.clean ..)]
    simp only [hout, Bool.false_eq_true, if_false]
    rfl
  · rw [hs]
    rfl

/-! ### The traps of an MMA -/

theorem mmaIssue_beyond (hk : mmaK w.ty.toNat (w.bits 28 24) = some K) (hl : x.T.live? w.vb.toNat = some r)
    (h : ¬(32 * (mmaBlock x w).1 + 32 ≤ fld r.record 16 4 ∧ K * (mmaBlock x w).2 + K ≤ fld r.record 20 4)) :
    mmaIssue i w x s = .error (.trap { cause := 0x15 }, s) := by
  unfold mmaIssue
  simp only [hk, hl]
  exact bind_error (require_fail (decide_eq_false h) ..)

theorem mmaIssue_refused (hk : mmaK w.ty.toNat (w.bits 28 24) = some K) (hl : x.T.live? w.vb.toNat = some r)
    (h : 32 * (mmaBlock x w).1 + 32 ≤ fld r.record 16 4 ∧ K * (mmaBlock x w).2 + K ≤ fld r.record 20 4)
    (hq : (quantA w.ty.toNat = true ∧ fld r.record 6 1 = 1 ∧ 4 < (K + blockLen (fld r.record 5 1) - 1) / blockLen (fld r.record 5 1))
      ∨ ∃ n, (mmaTable w = some n ∨ recordTable r.record = some n) ∧ ∀ y t, s.cores[x.T.core]? = some y → y.tables[n]? ≠ some (some t)) :
    mmaIssue i w x s = .error (.trap { cause := 0x01 }, s) := by
  unfold mmaIssue
  simp only [hk, hl]
  rw [bind_ok (require_ok (decide_eq_true h) ..)]
  by_cases hwide : quantA w.ty.toNat = true ∧ fld r.record 6 1 = 1 ∧ 4 < (K + blockLen (fld r.record 5 1) - 1) / blockLen (fld r.record 5 1)
  · exact bind_error (require_fail (by simp [hwide]) ..)
  · obtain ⟨n, hn, hempty⟩ := hq.resolve_left hwide
    have hscale : (!(quantA w.ty.toNat && fld r.record 6 1 == 1 && decide ((K + blockLen (fld r.record 5 1) - 1) / blockLen (fld r.record 5 1) > 4))) = true := by
      simpa [not_and, Decidable.imp_iff_not_or, or_assoc] using hwide
    have htabs : ([mmaTable w, recordTable r.record].all fun n => n.isNone || (loadedTable x.T.core s n).isSome) = false :=
      Bool.eq_false_iff.2 fun ht => by
        obtain ⟨c, t, hc, ht⟩ := tablesLoaded_iff.1 ht n hn
        exact hempty c t hc ht
    rw [bind_ok (require_ok hscale ..), bind_ok (get_run s)]
    exact bind_error (require_fail htabs ..)

/-- How an MMA in either form executes. -/
theorem mma_exec (hi : i = .mma w ∨ i = .mmaKreg w) : ∀ s, exec i s = matrixRun i w (mmaLegal w) (mmaIssue i w) s := by
  obtain rfl | rfl := hi
  · exact exec_mma w
  · exact exec_mmaKreg w

/-- The checks of the encoding that a word over tiles adds to its form's: those of an MMA. -/
def tileFits (i : Instr) (w : LaneWord) (x : LaneCtx) : Bool := if i = .mma w ∨ i = .mmaKreg w then mmaLegal w x else true

theorem tileFits_iff : tileFits i w x = true ↔ ((i = .mma w ∨ i = .mmaKreg w) → (∃ v, x.T.live? w.vb.toNat = some v ∧ fld v.record 4 1 = w.bits 28 24)
    ∧ ∀ l, x.G.latch = some l → l.va = w.va.toNat ∧ l.ty = w.ty.toNat ∧ l.ct = mmaTable w) := by
  unfold tileFits
  by_cases h : i = .mma w ∨ i = .mmaKreg w
  · rw [if_pos h, mmaLegal_iff]
    exact ⟨fun hf _ => hf, fun hf => hf h⟩
  · rw [if_neg h]
    exact ⟨fun _ hm => absurd hm h, fun _ => rfl⟩

/-- How a word over tiles executes. -/
theorem tiled_exec (hi : (i = .mma w ∨ i = .mmaKreg w) ∨ i = .mzero w ∨ i = .mstRnd w ∨ i = .mstRaw w ∨ i = .mstAdd w) :
    ∃ eff, ∀ s, exec i s = matrixRun i w (tileFits i w) eff s := by
  obtain hi | rfl | rfl | rfl | rfl := hi
  · refine ⟨mmaIssue i w, fun s => ?_⟩
    rw [show tileFits i w = mmaLegal w from funext fun x => if_pos hi]
    exact mma_exec hi s
  · exact ⟨_, fun s => exec_mzero w s⟩
  · exact ⟨_, fun s => exec_mstRnd w s⟩
  · exact ⟨_, fun s => exec_mstRaw w s⟩
  · exact ⟨_, fun s => exec_mstAdd w s⟩

/-- An MMA whose checks pass does its issue. -/
theorem mma_issues (hi : i = .mma w ∨ i = .mmaKreg w) (he : matrixEnter i w (tileFits i w) s = .ok (some x, s)) {tr : TrapArgs}
    (h : mmaIssue i w x s = .error (.trap tr, s)) : exec i s = .next (s.takeTrap tr) := by
  rw [show tileFits i w = mmaLegal w from funext fun x => if_pos hi] at he
  exact (mma_exec hi s).trans ((matrixRun_enter he).trans (answer_trap (bind_error h)))

/-- Settles O44. -/
theorem mmaIssues : Obligations.MmaIssues := by
  refine ⟨fun i K r l w x s hi hr hm => ?_, fun i f K r w x s hc hT hG hL hp hne hg hf => ?_⟩
  · have hmore : mmaLegal w x = true := mmaLegal_iff.2 ⟨⟨r, hm.live, hm.fmt⟩, fun k hk => by
      obtain ⟨hn, -⟩ | ⟨hs, h⟩ := hm.latch
      · rw [hn] at hk; cases hk
      · rw [hs] at hk; cases hk; exact h⟩
    have hrun := matrixRun_next (more := mmaLegal w) hr hmore ((mmaIssue_checked hr hm).trans (mmaEnqueue_run hm))
    generalize hy : mmaLocks x w.vb.toNat (mmaSpan r.record K (mmaBlock x w).1 (mmaBlock x w).2) = y at hrun
    have hkeep (T : Team) : (y.2 T).groups = T.groups := hy ▸ mmaLocks_groups ..
    have hgroup : (mmaJoined w x l (mmaEntered w x r l y.1 s) y.2 s).group? x.c.team x.c.grp = some { x.G with
        mmas := x.G.mmas ++ [mmaEntered w x r l y.1 s], latch := if natBit w.md.toNat 0 then some l else none } := by
      show (((s.modTeam x.c.team y.2).modGroup x.c.team x.c.grp fun g => { g with
        mmas := g.mmas ++ [mmaEntered w x r l y.1 s], latch := if natBit w.md.toNat 0 then some l else none })).group? x.c.team x.c.grp = _
      rw [group?_modGroup, if_pos ⟨rfl, rfl⟩, group?_modTeam_keep s x.c.team x.c.team x.c.grp hkeep, hr.group]
      rfl
    obtain ⟨X, hX, h1, h2, h3, h4, h5, h6⟩ := laneNext_group hgroup x.c ⟨rfl, rfl⟩
    exact ⟨_, X, _, (mma_exec hi s).trans hrun, hX, h1, rfl, rfl, rfl, rfl, rfl, rfl, rfl, h2, h3, h4, h5, h6, rfl, rfl, rfl⟩
  · intro mma tiled fits legal whole inside blocks wide empty
    have he := laneEnter_parts hc hT hG hL hp hne hg
    have hmma : mma = true ↔ (i = .mma w ∨ i = .mmaKreg w) := decide_eq_true_iff
    have hlegal : (w.guard == 127 && f.legal w x.L.vregs x.L.aregs x.L.tiles && tileFits i w x) = true ↔ legal := by
      simp only [Bool.and_eq_true, beq_iff_eq, tileFits_iff, ← hmma, legal, and_assoc]
      rfl
    refine ⟨fun ht hl => ?_, fun ht hl hw => ?_, fun ht hl hw hk hlive => ⟨fun hin => ?_, fun hin hq => ?_⟩⟩
    · obtain ⟨eff, hx⟩ := tiled_exec (ht.imp_left hmma.1)
      exact (hx s).trans (matrixRun_traps (matrixEnter_illegal he hf (Bool.eq_false_iff.2 fun h => hl (hlegal.1 h))))
    · obtain ⟨eff, hx⟩ := tiled_exec (ht.imp_left hmma.1)
      exact (hx s).trans (matrixRun_traps (matrixEnter_diverged he hf (hlegal.2 hl) hw))
    · exact mma_issues (hmma.1 ht) (matrixEnter_ok he hf (hlegal.2 hl) hw) (mmaIssue_beyond hk hlive hin)
    · exact mma_issues (hmma.1 ht) (matrixEnter_ok he hf (hlegal.2 hl) hw) (mmaIssue_refused hk hlive hin hq)

end Sys2Proof.Proofs
end

section
/-! SUPPORT. The Spire's words join its queue (R211 to R217). -/

namespace Sys2Proof.Proofs
open Machine Claims Laws

variable {i : Instr} {w : LaneWord} {x : LaneCtx} {s s' s'' : State} {reads merge : Bool} {checks : LaneCtx → Nat → Nat → M SpireIssue} {a b : Nat}
  {y : SpireIssue}

theorem answer_moves {m n : M Unit} (h : m s = n s') : M.answer m s = M.answer n s' := by
  rw [answer_eq, answer_eq, h]

/-- A computation that ends has ended its first part. -/
theorem bind_inv {α β : Type} {m : M α} {f : α → M β} {v : β} (h : (m >>= f) s = .ok (v, s')) : ∃ a t, m s = .ok (a, t) ∧ f a t = .ok (v, s') := by
  rw [bind_run] at h
  cases hm : m s with
  | error e => rw [hm] at h; cases h
  | ok p => rw [hm] at h; exact ⟨p.1, p.2, rfl, h⟩

/-- The context of a Spire word: the lowest lane that executes it. -/
def lowestLane (x : LaneCtx) : LaneCtx := { x with parts := x.parts.take 1 }

/-- A word's checks are those of fewer lanes too. -/
theorem laneChecks_lowest (hr : LaneReady i w x s) : laneChecks (lowestLane x) i s = .ok ((), s) := by
  obtain ⟨f, f', -, hf, hleg, hout⟩ := hr.form
  have hf' : laneForm (lowestLane x).G.lanes.length i = some (f, w) := hf
  have hleg : f.legal w (lowestLane x).L.vregs (lowestLane x).L.aregs (lowestLane x).L.tiles = true := hleg
  unfold laneChecks
  simp only [hf']
  rw [bind_ok (require_ok hleg ..), bind_ok (checkRegs_clean hr.clean ..)]
  simp only [show (lowestLane x).G = x.G from rfl, hout, Bool.false_eq_true, if_false, pure_run]

/-- How a Spire word executes. -/
theorem spire_exec (h : spireWord i = some (reads, merge, checks)) (hr : LaneReady i w x s) : exec i s = spireRun i w reads merge checks s := by
  obtain ⟨f, f', hf, -⟩ := hr.form
  cases i <;> simp only [spireWord, Option.some.injEq, Prod.mk.injEq, reduceCtorEq] at h
  all_goals
    obtain ⟨rfl, rfl, rfl⟩ := h
    simp only [laneForm, Option.some.injEq, Prod.mk.injEq] at hf
    obtain ⟨-, rfl⟩ := hf
  case vpjs u => exact exec_vpjs u s
  case vpjr u => exact exec_vpjr u s
  case vpjm u => exact exec_vpjm u s
  case vpjx u => exact exec_vpjx u s
  case vpjb u => exact exec_vpjb u s

/-- The command of a Spire word. -/
def spireCmd (x : LaneCtx) (a b : Nat) (y : SpireIssue) : Cmd :=
  { id := x.T.nextCmd, kind := y.kind, grp := x.c.grp, flag := none, desc := y.desc, arg := BitVec.ofNat 64 b, srec := a, tag := x.G.clause.map (·.tag)
    lpc := x.G.lanePc, pos := 0, retry := [], held := [], dropped := 0, waiting := 0, got := [], faulted := false, stamp := x.G.ric.toNat
    scope := y.scope, core := x.T.core }

/-- The state once a Spire word's command is in its queue. -/
def spireQueued (x : LaneCtx) (a b : Nat) (y : SpireIssue) (s : State) : State :=
  (((s.modTeam x.c.team fun T =>
      { T with cmds := T.cmds ++ [spireCmd x a b y], locks := T.locks ++ spanLocks x.c.grp x.T.nextCmd y.locks, nextCmd := x.T.nextCmd + 1 }).modGroup
    x.c.team x.c.grp fun g => match x.G.clause.map (·.tag) with
      | some n => Group.modTag g n fun t => { t with stores := t.stores + 1 }
      | none => g).modCore x.T.core fun c => { c with spire := c.spire ++ [(x.c.team, x.T.nextCmd)] }).post (.spireComplete x.T.core)

/-- What is left of a Spire word once its operands are checked. -/
def spireJoin (x : LaneCtx) (a b : Nat) (y : SpireIssue) : M Unit := do
  if (← get).queued x.T.core true ≥ 4 then stallOn .queueFull
  if !x.T.admits y.locks then stallOn .lock
  releaseLanes x
  upd (spireQueued x a b y)
  retireLane x.c

/-- A Spire word enters, and its operands pass their checks. -/
theorem spireRun_checked (hr : LaneReady i w x s) (ho : spireOffsets (lowestLane x) w reads merge s = .ok ((a, b), s'))
    (hc : checks (lowestLane x) a b s' = .ok (y, s'')) : spireRun i w reads merge checks s = M.answer (spireJoin (lowestLane x) a b y) s'' := by
  unfold spireRun
  refine answer_moves ((bind_ok (laneEnter_ok hr)).trans ?_)
  exact (bind_ok (laneChecks_lowest hr)).trans ((bind_ok ho).trans ((bind_ok hc).trans rfl))

section
variable (hq : s.queued x.T.core true < 4)
include hq

theorem spireJoin_locked (ha : x.T.admits y.locks = false) : spireJoin x a b y s = .error (.stall .lock, s) := by
  simp only [spireJoin, bind_run, get_run, Nat.not_le.2 hq, ha, ge_iff_le, Bool.not_false, if_true, if_false, stallOn_run]

variable (ha : x.T.admits y.locks = true)
include ha

theorem spireJoin_busy (hb : s.laneBusy x.c.team x.c.grp x.T.core x.parts = true) : spireJoin x a b y s = .error (.stall .fence, s) := by
  simp only [spireJoin, bind_run, get_run, Nat.not_le.2 hq, ha, ge_iff_le, Bool.not_true, Bool.false_eq_true, if_false, releaseLanes_stalls hb]

theorem spireJoin_queues (hb : s.laneBusy x.c.team x.c.grp x.T.core x.parts = false) :
    spireJoin x a b y s = .ok ((), (spireQueued x a b y s).laneNext x.c) := by
  simp only [spireJoin, bind_run, get_run, Nat.not_le.2 hq, ha, ge_iff_le, Bool.not_true, Bool.false_eq_true, if_false, releaseLanes_ok hb, upd_run,
    retireLane_run]

end

theorem spireJoin_full (hq : 4 ≤ s.queued x.T.core true) : spireJoin x a b y s = .error (.stall .queueFull, s) := by
  simp only [spireJoin, bind_run, get_run, hq, ge_iff_le, if_true, stallOn_run]

/-- The last part of `spireOffsets`: a range lock of an earlier command holds the word back. -/
def spireHolds (x : LaneCtx) (reads merge : Bool) (a b : Nat) : M (Nat × Nat) := do
  let held (off : Nat) : Bool := x.T.locks.any fun l => l.against x.T.core 1 0 off 256 false
  if (reads && held a) || (merge && held b) then stallOn .lock
  return (a, b)

/-- The offsets of a Spire word are those of its lowest lane, modulo 2^32. -/
theorem spireOffsets_vals (ho : spireOffsets x w reads merge s = .ok ((a, b), s')) :
    a = x.a w (x.G.lane (x.parts.headD 0)) % 2 ^ 32 ∧ b = x.b w (x.G.lane (x.parts.headD 0)) % 2 ^ 32 := by
  unfold spireOffsets at ho
  obtain ⟨-, t, -, ho⟩ := bind_inv ho
  have hlast {u : State} (h : spireHolds x reads merge (x.a w (x.G.lane (x.parts.headD 0)) % 2 ^ 32) (x.b w (x.G.lane (x.parts.headD 0)) % 2 ^ 32) u
      = .ok ((a, b), s')) : a = x.a w (x.G.lane (x.parts.headD 0)) % 2 ^ 32 ∧ b = x.b w (x.G.lane (x.parts.headD 0)) % 2 ^ 32 := by
    unfold spireHolds at h
    split at h
    · obtain ⟨-, t, h, -⟩ := bind_inv h
      cases h
    · cases h
      exact ⟨rfl, rfl⟩
  by_cases hm : (!merge) = true
  · rw [if_pos hm] at ho
    obtain ⟨-, t, -, ho⟩ := bind_inv ho
    exact hlast ho
  · rw [if_neg hm] at ho
    exact hlast ho

/-- Settles O46. -/
theorem spireWordsIssue : Obligations.SpireWordsIssue := by
  intro i reads merge checks a b y w x s s' s'' hw hr x' ho hc
  have hrun : exec i s = M.answer (spireJoin (lowestLane x) a b y) s'' := (spire_exec hw hr).trans (spireRun_checked hr ho hc)
  have hhead : (lowestLane x).parts.headD 0 = x.parts.headD 0 := by
    show (x.parts.take 1).headD 0 = _
    cases x.parts <;> rfl
  have hvals := spireOffsets_vals (x := lowestLane x) ho
  rw [hhead] at hvals
  obtain ⟨h1, h2⟩ := hvals
  refine ⟨h1, h2, fun hq ha hb => hrun.trans (answer_ok (spireJoin_queues hq ha hb)),
    fun hq => hrun.trans (answer_stall (spireJoin_full hq)), fun hq ha => hrun.trans (answer_stall (spireJoin_locked hq ha)),
    fun hq ha hb => hrun.trans (answer_stall (spireJoin_busy hq ha hb))⟩

end Sys2Proof.Proofs
end

section
/-! SUPPORT. Pair words and reserved words (R48 to R50, R57). -/

namespace Sys2Proof.Proofs
open Machine Claims Laws

variable {i : Instr} {fx : LaneFx} {f : Form} {w : LaneWord} {x : LaneCtx} {c : Cur} {T : Team} {G : Group} {L : Launch} {C : Context} {r : ScalarRegs}
  {s s' s'' : State} {p : PairWord} {o : ShortOp} {b : BitVec 96}

/-! ### Slots that compute -/

/-- The long instructions that have a short form (R50). -/
def shortened : Instr → Bool
  | .laneAdd _ | .laneSub _ | .laneMul _ | .laneMin _ | .laneMax _ | .laneAnd _ | .laneOr _ | .laneXor _ | .laneShl _ | .laneShr _ | .laneSar _
  | .laneAddi _ | .laneShli _ | .laneShri _ | .mov _ | .fadd _ | .fsub _ | .fmul _ | .fmin _ | .fmax _ | .fabs _ | .fneg _ | .fma _ | .laneCmp _ _
  | .fcmp _ _ | .laneSel _ | .lanePopc _ | .laneLd _ | .laneSt _ | .laneLds _ | .laneSts _ | .ex2f _ | .rcp _ | .rsq _ | .lg2 _ | .aadd _ | .amac _
  | .laneMovi _ => true
  | _ => false

theorem long_shortened (h : o.long = some i) : shortened i = true := by
  unfold ShortOp.long at h
  split at h
  case h_43 => cases h
  all_goals
    obtain rfl := Option.some.inj h
    rfl

/-- A slot that computes does what its long form does. -/
theorem shortFx_computes (hs : shortened i = true) (hf : integerFx i = some fx ∨ bitFx i = some fx ∨ floatFx i = some fx ∨ accFx i = some fx)
    (hl : laneForm 64 i = some (f, w)) : shortFx x i = computes fx x w := by
  cases i <;> simp only [shortened, Bool.false_eq_true] at hs
  all_goals simp only [integerFx, bitFx, floatFx, accFx, Option.some.injEq, reduceCtorEq, or_self, false_or, or_false] at hf
  all_goals
    simp only [laneForm, Option.some.injEq, Prod.mk.injEq] at hl
    obtain ⟨-, rfl⟩ := hl
    subst hf
  case laneCmp c u => cases c <;> rfl
  case fcmp c u => cases c <;> rfl
  all_goals rfl

theorem slotFx_computes (ho : o.long = some i) (hf : integerFx i = some fx ∨ bitFx i = some fx ∨ floatFx i = some fx ∨ accFx i = some fx)
    (hl : laneForm 64 i = some (f, w)) (hp : s.poison = []) (hne : x.parts ≠ []) :
    slotFx x o s = .ok ((), s.modGroup x.c.team x.c.grp fun g => g.mapLanes x.parts (fx x w)) := by
  have hparts : (!x.parts.isEmpty) = true := by simpa using hne
  unfold slotFx
  simp only [ho, hparts, if_true, shortFx_computes (long_shortened ho) hf hl, hl]
  rw [bind_ok (computes_run fx x w s)]
  split
  · exact clearRegs_clean (s := s.modGroup x.c.team x.c.grp fun g => g.mapLanes x.parts (fx x w)) hp x _
  · rfl

/-! ### A pair word -/

/-- A slot in its lanes. -/
def slotCtx (c : Cur) (T : Team) (G : Group) (L : Launch) (o : ShortOp) : LaneCtx := { c := c, T := T, G := G, L := L, parts := slotLanes G o }

theorem guardOk_iff : o.guardOk = true ↔ (o.guard = 15 → o.neg = false) := by
  unfold ShortOp.guardOk
  cases o.neg <;> simp

section
variable (hs : InHand c T G L C r s)
include hs

theorem slotCtx_ok (o : ShortOp) : laneCtx (slotLanes G o) s = .ok (slotCtx c T G L o, s) :=
  laneCtx_ok (x := slotCtx c T G L o) hs.cur hs.team hs.group hs.launch

theorem pair_idle (ha : G.active = []) : exec (.pairWord p) s = .next (s.laneNext c) := by
  refine (exec_pairWord p s).trans (answer_ok ?_)
  simp only [bind_run, hand_here hs, ha, List.isEmpty_nil, if_true, retireLane_run]

theorem pair_refuses (ha : G.active ≠ []) (hg : (p.slot0.guardOk && p.slot1.guardOk) = false) :
    exec (.pairWord p) s = .next (s.takeTrap { cause := 0x01 }) := by
  refine (exec_pairWord p s).trans (answer_trap ?_)
  have ha : G.active.isEmpty = false := by simpa using ha
  simp only [bind_run, hand_here hs, ha, Bool.false_eq_true, if_false, require_fail hg]
  rfl

section
variable (ha : G.active ≠ []) (hg : (p.slot0.guardOk && p.slot1.guardOk) = true)
include ha hg

theorem pair_skips (h0 : slotLanes G p.slot0 = []) (h1 : slotLanes G p.slot1 = []) : exec (.pairWord p) s = .next (s.laneNext c) := by
  have hx0 := slotCtx_ok hs p.slot0
  have hx1 := slotCtx_ok hs p.slot1
  refine (exec_pairWord p s).trans (answer_ok ?_)
  have ha : G.active.isEmpty = false := by simpa using ha
  have hp : ((slotCtx c T G L p.slot0).parts.isEmpty && (slotCtx c T G L p.slot1).parts.isEmpty) = true := by simp [slotCtx, h0, h1]
  simp only [bind_run, hand_here hs, ha, Bool.false_eq_true, if_false, require_ok hg, hx0, hx1, hp, if_true, retireLane_run]

variable (hp : slotLanes G p.slot0 ≠ [] ∨ slotLanes G p.slot1 ≠ [])
include hp

/-- What a pair word does once a lane executes a slot of it. -/
def pairSlots (p : PairWord) (x0 x1 : LaneCtx) : M Unit := do
  require (!p.mid && p.slot0.legal x0.L.vregs x0.L.aregs && p.slot1.legal x0.L.vregs x0.L.aregs) cIllegalOp
  require p.pairable cIllegalPair
  slotChecks x0 p.slot0
  slotChecks x1 p.slot1
  slotFx x0 p.slot0
  undoLanes x0.c x0.G (slotFx x1 p.slot1)
  retireLane x0.c

theorem pair_enters : exec (.pairWord p) s = M.answer (pairSlots p (slotCtx c T G L p.slot0) (slotCtx c T G L p.slot1)) s := by
  have hx0 := slotCtx_ok hs p.slot0
  have hx1 := slotCtx_ok hs p.slot1
  have ha : G.active.isEmpty = false := by simpa using ha
  have hp : ((slotCtx c T G L p.slot0).parts.isEmpty && (slotCtx c T G L p.slot1).parts.isEmpty) = false := by simpa [slotCtx, Decidable.imp_iff_not_or] using hp
  refine (exec_pairWord p s).trans (answer_congr ?_)
  rw [bind_ok (hand_here hs)]
  simp only [ha, Bool.false_eq_true, if_false]
  rw [bind_ok (require_ok hg ..), bind_ok hx0, bind_ok hx1]
  simp only [hp, Bool.false_eq_true, if_false]
  rfl

end

end

/-- A pair word whose slots are legal. -/
def pairLegal (p : PairWord) (L : Launch) : Bool := !p.mid && p.slot0.legal L.vregs L.aregs && p.slot1.legal L.vregs L.aregs

theorem pairSlots_illegal {x0 x1 : LaneCtx} (h : pairLegal p x0.L = false) : pairSlots p x0 x1 s = .error (.trap { cause := 0x01 }, s) :=
  bind_error (require_fail h ..)

theorem pairSlots_unpairable {x0 x1 : LaneCtx} (h : pairLegal p x0.L = true) (hp : p.pairable = false) :
    pairSlots p x0 x1 s = .error (.trap { cause := 0x02 }, s) :=
  (bind_ok (require_ok h ..)).trans (bind_error (require_fail hp ..))

theorem undoLanes_ok {m : M Unit} (h : m s = .ok ((), s')) : undoLanes c G m s = .ok ((), s') := by
  unfold undoLanes
  rw [h]

theorem pairSlots_runs {x0 x1 : LaneCtx} (h : pairLegal p x0.L = true) (hp : p.pairable = true) (hc0 : slotChecks x0 p.slot0 s = .ok ((), s))
    (hc1 : slotChecks x1 p.slot1 s = .ok ((), s)) (hf0 : slotFx x0 p.slot0 s = .ok ((), s')) (hf1 : slotFx x1 p.slot1 s' = .ok ((), s'')) :
    pairSlots p x0 x1 s = .ok ((), s''.laneNext x0.c) := by
  unfold pairSlots
  refine (bind_ok (require_ok h ..)).trans ?_
  rw [bind_ok (require_ok hp ..), bind_ok hc0, bind_ok hc1, bind_ok hf0, bind_ok (undoLanes_ok hf1)]
  rfl

/-! ### Reserved words -/

section
variable (hs : InHand c T G L C r s)
include hs

theorem reservedLane_illegal (h : b.extractLsb' 88 7 = 0 ∨ (G.active ≠ [] ∧ (laneFields b).guardOk = false)
      ∨ ∃ j ∈ G.active, (G.lane j).passes (laneFields b).guard.toNat (laneFields b).neg = true) :
    exec (.reservedLaneWord b) s = .next (s.takeTrap { cause := 0x01 }) := by
  refine (exec_reservedLaneWord b s).trans (answer_trap ((bind_ok (hand_here hs)).trans ?_))
  by_cases hop : b.extractLsb' 88 7 = 0
  · exact bind_error (require_fail (by simp [hop]) ..)
  refine (bind_ok (require_ok (bne_iff_ne.2 hop) ..)).trans ?_
  have hrefuse (ha : G.active ≠ []) (hg : (laneFields b).guardOk = false) := laneEnter_refuses hs.cur hs.team hs.group ha hg
  obtain ⟨ha, hg⟩ | ⟨j, hj, hpass⟩ := h.resolve_left hop
  · exact bind_error (hrefuse ha hg)
  · by_cases hg : (laneFields b).guardOk = true
    · exact (bind_ok (laneEnter_some hs.cur hs.team hs.group hs.launch ⟨j, hj, hpass⟩ hg)).trans rfl
    · exact bind_error (hrefuse (List.ne_nil_of_mem hj) (Bool.eq_false_iff.2 hg))

theorem reservedLane_skips (hop : b.extractLsb' 88 7 ≠ 0)
    (h : G.active = [] ∨ ((laneFields b).guardOk = true ∧ ∀ j ∈ G.active, (G.lane j).passes (laneFields b).guard.toNat (laneFields b).neg = false)) :
    exec (.reservedLaneWord b) s = .next (s.laneNext c) := by
  refine (exec_reservedLaneWord b s).trans (answer_ok ((bind_ok (hand_here hs)).trans ((bind_ok (require_ok (bne_iff_ne.2 hop) ..)).trans ?_)))
  exact (bind_ok (laneEnter_none hs.cur hs.team hs.group h)).trans rfl

end

/-- Settles O47. -/
theorem pairAndReservedWords : Obligations.PairAndReservedWords := by
  intro p o i fx w f b c T G L C r s s' s'' hs at'
  refine ⟨fun ha => pair_idle hs ha, fun ha h0 h1 => ?_, fun ha h => ?_, fun ho hf hl hp hne => slotFx_computes ho hf hl hp hne, ?_, ?_⟩
  · have hg : (p.slot0.guardOk && p.slot1.guardOk) = true := Bool.and_eq_true_iff.2 ⟨guardOk_iff.2 h0, guardOk_iff.2 h1⟩
    have hlegal : pairLegal p L = true ↔ p.mid = false ∧ p.slot0.legal L.vregs L.aregs = true ∧ p.slot1.legal L.vregs L.aregs = true := by
      simp [pairLegal, and_assoc]
    refine ⟨fun hn0 hn1 => pair_skips hs ha hg hn0 hn1, fun hp hl => (pair_enters hs ha hg hp).trans (answer_trap (pairSlots_illegal ?_)),
      fun hp hm hl0 hl1 => ⟨fun hpair hc0 hc1 hf0 hf1 => ?_, fun hpair => ?_⟩⟩
    · exact Bool.eq_false_iff.2 fun h => hl (hlegal.1 h)
    · exact (pair_enters hs ha hg hp).trans (answer_ok (pairSlots_runs (hlegal.2 ⟨hm, hl0, hl1⟩) hpair hc0 hc1 hf0 hf1))
    · exact (pair_enters hs ha hg hp).trans (answer_trap (pairSlots_unpairable (hlegal.2 ⟨hm, hl0, hl1⟩) hpair))
  · refine pair_refuses hs ha (Bool.eq_false_iff.2 fun hg => ?_)
    obtain ⟨hg0, hg1⟩ := Bool.and_eq_true_iff.1 hg
    obtain ⟨h15, hn⟩ | ⟨h15, hn⟩ := h
    · exact Bool.false_ne_true ((guardOk_iff.1 hg0 h15).symm.trans hn)
    · exact Bool.false_ne_true ((guardOk_iff.1 hg1 h15).symm.trans hn)
  · exact (exec_reservedScalarWord s).trans (answer_trap rfl)
  · intro h
    exact ⟨fun hop => reservedLane_illegal hs (.inl hop), fun ha hg => reservedLane_illegal hs (.inr (.inl ⟨ha, hg⟩)),
      fun hj => reservedLane_illegal hs (.inr (.inr hj)), fun hop hn => reservedLane_skips hs hop hn⟩

end Sys2Proof.Proofs
end

section
/-! SUPPORT. What falls due for a group: runs, clauses, completions, wakes, watchdogs (R52 to R54, R176, R305, R384, R395). -/

namespace Sys2Proof.Proofs
open Machine Claims Laws

variable {t g id : Nat} {T : Team} {G : Group} {L : Launch} {h : Header} {r : Run} {rest : List Run} {ld : LoadRec} {st : StoreRec} {m : Mma}
  {v : Reservation} {p : Park} {s s' u : State}

/-! ### Headers -/

theorem kept_fetchBytes (va n : Nat) (hk : Kept s u) : Ends (Kept s) (fetchBytes va n) u := by
  refine ends_bind (ends_hereAgent hk) fun a u hk => ends_get_bind ?_
  have hloc := hk.trans (kept_locate u { a with l1 := false } va n false)
  split
  · rename_i m u' he
    rw [he] at hloc
    exact ends_set_bind (ends_trap hloc ..)
  · rename_i ps u' he
    rw [he] at hloc
    refine ends_set_bind (ends_bind (ends_require hloc ..) fun _ u hk => ends_bind (ends_require hk ..) fun _ u hk => ?_)
    have hlast (u : State) (hk : Kept s u) : Ends (Kept s) (match u'.partsPoison ps with
        | some x => trap cEcc 0 (BitVec.ofNat 64 x.1) (BitVec.ofNat 64 x.2)
        | none => pure (u'.readParts ps) : M (List Byte)) u := by
      split
      · exact ends_trap hk ..
      · exact ends_pure hk _
    by_cases hb : (ps.any fun p => p.isAbsent || p.isHeld) = true
    · simp only [hb, if_true]
      exact ends_upd_bind (ends_bind (ends_stallOn (hk.trans (kept_reportParts ..)) _) fun _ u hk => hlast u hk)
    · simp only [hb]
      exact hlast u hk

theorem kept_headerAt (addr : Nat) (hk : Kept s u) : Ends (Kept s) (headerAt addr) u := by
  refine ends_bind (ends_hereLaunch hk) fun L u hk => ?_
  split
  · exact ends_pure hk _
  · refine ends_bind (kept_fetchBytes _ _ hk) fun b u hk => ?_
    split
    · exact ends_pure hk _
    · exact ends_pure hk _

/-- A lane stream's state, to execute in. -/
def laneStream (t g : Nat) (s : State) : State := { s with cur := some ⟨t, g, .lane⟩ }

theorem headerAt_cur {a : Nat} {x : Option Header} (hh : headerAt a (laneStream t g s) = .ok (x, s')) : s'.cur = some ⟨t, g, .lane⟩ :=
  (ends_of_ok (kept_headerAt a (.refl _)) hh).cur

/-! ### Runs and clauses -/

theorem nextRun_eq (hr : G.run = none) (hq : G.runs = r :: rest) : G.nextRun = { G with run := some r, runs := rest } := by
  simp only [Group.nextRun, hr, hq]

theorem runStart_starts (hG : s.group? t g = some G) (hgone : G.gone = false) (hr : G.run = none) (hq : G.runs = r :: rest) :
    exec (.runStart t g) s = .next (s.modGroup t g fun _ => { G with run := some r, runs := rest }) := by
  rw [exec_runStart]
  unfold execRunStart
  simp only [hG, hgone, Bool.false_eq_true, if_false]
  rw [modGroup_congr (g := fun _ => { G with run := some r, runs := rest }) fun X hX => ?_]
  obtain rfl : G = X := Option.some.inj (hG.symm.trans hX)
  exact nextRun_eq hr hq

/-- A clause's start once its header is legal: its wait mask, its flags, its acquire. -/
def startClause (t g : Nat) (G : Group) (r : Run) (h : Header) : M Unit := do
  if !((List.range 12).all fun n => !h.wait.getLsbD n || G.flag n == 0) then stallOn .flag
  if !(G.canRaise h.fa && G.canRaise h.fb) then stallOn .flag
  acquireHere (G.observed h.wait)
  upd fun s => (s.modGroup t g fun g => g.beginClause r.target.toNat h).traceGroup t g 2 h.id.toNat G.ric.toNat

section
variable (hG : s.group? t g = some G) (hgone : G.gone = false) (hc : G.clause = none) (hr : G.run = some r)
include hG hgone hc hr

theorem clauseStart_header (hh : headerAt r.target.toNat (laneStream t g s) = .ok (some h, s')) :
    exec (.clauseStart t g) s = M.answer (startClause t g G r h) s' := by
  rw [exec_clauseStart]
  unfold execClauseStart
  simp only [hG, hgone, hc, hr]
  exact answer_moves ((bind_ok hh).trans rfl)

theorem clauseStart_noHeader (hh : headerAt r.target.toNat (laneStream t g s) = .ok (none, s')) :
    exec (.clauseStart t g) s = .next (s'.takeTrap { cause := 0x06 }) := by
  rw [exec_clauseStart]
  unfold execClauseStart
  simp only [hG, hgone, hc, hr]
  exact answer_trap ((bind_ok hh).trans rfl)

end

theorem waitMask_iff : ((List.range 12).all fun n => !h.wait.getLsbD n || G.flag n == 0) = true ↔ ∀ n < 12, h.wait.getLsbD n = true → G.flag n = 0 := by
  simp only [List.all_eq_true, List.mem_range, Bool.or_eq_true, Bool.not_eq_true', beq_iff_eq]
  exact forall₂_congr fun n _ => by cases h.wait.getLsbD n <;> simp

theorem canRaise_of {o : Option Nat} (h : ∀ n, o = some n → G.flag n < 255) : G.canRaise o = true := by
  cases o with
  | none => rfl
  | some n => exact decide_eq_true (h n rfl)

theorem startClause_begins (hcur : s.cur = some ⟨t, g, .lane⟩) (hw : ∀ n < 12, h.wait.getLsbD n = true → G.flag n = 0)
    (hf : ∀ n, (h.fa = some n ∨ h.fb = some n) → G.flag n < 255) : startClause t g G r h s = .ok ((),
      ((s.acquireFor t (G.observed h.wait)).modGroup t g fun X => X.beginClause r.target.toNat h).traceGroup t g 2 h.id.toNat G.ric.toNat) := by
  have hwait : (!(List.range 12).all fun n => !h.wait.getLsbD n || G.flag n == 0) = false := by rw [waitMask_iff.2 hw]; rfl
  have hraise : (!(G.canRaise h.fa && G.canRaise h.fb)) = false := by
    rw [canRaise_of fun n hn => hf n (.inl hn), canRaise_of fun n hn => hf n (.inr hn)]; rfl
  simp only [startClause, hwait, hraise, Bool.false_eq_true, if_false, bind_run, acquireHere, upd_run, hcur]

theorem startClause_waits (hw : ∃ n < 12, h.wait.getLsbD n = true ∧ G.flag n ≠ 0) : startClause t g G r h s = .error (.stall .flag, s) := by
  have hwait : (!(List.range 12).all fun n => !h.wait.getLsbD n || G.flag n == 0) = true := by
    rw [Bool.not_eq_true', Bool.eq_false_iff, ne_eq, waitMask_iff]
    obtain ⟨n, hn, hb, hf⟩ := hw
    exact fun hall => hf (hall n hn hb)
  simp only [startClause, hwait, if_true, bind_run, stallOn_run]

/-! ### Completions -/

theorem loadReturns (hG : s.group? t g = some G) (hl : (G.loads.find? fun l => l.id == id && !l.blocks && l.waiting == 0) = some ld) (hp : s.poison = []) :
    exec (.loadDataReturn t g id) s = .next ((s.modGroup t g fun X => X.landLoad ld).settleTeam t) := by
  have hclean : ((s.modGroup t g fun X => X.landLoad ld).cleanLoad t g ld) = s.modGroup t g fun X => X.landLoad ld := by
    unfold State.cleanLoad
    rw [if_pos (by rw [show (s.modGroup t g fun X => X.landLoad ld).poison = s.poison from rfl, hp]; rfl)]
  rw [exec_loadDataReturn]
  unfold execLoadDataReturn
  simp only [hG, Option.bind_some, hl, hclean]

theorem storeReturns (hG : s.group? t g = some G) (hl : (G.stores.find? fun x => x.id == id && x.waiting == 0) = some st) :
    exec (.storePerformed t g id) s = .next ((s.modGroup t g fun X => X.landStore st).settleTeam t) := by
  rw [exec_storePerformed]
  unfold execStorePerformed
  simp only [hG, Option.bind_some, hl]

theorem mmaReturns (hT : s.team? t = some T) (hG : s.group? t g = some G) (hm : (G.mmas.find? fun x => x.id == id) = some m)
    (hfirst : (G.mmas.find? fun x => x.tile == m.tile) = some m) (hv : T.live? m.o = some v) (hp : s.poison = []) :
    exec (.mmaComplete t g id) s = .next ((s.modGroup t g fun X => { X with tiles := modifyAt (mmaTile v m X.lanes.length) m.tile X.tiles }).dropMma t g m) := by
  have hid : (m.id != id) = false := by
    have := List.find?_some hm
    simpa using this
  rw [exec_mmaComplete]
  unfold execMmaComplete
  simp only [hT, hG, hm, hfirst, Option.any_some, hid, Bool.false_eq_true, if_false, hv, State.mmaPoison, State.tilePoison, hp, List.isEmpty_nil, if_true,
    Option.or_none]

/-! ### Parks -/

/-- The park goes on where the word, executed over again, parks once more. -/
theorem leavePark_next {detm : Nat} (hw : waitAgain p.word { s.modGroup t g fun X => X.afterPark detm p with cur := some ⟨t, g, p.stream⟩ } = .next s') :
    leavePark t g p detm s = .next (if ((s'.group? t g).bind (·.park)).isSome then s else s') := by
  unfold leavePark
  rw [hw]
  dsimp only
  split <;> rfl

section
variable (hT : s.team? t = some T) (hG : s.group? t g = some G) (hL : s.launchOf? t = some L) (hp : G.park = some p)
include hT hG hL hp

theorem parkWake_leaves (hw : p.isWaita = true → L.detm = 2 → p.written = true ∨ p.polls = true) (hrun : T.state = .running) (haway : T.away = false)
    (hstop : T.stop = false) (hlive : T.live = true) : exec (.parkWake t g) s = leavePark t g p L.detm s := by
  have hquiet : (p.isWaita && L.detm == 2 && !p.written && !p.polls) = false := by
    by_cases hi : p.isWaita = true
    · by_cases hd : L.detm = 2
      · obtain h | h := hw hi hd <;> simp [h]
      · simp [hd]
    · simp [hi]
  have hgo : (T.state != .running || T.away || T.stop || !T.live) = false := by simp [hrun, haway, hstop, hlive]
  rw [exec_parkWake]
  unfold execParkWake
  simp only [hT, hG, hL, hp, hquiet, hgo, Bool.false_eq_true, if_false]

theorem parkWake_keeps (hw : p.isWaita = true → L.detm = 2 → p.written = true ∨ p.polls = true)
    (hstop : T.state ≠ .running ∨ T.away = true ∨ T.stop = true ∨ T.live = false) :
    exec (.parkWake t g) s = .next (s.modGroup t g fun X => { X with park := X.park.map fun p => { p with written := true } }) := by
  have hquiet : (p.isWaita && L.detm == 2 && !p.written && !p.polls) = false := by
    by_cases hi : p.isWaita = true
    · by_cases hd : L.detm = 2
      · obtain h | h := hw hi hd <;> simp [h]
      · simp [hd]
    · simp [hi]
  have hgo : (T.state != .running || T.away || T.stop || !T.live) = true := by
    obtain h | h | h | h := hstop <;> simp [h]
  rw [exec_parkWake]
  unfold execParkWake
  simp only [hT, hG, hL, hp, hquiet, hgo, Bool.false_eq_true, if_false, if_true]

theorem waitaTimeout_leaves (hi : p.isWaita = true) (hd : ∃ d, p.deadline = some d ∧ d ≤ s.tick) (hrun : T.state = .running) (haway : T.away = false)
    (hstop : T.stop = false) (hlive : T.live = true) : exec (.waitaTimeout t g) s = leavePark t g p L.detm s := by
  obtain ⟨d, hd, hle⟩ := hd
  rw [exec_waitaTimeout]
  unfold execWaitaTimeout
  simp [hT, hG, hL, hp, hi, hd, hle, hrun, haway, hstop, hlive]

end

/-! ### Ordered operations, watchdogs -/

section
variable (hT : s.team? t = some T) (hL : s.launchOf? t = some L)
include hT hL

section
variable (hG : s.group? t g = some G)
include hG

theorem orderedRelease_lane (hl : s.isLeast T.launch L t g G.ric.toNat = true) (hs : G.stallL = some .ordered) :
    exec (.orderedOpRelease t g) s = .next (s.modGroup t g fun X => { X with stallL := none }) := by
  rw [exec_orderedOpRelease]
  unfold execOrderedOpRelease
  simp only [hT, hG, hL, hl, hs, Bool.not_true, Bool.false_eq_true, if_false, if_true]

theorem orderedRelease_scalar (hl : s.isLeast T.launch L t g G.ric.toNat = true) (hn : G.stallL ≠ some .ordered) (hs : G.stallS = some .ordered) :
    exec (.orderedOpRelease t g) s = .next (s.modGroup t g fun X => { X with stallS := none }) := by
  rw [exec_orderedOpRelease]
  unfold execOrderedOpRelease
  simp only [hT, hG, hL, hl, hn, hs, Bool.not_true, Bool.false_eq_true, if_false, if_true]

section
variable (hlive : T.live = true) (haway : T.away = false) (hrun : T.state = .running) (hgone : G.gone = false) (hp : G.park = none)
  (hdog : s.watchdog L.cls < s.tick - G.ricSeen)
include hlive haway hrun hgone hp hdog

theorem hang_lane (hk : ∃ k, G.stallL = some k ∧ k.hangs = true) :
    exec (.hang t g) s = .next ((laneStream t g s).takeTrap { cause := 0x38 }) := by
  obtain ⟨k, hk, hh⟩ := hk
  rw [exec_hang]
  unfold execHang
  simp only [hT, hG, hL, hlive, haway, hrun, hgone, hp, hk, hh, Option.any_some, Option.isSome_none, Nat.not_le.2 hdog, decide_false, Bool.not_true,
    Bool.or_self, bne_self_eq_false, Bool.false_eq_true, if_false, if_true]
  rfl

theorem hang_scalar (hn : ∀ k, G.stallL = some k → k.hangs = false) (hk : ∃ k, G.stallS = some k ∧ k.hangs = true) :
    exec (.hang t g) s = .next (({ s with cur := some ⟨t, g, .scalar⟩ } : State).takeTrap { cause := 0x38, tinfo := 2 }) := by
  obtain ⟨k, hk, hh⟩ := hk
  have hL' : G.stallL.any Stall.hangs = false := by
    cases hs : G.stallL with
    | none => rfl
    | some k => exact hn k hs
  rw [exec_hang]
  unfold execHang
  simp only [hT, hG, hL, hlive, haway, hrun, hgone, hp, hk, hh, hL', Option.any_some, Option.isSome_none, Nat.not_le.2 hdog, decide_false, Bool.not_true,
    Bool.or_self, bne_self_eq_false, Bool.false_eq_true, if_false, if_true]
  rfl

end

end

omit hT hL in
theorem cutDump_none (b : Nat) : s.cutDump t b 0 = s := by
  unfold State.cutDump
  split
  · rfl
  · rfl

section
variable (hlive : T.live = true) (hdog : s.watchdog L.cls < s.tick - T.handler.since)
include hlive hdog

theorem handlerWdog_faults (hs : T.state = .handling ∨ (T.state = .dumping ∧ T.handler.dump = none)) :
    exec (.handlerWdogExpiry t) s = .next (s.doubleFault t 0x38) := by
  rw [exec_handlerWdogExpiry]
  unfold execHandlerWdogExpiry
  have hdump : (if T.state == .dumping then T.handler.dump else none) = none := by
    obtain h | ⟨h, hd⟩ := hs
    · rw [h]; rfl
    · rw [h]; exact hd
  have hin : (T.live && (T.state == .handling || T.state == .dumping) && decide (s.tick - T.handler.since > s.watchdog L.cls)) = true := by
    obtain h | ⟨h, -⟩ := hs <;> simp [h, hlive, hdog]
  simp only [hT, hL, hin, hdump, Option.getD_none, if_true]
  exact congrArg (fun u => Host.Outcome.next (State.doubleFault t cHang u)) (cutDump_none (s := s) (t := t) 0)

theorem handlerWdog_cuts {buf made : Nat} (hs : T.state = .dumping) (hd : T.handler.dump = some (buf, made)) :
    exec (.handlerWdogExpiry t) s = .next ((s.cutDump t buf made).doubleFault t 0x38 (if made = 0 then 0 else 2)) := by
  rw [exec_handlerWdogExpiry]
  unfold execHandlerWdogExpiry
  have hin : (T.live && (T.state == .handling || T.state == .dumping) && decide (s.tick - T.handler.since > s.watchdog L.cls)) = true := by
    simp [hs, hlive, hdog]
  have hdump : (if T.state == .dumping then T.handler.dump else none) = some (buf, made) := by rw [hs]; exact hd
  simp only [hT, hL, hin, hdump, Option.getD_some, if_true]
  rfl

end

end

/-- Settles O48. -/
theorem groupEventsComplete : Obligations.GroupEventsComplete := by
  intro t g id T G L h r rest ld st m v p s s' hT hG hL hgone lane
  refine ⟨fun hr hq => runStart_starts hG hgone hr hq, fun hc hr => ⟨fun hh hw hf => ?_, fun hh hw => ?_, fun hh => ?_⟩, fun hl hp => ?_, fun hl => ?_,
    fun hm hfirst hv hp => mmaReturns hT hG hm hfirst hv hp, fun hp hw => ⟨fun hrun haway hstop hlive hagain => ⟨?_, fun hi hd => ?_⟩, fun hstop => ?_⟩,
    fun hl => ⟨fun hs => orderedRelease_lane hT hL hG hl hs, fun hn hs => orderedRelease_scalar hT hL hG hl hn hs⟩,
    fun hlive haway hrun hp hdog => ⟨fun hk => hang_lane hT hL hG hlive haway hrun hgone hp hdog hk,
      fun hn hk => hang_scalar hT hL hG hlive haway hrun hgone hp hdog hn hk⟩,
    fun hlive hdog => ⟨fun hs => handlerWdog_faults hT hL hlive hdog hs, fun buf made hs hd => handlerWdog_cuts hT hL hlive hdog hs hd⟩⟩
  · exact (clauseStart_header hG hgone hc hr hh).trans (answer_ok (startClause_begins (headerAt_cur hh) hw hf))
  · exact (clauseStart_header hG hgone hc hr hh).trans (answer_stall (startClause_waits hw))
  · exact clauseStart_noHeader hG hgone hc hr hh
  · exact loadReturns hG hl hp
  · exact storeReturns hG hl
  · exact (parkWake_leaves hT hG hL hp hw hrun haway hstop hlive).trans (leavePark_next hagain)
  · exact (waitaTimeout_leaves hT hG hL hp hi hd hrun haway hstop hlive).trans (leavePark_next hagain)
  · exact parkWake_keeps hT hG hL hp hw hstop

end Sys2Proof.Proofs
end

section
/-! SUPPORT. What falls due for a command: pieces, completion, faults, the Spire, PLVAL (R179, R183 to R188, R211, R377). -/

namespace Sys2Proof.Proofs
open Machine Claims Laws

variable {t id core n : Nat} {c : Cmd} {ag can : Agent} {G : Group} {k : Coll} {x : Tile} {cause : BitVec 8} {addr : Word} {detail : BitVec 32}
  {rest : List Nat} {late : Bool} {s s' s'' : State}

/-! ### Pieces -/

section
variable (hc : s.cmd? t id = some c) (hf : c.faulted = false) (ha : s.agentOf? t = some ag)
include hc hf ha

theorem pieceLand_retries (hr : c.retry = n :: rest) : exec (.enginePieceLand t id) s
    = .next (((s.modCmd t id fun c => { c with retry := rest }).takePiece ag.engine t c n).advanceCmd t id) := by
  rw [exec_enginePieceLand]
  unfold execEnginePieceLand
  simp only [hc, ha, hf, hr, Bool.false_eq_true, if_false]

theorem pieceLand_next (hr : c.retry = []) (hp : c.pos < c.pieces) (ht : c.canTake = true) : exec (.enginePieceLand t id) s
    = .next (((s.modCmd t id fun c => { c with pos := c.pos + 1 }).takePiece ag.engine t c c.pos).advanceCmd t id) := by
  rw [exec_enginePieceLand]
  unfold execEnginePieceLand
  simp only [hc, ha, hf, hr, hp, ht, Bool.false_eq_true, if_false, decide_true, Bool.and_self, if_true]

end

/-! ### Completion -/

section
variable (hc : s.cmd? t id = some c)
include hc

section
variable (hf : c.faulted = false)
include hf

omit hc in
theorem cmdDone (hp : c.pieces ≤ c.pos) (hh : c.held = []) (hr : c.retry = []) (hw : c.waiting = 0) : c.done = true := by
  simp [Cmd.done, hf, hp, hh, hr, hw]

omit hf in
theorem finish_done (hd : c.done = true) {kind : CmdKind} (hk : c.kind = kind) (last : Cmd → State → State) :
    finishCommand [kind] t id s last = .next ((last c s).dropCmd t id) := by
  unfold finishCommand
  have : ([kind].contains c.kind && c.done) = true := by simp [hk, hd]
  simp only [hc, this, if_true]

/-! ### Faults -/

omit hc hf in
theorem modCmd_state (f : Cmd → Cmd) : ((s.modCmd t id f).team? t).any (·.state == .ended) = (s.team? t).any fun T => T.state == .ended := by
  unfold State.modCmd
  rw [team?_modTeam, if_pos rfl]
  cases s.team? t <;> rfl

/-- A command that a fault has stopped. -/
def faultCmd (t id : Nat) (s : State) : State := s.modCmd t id fun c => { c with faulted := true, retry := [], held := [], waiting := 0 }

section
variable (hG : s.group? t c.grp = some G)
include hG

theorem engineFault_dropped (hk : G.killed = true ∨ ((s.team? t).any fun T => T.state == .ended) = true) :
    exec (.engineFault t id cause addr detail) s = .next ((faultCmd t id s).dropCmd t id) := by
  have hd : (G.killed || ((faultCmd t id s).team? t).any (·.state == .ended)) = true := by
    rw [faultCmd, modCmd_state, Bool.or_eq_true]
    exact hk
  rw [exec_engineFault]
  unfold execEngineFault
  simp only [hc, hf, hG, Bool.false_eq_true, if_false]
  exact if_pos hd

theorem engineFault_held (hk : G.killed = false) (hp : ((s.team? t).any fun T => T.state == .ended) = false) :
    exec (.engineFault t id cause addr detail) s = .next (((faultCmd t id s).modGroup t c.grp Group.unpark).holdTrap t
      { cause := cause, grp := c.grp, lane := false, tlpc := G.lanePc, tlane := 0, taddr := addr, tinfo := BitVec.ofNat 64 (2 ^ 63 + detail.toNat)
        tick := s.tick, async := true, cmd := some id, lost := none }) := by
  have hd : ¬(G.killed || ((faultCmd t id s).team? t).any (·.state == .ended)) = true := by
    rw [faultCmd, modCmd_state, hk, hp]
    decide
  rw [exec_engineFault]
  unfold execEngineFault
  simp only [hc, hf, hG, Bool.false_eq_true, if_false]
  exact if_neg hd

end

/-! ### The Spire and PLVAL -/

theorem spireComplete_runs (ha : s.agentOf? t = some ag) (hq : (s.cores[core]?).bind (fun y => y.spire.head?) = some (t, id)) (hw : c.waiting = 0)
    (hh : c.held = []) : exec (.spireComplete core) s = .next (let s' := s.runSpire ag.engine core t c
      if (s'.cores[core]?).any fun y => y.spire.head? != some (t, id) && !y.spire.isEmpty then s'.post (.spireComplete core) else s') := by
  rw [exec_spireComplete]
  unfold execSpireComplete
  simp only [hq, hc, ha, hf, hw, hh, List.isEmpty_nil, Bool.not_true, Bool.or_false, ne_eq, not_true_eq_false, decide_false, Bool.false_eq_true, if_false]

end

section
variable (hk : c.kind = .plval) (hcan : s.canal? t = some can) (hK : (s.team? t).bind (fun T => T.collAt c.srec) = some k)
  (hx : k.tile (k.firstTile + natBits c.arg.toNat 23 0) = some x)
include hcan hK hx

theorem plval_waits (he : x.exp = none) : exec (.plvalViewWrite t id) s = .next s := by
  rw [exec_plvalViewWrite]
  unfold execPlvalViewWrite
  simp [hc, hcan, hK, hx, he]

variable (hf : c.faulted = false) (hw : c.waiting = 0) (hready : x.canc = true ∨ natBits c.arg.toNat 31 24 ≤ x.landed)
include hk hf hw hready

omit hc hcan hK hx in
/-- A view write that has what it waits for. -/
theorem plval_ready (he : x.exp.isSome = true) : (c.faulted || decide (c.kind ≠ .plval) || decide (c.waiting ≠ 0)
    || !(x.exp.isSome && (x.canc || decide (natBits c.arg.toNat 31 24 ≤ x.landed)))) = false := by
  have : (x.canc || decide (natBits c.arg.toNat 31 24 ≤ x.landed)) = true := by simpa using hready
  simp [hf, hk, hw, he, this]

theorem plval_done (he : x.exp.isSome = true) (hp : c.pos = 1) : exec (.plvalViewWrite t id) s = .next (s.dropCmd t id) := by
  have hr := plval_ready hk hf hw hready he
  rw [exec_plvalViewWrite]
  unfold execPlvalViewWrite
  simp only [hc, hcan, hK, hx]
  simp only [hr, hp, Bool.false_eq_true, if_false, if_true]

theorem plval_writes {E : Int} (he : x.exp = some E) (hp : c.pos ≠ 1)
    (hland : s.landLoc can { Apart.of ⟨t, c.grp, .scalar⟩ c.stamp with piece := some (id, 0, 256 * planeBytes k.fmt) }
      (.global (k.view + 256 * planeBytes k.fmt * natBits c.arg.toNat 23 0))
      (encodeTile k.fmt k.planes E x.flags (natBit c.arg.toNat 32)
        ((k.valueAt x (if natBits c.arg.toNat 31 24 = 0 then x.landed else min (natBits c.arg.toNat 31 24) x.landed)).map fun (z : Int) =>
          if natBit c.arg.toNat 32 then 2 * z + (k.comm.n : Int) * (2 ^ (k.planes
            - (if natBits c.arg.toNat 31 24 = 0 then x.landed else min (natBits c.arg.toNat 31 24) x.landed)) - 1) else z)) = (.ok (s', late), s'')) :
    exec (.plvalViewWrite t id) s = .next (if late then s'.modCmd t id fun c => { c with pos := 1, waiting := c.waiting + 1 } else s'.dropCmd t id) := by
  have hr := plval_ready hk hf hw hready (by rw [he]; rfl)
  rw [he] at hr
  rw [exec_plvalViewWrite]
  unfold execPlvalViewWrite
  simp only [hc, hcan, hK, hx, he]
  simp only [hr, hp, Bool.false_eq_true, if_false, Option.getD_some, hland]
  cases late <;> rfl

end

end

/-- Settles O49. -/
theorem engineEventsComplete : Obligations.EngineEventsComplete := by
  intro t id core c ag G k x cause addr detail n rest can late s s' s'' hc hf ha
  refine ⟨fun hr => pieceLand_retries hc hf ha hr, fun hr hp ht => pieceLand_next hc hf ha hr hp ht, fun hp hh hr hw => ?_, fun hG => ?_,
    fun hq hw hh hs => ?_, fun hk hw hcan hK hx => ?_⟩
  · have hd := cmdDone hf hp hh hr hw
    exact ⟨fun hk => (exec_cpyComplete ..).trans (finish_done hc hd hk _), fun hk => (exec_putsComplete ..).trans (finish_done hc hd hk _),
      fun hk => (exec_getComplete ..).trans (finish_done hc hd hk _), fun hk => (exec_fabricRaddComplete ..).trans (finish_done hc hd hk _),
      fun hk => (exec_gathComplete ..).trans (finish_done hc hd hk _), fun hk => (exec_partComplete ..).trans (finish_done hc hd hk _)⟩
  · exact ⟨fun hk => engineFault_dropped hc hf hG hk, fun hk hp => engineFault_held hc hf hG hk hp⟩
  · rw [hs]
    exact spireComplete_runs hc hf ha hq hw hh
  · refine ⟨fun E vs hready hp he hvs hland => ?_, fun he => plval_waits hc hcan hK hx he, fun he hready hp => plval_done hc hk hcan hK hx hf hw hready he hp⟩
    rw [hvs] at hland
    exact plval_writes hc hk hcan hK hx hf hw hready he hp hland

end Sys2Proof.Proofs
end

section
/-! SUPPORT. The fabric's events: requests, answers, credits, links (R253, R341, R344 to R348, R360). -/

namespace Sys2Proof.Proofs
open Machine Claims Laws

variable {r : FabricReq} {f : FabricResp} {x : Remote} {code port vc n : Nat} {ps : List Part} {k : Canal} {s s' q : State}

/-! ### Requests -/

/-- The state in which a request is looked at: its sender's earlier requests are performed to the end. -/
def requestState (r : FabricReq) (s : State) : State := s.settleApart fun x => x.reply.any fun y => y.1.port == r.port && y.1.src == r.src

theorem fabricRequest_behind (hb : (requestState r s).behindParked r = true) : exec (.fabricRequest r) s = .next ((requestState r s).park r) :=
  (exec_fabricRequest r s).trans (if_pos hb)

section
variable (hb : (requestState r s).behindParked r = false)
include hb

/-- A request that waits behind none is looked up. -/
theorem fabricRequest_resolves : exec (.fabricRequest r) s = match (requestState r s).resolve r with
    | (.inl code, s) => .next (s.reply r (some code) [])
    | (.inr none, s) => .next (s.park r)
    | (.inr (some ps), s) => .next (s.serveRequest r ps) :=
  (exec_fabricRequest r s).trans ((if_neg (Bool.eq_false_iff.1 hb)).trans rfl)

theorem fabricRequest_refused (hr : (requestState r s).resolve r = (.inl code, s')) : exec (.fabricRequest r) s = .next (s'.reply r (some code) []) := by
  rw [fabricRequest_resolves hb, hr]

theorem fabricRequest_parks (hr : (requestState r s).resolve r = (.inr none, s')) : exec (.fabricRequest r) s = .next (s'.park r) := by
  rw [fabricRequest_resolves hb, hr]

theorem fabricRequest_served (hr : (requestState r s).resolve r = (.inr (some ps), s')) : exec (.fabricRequest r) s = .next (s'.serveRequest r ps) := by
  rw [fabricRequest_resolves hb, hr]

end

theorem serveRequest_write {b : List Byte} (h : r.op = .write b) : s.serveRequest r ps =
    let x := (s.dropLines ps).putApart false { Apart.of ⟨0, 0, .scalar⟩ 0 with reply := some (r, []) }
      [ps.flatMap fun p => p.blocksOf p.peerUnit ((b.drop (p.va - (ps.head?.map (·.va)).getD 0)).take p.len)]
    if x.2 then x.1 else x.1.reply r none [] := by
  unfold State.serveRequest
  rw [h]

theorem serveRequest_read (h : r.op = .read n) : s.serveRequest r ps =
    let x := s.readsApart false { Apart.of ⟨0, 0, .scalar⟩ 0 with reply := some (r, s.readParts ps) }
      [{ lane := 0, ea := (ps.head?.map (·.va)).getD 0
         blocks := ps.flatMap fun p => p.blocksOf p.peerUnit (((List.replicate n 0).drop (p.va - (ps.head?.map (·.va)).getD 0)).take p.len) }]
    if x.2 = 0 then x.1.reply r none (s.readParts ps) else x.1 := by
  unfold State.serveRequest
  rw [h]

theorem serveRequest_other (hw : ∀ b, r.op ≠ .write b) (hr : ∀ n, r.op ≠ .read n) :
    s.serveRequest r ps = (s.perform r.op ps).2.reply r none (s.perform r.op ps).1 := by
  unfold State.serveRequest
  split
  · rename_i b h; exact absurd h (hw b)
  · rename_i m h; exact absurd h (hr m)
  · rfl

/-! ### Answers -/

/-- An answered remote access is no longer in flight. -/
def answered (f : FabricResp) (s : State) : State := { s with remotes := s.remotes.filter fun y => y.id != f.id }

theorem fabricResponse_found (h : (s.remotes.find? fun y => y.id == f.id) = some x) :
    exec (.fabricResponse f) s = .next ((answerRemote f x (answered f s)).settleTeam x.team) := by
  rw [exec_fabricResponse]
  unfold execFabricResponse
  rw [h]
  rfl

theorem fabricResponse_lost (h : (s.remotes.find? fun y => y.id == f.id) = none) (ho : (s.dome.orphans.find? fun y => y.1 == f.id) = none) :
    exec (.fabricResponse f) s = .next s := by
  rw [exec_fabricResponse]
  unfold execFabricResponse
  rw [h, ho]

theorem fabricResponse_orphan {y : Nat × Nat} (h : (s.remotes.find? fun y => y.id == f.id) = none)
    (ho : (s.dome.orphans.find? fun y => y.1 == f.id) = some y) : exec (.fabricResponse f) s
      = .next ((s.modDome fun d => { d with orphans := d.orphans.filter fun y => y.1 != f.id }).answerCredit y.2 f.data.length) := by
  rw [exec_fabricResponse]
  unfold execFabricResponse
  rw [h, ho]

/-- The failure that an answer brings. -/
def nackOf (x : Remote) (m : Nat) : Nack :=
  { lane := x.lane, cause := nackCause m, addr := BitVec.ofNat 64 (heapVa x.dev x.off), info := nackInfo x.dev m, lpc := x.lpc }

theorem answerRemote_scalar {y : Stream × Nat × Nat} (h : x.sreg = some y) : answerRemote f x s =
    let u := s.answerCredit x.port f.data.length
    if u.leftBy x.team x.grp y.1 then u else u.answerScalar x y f := by
  unfold answerRemote
  simp only [h]

section
variable (h : x.sreg = none)
include h

theorem answerRemote_coll {id : Nat} {C : Coll} (hc : x.cmd = some id) (hC : (s.answerCredit x.port f.data.length).coll? x.team id = some C) :
    answerRemote f x s = (s.answerCredit x.port f.data.length).answerColl x C f := by
  unfold answerRemote
  simp only [h, hc, hC]

theorem answerRemote_cmd {id : Nat} (hc : x.cmd = some id) (hC : (s.answerCredit x.port f.data.length).coll? x.team id = none) :
    answerRemote f x s = (s.answerCredit x.port f.data.length).answerCmd x id f := by
  unfold answerRemote
  simp only [h, hc, hC]

variable (hc : x.cmd = none)
include hc

theorem answerRemote_load {l : Nat × Nat × Nat} (hl : x.load = some l) : answerRemote f x s = match f.nack with
    | some code => (s.answerCredit x.port f.data.length).pieceLost x.team x.grp l.1 (nackOf x code)
    | none => (s.answerCredit x.port f.data.length).pieceLoaded x.team x.grp l.1 l.2.1 l.2.2 f.data := by
  unfold answerRemote
  simp only [h, hc, hl]
  cases f.nack <;> rfl

variable (hl : x.load = none)
include hl

theorem answerRemote_store {l : Nat} (hs : x.store = some l) : answerRemote f x s = match f.nack with
    | some code => (s.answerCredit x.port f.data.length).storeLost x.team x.grp l (nackOf x code)
    | none => (s.answerCredit x.port f.data.length).pieceStored x.team x.grp l := by
  unfold answerRemote
  simp only [h, hc, hl, hs]
  cases f.nack <;> rfl

variable (hs : x.store = none)
include hs

theorem answerRemote_plain (hn : f.nack = none) : answerRemote f x s = s.answerCredit x.port f.data.length := by
  unfold answerRemote
  simp only [h, hc, hl, hs, hn]

theorem answerRemote_failed {m : Nat} {X : Group} (hn : f.nack = some m) (hX : (s.answerCredit x.port f.data.length).group? x.team x.grp = some X) :
    answerRemote f x s = let u := s.answerCredit x.port f.data.length
      if X.killed then u else (u.modGroup x.team x.grp Group.unpark).holdTrap x.team
        { cause := nackCause m, grp := x.grp, lane := false, tlpc := X.lanePc, tlane := 0, taddr := BitVec.ofNat 64 (heapVa x.dev x.off)
          tinfo := BitVec.ofNat 64 (2 ^ 62 + nackInfo x.dev m), tick := u.tick, async := true, cmd := none, lost := none } := by
  unfold answerRemote
  simp only [h, hc, hl, hs, hn, hX]

end

section
variable {id : Nat} {c : Cmd} {ag : Agent} (hc : s.cmd? x.team id = some c) (ha : s.agentOf? x.team = some ag) (hf : c.faulted = false)
  (hk : c.kind.isSpire = false)
include hc ha hf hk

theorem answerCmd_read (hn : f.nack = none) (hr : x.rd = true) : s.answerCmd x id f =
    let w := s.modCmd x.team id fun c => { c with waiting := c.waiting - 1 }
    (w.deliver ag.engine x.team c x.lane (c.piece w x.team x.lane) f.data).advanceCmd x.team id := by
  unfold State.answerCmd
  simp only [hc, ha, hf, hk, hn, hr, Bool.false_eq_true, if_false, if_true]

theorem answerCmd_written (hn : f.nack = none) (hr : x.rd = false) : s.answerCmd x id f =
    let w := s.modCmd x.team id fun c => { c with waiting := c.waiting - 1 }
    let v := if c.kind = .part then w.advanceCursor x.team c (partIndex w x.team c.desc x.lane) else w
    (v.landed x.team c (c.piece v x.team x.lane).len).advanceCmd x.team id := by
  unfold State.answerCmd
  simp only [hc, ha, hf, hk, hn, hr, Bool.false_eq_true, if_false]

theorem answerCmd_failed {m : Nat} (hn : f.nack = some m) : s.answerCmd x id f =
    (s.modCmd x.team id fun c => { c with waiting := c.waiting - 1 }).post (.engineFault x.team id (nackCause m)
      (BitVec.ofNat 64 (heapVa x.dev x.off)) (BitVec.ofNat 32 (nackInfo x.dev m + c.kind.opcode))) := by
  unfold State.answerCmd
  simp only [hc, ha, hf, hk, hn, Bool.false_eq_true, if_false]

end

/-! ### Links -/

/-- What the record of a fallen port leaves as it was, and the fall reads: the requests in flight, the contexts, the routes. -/
def linkFace (s : State) : List Remote × List Context × List (Nat × List Nat) := (s.remotes, s.contexts, s.dome.routes)

theorem linkFace_wakeFrom (s' : State) (stamp : Nat) (who : Option Nat) : linkFace (s.wakeFrom s' stamp who) = linkFace s := by
  unfold State.wakeFrom
  generalize wakeList s' s = l
  suffices h : ∀ u : State, linkFace (l.foldl (fun x tg => (x.modGroup tg.1 tg.2 fun g =>
      { g with park := g.park.map fun p => { p with stamp := max p.stamp (s.stampFor tg.1 stamp who), written := true } }).post (.parkWake tg.1 tg.2)) u)
        = linkFace u from h s
  induction l with
  | nil => exact fun _ => rfl
  | cons y l ih => exact fun u => (ih _).trans rfl

theorem linkFace_devWrite (a : Nat) (b : List Byte) : linkFace (s.devWrite a b) = linkFace s := by
  refine (linkFace_wakeFrom ..).trans ?_
  unfold State.devPoke
  split <;> rfl

theorem linkFace_held (h : List (Option Nat × List Byte)) : linkFace (s.modDome fun d => { d with held := h }) = linkFace s := rfl

theorem linkFace_drainRing (n : Nat) : linkFace (s.drainRing n) = linkFace s := by
  induction n generalizing s with
  | zero => rfl
  | succ n ih =>
    unfold State.drainRing
    split
    · rfl
    · split
      · dsimp only
        split
        · rfl
        · exact ih.trans ((linkFace_held ..).trans ((linkFace_devWrite _ _).trans (linkFace_devWrite _ _)))
      · rfl

theorem linkFace_report (y : FaultRec) : linkFace (s.report y) = linkFace s := (linkFace_drainRing _).trans rfl

theorem linkFace_posts (l : List Remote) (s : State) :
    linkFace (l.foldl (fun (u : State) r => u.post (.fabricResponse { id := r.id, nack := some 4, data := [] })) s) = linkFace s := by
  induction l generalizing s with
  | nil => rfl
  | cons y l ih => exact (ih _).trans rfl

/-- A port that is down. -/
def portClosed (port : Nat) (s : State) : State :=
  s.modDome fun d => { d with canals := modifyAt (fun c => { c with up := false, waiting := [] }) port d.canals }

/-- The port's requests answered with NACK 4, after its fall is recorded. -/
def portLost (port : Nat) (s : State) : State :=
  (s.remotes.filter fun r => r.port == port).foldl (fun (u : State) r => u.post (.fabricResponse { id := r.id, nack := some 4, data := [] }))
    (((portClosed port s).report
      { kind := 5, cause := 0x61, store := 7, addr := port }).modDome fun d => { d with orphans := d.orphans.filter fun y => y.2 != port })

theorem linkFace_portLost (port : Nat) (s : State) : linkFace (portLost port s) = linkFace s :=
  (linkFace_posts _ _).trans ((linkFace_report (s := portClosed port s) _).trans rfl)

/-- The collectives of a ring that crosses the port end, and its devices are told. -/
def ringFallen (port : Nat) (C : Context) (v : State) (y : Comm) : State :=
  if v.crosses port y then (v.breakComm (v.ringNotice C.id y)).tellRing y (v.ringNotice C.id y) y.pos else v

theorem linkDown_own (port : Nat) (s : State) : exec (.linkDown (.own port)) s
    = .next ((portLost port s).contexts.foldl (fun v C => C.comms.foldl (ringFallen port C) v) (portLost port s)) := by
  have hrem : ((portClosed port s).report { kind := 5, cause := 0x61, store := 7, addr := port }).remotes = s.remotes :=
    congrArg Prod.fst (linkFace_report (s := portClosed port s) _)
  rw [exec_linkDown]
  unfold execLinkDown State.portDown portLost
  rw [← hrem]
  rfl

theorem foldl_of_fixed {α β : Type} {g : β → α → β} {l : List α} {b : β} (h : ∀ a ∈ l, g b a = b) : l.foldl g b = b := by
  induction l with
  | nil => rfl
  | cons a l ih => rw [List.foldl_cons, h a List.mem_cons_self, ih fun a hm => h a (List.mem_cons_of_mem _ hm)]

theorem linkDown_uncrossed (h : ∀ C ∈ s.contexts, ∀ y ∈ C.comms, y.n ≤ 1 ∨ (y.canal ≠ port ∧ s.ringIn y ≠ port)) :
    exec (.linkDown (.own port)) s = .next (portLost port s) := by
  have hface := linkFace_portLost port s
  have hctx : (portLost port s).contexts = s.contexts := congrArg (·.2.1) hface
  have hroutes : (portLost port s).dome.routes = s.dome.routes := congrArg (·.2.2) hface
  rw [linkDown_own, hctx]
  refine congrArg Host.Outcome.next (foldl_of_fixed fun C hC => foldl_of_fixed fun y hy => if_neg ?_)
  have hin : (portLost port s).ringIn y = s.ringIn y := by unfold State.ringIn; rw [hroutes]
  unfold State.crosses
  rw [hin]
  obtain h1 | ⟨h1, h2⟩ := h C hC y hy
  · simp [Nat.not_lt.2 h1]
  · simp [h1, h2]

theorem modifyAt_eq_set {α : Type} {f : α → α} {l : List α} {i : Nat} {a : α} (h : l[i]? = some a) : modifyAt f i l = l.set i (f a) := by
  induction l generalizing i with
  | nil => cases h
  | cons b l ih =>
    cases i with
    | zero => cases h; rfl
    | succ i => exact congrArg (b :: ·) (ih h)

/-- Settles O50. -/
theorem fabricEventsComplete : Obligations.FabricEventsComplete := by
  intro r f x code port vc n ps c ag id k s s'
  refine ⟨⟨fabricRequest_behind, fabricRequest_refused, fabricRequest_parks, fun hb hr => ?_⟩, fabricResponse_lost, fun y h ho => fabricResponse_orphan h ho,
    fun hx => ?_, fun hk => ?_, ⟨linkDown_own port s, linkDown_uncrossed⟩, fun pk pos => ?_, exec_linkRestored port s⟩
  · have hx := fabricRequest_served hb hr
    intro base pieces whose
    exact ⟨fun b h => by rw [hx, serveRequest_write h], fun n h => by rw [hx, serveRequest_read h], fun hw hr => by rw [hx, serveRequest_other hw hr]⟩
  · intro u₀ u lost ends
    have hu : (answered f s).answerCredit x.port f.data.length = u := rfl
    have hends {v : State} (h : answerRemote f x (answered f s) = v) : ends v := (fabricResponse_found hx).trans (by rw [h])
    refine ⟨fun y hy => hends (answerRemote_scalar hy), fun l lane off hs hc hl => ?_, fun l hs hc hl hst => ?_, fun hs hc hl hst => ?_, fun hs hc => ?_⟩
    · have h := answerRemote_load (f := f) (s := answered f s) hs hc hl
      exact ⟨fun hn => hends (h.trans (by rw [hn]; rfl)), fun m hn => hends (h.trans (by rw [hn]; rfl))⟩
    · have h := answerRemote_store (f := f) (s := answered f s) hs hc hl hst
      exact ⟨fun hn => hends (h.trans (by rw [hn]; rfl)), fun m hn => hends (h.trans (by rw [hn]; rfl))⟩
    · exact ⟨fun hn => hends (answerRemote_plain hs hc hl hst hn), fun m X hn hX => hends (answerRemote_failed hs hc hl hst hn hX)⟩
    · refine ⟨fun hC hcmd hag hf hk => ?_, fun C hC => hends (answerRemote_coll hs hc hC)⟩
      have h := answerRemote_cmd (f := f) (s := answered f s) hs hc hC
      exact ⟨fun hn hr => hends (h.trans (answerCmd_read hcmd hag hf hk hn hr)), fun hn hr => hends (h.trans (answerCmd_written hcmd hag hf hk hn hr)),
        fun m hn => hends (h.trans (answerCmd_failed hcmd hag hf hk hn))⟩
  · have hset := modifyAt_eq_set (f := fun c : Canal => { c with credits := modifyAt (fun x => min (x + n) (vcPools.getD vc 0)) vc c.credits }) hk
    exact (exec_vcCreditReturn port vc n s).trans
      (congrArg (fun cs => Host.Outcome.next ((s.modDome fun d => { d with canals := cs }).flush port)) hset)
  · intro e v
    have hx : exec (.linkDown (.ring pk pos)) s = ringDownHere pk pos v := by
      rw [exec_linkDown]
      unfold execLinkDown arrival3
      by_cases hc : s.dome.credited.contains e = true
      · rw [show v = s.modDome fun d => { d with credited := d.credited.erase e } from if_pos hc]
        exact if_pos hc
      · rw [show v = s.ringCredit pk 3 64 from if_neg hc]
        exact if_neg hc
    have hctx : v.contexts = s.contexts := by
      show (if s.dome.credited.contains e then s.modDome fun d => { d with credited := d.credited.erase e } else s.ringCredit pk 3 64).contexts = _
      split
      · rfl
      · unfold State.ringCredit
        split <;> rfl
    have hcomm : v.commOf? pk = s.commOf? pk := by
      unfold State.commOf? State.context?
      rw [hctx]
    refine ⟨fun hn => ?_, fun y hy => ?_⟩
    · rw [hx]
      unfold ringDownHere
      rw [hcomm, hn]
    · rw [hx]
      unfold ringDownHere
      rw [hcomm, hy]

end Sys2Proof.Proofs
end

section
/-! SUPPORT. What is still to come of accesses, performed (R252 to R254): what that leaves, and what it keeps. -/

namespace Sys2Proof.Proofs
open Machine Claims Laws

-- One proof after another: elaborated at once, the many of this part would each hold a thread.
set_option Elab.async false

/-- `t` has the contexts, the invalidation, the partials and the accesses still to come of `s`, and at most more turns; each of its memories has the
canonical form where that of `s` does. -/
structure Settles (s t : State) : Prop where
  contexts : t.contexts = s.contexts
  tlbi     : t.dome.tlbi = s.dome.tlbi
  partials : t.partials = s.partials
  apart    : t.apart = s.apart
  agenda   : ∃ es, t.agenda = s.agenda ++ es
  mem      : Memory.wf s.mem = true → Memory.wf t.mem = true
  host     : Memory.wf s.hostMem = true → Memory.wf t.hostMem = true
  pads     : (∀ T ∈ s.teams, Memory.wf T.scratch = true) → ∀ T ∈ t.teams, Memory.wf T.scratch = true

namespace Settles

variable {s t u : State}

theorem refl (s : State) : Settles s s := ⟨rfl, rfl, rfl, rfl, ⟨[], (List.append_nil _).symm⟩, id, id, id⟩

theorem trans (h : Settles s t) (k : Settles t u) : Settles s u where
  contexts := k.contexts.trans h.contexts
  tlbi := k.tlbi.trans h.tlbi
  partials := k.partials.trans h.partials
  apart := k.apart.trans h.apart
  agenda := by
    obtain ⟨xs, hx⟩ := h.agenda
    obtain ⟨ys, hy⟩ := k.agenda
    exact ⟨xs ++ ys, by rw [hy, hx, List.append_assoc]⟩
  mem := k.mem ∘ h.mem
  host := k.host ∘ h.host
  pads := k.pads ∘ h.pads

theorem foldl {β : Type} {f : State → β → State} (h : ∀ s x, Settles s (f s x)) (l : List β) (s : State) : Settles s (l.foldl f s) := by
  induction l generalizing s with
  | nil => exact refl s
  | cons x l ih => exact (h s x).trans (ih _)

theorem wf (h : Settles s t) (hw : s.memoryWf = true) : t.memoryWf = true := by
  obtain ⟨hm, hh, hp⟩ := memoryWf_iff.1 hw
  exact memoryWf_iff.2 ⟨h.mem hm, h.host hh, h.pads hp⟩

/-- What is done as another stream. -/
theorem as {c c' : Option Cur} (h : Settles { s with cur := c } u) : Settles s { u with cur := c' } :=
  ⟨h.contexts, h.tlbi, h.partials, h.apart, h.agenda, h.mem, h.host, h.pads⟩

end Settles

section
variable (s : State)

/-! ### The state's own updates -/

theorem settles_modTeam (t : Nat) {f : Team → Team}
    (hf : ∀ T, Memory.wf T.scratch = true → Memory.wf (f T).scratch = true := by exact fun _ h => h) : Settles s (s.modTeam t f) where
  contexts := rfl
  tlbi := rfl
  partials := rfl
  apart := rfl
  agenda := ⟨[], (List.append_nil _).symm⟩
  mem := id
  host := id
  pads h T hT := by
    rcases mem_modifyAt hT with hT | ⟨U, hU, rfl⟩
    · exact h T hT
    · exact hf U (h U hU)

theorem settles_modGroup (t g : Nat) (f : Group → Group) : Settles s (s.modGroup t g f) := settles_modTeam ..
theorem settles_modColl (t cmd : Nat) (f : Coll → Coll) : Settles s (s.modColl t cmd f) := settles_modTeam ..
theorem settles_modTile (t cmd i : Nat) (f : Tile → Tile) : Settles s (s.modTile t cmd i f) := settles_modColl s t cmd _
theorem settles_modCmd (t id : Nat) (f : Cmd → Cmd) : Settles s (s.modCmd t id f) := settles_modTeam ..
theorem settles_modLaunch (l : Nat) (f : Launch → Launch) : Settles s (s.modLaunch l f) := { Settles.refl s with }
theorem settles_modCore (c : Nat) (f : Machine.Core → Machine.Core) : Settles s (s.modCore c f) := { Settles.refl s with }
theorem settles_modDome {f : Dome → Dome} (hf : (f s.dome).tlbi = s.dome.tlbi := by rfl) : Settles s (s.modDome f) := { Settles.refl s with tlbi := hf }
theorem settles_post (e : Event) : Settles s (s.post e) := { Settles.refl s with agenda := ⟨_, rfl⟩ }
theorem settles_send (m : Msg) : Settles s (s.send m) := { Settles.refl s with }
theorem settles_poison (p : List EccUnit) : Settles s { s with poison := p } := { Settles.refl s with }

/-! ### Writes of memory -/

theorem settles_pokeAt (host : Bool) (key : Option Nat) (pa n a : Nat) (b : List Byte) : Settles s (s.pokeAt host key pa n a b) :=
  { Settles.refl s with
    mem := fun h => by
      cases host
      · exact cellsSeal_wf _ _ _ h
      · exact h
    host := fun h => by
      cases host
      · exact h
      · exact cellsWrite_wf _ _ h }

theorem settles_wakeFrom (s' : State) (stamp : Nat) (who : Option Nat) : Settles s (s.wakeFrom s' stamp who) :=
  .foldl (fun u _ => (settles_modGroup u _ _ _).trans (settles_post _ _)) _ _

theorem settles_devPoke (a : Nat) (b : List Byte) (key : Option Nat) : Settles s (s.devPoke a b key) := by
  unfold State.devPoke
  split
  · exact settles_pokeAt ..
  · exact .refl s

theorem settles_devWrite (a : Nat) (b : List Byte) : Settles s (s.devWrite a b) := (settles_devPoke s a b none).trans (settles_wakeFrom ..)

theorem settles_writePart (p : Part) (b : List Byte) (stamp : Nat) : Settles s (s.writePart p b stamp) := by
  unfold State.writePart
  split
  · exact (settles_pokeAt ..).trans (settles_wakeFrom ..)
  · exact (settles_pokeAt ..).trans (settles_wakeFrom ..)
  · exact .refl s

theorem settles_notePad (t off : Nat) (b : List Byte) : Settles s (s.notePad t off b) := by
  unfold State.notePad
  split
  · split
    · exact settles_devPoke ..
    · exact .refl s
  · exact .refl s

theorem settles_writeScratch (t off : Nat) (b : List Byte) (stamp : Nat) : Settles s (s.writeScratch t off b stamp) :=
  (((settles_modTeam s t (by exact fun _ h => cellsWrite_wf _ _ h)).trans (settles_notePad _ t off b)).trans (settles_poison _ _)).trans (settles_wakeFrom ..)

theorem settles_putBlock (stamp : Nat) (k : Block) : Settles s (s.putBlock stamp k) := by
  cases k
  · exact settles_writeScratch ..
  · exact settles_writePart ..

/-! ### Records and the trace -/

theorem settles_drainRing (n : Nat) : Settles s (s.drainRing n) := by
  induction n generalizing s with
  | zero => exact .refl s
  | succ n ih =>
    unfold State.drainRing
    split
    · exact .refl s
    · split
      · dsimp only
        split
        · exact .refl s
        · exact (((settles_devWrite s _ _).trans (settles_devWrite _ _ _)).trans (settles_modDome ..)).trans (ih _)
      · exact .refl s

theorem settles_report (r : FaultRec) : Settles s (s.report r) := (settles_modDome ..).trans (settles_drainRing _ _)

theorem settles_traceWrite (unit : Nat) (b : List Byte) : Settles s (s.traceWrite unit b) := by
  unfold State.traceWrite
  split
  · exact .refl s
  · split
    · exact settles_modDome ..
    · exact (settles_devWrite s _ _).trans (settles_modDome ..)

theorem settles_trace (kind unit core grp ctx p q : Nat) : Settles s (s.trace kind unit core grp ctx p q) := by
  unfold State.trace
  split
  · exact settles_traceWrite ..
  · exact .refl s

theorem settles_traceGroup (t g kind p q : Nat) : Settles s (s.traceGroup t g kind p q) := by
  unfold State.traceGroup
  split
  · exact settles_trace ..
  · exact .refl s

/-! ### The fabric's messages -/

theorem settles_flush (port : Nat) : Settles s (s.flush port) := by
  unfold State.flush
  split
  · split
    · exact .refl s
    · exact { Settles.refl s with }
  · exact .refl s

theorem settles_sendOn (port vc bytes : Nat) (zero : Bool) (m : Msg) : Settles s (s.sendOn port vc bytes zero m) :=
  (settles_modDome ..).trans (settles_flush _ _)

theorem settles_reply (r : FabricReq) (nack : Option Nat) (data : List Byte) : Settles s (s.reply r nack data) :=
  (settles_sendOn s _ _ _ _ _).trans (settles_send _ _)

/-! ### The end of a team -/

theorem settles_noteFlag (t grp : Nat) (flag : Option Nat) : Settles s (s.noteFlag t grp flag) := by
  unfold State.noteFlag
  split
  · split
    · exact settles_devPoke ..
    · exact .refl s
  · exact .refl s

theorem settles_settleTeam (t : Nat) : Settles s (s.settleTeam t) := by
  unfold State.settleTeam
  split
  · split
    · extract_lets u
      have hu : Settles s u := (settles_modTeam ..).trans (settles_modLaunch ..)
      split
      · exact hu.trans (.foldl (fun v x => settles_modTeam ..) _ _)
      · exact hu
    · exact .refl s
  · exact .refl s

theorem settles_dropCmd (t id : Nat) : Settles s (s.dropCmd t id) := by
  unfold State.dropCmd
  split
  · exact .refl s
  · exact (((settles_modTeam ..).trans (settles_modGroup ..)).trans (settles_noteFlag ..)).trans (settles_settleTeam ..)

theorem settles_dropFaulted (t : Nat) (every : Bool) : Settles s (s.dropFaulted t every) := by
  unfold State.dropFaulted
  split
  · exact .refl s
  · refine .foldl (fun u c => ?_) _ _
    split
    · exact settles_dropCmd ..
    · exact .refl u

theorem settles_discardLost (t g : Nat) (lost : Option (Bool × Nat)) : Settles s (s.discardLost t g lost) := by
  unfold State.discardLost
  split
  · exact .refl s
  · exact (settles_modGroup ..).trans (settles_post ..)

theorem settles_discardHeld (t g : Nat) : Settles s (s.discardHeld t g) := by
  unfold State.discardHeld
  split
  · exact .refl s
  · exact .foldl (fun u _ => settles_discardLost u ..) _ _

theorem settles_unfinish (t g : Nat) : Settles s (s.unfinish t g) := by
  unfold State.unfinish
  split
  · exact (settles_modLaunch ..).trans (settles_modGroup ..)
  · exact .refl s

theorem settles_killGroup (t g : Nat) : Settles s (s.killGroup t g) := (settles_unfinish s t g).trans (settles_modGroup ..)

theorem settles_killTeam (t : Nat) : Settles s (s.killTeam t) := by
  unfold State.killTeam
  split
  · exact .refl s
  · next T _ =>
    extract_lets u
    have hu : Settles s u := by
      unfold u
      split
      · exact settles_discardLost ..
      · exact .refl s
    have hg : Settles u ((List.range T.groups.length).foldl (fun x g =>
        if (T.groups[g]?).any (·.retired) then x.discardHeld t g else (x.discardHeld t g).killGroup t g) u) := by
      refine .foldl (fun v g => ?_) _ _
      split
      · exact settles_discardHeld ..
      · exact (settles_discardHeld ..).trans (settles_killGroup ..)
    exact (((hu.trans hg).trans (settles_modTeam ..)).trans (settles_dropFaulted ..)).trans (settles_settleTeam ..)

/-! ### Traps -/

theorem settles_holdTrap (t : Nat) (x : Trap) : Settles s (s.holdTrap t x) := by
  unfold State.holdTrap
  extract_lets pc u
  have hu : Settles s u := settles_traceGroup ..
  split
  · split
    · exact hu
    · split
      · exact (hu.trans (settles_report ..)).trans (settles_killTeam ..)
      · refine (hu.trans (settles_modGroup ..)).trans (settles_modTeam _ _ fun T h => ?_)
        split
        · exact h
        · exact h
  · exact hu

theorem settles_doubleFault (t : Nat) (cause : Cause) (flags : Nat) : Settles s (s.doubleFault t cause flags) := by
  unfold State.doubleFault
  split
  · exact .refl s
  · exact ((settles_report ..).trans (settles_modLaunch ..)).trans (settles_killTeam ..)

theorem settles_takeTrap (a : TrapArgs) : Settles s (s.takeTrap a) := by
  unfold State.takeTrap
  split
  · exact .refl s
  · split
    · exact settles_doubleFault ..
    · exact (settles_modGroup ..).trans (settles_holdTrap ..)

theorem settles_raiseLost (t g : Nat) (store : Bool) (id : Nat) (ns : List Nack) : Settles s (s.raiseLost t g store id ns) := by
  unfold State.raiseLost
  split
  · split
    · exact settles_discardLost ..
    · exact (settles_modGroup ..).trans (settles_holdTrap ..)
  · exact .refl s

/-! ### What has landed -/

theorem settles_retireScalar (r : ScalarRegs) : Settles s (s.retireScalar r) := by
  unfold State.retireScalar
  split
  · exact .refl s
  · split
    · exact settles_modTeam ..
    · exact settles_modGroup ..

theorem settles_landScalar (t sd ext : Nat) (b : List Byte) (g : ScalarRegs) : Settles s (s.landScalar t sd ext b g) := by
  unfold State.landScalar
  split
  · split
    · next u h =>
      obtain ⟨T, -, h⟩ := Option.bind_eq_some_iff.1 h
      obtain ⟨x, -, rfl⟩ := Option.map_eq_some_iff.1 h
      exact (settles_modCore ..).trans (settles_retireScalar ..)
    · exact settles_takeTrap ..
  · exact settles_retireScalar ..

theorem settles_checkLoad (t g id : Nat) : Settles s (s.checkLoad t g id) := by
  unfold State.checkLoad
  split
  · split
    · exact .refl s
    · split
      · exact settles_post ..
      · exact settles_raiseLost ..
  · exact .refl s

theorem settles_checkStore (t g id : Nat) : Settles s (s.checkStore t g id) := by
  unfold State.checkStore
  split
  · split
    · exact .refl s
    · split
      · exact settles_post ..
      · exact settles_raiseLost ..
  · exact .refl s

theorem settles_pieceLoaded (t g id lane off : Nat) (b : List Byte) : Settles s (s.pieceLoaded t g id lane off b) :=
  (settles_modGroup ..).trans (settles_checkLoad ..)

theorem settles_pieceStored (t g id : Nat) : Settles s (s.pieceStored t g id) := (settles_modGroup ..).trans (settles_checkStore ..)

theorem settles_touch (t cmd i : Nat) : Settles s (s.touch t cmd i) := by
  unfold State.touch
  split
  · split
    · split
      · exact .refl s
      · refine (settles_writeScratch ..).trans (.foldl (fun u v => ?_) _ _)
        split
        · exact settles_post ..
        · exact .refl u
    · exact .refl s
  · exact .refl s

theorem settles_settleColl (t cmd : Nat) : Settles s (s.settleColl t cmd) := by
  unfold State.settleColl
  split
  · split
    · exact (settles_modColl ..).trans (settles_dropCmd ..)
    · exact .refl s
  · exact .refl s

theorem settles_markTile (t cmd i : Nat) : Settles s (s.markTile t cmd i) :=
  ((settles_modTile ..).trans (settles_touch ..)).trans (settles_settleColl ..)

theorem settles_failSpire (core t : Nat) (c : Cmd) (cause : Cause) (addr : Word) (detail : Nat) : Settles s (s.failSpire core t c cause addr detail) :=
  (settles_modCore ..).trans (settles_post ..)

theorem settles_answerSpire (t : Nat) (c : Cmd) (rd : Bool) (va : Nat) (nack : Option (Cause × Word × Nat)) (b : List Byte) :
    Settles s (s.answerSpire t c rd va nack b) := by
  unfold State.answerSpire
  extract_lets core
  split
  · exact settles_failSpire ..
  · split
    · exact (settles_modCmd ..).trans (settles_post ..)
    · exact settles_modCmd ..

theorem settles_countSync (t off n stamp scope : Nat) : Settles s (s.countSync t off n stamp scope) := by
  unfold State.countSync
  extract_lets
  split
  · exact .refl s
  · exact (settles_modTeam ..).trans (settles_writeScratch ..)

theorem settles_landed (t : Nat) (c : Cmd) (n : Nat) : Settles s (s.landed t c n) := by
  unfold State.landed
  split
  · exact settles_countSync ..
  · exact .refl s

theorem settles_advanceCursor (t : Nat) (c : Cmd) (j : Nat) : Settles s (s.advanceCursor t c j) := by
  unfold State.advanceCursor
  split
  · exact settles_writeScratch ..
  · exact .refl s

theorem settles_pieceDone (t : Nat) (c : Cmd) (n len : Nat) : Settles s (s.pieceDone t c n len) := by
  unfold State.pieceDone
  split
  · exact (settles_advanceCursor ..).trans (settles_landed ..)
  · exact settles_landed ..

theorem settles_advanceCmd (t id : Nat) : Settles s (s.advanceCmd t id) := by
  unfold State.advanceCmd
  split
  · exact .refl s
  · split
    · exact .refl s
    · split
      · exact settles_post ..
      · split
        · exact settles_post ..
        · exact .refl s

theorem settles_pieceLanded (t id n len : Nat) : Settles s (s.pieceLanded t id n len) := by
  unfold State.pieceLanded
  split
  · exact .refl s
  · split
    · exact .refl s
    · extract_lets done core
      have hd (u : State) : Settles u (done u) := settles_modCmd ..
      split
      · exact (hd s).trans (settles_answerSpire ..)
      · split
        · exact ((settles_modCore ..).trans (settles_dropCmd ..)).trans (settles_post ..)
        · exact ((settles_pieceDone ..).trans (hd _)).trans (settles_advanceCmd ..)

/-! ### An access performed to the end -/

theorem Settles.elim {α : Type} {o : Option α} {f : α → State → State} (hf : ∀ a u, Settles u (f a u)) : Settles s (o.elim s fun a => f a s) := by
  cases o
  · exact .refl s
  · exact hf _ s

theorem settles_putRest (x : Apart) : Settles s (s.putRest x) := by
  unfold State.putRest
  extract_lets u1 u2 u3 u4
  have h1 : Settles s u1 := .foldl (f := State.putBlock x.stamp) (fun u k => settles_putBlock u x.stamp k) x.blocks s
  have h2 : Settles u1 u2 := by
    unfold u2
    cases x.store
    · exact .refl u1
    · exact settles_pieceStored ..
  have h3 : Settles u2 u3 := by
    unfold u3
    split
    · exact Settles.elim u2 (f := fun id u => u.pieceLoaded x.team x.grp id 0 0 []) fun id u => settles_pieceLoaded u x.team x.grp id 0 0 []
    · exact .refl u2
  have h4 : Settles u3 u4 := by
    unfold u4
    cases x.tile
    · exact .refl u3
    · exact settles_markTile ..
  exact (((h1.trans h2).trans h3).trans h4).trans
    (Settles.elim u4 (o := x.piece) (f := fun p u => u.pieceLanded x.team p.1 p.2.1 p.2.2) fun p u => settles_pieceLanded u x.team p.1 p.2.1 p.2.2)

theorem settles_readRest (x : Apart) : Settles s (s.readRest x) := by
  unfold State.readRest
  extract_lets got u1 u2
  have h1 : Settles s u1 := by
    unfold u1
    cases x.load
    · exact .refl s
    · next id => exact .foldl (f := fun v r => v.pieceLoaded x.team x.grp id r.1 r.2.1 (v.readBlock r.2.2)) (fun v _ => settles_pieceLoaded v ..) x.reads s
  have h2 : Settles u1 u2 := by
    unfold u2
    split
    · split
      · exact .refl u1
      · exact settles_landScalar ..
    · exact .refl u1
  exact (h1.trans h2).trans (Settles.elim u2 (o := x.reply) (f := fun r u => u.reply r.1 none (got r.2)) fun r u => settles_reply u r.1 none (got r.2))

theorem settles_performApart (x : Apart) : Settles s (s.performApart x) := by
  unfold State.performApart
  extract_lets cur v u
  have hu : Settles s u := ((settles_putRest _ x).trans (settles_readRest _ x)).as
  split
  · exact hu
  · exact hu.trans (settles_settleTeam ..)

/-- Settling the accesses that a test selects leaves the others to come. -/
theorem settleApart_settles (p : Apart → Bool) : Settles { s with apart := s.apart.filter fun x => !p x } (s.settleApart p) :=
  .foldl settles_performApart _ _

theorem settleApart_apart (p : Apart → Bool) : (s.settleApart p).apart = s.apart.filter fun x => !p x := (settleApart_settles s p).apart
theorem settleApart_contexts (p : Apart → Bool) : (s.settleApart p).contexts = s.contexts := (settleApart_settles s p).contexts

theorem settleApart_none {p : Apart → Bool} (h : s.apart = []) : s.settleApart p = s := by
  unfold State.settleApart
  rw [h]
  exact congrArg (fun l => { s with apart := l }) h.symm

theorem combine_none {sel : Partial → Bool} (h : s.partials = []) : s.combine sel = s := by
  unfold State.combine
  simp [h]

end

end Sys2Proof.Proofs
end

section
/-! SUPPORT. The end of a context (R389), and the platform's events (R408, R410, R414 to R419). -/

namespace Sys2Proof.Proofs
open Machine Claims Laws

theorem foldl_keeps {α β γ : Type} (g : β → γ) {f : β → α → β} (h : ∀ b a, g (f b a) = g b) (l : List α) (b : β) : g (l.foldl f b) = g b := by
  induction l generalizing b with
  | nil => rfl
  | cons a l ih => exact (ih _).trans (h b a)

/-! ### The trace writes device memory alone -/

theorem wakeFrom_hostMem (s s' : State) (stamp : Nat) (who : Option Nat) : (s.wakeFrom s' stamp who).hostMem = s.hostMem := by
  refine foldl_keeps State.hostMem ?_ _ s
  exact fun _ _ => rfl

theorem devWrite_hostMem (s : State) (a : Nat) (b : List Byte) : (s.devWrite a b).hostMem = s.hostMem := by
  refine (wakeFrom_hostMem (s.devPoke a b none) s 0 _).trans ?_
  unfold State.devPoke
  split
  · rfl
  · rfl

theorem trace_hostMem (s : State) (kind unit core grp ctx p q : Nat) : (s.trace kind unit core grp ctx p q).hostMem = s.hostMem := by
  unfold State.trace
  split
  · unfold State.traceWrite
    split
    · rfl
    · split
      · rfl
      · exact devWrite_hostMem ..
  · rfl

/-! ### The end of a context -/

theorem endContext_contexts (s : State) (ctx : Nat) : (s.endContext ctx).contexts = s.contexts.filter fun C => C.id != ctx := by
  unfold State.endContext
  extract_lets u v
  have hu : u.contexts = s.contexts := (kept_combine _ _).contexts.trans (settleApart_contexts s _)
  have hv : v.contexts = u.contexts := by
    refine foldl_keeps State.contexts (fun w L => ?_) _ u
    split
    · exact (kept_trace ..).contexts
    · rfl
  exact congrArg _ (hv.trans hu)

theorem endContext_hostMem (s : State) (ctx : Nat) (hp : s.partials = []) (ha : s.apart = []) : (s.endContext ctx).hostMem = s.hostMem := by
  unfold State.endContext
  rw [settleApart_none s ha, combine_none s hp]
  refine foldl_keeps State.hostMem (fun w L => ?_) _ s
  split
  · exact trace_hostMem ..
  · rfl

theorem confidentialEnd_ends {s : State} {ctx : Nat} {C : Context} (hC : s.context? ctx = some C) (hc : C.conf = true) :
    execConfidentialContextEnd ctx s = .next (s.endContext ctx).programFirewall := by
  unfold execConfidentialContextEnd
  rw [hC]
  exact if_neg (by rw [hc]; exact Bool.false_ne_true)

theorem confidentialEnd_leaves (s : State) (ctx : Nat) (C : Context) (hC : s.context? ctx = some C) (hc : C.conf = true) :
    ∃ s', exec (.confidentialContextEnd ctx) s = .next s' ∧ s'.context? ctx = none
      ∧ (s.partials = [] → s.apart = [] → s'.hostMem = s.hostMem) ∧ ∀ D ∈ s.contexts, D.id ≠ ctx → D ∈ s'.contexts := by
  have hx : (s.endContext ctx).programFirewall.contexts = s.contexts.filter fun C => C.id != ctx := endContext_contexts s ctx
  refine ⟨_, (exec_confidentialContextEnd ctx s).trans (confidentialEnd_ends hC hc), ?_, fun hp ha => endContext_hostMem s ctx hp ha, fun D hD hne => ?_⟩
  · unfold State.context?
    rw [hx, List.find?_eq_none]
    simp
  · rw [hx]
    simp [hD, hne]

/-- Settles O55: requests of reset, then images, then attestation, then the making and the end of a confidential context. -/
theorem platformEventsComplete : Obligations.PlatformEventsComplete := by
  intro len off hdr body i kind ctx c nonce key x y s abandoned idle busy
  refine ⟨?_, ?_, ?_, rfl, rfl, rfl, rfl, ?_, ?_, ?_, ?_, ?_, ?_, ?_, ?_, ?_, ?_, ?_, ?_, ?_, ?_, ?_⟩
  · rintro ⟨h1, h2⟩
    have hr (trip : Bool) : s.requestReset trip = abandoned trip s := requestReset_idle trip h1 h2
    refine ⟨?_, congrArg Host.Outcome.next (hr false), congrArg Host.Outcome.next (hr false), congrArg Host.Outcome.next (hr true), ?_⟩
    · exact (if_neg h2).trans (congrArg Host.Outcome.next (hr false))
    · exact congrArg Host.Outcome.next (requestReset_idle (s := s.modPlat fun p => { p with pgOk := false }) false h1 h2)
  · intro hb
    have hr (trip : Bool) : s.requestReset trip = s := requestReset_busy trip hb
    exact ⟨congrArg Host.Outcome.next (hr false), congrArg Host.Outcome.next (hr false), congrArg Host.Outcome.next (hr true),
      congrArg Host.Outcome.next (requestReset_busy (s := s.modPlat fun p => { p with pgOk := false }) false hb)⟩
  · exact fun h => if_pos h
  · exact doeBegin_refused len hdr
  · exact doeBegin_taken len hdr
  · exact fun hl ho h4 hb => ⟨doeChunk_taken hl ho h4 hb, doeChunk_bad hl ho h4 hb⟩
  · intro hl
    constructor
    · rw [exec_doeChunk, execDoeChunk, hl]
      rfl
    · rw [exec_doeEnd, execDoeEnd, hl]
      rfl
  · intro hl hg
    have hx := (exec_doeEnd s).trans (doeEnd_good hl hg)
    refine ⟨fun hp => ?_, fun hp => ?_, fun hp => ?_⟩
    · rw [hx, hp]
      rfl
    · rw [hx, hp]
      rfl
    · rw [hx, hp]
      rfl
  · exact fun hw j hj => placeOps_bytes hw hj
  · intro hp
    rw [exec_firmwareReady, execFirmwareReady, hp]
  · intro hp hd
    rw [exec_firmwareReady, execFirmwareReady, hp]
    exact congrArg Host.Outcome.next (if_pos hd)
  · rintro hp ⟨d, hd, hle⟩
    exact if_pos ⟨hp, by simp [hd, hle]⟩
  · exact fun hp => if_neg (by rw [hp]; exact Bool.false_ne_true)
  · exact doeAttest_signs nonce
  · intro hp
    constructor
    · exact if_pos (by rw [hp]; rfl)
    · exact if_pos (by rw [hp]; rfl)
  · exact confidentialCreate_taken ctx
  · exact confidentialCreate_refused ctx
  · exact confidentialEnd_leaves s ctx

end Sys2Proof.Proofs
end

section
/-! SUPPORT. Command processor, clocks and debug unit (R229, R233 to R236, R293, R296, R304 to R316, R402 to R405, R408, R413). -/

namespace Sys2Proof.Proofs
open Machine Claims Laws

variable {s : State}

/-! ### Launch queues -/

/-- A queue of a context with one entry more to accept, and with its next entry taken. -/
def entryKept (ctx queue : Nat) (s : State) : State := s.modContext ctx fun C =>
  { C with queues := modifyAt (fun q => { q with waiting := q.waiting + 1 }) queue C.queues }
def entryDone (ctx queue : Nat) (s : State) : State := s.modContext ctx fun C =>
  { C with queues := modifyAt (fun q => { q with next := q.next + 1 }) queue C.queues }

/-- The address of a queue's next entry. -/
def entryAt (q : Queue) : Nat := q.base + 32 * (if q.size = 0 then 0 else q.next % q.size)

section
variable {ctx queue : Nat} {C : Context} {q : Queue} (hC : s.context? ctx = some C) (hq : C.queues[queue]? = some q)
include hC hq

theorem launchAccept_notReady (hr : s.ready = false) : execLaunchAccept ctx queue s = .next (entryKept ctx queue s) := by
  unfold execLaunchAccept
  rw [hC]
  dsimp only
  rw [hq]
  exact if_pos (by rw [hr]; rfl)

theorem launchAccept_held (hr : s.ready = true) {line : Nat} (hl : s.heldLine (entryAt q) 32 = some line) :
    execLaunchAccept ctx queue s = .next (entryKept ctx queue (s.askBack line)) := by
  unfold execLaunchAccept
  rw [hC]
  dsimp only
  rw [hq]
  refine (if_neg (by rw [hr]; exact Bool.false_ne_true)).trans ?_
  unfold entryAt at hl
  rw [hl]
  rfl

/-- What is done with an entry that has been read. -/
def entryTaken (ctx queue : Nat) (C : Context) (e : List Byte) (u : State) : Answer :=
  match u.takeRecord C (fld e 0 8) with
  | (.wait, s) => .next (entryKept ctx queue s)
  | (.refused code, s) =>
    match s.vread C.agent (fld e 0 8) 256 with
    | (some d, s) => .next (entryDone ctx queue (if fld d 112 8 % 64 = 0 then s.writeStatus C (fld d 112 8) (code - 1) else s))
    | (none, s) => .next (entryDone ctx queue s)
  | (.ok L hs, s) => .next ((entryDone ctx queue (s.accept L hs)).writeStatus C L.completion 0xFFFFFFFF)

theorem launchAccept_read (hr : s.ready = true) (hl : s.heldLine (entryAt q) 32 = none) :
    execLaunchAccept ctx queue s =
      let u := s.combine (Partial.meets false (entryAt q) 32)
      let e := u.devRead (entryAt q) 32
      if fld e 8 1 ≠ 1 || !allZero (e.drop 9) then .next (entryDone ctx queue (u.send (.skipped ctx queue)))
      else entryTaken ctx queue C e u := by
  unfold execLaunchAccept
  rw [hC]
  dsimp only
  rw [hq]
  refine (if_neg (by rw [hr]; exact Bool.false_ne_true)).trans ?_
  unfold entryAt at hl ⊢
  rw [hl]
  rfl

theorem launchAccept_entry (hr : s.ready = true) (hl : s.heldLine (entryAt q) 32 = none)
    (h1 : fld ((s.combine (Partial.meets false (entryAt q) 32)).devRead (entryAt q) 32) 8 1 = 1)
    (hz : allZero (((s.combine (Partial.meets false (entryAt q) 32)).devRead (entryAt q) 32).drop 9) = true) :
    execLaunchAccept ctx queue s = entryTaken ctx queue C ((s.combine (Partial.meets false (entryAt q) 32)).devRead (entryAt q) 32)
      (s.combine (Partial.meets false (entryAt q) 32)) := by
  refine (launchAccept_read hC hq hr hl).trans (if_neg ?_)
  simp [h1, hz]

theorem launchAccept_skips (hr : s.ready = true) (hl : s.heldLine (entryAt q) 32 = none)
    (h : fld ((s.combine (Partial.meets false (entryAt q) 32)).devRead (entryAt q) 32) 8 1 ≠ 1
      ∨ allZero (((s.combine (Partial.meets false (entryAt q) 32)).devRead (entryAt q) 32).drop 9) = false) :
    execLaunchAccept ctx queue s = .next (entryDone ctx queue ((s.combine (Partial.meets false (entryAt q) 32)).send (.skipped ctx queue))) := by
  refine (launchAccept_read hC hq hr hl).trans (if_pos ?_)
  rcases h with h | h <;> simp [h]

end

section
variable {ctx queue n : Nat} {C : Context} {L : Launch} {hs : List (Nat × Nat)} {d e : List Byte} {u s' w : State}

theorem entryTaken_ok (h : u.takeRecord C (fld e 0 8) = (.ok L hs, s')) :
    entryTaken ctx queue C e u = .next ((entryDone ctx queue (s'.accept L hs)).writeStatus C L.completion 0xFFFFFFFF) := by
  unfold entryTaken
  rw [h]

theorem entryTaken_refused (h : u.takeRecord C (fld e 0 8) = (.refused n, s')) (hd : s'.vread C.agent (fld e 0 8) 256 = (some d, w))
    (ha : fld d 112 8 % 64 = 0) : entryTaken ctx queue C e u = .next (entryDone ctx queue (w.writeStatus C (fld d 112 8) (n - 1))) := by
  unfold entryTaken
  rw [h]
  dsimp only
  rw [hd]
  exact congrArg (fun v => Host.Outcome.next (entryDone ctx queue v)) (if_pos ha)

theorem entryTaken_wait (h : u.takeRecord C (fld e 0 8) = (.wait, s')) : entryTaken ctx queue C e u = .next (entryKept ctx queue s') := by
  unfold entryTaken
  rw [h]

end

/-! ### Placement, and the end of a launch -/

section
variable {l : Nat} {L : Launch} (hL : s.launches[l]? = some L)
include hL

theorem teamPlace_open (hr : s.ready = true) (ho : s.othersFirst l L = false) (hm : s.mateFirst l L.clusters.length = false) :
    execTeamPlace l s = match s.planFor l with
      | some ps => .next (ps.foldl (fun s p => s.startCluster l p) s)
      | none =>
        match s.context? L.ctx with
        | none => .next s
        | some C =>
          if L.cls = 0 && L.wants && s.depsMet L then
            match s.victim L C.cores with
            | none => .next s
            | some core =>
              .next ((indexed 0 s.teams).foldl (fun s tT =>
                if tT.2.live && !tT.2.away && tT.2.core == core && !tT.2.stop then
                  (s.modTeam tT.1 fun T => { T with stop := true }).post (.preempt tT.1) else s)
                (s.modCore core fun c => { c with taking := some l }))
          else .next s := by
  unfold execTeamPlace
  rw [hL]
  refine (if_neg (by rw [hr]; exact Bool.false_ne_true)).trans ((if_neg (by rw [ho, hm]; exact Bool.false_ne_true)).trans ?_)
  rfl

theorem teamPlace_places {ps : List (List (Nat × List (Nat × Nat × Nat)))} (hr : s.ready = true) (ho : s.othersFirst l L = false)
    (hm : s.mateFirst l L.clusters.length = false) (hp : s.planFor l = some ps) :
    execTeamPlace l s = .next (ps.foldl (fun s p => s.startCluster l p) s) := by
  rw [teamPlace_open hL hr ho hm, hp]

theorem teamPlace_takes {C : Context} {core : Nat} (hr : s.ready = true) (ho : s.othersFirst l L = false) (hm : s.mateFirst l L.clusters.length = false)
    (hp : s.planFor l = none) (hC : s.context? L.ctx = some C) (h0 : L.cls = 0) (hw : L.wants = true) (hd : s.depsMet L = true)
    (hv : s.victim L C.cores = some core) :
    execTeamPlace l s = .next ((indexed 0 s.teams).foldl (fun u tT =>
        if tT.2.live = true ∧ tT.2.away = false ∧ tT.2.core = core ∧ tT.2.stop = false then
          (u.modTeam tT.1 fun T => { T with stop := true }).post (.preempt tT.1) else u)
      (s.modCore core fun c => { c with taking := some l })) := by
  rw [teamPlace_open hL hr ho hm, hp]
  dsimp only
  rw [hC]
  refine (if_pos (by rw [h0, hw, hd]; rfl)).trans ?_
  rw [hv]
  simp only [Bool.and_eq_true, Bool.not_eq_true', beq_iff_eq, and_assoc]

theorem launchEnd_ends (h : s.launchOver l L = true) : execLaunchEnd l s = .next (s.finishLaunch l) := by
  unfold execLaunchEnd
  rw [hL]
  exact if_pos h

theorem driverLaunchEnd_ends (h : L.ended = false) : execDriverLaunchEnd l s =
    .next (((indexed 0 s.teams).foldl (fun u tT => if tT.2.launch = l ∧ tT.2.live = true then u.killTeam tT.1 else u)
      (s.modLaunch l fun L => { L with killed := true, halted := true })).post (.launchEnd l)) := by
  unfold execDriverLaunchEnd
  rw [hL]
  exact if_neg (by rw [h]; exact Bool.false_ne_true)

end

/-! ### Swaps, pre-emption and restore -/

/-- Every team of a cluster that is on the device noted as one that may be swapped, or not. -/
def markSwap (ok : Bool) (t : Nat) (s : State) : State := (s.cluster t false).foldl (fun (x : State) u => x.modTeam u fun T => { T with elig := ok }) s

theorem swapEligible_refused {t : Nat} (h : s.swappable t = false) : execSwapEligible t s = .next (markSwap false t s) := by
  unfold execSwapEligible
  rw [h]
  rfl

theorem swapEligible_eq {t : Nat} (h : s.swappable t = true) : execSwapEligible t s =
    if (markSwap true t s).plat.phase != .live && (markSwap true t s).wanted t then
      .next ((((markSwap true t s).cluster t false).foldl (fun (x : State) u => x.modTeam u fun T => { T with stop := true, yields := true })
        (markSwap true t s)).post (.preempt t))
    else .next (markSwap true t s) := by
  unfold execSwapEligible
  rw [h]
  rfl

theorem markSwap_plat (ok : Bool) (t : Nat) : (markSwap ok t s).plat = s.plat := by
  refine foldl_keeps State.plat ?_ _ s
  exact fun _ _ => rfl

theorem preempt_live {t : Nat} {L : Launch} {T : Team} (hL : s.launchOf? t = some L) (hp : s.plat.phase = .live) (hT : s.team? t = some T) :
    execPreempt t s = .next (if T.stop then s else s.modDome fun d => { d with later := d.later ++ [.preempt t] }) := by
  unfold execPreempt
  rw [hL]
  refine (if_pos (by rw [hp]; rfl)).trans ?_
  rw [hT]
  rfl

theorem preempt_stops {t : Nat} {L : Launch} (hL : s.launchOf? t = some L) (hp : s.plat.phase ≠ .live) :
    execPreempt t s =
      let u := (s.cluster t false).foldl (fun (x : State) u => x.modTeam u fun T => { T with stop := true }) s
      .next (if (s.cluster t false).all (fun w => (u.team? w).any fun U => u.canSave w U L)
        then (s.cluster t false).foldl (fun x w => x.saveTeam w) ((s.cluster t false).foldl (fun x w => x.settleAll w) u) else u) := by
  unfold execPreempt
  rw [hL]
  refine (if_neg (by simp [hp])).trans ?_
  dsimp only
  split
  · rfl
  · rfl

theorem restore_seats {t core n : Nat} {T : Team} {L : Launch} {C : Context} {seats : List Seat} (hT : s.team? t = some T) (hL : s.launchOf? t = some L)
    (hC : s.contextOf? t = some C) (hl : T.live = true) (ha : T.away = true) (hr : s.ready = true) (hs : s.seatsAt t core = some (n, seats))
    (hg : s.givesWay t = false) (ho : s.othersFirst T.launch L = false) (hm : s.mateFirst T.launch T.cluster = false) :
    execRestore t core s = .next (seats.foldl (fun s x => s.resumeTeam x.team)
      (seats.foldl (fun s x => s.seatTeam x) (s.takeRoom (seats.map (·.core))))) := by
  unfold execRestore
  rw [hT, hL, hC]
  refine (if_neg (by rw [hl, ha, hr]; decide)).trans ?_
  rw [hs]
  exact if_neg (by rw [hg, ho, hm]; decide)

/-! ### Clocks -/

theorem globalTick_runs (h : s.dome.stopctl.getLsbD 1 = false ∨ s.plat.phase = .draining) : ∃ s', execGlobalTick s = .next s'
    ∧ (s.plat.phase = .ready → s'.tick = s.tick + 1 ∧ s'.mem = s.mem ∧ s'.hostMem = s.hostMem ∧ ∃ es, s'.agenda = s.agenda ++ es) := by
  have hfirst : ¬(s.dome.stopctl.getLsbD 1 && s.plat.phase != .draining) = true := by
    rcases h with h | h
    · rw [h]
      exact Bool.false_ne_true
    · rw [h]
      simp
  unfold execGlobalTick
  rw [if_neg hfirst]
  by_cases hd : (s.plat.phase == .draining || s.plat.phase == .held) = true
  · rw [if_pos hd]
    refine ⟨_, rfl, fun hp => ?_⟩
    rw [hp] at hd
    exact absurd hd (by decide)
  · rw [if_neg hd]
    refine ⟨_, rfl, fun hp => ?_⟩
    have hadv : State.advancePlatform { s with tick := s.tick + 1 } = { s with tick := s.tick + 1 } := by
      unfold State.advancePlatform
      rw [show State.plat { s with tick := s.tick + 1 } = s.plat from rfl, hp]
    dsimp only
    rw [hadv]
    exact ⟨rfl, rfl, rfl, _, List.append_assoc ..⟩

theorem coreClockCycle_runs (h : s.stopped = false) : ∃ s', execCoreClockCycle s = .next s' ∧ s'.plat.cycles = s.plat.cycles + 1 ∧ s'.mem = s.mem
    ∧ s'.tick = s.tick ∧ s'.agenda = .issue :: s.agenda :=
  ⟨_, if_neg (by rw [h]; exact Bool.false_ne_true), rfl, rfl, rfl, rfl⟩

theorem cntsnapCopy_copies (h : s.dome.cntsnap.getLsbD 63 = true) : ∃ s', execCntsnapCopy s = .next s'
    ∧ s'.dome.cntsnap = BitVec.ofNat 64 (s.tick % 2 ^ 63)
    ∧ ∀ (j : Nat) (c c' : Machine.Core), s.cores[j]? = some c → s'.cores[j]? = some c' → c'.snap = c.leaves ∧ c'.leaves = c.leaves := by
  refine ⟨_, if_pos h, rfl, fun j c c' hc hc' => ?_⟩
  have hj : (s.cores.map fun (c : Machine.Core) => { c with snap := c.leaves })[j]? = some c' := hc'
  rw [List.getElem?_map, hc, Option.map_some, Option.some_inj] at hj
  subst hj
  exact ⟨rfl, rfl⟩

/-! ### The debug unit -/

theorem dbgStop_stops (h0 : s.dome.stopctl.getLsbD 0 = true) (ht : s.dome.stoptick.toNat ≤ s.tick) : ∃ s', execDbgStop s = .next s'
    ∧ s'.dome.stopctl = s.dome.stopctl ||| 2#64 ∧ (∀ c ∈ s'.dome.canals, c.up = false)
    ∧ s'.outbox = s.outbox ++ ((List.range 24).filter fun p => (s.dome.canals[p]?).any (·.up)).map Msg.linkDown ++ [.cxlDown 0, .cxlDown 1] := by
  refine ⟨_, if_pos (by simp [h0, ht]), rfl, fun c hc => ?_, rfl⟩
  obtain ⟨d, -, rfl⟩ := List.mem_map.1 hc
  rfl

/-! ### The throttle -/

theorem testBit_natBits (x hi lo i : Nat) : (natBits x hi lo).testBit i = (decide (i < hi + 1 - lo) && x.testBit (lo + i)) := by
  unfold natBits
  rw [Nat.testBit_mod_two_pow, Nat.testBit_shiftRight]

/-- Another step in a value of PWR.CLKCTL: the limits above it stand. -/
theorem testBit_clkctl (v : Word) {n : Nat} (h : n < 32) (i : Nat) :
    ((v &&& 0xFFFFFFFFFFFFFFE0#64) ||| BitVec.ofNat 64 n).toNat.testBit i = if i < 5 then n.testBit i else v.toNat.testBit i := by
  have hmask : ∀ i < 64, (0xFFFFFFFFFFFFFFE0#64 : Word).getLsbD i = decide (5 ≤ i) := by decide
  have hhigh (h5 : 5 ≤ i) : n.testBit i = false := Nat.testBit_lt_two_pow (Nat.lt_of_lt_of_le h (Nat.pow_le_pow_right (n := 2) (by decide) h5))
  have hn : (BitVec.ofNat 64 n).getLsbD i = (decide (i < 64) && n.testBit i) := BitVec.getLsbD_ofNat ..
  rw [BitVec.testBit_toNat, BitVec.getLsbD_or, BitVec.getLsbD_and, hn]
  by_cases hi : i < 64
  · rw [hmask i hi]
    by_cases h5 : i < 5
    · simp [h5, hi, Nat.not_le.2 h5]
    · simp [h5, Nat.not_lt.1 h5, hhigh (Nat.not_lt.1 h5), BitVec.testBit_toNat]
  · rw [if_neg (by omega), BitVec.testBit_toNat, BitVec.getLsbD_of_ge v i (Nat.not_lt.1 hi)]
    simp [hi]

theorem clkctl_step (v : Word) {n : Nat} (h : n < 32) :
    natBits ((v &&& 0xFFFFFFFFFFFFFFE0#64) ||| BitVec.ofNat 64 n).toNat 3 0 = n % 16 := by
  refine Nat.eq_of_testBit_eq fun i => ?_
  rw [testBit_natBits, testBit_clkctl v h, show (16 : Nat) = 2 ^ 4 from rfl, Nat.testBit_mod_two_pow, Nat.zero_add]
  by_cases hi : i < 4
  · simp [hi, show i < 5 by omega]
  · simp [hi]

theorem clkctl_limits (v : Word) {n : Nat} (h : n < 32) :
    natBits ((v &&& 0xFFFFFFFFFFFFFFE0#64) ||| BitVec.ofNat 64 n).toNat 43 8 = natBits v.toNat 43 8 := by
  refine Nat.eq_of_testBit_eq fun i => ?_
  rw [testBit_natBits, testBit_clkctl v h, testBit_natBits, if_neg (by omega)]

/-- The throttle's next step, and for how long the readings have been cool. -/
def nextStep (hot : Bool) (quiet top step : Nat) : Nat := min top (if hot then step + 1 else if quiet ≥ 100 then step - 1 else step)
def nextQuiet (cool : Prop) [Decidable cool] (quiet : Nat) : Nat := if cool then min (quiet + 1) 100 else 0

theorem throttleEval_eq : let v := s.plat.clkctl.toNat
    let quiet := nextQuiet (10 * s.plat.current ≤ 9 * natBits v 43 32 ∧ s.plat.junction + 5 ≤ natBits v 31 24 ∧ s.plat.thermN = true) s.plat.quiet
    let step := nextStep (decide (s.plat.current > natBits v 43 32) || decide (s.plat.junction > natBits v 31 24) || !s.plat.thermN) quiet
      (natBits v 11 8) (natBits v 3 0)
    execThrottleEval s = .next (s.modPlat fun p => { p with
      quiet := quiet, clkctl := (p.clkctl &&& 0xFFFFFFFFFFFFFFE0#64) ||| BitVec.ofNat 64 (step + if step = 0 then 0 else 16) }) := rfl

theorem throttleEval_runs : let v := s.plat.clkctl.toNat
    let hot : Prop := natBits v 43 32 < s.plat.current ∨ natBits v 31 24 < s.plat.junction ∨ s.plat.thermN = false
    let cool : Prop := 10 * s.plat.current ≤ 9 * natBits v 43 32 ∧ s.plat.junction + 5 ≤ natBits v 31 24 ∧ s.plat.thermN = true
    ∃ s', execThrottleEval s = .next s' ∧ natBits s'.plat.clkctl.toNat 43 8 = natBits v 43 8
    ∧ (let step := natBits s'.plat.clkctl.toNat 3 0
      (hot → step = min (natBits v 11 8) (natBits v 3 0 + 1) ∧ s'.plat.quiet = 0)
      ∧ (¬hot → cool → 99 ≤ s.plat.quiet → step = min (natBits v 11 8) (natBits v 3 0 - 1) ∧ s'.plat.quiet = 100)
      ∧ (¬hot → ¬cool → step = min (natBits v 11 8) (natBits v 3 0) ∧ s'.plat.quiet = 0)
      ∧ (cool → s.plat.quiet < 99 → step = min (natBits v 11 8) (natBits v 3 0) ∧ s'.plat.quiet = s.plat.quiet + 1)) := by
  intro v hot cool
  have hx := throttleEval_eq (s := s)
  dsimp only at hx
  generalize hq : nextQuiet (10 * s.plat.current ≤ 9 * natBits s.plat.clkctl.toNat 43 32 ∧ s.plat.junction + 5 ≤ natBits s.plat.clkctl.toNat 31 24
    ∧ s.plat.thermN = true) s.plat.quiet = quiet at hx
  generalize hs : nextStep _ _ _ _ = step at hx
  have htop : natBits v 11 8 < 16 := Nat.mod_lt _ (by decide)
  have hstep : step < 16 := by rw [← hs]; exact Nat.lt_of_le_of_lt (Nat.min_le_left _ _) htop
  have hlt : step + (if step = 0 then 0 else 16) < 32 := by split <;> omega
  have hmod : (step + if step = 0 then 0 else 16) % 16 = step := by split <;> omega
  have hcoolHot : cool → ¬hot := by
    rintro ⟨h1, h2, h3⟩ (h | h | h)
    · omega
    · omega
    · rw [h3] at h
      exact absurd h (by decide)
  have hHot : (decide (s.plat.current > natBits v 43 32) || decide (s.plat.junction > natBits v 31 24) || !s.plat.thermN) = true ↔ hot := by
    simp [hot, or_assoc]
  refine ⟨_, hx, clkctl_limits _ hlt, ?_⟩
  have hnat := (clkctl_step s.plat.clkctl hlt).trans hmod
  intro step'
  have hstep' : step' = step := hnat
  rw [hstep', show (State.plat _).quiet = quiet from rfl, ← hs, ← hq]
  unfold nextStep nextQuiet
  refine ⟨fun h => ?_, fun h hc hn => ?_, fun h hc => ?_, fun hc hn => ?_⟩
  · rw [if_pos (hHot.2 h), if_neg (fun hc => hcoolHot hc h)]
    exact ⟨rfl, rfl⟩
  · rw [if_neg (mt hHot.1 h), if_pos hc]
    have : min (s.plat.quiet + 1) 100 = 100 := by omega
    rw [this]
    exact ⟨rfl, rfl⟩
  · rw [if_neg (mt hHot.1 h), if_neg hc]
    exact ⟨rfl, rfl⟩
  · rw [if_neg (mt hHot.1 (hcoolHot hc)), if_pos hc]
    have : min (s.plat.quiet + 1) 100 = s.plat.quiet + 1 := by omega
    rw [this, if_neg (by omega)]
    exact ⟨rfl, rfl⟩

end Sys2Proof.Proofs
end

section
/-! SUPPORT. The trace's samples (R405), and the events of the command processor, the clocks and the debug unit together. -/

namespace Sys2Proof.Proofs
open Machine Claims Laws

variable {s u : State}

/-! ### The group that a core's sample shows -/

theorem findIndexFrom_ge {α : Type} {p : α → Bool} {l : List α} {k i : Nat} (h : findIndexFrom p k l = some i) : k ≤ i := by
  induction l generalizing k with
  | nil => cases h
  | cons x l ih =>
    rw [findIndexFrom] at h
    split at h
    · exact Nat.le_of_eq (Option.some.inj h)
    · exact Nat.le_of_succ_le (ih h)

theorem findIndexFrom_holds {α : Type} {p : α → Bool} {l : List α} {k i : Nat} (h : findIndexFrom p k l = some i) :
    ∃ x, l[i - k]? = some x ∧ p x = true := by
  induction l generalizing k with
  | nil => cases h
  | cons x l ih =>
    rw [findIndexFrom] at h
    split at h
    · next hp =>
      obtain rfl := Option.some_inj.1 h
      exact ⟨x, by simp, hp⟩
    · obtain ⟨y, hy, hp⟩ := ih h
      have hk := findIndexFrom_ge h
      exact ⟨y, by rw [show i - k = (i - (k + 1)) + 1 by omega, List.getElem?_cons_succ, hy], hp⟩

/-- The first entry of which something is found, by the number that the search for it gives. -/
theorem findSome?_indexed {α β : Type} {p : α → Bool} {f : Nat → α → Option β} (h : ∀ i x, (f i x).isSome = p x) (l : List α) (k : Nat) :
    (indexed k l).findSome? (fun x => f x.1 x.2) = (findIndexFrom p k l).bind fun i => (l[i - k]?).bind (f i) := by
  induction l generalizing k with
  | nil => rfl
  | cons x l ih =>
    rw [indexed, List.findSome?_cons, findIndexFrom]
    cases hf : f k x with
    | some b =>
      rw [if_pos (by rw [← h k x, hf]; rfl)]
      simp [hf]
    | none =>
      rw [if_neg (by rw [← h k x, hf]; exact Bool.false_ne_true)]
      refine (ih (k + 1)).trans ?_
      cases hi : findIndexFrom p (k + 1) l with
      | none => rfl
      | some i =>
        have hk := findIndexFrom_ge hi
        rw [Option.bind_some, Option.bind_some, show i - k = (i - (k + 1)) + 1 by omega, List.getElem?_cons_succ]

/-- What a core's sample shows of a group; and the first group of a team that goes on, and of a core's teams. -/
def shownOf (t g : Nat) (G : Group) : Option (Nat × Nat × Group) := if G.gone then none else some (t, g, G)
def shownIn (core t : Nat) (T : Team) : Option (Nat × Nat × Group) :=
  if T.live && !T.away && T.core == core then (indexed 0 T.groups).findSome? fun gG => shownOf t gG.1 gG.2 else none

theorem firstGroup_eq (core : Nat) : firstGroup s core = (indexed 0 s.teams).findSome? fun tT => shownIn core tT.1 tT.2 := by
  unfold firstGroup
  rw [List.head?_flatMap]
  congr 1
  funext tT
  unfold shownIn
  split
  · rw [List.head?_filterMap]
    rfl
  · rfl

theorem shownIn_isSome (core t : Nat) (T : Team) :
    (shownIn core t T).isSome = (T.live && !T.away && T.core == core && T.groups.any fun g => !g.gone) := by
  unfold shownIn
  split
  · next h =>
    rw [h, Bool.true_and, Bool.eq_iff_iff, List.findSome?_isSome_iff, List.any_eq_true]
    unfold shownOf
    constructor
    · rintro ⟨x, hx, h⟩
      exact ⟨x.2, (indexed_mem 0 T.groups x.2).1 ⟨x.1, hx⟩, by simpa using h⟩
    · rintro ⟨G, hG, h⟩
      obtain ⟨i, hi⟩ := (indexed_mem 0 T.groups G).2 hG
      exact ⟨(i, G), hi, by simpa using h⟩
  · next h => rw [Bool.eq_false_iff.2 h, Bool.false_and, Option.isSome_none]

/-- What a core's sample does. -/
def sampleCore (s : State) (core : Nat) : State :=
  match findIndexFrom (fun T : Team => T.live && !T.away && T.core == core && T.groups.any fun g => !g.gone) 0 s.teams with
  | none => s
  | some t =>
    match (s.team? t).bind fun T => findIndexFrom (fun g : Group => !g.gone) 0 T.groups with
    | none => s
    | some g =>
      match s.group? t g with
      | some G => s.traceGroup t g 5 G.regs.pc.toNat G.lanePc.toNat
      | none => s

theorem traceSample_eq : execTraceSample s = .next ((List.range 192).foldl sampleCore s) := rfl

theorem sampleCore_eq (core : Nat) : sampleCore s core = match firstGroup s core with
    | some (t, g, G) => s.traceGroup t g 5 G.regs.pc.toNat G.lanePc.toNat
    | none => s := by
  have hx : firstGroup s core = (findIndexFrom (fun T : Team => T.live && !T.away && T.core == core && T.groups.any fun g => !g.gone) 0 s.teams).bind
      fun t => (s.teams[t]?).bind (shownIn core t) := (firstGroup_eq core).trans (findSome?_indexed (shownIn_isSome core) _ _)
  unfold sampleCore
  rw [hx]
  cases ht : findIndexFrom (fun T : Team => T.live && !T.away && T.core == core && T.groups.any fun g => !g.gone) 0 s.teams with
  | none => rfl
  | some t =>
    obtain ⟨T, hT, hp⟩ := findIndexFrom_holds ht
    have hT : s.team? t = some T := hT
    have hon : (T.live && !T.away && T.core == core) = true := (Bool.and_eq_true_iff.1 hp).1
    have hg : shownIn core t T = (findIndexFrom (fun g : Group => !g.gone) 0 T.groups).bind fun g => (T.groups[g]?).bind (shownOf t g) := by
      unfold shownIn
      rw [if_pos hon]
      refine findSome?_indexed (fun g G => ?_) T.groups 0
      unfold shownOf
      cases G.gone <;> rfl
    have hT' : s.teams[t]? = some T := hT
    simp only [Option.bind_some, hT, hT', hg]
    cases hf : findIndexFrom (fun g : Group => !g.gone) 0 T.groups with
    | none => rfl
    | some g =>
      obtain ⟨G, hG, hgone⟩ := findIndexFrom_holds hf
      have hG' : s.group? t g = some G := by
        unfold State.group?
        rw [hT']
        exact hG
      have hG : T.groups[g]? = some G := hG
      have hgone : G.gone = false := by simpa using hgone
      simp only [hG', Option.bind_some, hG, shownOf, hgone, Bool.false_eq_true, if_false]

/-! ### A sample leaves what the later ones show -/

/-- A shown group but for its park. -/
def shownFace (x : Nat × Nat × Group) : Nat × Nat × Group := (x.1, x.2.1, groupFace x.2.2)

theorem shownIn_face (core t : Nat) (T : Team) : (shownIn core t T).map shownFace = shownIn core t (teamFace T) := by
  unfold shownIn
  rw [show (teamFace T).live = T.live from rfl, show (teamFace T).away = T.away from rfl, show (teamFace T).core = T.core from rfl,
    show (teamFace T).groups = T.groups.map groupFace from rfl]
  split
  · rw [List.map_findSome?, indexed_map, List.findSome?_map]
    congr 1
    funext gG
    simp only [Function.comp, shownOf]
    rw [show (groupFace gG.2).gone = gG.2.gone from rfl]
    split
    · rfl
    · rfl
  · rfl

theorem firstGroup_face (h : Kept s u) (core : Nat) : (firstGroup u core).map shownFace = (firstGroup s core).map shownFace := by
  have hx (v : State) : (firstGroup v core).map shownFace = (indexed 0 (v.teams.map teamFace)).findSome? fun tT => shownIn core tT.1 tT.2 := by
    rw [firstGroup_eq, List.map_findSome?, indexed_map, List.findSome?_map]
    congr 1
    funext tT
    exact shownIn_face core tT.1 tT.2
  rw [hx u, hx s, h.teams]

/-- What the samples of one tick leave alone. -/
structure Sampling (s u : State) : Prop where
  kept : Kept s u
  tick : u.tick = s.tick
  ctl  : u.dome.tracectl = s.dome.tracectl

theorem devWrite_tick (s : State) (a : Nat) (b : List Byte) : (s.devWrite a b).tick = s.tick ∧ (s.devWrite a b).dome = s.dome := by
  have hw (v v' : State) (stamp : Nat) (who : Option Nat) : (v.wakeFrom v' stamp who).tick = v.tick ∧ (v.wakeFrom v' stamp who).dome = v.dome := by
    constructor
    · refine foldl_keeps State.tick ?_ _ v
      exact fun _ _ => rfl
    · refine foldl_keeps State.dome ?_ _ v
      exact fun _ _ => rfl
  have hp : (s.devPoke a b none).tick = s.tick ∧ (s.devPoke a b none).dome = s.dome := by
    unfold State.devPoke
    split
    · exact ⟨rfl, rfl⟩
    · exact ⟨rfl, rfl⟩
  obtain ⟨h1, h2⟩ := hw (s.devPoke a b none) s 0 (State.curLaunch (s.devPoke a b none))
  exact ⟨h1.trans hp.1, h2.trans hp.2⟩

theorem Sampling.traceWrite (h : Sampling s u) (unit : Nat) (b : List Byte) : Sampling s (u.traceWrite unit b) := by
  refine ⟨h.kept.trans (kept_traceWrite ..), ?_, ?_⟩
  · refine Eq.trans ?_ h.tick
    unfold State.traceWrite
    split
    · rfl
    · split
      · rfl
      · exact (devWrite_tick u _ _).1
  · refine Eq.trans ?_ h.ctl
    unfold State.traceWrite
    split
    · rfl
    · split
      · rfl
      · next base size _ _ =>
        have hd := (devWrite_tick u (base + 32 * (u.dome.tracePos % size)) b).2
        exact (congrArg Dome.tracectl hd : _)

/-- What a sample writes for a group of which it shows these registers. -/
def sampleOf (s u : State) (core : Nat) (x : Nat × Nat × Group) : State :=
  match s.launchOf? x.1 with
  | some L =>
    if (s.context? L.ctx).any (·.conf) then u
    else u.traceWrite (core / 48) (traceBytes s.tick 5 (core / 48) core x.2.1 L.ctx x.2.2.regs.pc.toNat x.2.2.lanePc.toNat)
  | none => u

theorem sampled_eq (core : Nat) : sampled s u core = ((firstGroup s core).map shownFace).elim u (sampleOf s u core) := by
  unfold sampled
  cases firstGroup s core with
  | none => rfl
  | some x => rfl

theorem sampled_samples (h : Sampling s u) (core : Nat) : Sampling s (sampled s u core) := by
  unfold sampled
  split
  · split
    · split
      · exact h
      · exact h.traceWrite ..
    · exact h
  · exact h

theorem firstGroup_core {core t g : Nat} {G : Group} (h : firstGroup s core = some (t, g, G)) : ∃ T, s.team? t = some T ∧ T.core = core := by
  obtain ⟨x, hx, hs⟩ := List.exists_of_findSome?_eq_some ((firstGroup_eq core).symm.trans h)
  have hget := (mem_indexed_get hx).2
  unfold shownIn at hs
  split at hs
  · next hon =>
    obtain ⟨y, -, hy⟩ := List.exists_of_findSome?_eq_some hs
    unfold shownOf at hy
    split at hy
    · cases hy
    · cases hy
      exact ⟨x.2, hget, by simpa using (Bool.and_eq_true_iff.1 hon).2⟩
  · cases hs

theorem traceGroup_sampled {core t g : Nat} {G : Group} (h0 : u.dome.tracectl.getLsbD 0 = true) (h5 : u.dome.tracectl.getLsbD 5 = true)
    (hT : ∃ T, u.team? t = some T ∧ T.core = core) : u.traceGroup t g 5 G.regs.pc.toNat G.lanePc.toNat = sampleOf u u core (t, g, G) := by
  obtain ⟨T, hT, rfl⟩ := hT
  unfold State.traceGroup sampleOf
  rw [hT]
  dsimp only
  cases hL : u.launchOf? t with
  | none => rfl
  | some L =>
    simp only [State.trace, h0, h5, Bool.true_and, Bool.not_eq_true']
    cases (u.context? L.ctx).any (·.conf) <;> rfl

theorem sampleCore_sampled (h : Sampling s u) (h0 : s.dome.tracectl.getLsbD 0 = true) (h5 : s.dome.tracectl.getLsbD 5 = true) (core : Nat) :
    sampleCore u core = sampled s u core := by
  have hown : sampleCore u core = sampled u u core := by
    rw [sampleCore_eq]
    unfold sampled
    cases hf : firstGroup u core with
    | none => rfl
    | some x => exact traceGroup_sampled (by rw [h.ctl, h0]) (by rw [h.ctl, h5]) (firstGroup_core hf)
  rw [hown, sampled_eq, sampled_eq, firstGroup_face h.kept]
  unfold sampleOf State.context?
  rw [h.tick, h.kept.contexts]
  simp only [h.kept.launchOf? fun _ _ => teamFace_launch]

theorem samples_eq (h0 : s.dome.tracectl.getLsbD 0 = true) (h5 : s.dome.tracectl.getLsbD 5 = true) (l : List Nat) (h : Sampling s u) :
    l.foldl sampleCore u = l.foldl (sampled s) u := by
  induction l generalizing u with
  | nil => rfl
  | cons core l ih => rw [List.foldl_cons, List.foldl_cons, sampleCore_sampled h h0 h5, ih (sampled_samples h core)]

theorem samples_off (h0 : s.dome.tracectl.getLsbD 0 = false) : execTraceSample s = .next s := by
  rw [traceSample_eq]
  refine congrArg Host.Outcome.next (foldl_of_fixed fun core _ => ?_)
  rw [sampleCore_eq]
  split
  · unfold State.traceGroup
    split
    · exact if_neg (by rw [h0]; exact Bool.false_ne_true)
    · rfl
  · rfl

/-- Settles O53: the launch queues, placement, ends, swaps, pre-emption and restore, then the clocks and the debug unit. -/
theorem schedulingEventsComplete : Obligations.SchedulingEventsComplete := by
  intro ctx queue l t core C q L M hs T n seats ps d s s' w kept
  refine ⟨fun hC hq => launchAccept_notReady hC hq, fun hC hq hr => ?_, fun hL hr ho hm hp => teamPlace_places hL hr ho hm hp,
    fun hL hr ho hm hp hC h0 hw hd hv => teamPlace_takes hL hr ho hm hp hC h0 hw hd hv, fun hL h => launchEnd_ends hL h,
    fun hL h => driverLaunchEnd_ends hL h, swapEligible_refused, fun h => ?_, fun hL hp => preempt_stops hL hp, fun hL hp hT => ?_,
    fun hT hL hC hl ha hr hs hg ho hm => restore_seats hT hL hC hl ha hr hs hg ho hm, fun h1 h2 => ?_, fun h => ?_, globalTick_runs,
    coreClockCycle_runs, cntsnapCopy_copies, samples_off, fun h0 h5 => ?_, dbgStop_stops, throttleEval_runs⟩
  · intro slot u e done
    refine ⟨fun line hl => launchAccept_held hC hq hr hl, fun hl h1 hz => ?_, fun hl h => launchAccept_skips hC hq hr hl h⟩
    have hx := launchAccept_entry hC hq hr hl h1 hz
    exact ⟨fun h => hx.trans (entryTaken_ok h), fun h hd ha => hx.trans (entryTaken_refused h hd ha), fun h => hx.trans (entryTaken_wait h)⟩
  · intro u
    have hu : u.plat = s.plat := markSwap_plat true t
    refine ⟨fun hn => (swapEligible_eq h).trans (if_neg ?_), fun hw hp => (swapEligible_eq h).trans (if_pos ?_)⟩
    · show ¬(u.plat.phase != .live && u.wanted t) = true
      rw [hu]
      rcases hn with hn | hn
      · rw [hn, Bool.and_false]
        exact Bool.false_ne_true
      · rw [hn]
        exact Bool.false_ne_true
    · show (u.plat.phase != .live && u.wanted t) = true
      rw [hu, hw]
      simpa using hp
  · have hx := preempt_live hL hp hT
    refine ⟨fun h => ?_, fun h => ?_⟩
    · exact hx.trans (congrArg Host.Outcome.next (if_pos h))
    · exact hx.trans (congrArg Host.Outcome.next (if_neg (by rw [h]; exact Bool.false_ne_true)))
  · exact if_pos (by simp [h1, h2])
  · refine (if_neg ?_).trans (if_pos ?_)
    · rcases h with h | ⟨h, hc⟩
      · simp [h]
      · rw [hc]
        exact Bool.false_ne_true
    · rcases h with h | ⟨h, -⟩ <;> simp [h]
  · exact (traceSample_eq).trans (congrArg Host.Outcome.next (samples_eq h0 h5 _ ⟨.refl s, rfl, rfl⟩))

end Sys2Proof.Proofs
end

section
/-! SUPPORT. The events of a collective (R341, R350 to R359). -/

namespace Sys2Proof.Proofs
open Machine Claims Laws

/-! ### What arrives, and its beats -/

/-- What an arrival leaves, with the credits it returns; and what one on VC 3 leaves as it comes. -/
def paidFor (s : State) (mine : Bool) (credit : State → State) (u : State) : State :=
  if mine || decide (s.dome.later.length < u.dome.later.length) then u else credit u
def cameOn3 (s : State) (k : PlaneKey) (mine : Bool) (e : Event) : State :=
  if s.dome.credited.contains e then s.modDome fun d => { d with credited := d.credited.erase e } else if mine then s else s.ringCredit k 3 64

theorem arrival_next (credit : State → State) (mine : Bool) (s u : State) : arrival credit mine s (.next u) = .next (paidFor s mine credit u) := rfl

theorem arrival3_eq (k : PlaneKey) (mine : Bool) (e : Event) (f : State → Answer) (s : State) : arrival3 k mine e f s = f (cameOn3 s k mine e) := by
  unfold arrival3 cameOn3
  split
  · rfl
  · rfl

section
variable {s : State} {k : PlaneKey} {t : Nat} {c : Coll}

theorem cameOn3_face (mine : Bool) (e : Event) : (cameOn3 s k mine e).teams = s.teams ∧ (cameOn3 s k mine e).launches = s.launches
    ∧ (cameOn3 s k mine e).dome.later = s.dome.later := by
  unfold cameOn3
  split
  · exact ⟨rfl, rfl, rfl⟩
  · split
    · exact ⟨rfl, rfl, rfl⟩
    · unfold State.ringCredit
      split
      · exact ⟨rfl, rfl, rfl⟩
      · exact ⟨rfl, rfl, rfl⟩

theorem cameOn3_coll (mine : Bool) (e : Event) : (cameOn3 s k mine e).collOf? k = s.collOf? k := by
  obtain ⟨ht, hl, -⟩ := cameOn3_face (s := s) (k := k) mine e
  unfold State.collOf?
  rw [ht, hl]

theorem cameOn3_paid (mine b : Bool) (e : Event) (credit : State → State) (u : State) :
    paidFor (cameOn3 s k mine e) b credit u = paidFor s b credit u := by
  unfold paidFor
  rw [(cameOn3_face mine e).2.2]

theorem ringShape_eq (h : s.collOf? k = some (t, c)) : s.ringShape k = (c.op, c.comm.n) := by
  unfold State.ringShape
  rw [h]

/-! ### Headers -/

/-- The number of this device in its pod, and a header carried on to the next one. -/
def podDev (s : State) : Nat := natBits s.dome.podcfg.toNat 9 0
def carryOn (c : Coll) (k : PlaneKey) (dev : Nat) (own : Bool) (h : HeaderBody) (u : State) : State :=
  if c.comm.n > 1 || !own || c.comm.stray dev then u.sendRing c k 2 64 (.header k { h with sender := dev, next := c.comm.next }) else u

/-- A header compared with this device's entry: what it shows to differ. -/
def compared (c : Coll) (dev : Nat) (h : HeaderBody) : HeaderBody :=
  if h.mismatch.isSome then h
  else if formedHere h then { h with mismatch := if c.comm.stray dev then some dev else none }
  else { h with mismatch := c.mismatch dev h }

/-- What is done with a header that has been compared and agrees. -/
def headerAgrees (k : PlaneKey) (t : Nat) (c : Coll) (h0 h : HeaderBody) (s : State) : Answer :=
  let forward := carryOn c k (podDev s) (formedHere h0)
  let i := k.tile
  let own := formedHere h0
  if h.final then
    let s := s.fixTile k.ctx t c i (h.exp.getD 0) h.flags
    .next (if (if c.op = 2 then c.next == c.owner i else c.comm.pos + 2 == c.comm.n) then s else forward h s)
  else if c.op = 2 && !own && c.owner i ≠ c.comm.pos then
    .next (forward h (if c.owner i = 0 then s.modColl t c.cmd fun c => { c with first := c.first.or (some h) } else s))
  else if c.op = 2 && !own && (c.tile i).all (·.exp.isNone) then
    .next ((forward { h with final := true } (s.fixTile k.ctx t c i (h.exp.getD 0) h.flags)).post (.planeHeader k { h with sender := 1024 }))
  else if c.op = 2 && c.comm.pos ≠ 0 && c.first.isNone then .next (s.later (.planeHeader k h0))
  else if c.op = 2 && (c.tile i).any (·.exp.isSome) then
    let E := ((c.tile i).bind (·.exp)).getD 0
    let convert (zs : List Int) (s : State) : Answer := .next ((s.forgetTile t c.cmd i).convertOwn k.ctx t c i zs)
    match s.sourceTile t c i with
    | (.wait, s) => .next (s.later (.planeHeader k h))
    | (.vals vs, s) => convert (vs.map fun v => signed c.planes (wrapNat c.planes (planeInt c.planes E v))) s
    | (.broken, s) =>
      convert ((List.range 256).map fun j => signed c.planes (Config.freeNat (s.free + j) % 2 ^ c.planes)) { s with free := s.free + 256 }
  else
    match s.sourceTile t c i with
    | (.wait, s) => .next (s.later (.planeHeader k h))
    | (src, s) =>
      let vs := match src with
        | .vals vs => vs
        | _ => [.fin false (2 ^ (Config.freeNat s.free % 256)) (-128), if Config.freeNat (s.free + 1) % 2 = 1 then .nan else .fin false 0 0]
      let s := match src with
        | .vals _ => s
        | _ => { s with free := s.free + 2 }
      let s := s.forgetTile t c.cmd i
      let E := maxExp h.exp (tileExp vs)
      let fl := h.flags ||| tileFlags vs
      if c.op = 2 then
        let base := (c.first.getD h)
        let h' := { base with exp := some (E.getD 0), flags := fl }
        let s := if c.comm.pos = 0 then s.modColl t c.cmd fun c => { c with first := c.first.or (some h') } else s
        if c.comm.n > 1 then .next (forward h' s)
        else .next ((s.fixTile k.ctx t c i (E.getD 0) fl).post (.planeHeader k h))
      else if c.comm.pos + 1 = c.comm.n then
        .next (forward { h with exp := some (E.getD 0), flags := fl, final := true } (s.fixTile k.ctx t c i (E.getD 0) fl))
      else .next (forward { h with exp := E, flags := fl } s)

theorem compared_own {dev : Nat} {h : HeaderBody} (hm : h.mismatch = none) (ho : formedHere h = true) :
    compared c dev h = { h with mismatch := if c.comm.stray dev then some dev else none } :=
  (if_neg (by rw [hm]; exact Bool.false_ne_true)).trans (if_pos ho)

theorem compared_other {dev : Nat} {h : HeaderBody} (hm : h.mismatch = none) (ho : formedHere h = false) :
    compared c dev h = { h with mismatch := c.mismatch dev h } :=
  (if_neg (by rw [hm]; exact Bool.false_ne_true)).trans (if_neg (by rw [ho]; exact Bool.false_ne_true))

theorem compared_shown {dev : Nat} {h : HeaderBody} {bad : Nat} (hm : h.mismatch = some bad) : compared c dev h = h := if_pos (by rw [hm]; rfl)

theorem withMismatch_self {h : HeaderBody} (hm : h.mismatch = none) : { h with mismatch := none } = h := by
  cases h
  cases hm
  rfl

theorem headerHere_eq (hk : s.collOf? k = some (t, c)) (h : HeaderBody) : headerHere k h s =
    match (compared c (podDev s) h).mismatch with
    | some bad => .next (if c.odd then s else carryOn c k (podDev s) (formedHere h) (compared c (podDev s) h) (s.endOdd t c bad))
    | none => if c.odd then .next s else headerAgrees k t c h (compared c (podDev s) h) s := by
  unfold headerHere
  rw [hk]
  rfl

section
variable {h : HeaderBody} (hk : s.collOf? k = some (t, c)) (hodd : c.odd = false)
include hk hodd

/-- A header that agrees. -/
theorem planeHeader_agrees (hm : h.mismatch = none)
    (ha : formedHere h = true ∧ c.comm.stray (podDev s) = false ∨ formedHere h = false ∧ c.mismatch (podDev s) h = none) :
    exec (.planeHeader k h) s = arrival (State.ringCredit k 2 64) (formedHere h) s (headerAgrees k t c h h s) := by
  have hc : compared c (podDev s) h = h := by
    obtain ⟨ho, hs⟩ | ⟨ho, hs⟩ := ha
    · rw [compared_own hm ho, hs]
      exact withMismatch_self hm
    · rw [compared_other hm ho, hs]
      exact withMismatch_self hm
  refine (exec_planeHeader k h s).trans (congrArg (arrival _ _ s) ?_)
  rw [headerHere_eq hk, hc, hm, hodd]
  rfl

/-- A header that differs, or shows already that one differs. -/
theorem planeHeader_differs {bad : Nat} (hm : (compared c (podDev s) h).mismatch = some bad) :
    exec (.planeHeader k h) s = .next (paidFor s (formedHere h) (State.ringCredit k 2 64)
      (carryOn c k (podDev s) (formedHere h) (compared c (podDev s) h) (s.endOdd t c bad))) := by
  refine (exec_planeHeader k h s).trans ((congrArg (arrival _ _ s) ?_).trans (arrival_next ..))
  rw [headerHere_eq hk, hm, hodd]
  rfl

end

section
variable {h h0 : HeaderBody} {vs : List FVal} {s' : State}

/-! What is done with a header that agrees, by the operation. -/

theorem headerAgrees_final (hf : h.final = true) : headerAgrees k t c h0 h s =
    .next (if (if c.op = 2 then c.next == c.owner k.tile else c.comm.pos + 2 == c.comm.n) then s.fixTile k.ctx t c k.tile (h.exp.getD 0) h.flags
      else carryOn c k (podDev s) (formedHere h0) h (s.fixTile k.ctx t c k.tile (h.exp.getD 0) h.flags)) := if_pos hf

theorem headerAgrees_reduces (hop : c.op ≠ 2) (hf : h.final = false) (hv : s.sourceTile t c k.tile = (.vals vs, s')) :
    headerAgrees k t c h0 h s =
      if c.comm.pos + 1 = c.comm.n then
        .next (carryOn c k (podDev s) (formedHere h0)
          { h with exp := some ((maxExp h.exp (tileExp vs)).getD 0), flags := h.flags ||| tileFlags vs, final := true }
          ((s'.forgetTile t c.cmd k.tile).fixTile k.ctx t c k.tile ((maxExp h.exp (tileExp vs)).getD 0) (h.flags ||| tileFlags vs)))
      else .next (carryOn c k (podDev s) (formedHere h0) { h with exp := maxExp h.exp (tileExp vs), flags := h.flags ||| tileFlags vs }
        (s'.forgetTile t c.cmd k.tile)) := by
  unfold headerAgrees
  simp only [hf, hop, decide_false, Bool.false_and, Bool.false_eq_true, if_false, hv]

theorem headerAgrees_carries (hop : c.op = 2) (hf : h.final = false) (ho : formedHere h0 = false) (hp : c.owner k.tile ≠ c.comm.pos) :
    headerAgrees k t c h0 h s = .next (carryOn c k (podDev s) (formedHere h0) h
      (if c.owner k.tile = 0 then s.modColl t c.cmd fun c => { c with first := c.first.or (some h) } else s)) := by
  unfold headerAgrees
  simp only [hf, hop, ho, hp, decide_true, Bool.not_false, Bool.true_and, ne_eq, not_false_eq_true, Bool.false_eq_true, if_false, if_true]

theorem headerAgrees_isBack (hop : c.op = 2) (hf : h.final = false) (ho : formedHere h0 = false) (hp : c.owner k.tile = c.comm.pos)
    (hx : ∀ x, c.tile k.tile = some x → x.exp = none) :
    headerAgrees k t c h0 h s = .next ((carryOn c k (podDev s) (formedHere h0) { h with final := true }
      (s.fixTile k.ctx t c k.tile (h.exp.getD 0) h.flags)).post (.planeHeader k { h with sender := 1024 })) := by
  have hall : (c.tile k.tile).all (·.exp.isNone) = true := by
    cases hc : c.tile k.tile with
    | none => rfl
    | some x => simp [hx x hc]
  unfold headerAgrees
  simp only [hf, hop, ho, hp, hall, decide_true, Bool.not_false, Bool.true_and, ne_eq, not_true_eq_false, decide_false, Bool.false_eq_true, if_false,
    if_true]

theorem headerAgrees_converts {x : Tile} {E : Int} (hop : c.op = 2) (hf : h.final = false) (ho : formedHere h0 = true)
    (hfirst : c.comm.pos = 0 ∨ c.first.isSome = true) (hx : c.tile k.tile = some x) (hE : x.exp = some E)
    (hv : s.sourceTile t c k.tile = (.vals vs, s')) :
    headerAgrees k t c h0 h s = .next ((s'.forgetTile t c.cmd k.tile).convertOwn k.ctx t c k.tile
      (vs.map fun v => signed c.planes (wrapNat c.planes (planeInt c.planes E v)))) := by
  have hnext : ¬(decide (c.op = 2) && decide (c.comm.pos ≠ 0) && c.first.isNone) = true := by
    rcases hfirst with h | h
    · simp [h]
    · obtain ⟨y, hy⟩ := Option.isSome_iff_exists.1 h
      simp [hy]
  unfold headerAgrees
  simp only [hf, ho, Bool.not_true, Bool.and_false, Bool.false_and, Bool.false_eq_true, if_false]
  rw [if_neg hnext]
  simp only [hop, hx, hE, hv, decide_true, Bool.true_and, Option.any_some, Option.isSome_some, if_true, Option.bind_some, Option.getD_some]

end

end

end Sys2Proof.Proofs
end

section
/-! SUPPORT. Planes, cancels, freezes and answers of a collective (R354 to R359), and the end that a mismatch brings (R350). -/

namespace Sys2Proof.Proofs
open Machine Claims Laws

section
variable {s : State} {k : PlaneKey} {t : Nat} {c : Coll} {x : Tile} {E : Int} (hk : s.collOf? k = some (t, c)) (hodd : c.odd = false)
include hk

/-! ### Count planes -/

/-- Whether this device starts the count planes of a tile. -/
def startsCounts (c : Coll) (i : Nat) : Bool := c.comm.pos == (c.owner i + 1) % max 1 c.comm.n

theorem countPlane_of (plane : Nat) (counts : List Nat) : exec (.countPlane k plane counts) s =
    arrival (State.ringCredit k 2 (countBytes c.comm.n)) (startsCounts c k.tile) s (countHere k plane counts s) := by
  refine (exec_countPlane ..).trans ?_
  unfold execCountPlane
  rw [ringShape_eq hk, hk]
  rfl

section
variable {plane : Nat} {counts bits : List Nat} {s' : State} (hx : c.tile k.tile = some x) (hcanc : x.canc = false) (hfix : x.fixed = none)
  (hE : x.exp = some E) (hb : s.ownBits t c k.tile plane E = (some bits, s'))
include hodd hx hcanc hfix hE hb

/-- This device's bits added to a plane of counts. -/
def addedBits (counts bits : List Nat) : List Nat := (counts.zip bits).map fun ab => ab.1 + ab.2

/-- What the owner leaves once a plane has landed. -/
def countLanded (k : PlaneKey) (t : Nat) (c : Coll) (sum : List Nat) (s : State) : State :=
  ((s.modTile t c.cmd k.tile fun x => { x with counts := x.counts ++ [sum], landed := x.landed + 1 }).touch t c.cmd k.tile).checkWant k.ctx t c.cmd k.tile

theorem countHere_reads (hturn : c.owner k.tile = c.comm.pos → plane = x.landed + 1) : countHere k plane counts s =
    if !(c.owner k.tile == c.comm.pos) then .next (s'.sendRing c k 2 (countBytes c.comm.n) (.count k plane (addedBits counts bits)))
    else if c.broken then .next s'
    else
      match ((countLanded k t c (addedBits counts bits) s').coll? t c.cmd).bind fun c => c.tile k.tile with
      | some x =>
        if x.landed = c.planes && x.fixed.isNone then
          .next (if c.op = 0 then ((countLanded k t c (addedBits counts bits) s').finishTile t c.cmd k.tile).sendGathers k.ctx c k.tile (c.valueAt x c.planes)
            else (countLanded k t c (addedBits counts bits) s').finishTile t c.cmd k.tile)
        else .next (countLanded k t c (addedBits counts bits) s')
      | none => .next (countLanded k t c (addedBits counts bits) s') := by
  have hwait : ¬(c.owner k.tile == c.comm.pos && plane != x.landed + 1) = true := by
    by_cases ho : c.owner k.tile = c.comm.pos
    · simp [ho, hturn ho]
    · simp [ho]
  unfold countHere
  rw [hk]
  simp only [Option.bind_some, hx, hodd, hcanc, hfix, Option.isSome_none, Bool.or_self, Bool.false_eq_true, if_false, hE]
  rw [if_neg hwait, hb]
  rfl

theorem countHere_passes (ho : c.owner k.tile ≠ c.comm.pos) :
    countHere k plane counts s = .next (s'.sendRing c k 2 (countBytes c.comm.n) (.count k plane (addedBits counts bits))) :=
  (countHere_reads hk hodd hx hcanc hfix hE hb fun h => absurd h ho).trans (if_pos (by simp [ho]))

theorem countHere_lands {y : Tile} (ho : c.owner k.tile = c.comm.pos) (hp : plane = x.landed + 1) (hbr : c.broken = false)
    (hy : ((countLanded k t c (addedBits counts bits) s').coll? t c.cmd).bind (fun c => c.tile k.tile) = some y) :
    countHere k plane counts s =
      if y.landed = c.planes && y.fixed.isNone then
        .next (if c.op = 0 then ((countLanded k t c (addedBits counts bits) s').finishTile t c.cmd k.tile).sendGathers k.ctx c k.tile (c.valueAt y c.planes)
          else (countLanded k t c (addedBits counts bits) s').finishTile t c.cmd k.tile)
      else .next (countLanded k t c (addedBits counts bits) s') := by
  refine (countHere_reads hk hodd hx hcanc hfix hE hb fun _ => hp).trans ((if_neg (by simp [ho])).trans ((if_neg (by simp [hbr])).trans ?_))
  rw [hy]

end

/-! ### Gather planes -/

theorem gatherPlane_of (plane : Nat) (vals : List Int) : exec (.gatherPlane k plane vals) s =
    arrival (State.ringCredit k 2 (c.gatherBytes plane)) false s (gatherHere k plane vals s) := by
  refine (exec_gatherPlane ..).trans ?_
  unfold execGatherPlane
  rw [ringShape_eq hk]
  rfl

theorem gatherHere_lands {plane : Nat} (vals : List Int) (hodd : c.odd = false) (hx : c.tile k.tile = some x) (hcanc : x.canc = false)
    (hfix : x.fixed = none) (hE : x.exp = some E) (hp : plane = x.gathers.length + 1) (hbr : c.broken = false) :
    gatherHere k plane vals s =
      let u := ((if c.next = c.owner k.tile then s else s.sendRing c k 2 (c.gatherBytes plane) (.gather k plane false vals)).modTile
        t c.cmd k.tile fun x => { x with gathers := x.gathers ++ [vals], landed := x.landed + 1 }).touch t c.cmd k.tile
      .next (if plane = c.planes then u.finishTile t c.cmd k.tile else u) := by
  unfold gatherHere
  rw [hk]
  simp only [Option.bind_some, hx, hodd, hcanc, hfix, Option.isSome_none, Bool.or_self, Bool.false_eq_true, if_false, hE, Option.isNone_some, hp, ne_eq,
    not_true_eq_false, decide_false, hbr]

/-! ### Freezes, cancels and answers -/

theorem freeze_of (f : Nat) (vals : List Int) : exec (.freeze k f vals) s =
    arrival (fun s => (if c.op = 1 then [] else (List.range f).map fun j => c.gatherBytes (j + 1)).foldl (fun s n => s.ringCredit k 2 n) s) false
      (cameOn3 s k false (.freeze k f vals)) (freezeHere k f vals (cameOn3 s k false (.freeze k f vals))) := by
  refine (exec_freeze ..).trans ?_
  unfold execFreeze
  rw [ringShape_eq hk]
  exact arrival3_eq ..

theorem freezeHere_fixes {f : Nat} (vals : List Int) (hx : c.tile k.tile = some x) (hcanc : x.canc = false)
    (hfix : x.fixed = none) (hE : x.exp = some E) (hbr : c.broken = false) :
    freezeHere k f vals s = .next (((if c.next = c.owner k.tile then s else s.sendFreeze c k f vals).modTile t c.cmd k.tile
      fun x => { x with want := some f, fixed := some vals }).finishTile t c.cmd k.tile) := by
  unfold freezeHere
  rw [hk]
  simp only [Option.bind_some, hx, hcanc, hfix, Option.isSome_none, Bool.or_self, Bool.false_eq_true, if_false, hE, Option.isNone_some, hbr]

theorem cancelHere_decides {n pos : Nat} {detm : Bool} (hx : c.tile k.tile = some x) (hE : x.exp = some E) : cancelHere k n pos detm s =
    if c.owner k.tile ≠ c.comm.pos then .next (s.sendRing c k 3 64 (.cancel k n pos detm))
    else .next (s.arbitrate k.ctx t c.cmd k.tile n pos detm) := by
  unfold cancelHere
  rw [hk]
  simp only [Option.bind_some, hx, hE, Option.isNone_some, Bool.false_and, Bool.false_eq_true, if_false]

theorem answerHere_passes {r : CancelReply} (hp : c.comm.pos ≠ r.pos) : answerHere k r s = .next (s.sendRing c k 3 64 (.cancelAnswer k r)) := by
  unfold answerHere
  rw [hk]
  exact if_pos hp

theorem answerHere_arrives {r : CancelReply} {g : Nat} (hp : c.comm.pos = r.pos)
    (hg : (s.team? t).bind (fun T => T.asker c.cmd k.tile r.count) = some g) : answerHere k r s =
      if r.violation then .next (s.modGroup t g fun G => { G with cancel := G.cancel.map fun x => { x with refused := x.refused ++ [k.tile] } })
      else .next s := by
  unfold answerHere
  rw [hk]
  refine (if_neg (Classical.not_not.2 hp)).trans ?_
  rw [hg]

end

/-! ### The end that a mismatch brings -/

theorem wakeFrom_colls (s s' : State) (stamp : Nat) (who : Option Nat) : (s.wakeFrom s' stamp who).teams.map Team.colls = s.teams.map Team.colls := by
  refine foldl_keeps (fun u : State => u.teams.map Team.colls) ?_ _ s
  intro u tg
  refine map_modifyAt ?_ _ _
  exact fun _ => rfl

theorem notePad_colls (s : State) (t off : Nat) (b : List Byte) : (s.notePad t off b).teams = s.teams := by
  unfold State.notePad State.devPoke
  split
  · split
    · split
      · rfl
      · rfl
    · rfl
  · rfl

theorem writeScratch_colls (s : State) (t off : Nat) (b : List Byte) (stamp : Nat) :
    (s.writeScratch t off b stamp).teams.map Team.colls = s.teams.map Team.colls := by
  unfold State.writeScratch
  refine (wakeFrom_colls ..).trans ((congrArg (List.map Team.colls) (notePad_colls ..)).trans ?_)
  refine map_modifyAt ?_ _ _
  exact fun _ => rfl

theorem touch_colls (s : State) (t cmd i : Nat) : (s.touch t cmd i).teams.map Team.colls = s.teams.map Team.colls := by
  unfold State.touch
  split
  · split
    · split
      · rfl
      · refine (foldl_keeps (fun u : State => u.teams.map Team.colls) (fun u v => ?_) _ _).trans (writeScratch_colls ..)
        split
        · rfl
        · rfl
    · rfl
  · rfl

theorem coll?_of_colls {s u : State} (h : u.teams.map Team.colls = s.teams.map Team.colls) (t cmd : Nat) : u.coll? t cmd = s.coll? t cmd := by
  have hcoll (v : State) : v.coll? t cmd = ((v.teams.map Team.colls)[t]?).bind fun cs => cs.find? fun c => c.cmd == cmd := by
    unfold State.coll? State.team?
    rw [List.getElem?_map, Option.bind_map]
    rfl
  rw [hcoll u, hcoll s, h]

theorem endOdd_coll (s : State) (t : Nat) (c : Coll) (dev : Nat) {c' : Coll} (h : (s.endOdd t c dev).coll? t c.cmd = some c') :
    c'.odd = true ∧ c'.broken = true ∧ ∀ x ∈ c'.tiles, x.canc = true ∧ x.landed = 0 := by
  unfold State.endOdd at h
  extract_lets u v at h
  have hv : ((List.range c.total).foldl (fun s i => s.touch t c.cmd i) v).coll? t c.cmd = v.coll? t c.cmd :=
    coll?_of_colls (foldl_keeps (fun u : State => u.teams.map Team.colls) (fun u i => touch_colls u t c.cmd i) _ v) ..
  rw [hv] at h
  unfold State.coll? v State.modColl at h
  rw [team?_modTeam_same] at h
  obtain ⟨T, hT, hc⟩ := Option.bind_eq_some_iff.1 h
  obtain ⟨U, -, rfl⟩ := Option.map_eq_some_iff.1 hT
  have hmem := List.mem_of_find?_eq_some hc
  have hcmd := List.find?_some hc
  obtain ⟨d, -, rfl⟩ := List.mem_map.1 hmem
  by_cases hd : d.cmd = c.cmd
  · rw [if_pos hd]
    refine ⟨rfl, rfl, fun x hx => ?_⟩
    obtain ⟨y, -, rfl⟩ := List.mem_map.1 hx
    exact ⟨rfl, rfl⟩
  · rw [if_neg hd] at hcmd
    exact absurd (by simpa using hcmd) hd

theorem carryOn_eq (c : Coll) (k : PlaneKey) (dev : Nat) (own : Bool) (h : HeaderBody) (u : State) : carryOn c k dev own h u =
    if c.comm.n > 1 ∨ own = false ∨ c.comm.stray dev = true then u.sendRing c k 2 64 (.header k { h with sender := dev, next := c.comm.next }) else u := by
  unfold carryOn
  simp only [Bool.or_eq_true, decide_eq_true_eq, Bool.not_eq_true', or_assoc]

theorem flush_teams (u : State) (port : Nat) : (u.flush port).teams = u.teams := by
  unfold State.flush
  split
  · split
    · rfl
    · rfl
  · rfl

theorem carryOn_teams (c : Coll) (k : PlaneKey) (dev : Nat) (own : Bool) (h : HeaderBody) (u : State) : (carryOn c k dev own h u).teams = u.teams := by
  unfold carryOn
  split
  · exact flush_teams ..
  · rfl

theorem paidFor_teams (s : State) (mine : Bool) (k : PlaneKey) (vc bytes : Nat) (u : State) :
    (paidFor s mine (State.ringCredit k vc bytes) u).teams = u.teams := by
  unfold paidFor
  split
  · rfl
  · unfold State.ringCredit
    split
    · rfl
    · rfl

/-- A mismatch ends the collective on this device. -/
theorem mismatch_ends {k : PlaneKey} {h : HeaderBody} {t : Nat} {c : Coll} {bad : Nat} {s : State} (hk : s.collOf? k = some (t, c)) (hodd : c.odd = false)
    (hm : h.mismatch = some bad) : ∃ s', exec (.planeHeader k h) s = .next s' ∧ ∀ c', s'.coll? t c.cmd = some c' → c'.cmd = c.cmd →
      c'.odd = true ∧ c'.broken = true ∧ ∀ x ∈ c'.tiles, x.canc = true ∧ x.landed = 0 := by
  have hc : compared c (podDev s) h = h := compared_shown hm
  refine ⟨_, planeHeader_differs hk hodd (hc.symm ▸ hm), fun c' hc' _ => endOdd_coll s t c bad ?_⟩
  refine (coll?_of_colls (congrArg (List.map Team.colls) ?_) t c.cmd).symm.trans hc'
  exact (paidFor_teams ..).trans (carryOn_teams ..)

theorem cancelAnswer_of {s : State} {k : PlaneKey} {t : Nat} {c : Coll} (hk : s.collOf? k = some (t, c)) (r : CancelReply) :
    exec (.cancelAnswer k r) s = answerHere k r (cameOn3 s k (c.owner k.tile == c.comm.pos) (.cancelAnswer k r)) := by
  refine (exec_cancelAnswer k r s).trans ((arrival3_eq ..).trans ?_)
  rw [hk]
  rfl

/-- Settles O52: headers by the operation and by what they show, planes, freezes, cancels and answers; then the end that a mismatch brings. -/
theorem collectiveEventsComplete : Obligations.CollectiveEventsComplete := by
  refine ⟨?_, fun k h t c bad s hk hodd hm => mismatch_ends hk hodd hm⟩
  intro k h t plane f n pos bad c x y E counts bits vals vs g detm violation s s' hk hodd dev own pass came paid
  have hpass (h : HeaderBody) (u : State) : pass h u = carryOn c k (podDev s) own h u := (carryOn_eq c k _ own h u).symm
  have hcame (mine : Bool) (e : Event) : came mine e = cameOn3 s k mine e := rfl
  have hpaid (mine : Bool) (credit : State → State) (u : State) : paid mine credit u = paidFor s mine credit u := rfl
  have hcoll (mine : Bool) (e : Event) : (cameOn3 s k mine e).collOf? k = some (t, c) := (cameOn3_coll mine e).trans hk
  refine ⟨fun hm => ⟨fun ha hop => ?_, fun hd => ?_, fun ho ha hop => ?_, fun ho hs hop hf hfirst hx hE hv => ?_⟩, ?_, ?_⟩
  · have hx := planeHeader_agrees hk hodd hm ha
    refine ⟨fun hf => ?_, fun hf hv => ?_⟩
    · intro u
      rw [hx, headerAgrees_final hf, arrival_next, hpaid, hpass]
      simp only [hop, if_false, beq_iff_eq]
      rfl
    · intro u e fl
      rw [hx, headerAgrees_reduces hop hf hv, hpaid, hpass, hpass]
      split
      · rfl
      · rfl
  · have hmis : (compared c (podDev s) h).mismatch = some bad ∧ compared c (podDev s) h = { h with mismatch := some bad } := by
      obtain ⟨ho, hs, rfl⟩ | ⟨ho, hs⟩ := hd
      · rw [compared_own hm ho]
        have hs' : c.comm.stray (podDev s) = true := hs
        rw [hs']
        exact ⟨rfl, rfl⟩
      · rw [compared_other hm ho]
        have hs' : c.mismatch (podDev s) h = some bad := hs
        rw [hs']
        exact ⟨rfl, rfl⟩
    rw [planeHeader_differs hk hodd hmis.1, hmis.2, hpaid, hpass]
  · intro u
    have hx := planeHeader_agrees hk hodd hm (.inr ⟨ho, ha⟩)
    have ho' : formedHere h = false := ho
    refine ⟨fun hf => ?_, fun hf hp => ?_, fun hf hp hx' => ?_⟩
    · rw [hx, headerAgrees_final hf, arrival_next, hpaid, hpass, ho', ho]
      simp only [hop, if_true, beq_iff_eq]
      rfl
    · rw [hx, headerAgrees_carries hop hf ho hp, arrival_next, hpaid, hpass, ho', ho]
    · rw [hx, headerAgrees_isBack hop hf ho hp hx', arrival_next, hpaid, hpass, ho', ho]
  · have ho' : formedHere h = true := ho
    rw [planeHeader_agrees hk hodd hm (.inl ⟨ho, hs⟩), headerAgrees_converts hop hf ho hfirst hx hE hv, ho']
    rfl
  · intro hx hcanc hfix hE
    refine ⟨fun hb => ?_, fun hp hbr => ?_, fun hbr => ?_, ?_⟩
    · intro sum paidCount
      have hcount := countPlane_of hk plane counts
      refine ⟨fun ho => ?_, fun ho hp hbr hy => ?_⟩
      · rw [hcount, countHere_passes hk hodd hx hcanc hfix hE hb ho]
        rfl
      · have hl := countHere_lands hk hodd hx hcanc hfix hE hb ho hp hbr hy
        refine ⟨fun hn => ?_, fun hn hf => ?_⟩
        · rw [hcount, hl, if_neg (by simp [hn])]
          rfl
        · intro w
          rw [hcount, hl, if_pos (by simp [hn, hf])]
          rfl
    · intro u
      have hbytes : c.gatherBytes plane = 32 * if plane ≠ 1 ∨ c.op = 2 ∨ c.comm.n ≤ 1 then 1 else Nat.log2 (c.comm.n - 1) + 2 := by
        unfold Coll.gatherBytes gatherSize
        simp only [Bool.or_eq_true, decide_eq_true_eq, or_assoc]
      rw [gatherPlane_of hk, gatherHere_lands hk vals hodd hx hcanc hfix hE hp hbr, arrival_next]
      rw [hbytes]
      rfl
    · intro v
      have hv : v = cameOn3 s k false (.freeze k f vals) := hcame ..
      rw [freeze_of hk, freezeHere_fixes (hcoll ..) vals hx hcanc hfix hE hbr, arrival_next, cameOn3_paid, ← hv]
      rfl
    · intro v
      have hx' := (exec_cancelRequest k n pos detm s).trans ((arrival3_eq ..).trans (cancelHere_decides (hcoll ..) hx hE))
      exact ⟨fun ho => hx'.trans (if_neg (Classical.not_not.2 ho)), fun ho => hx'.trans (if_pos ho)⟩
  · intro v
    refine ⟨fun hp => (cancelAnswer_of hk _).trans (answerHere_passes (hcoll ..) hp), fun hp hg => ?_⟩
    have harr (violation : Bool) := (cancelAnswer_of hk ⟨n, pos, violation⟩).trans
      (answerHere_arrives (hcoll ..) hp ((congrArg (fun ts : List Team => (ts[t]?).bind fun T => T.asker c.cmd k.tile n) (cameOn3_face ..).1).trans hg))
    exact ⟨harr true, harr false⟩

end Sys2Proof.Proofs
end

section
/-! SUPPORT. Carry-counter resolution of a long accumulator (R33, R429): what a step moves, and that the sum stands. -/

namespace Sys2Proof.Proofs
open Machine Claims Laws

/-! ### The value of an image by its parts -/

/-- What a segment counts: the last of ten is signed. -/
def segPart (last : Bool) (x : Word) : Int := if last then x.toInt else x.toNat

theorem segValue_set (l : List Word) (j : Nat) (x : Word) (hj : j < l.length) :
    segValue (l.set j x) = segValue l + 2 ^ (64 * j) * (segPart (j + 1 == l.length) x - segPart (j + 1 == l.length) (l.getD j 0)) := by
  induction l generalizing j with
  | nil => exact absurd hj (Nat.not_lt_zero j)
  | cons s ss ih =>
    cases j with
    | zero =>
      cases ss with
      | nil => grind [segValue, segPart]
      | cons s' ss =>
        simp [segValue, segPart]
        grind
    | succ j =>
      cases ss with
      | nil => simp at hj
      | cons s' ss =>
        have := ih j (by simpa using hj)
        cases hset : (s' :: ss).set j x with
        | nil => simp at hset
        | cons y ys =>
          rw [List.set_cons_succ, hset, segValue.eq_3 _ _ (by simp), ← hset, this]
          simp only [segValue, List.length_cons, List.getD_cons_succ]
          rw [show (j + 1 + 1 == ss.length + 1 + 1) = (j + 1 == ss.length + 1) by simp, show 64 * (j + 1) = 64 + 64 * j by omega, Int.pow_add]
          grind

theorem cntValue_set (l : List (BitVec 16)) (j : Nat) (x : BitVec 16) (hj : j < l.length) :
    cntValue (l.set j x) = cntValue l + 2 ^ (64 * j) * (x.toInt - (l.getD j 0).toInt) := by
  induction l generalizing j with
  | nil => exact absurd hj (Nat.not_lt_zero j)
  | cons c cs ih =>
    cases j with
    | zero =>
      simp [cntValue]
      grind
    | succ j =>
      have := ih j (by simpa using hj)
      simp only [List.set_cons_succ, cntValue, List.getD_cons_succ]
      rw [this, show 64 * (j + 1) = 64 + 64 * j by omega, Int.pow_add]
      grind

/-! ### One counter moved -/

section
variable {a : Acc} {i : Nat}

/-- The carry of a step is what its sum passes its segment by. -/
theorem stepSum_split (i : Nat) (a : Acc) :
    segPart (i + 2 == 10) (BitVec.ofInt 64 (a.stepSum i)) = a.stepSum i - 2 ^ 64 * a.stepCarry i := by
  unfold segPart Acc.stepCarry
  by_cases h : i + 1 = 9
  · have h' : (i + 2 == 10) = true := by simpa using h
    rw [h', if_pos rfl, if_pos h, BitVec.toInt_ofInt, Int.bmod_def]
    split
    · omega
    · omega
  · have h' : (i + 2 == 10) = false := by simpa using fun h' => h h'
    rw [h', if_neg Bool.false_ne_true, if_neg h, BitVec.toNat_ofInt]
    omega

theorem stepSum_eq (i : Nat) (a : Acc) : a.stepSum i = segPart (i + 2 == 10) (a.seg.getD (i + 1) 0) + (a.cnt.getD i 0).toInt := by
  unfold Acc.stepSum segPart
  dsimp only
  by_cases h : i + 1 = 9
  · have h' : (i + 2 == 10) = true := by simpa using h
    rw [h', if_pos rfl, if_pos h]
  · have h' : (i + 2 == 10) = false := by simpa using fun h' => h h'
    rw [h', if_neg Bool.false_ne_true, if_neg h]

theorem toInt_ofInt_16 {z : Int} (h1 : -32768 ≤ z) (h2 : z ≤ 32767) : (BitVec.ofInt 16 z).toInt = z := by
  rw [BitVec.toInt_ofInt, Int.bmod_def]
  split
  · omega
  · omega

/-- A counter whose carry the next one takes moves without changing the sum. -/
theorem moveCounter_val (hs : a.seg.length = 10) (hc : a.cnt.length = 10) (hi : i ≤ 8)
    (hfit : -32768 ≤ (a.cnt.getD (i + 1) 0).toInt + a.stepCarry i ∧ (a.cnt.getD (i + 1) 0).toInt + a.stepCarry i ≤ 32767) :
    (a.moveCounter i).val = a.val := by
  have hzero : (0 : BitVec 16).toInt = 0 := rfl
  have hget : (a.cnt.set i 0).getD (i + 1) 0 = a.cnt.getD (i + 1) 0 := by
    simp only [List.getD_eq_getElem?_getD, List.getElem?_set_ne (show i ≠ i + 1 by omega)]
  unfold Acc.val Acc.moveCounter
  dsimp only
  rw [segValue_set _ _ _ (by omega), cntValue_set _ _ _ (by rw [List.length_set]; omega), cntValue_set _ _ _ (by omega), hs, hget,
    toInt_ofInt_16 hfit.1 hfit.2, hzero, show (i + 1 + 1 == 10) = (i + 2 == 10) from rfl, stepSum_split, stepSum_eq,
    show 64 * (i + 1) = 64 * i + 64 by omega, Int.pow_add]
  grind

theorem getD_set_same {α : Type} {l : List α} {j : Nat} (x d : α) (hj : j < l.length) : (l.set j x).getD j d = x := by
  rw [List.getD_eq_getElem?_getD, List.getElem?_set_self hj, Option.getD_some]

theorem getD_set_other {α : Type} {l : List α} {j k : Nat} (x d : α) (h : k ≠ j) : (l.set j x).getD k d = l.getD k d := by
  rw [List.getD_eq_getElem?_getD, List.getElem?_set_ne (Ne.symm h), ← List.getD_eq_getElem?_getD]

theorem moveCounter_seg (hs : a.seg.length = 10) (hi : i ≤ 8) : (a.moveCounter i).seg.getD (i + 1) 0 = BitVec.ofInt 64 (a.stepSum i) :=
  getD_set_same _ _ (by omega)

theorem moveCounter_seg_other {j : Nat} (h : j ≠ i + 1) : (a.moveCounter i).seg.getD j 0 = a.seg.getD j 0 := getD_set_other _ _ h

theorem moveCounter_cnt_zero (hc : a.cnt.length = 10) (hi : i ≤ 8) : (a.moveCounter i).cnt.getD i 0 = 0 :=
  (getD_set_other _ _ (show i ≠ i + 1 by omega)).trans (getD_set_same _ _ (by omega))

theorem moveCounter_cnt_next (hc : a.cnt.length = 10) (hi : i ≤ 8) :
    (a.moveCounter i).cnt.getD (i + 1) 0 = BitVec.ofInt 16 ((a.cnt.getD (i + 1) 0).toInt + a.stepCarry i) :=
  getD_set_same _ _ (by rw [List.length_set]; omega)

theorem moveCounter_cnt_other {j : Nat} (h : j ≠ i) (h' : j ≠ i + 1) : (a.moveCounter i).cnt.getD j 0 = a.cnt.getD j 0 :=
  (getD_set_other _ _ h').trans (getD_set_other _ _ h)

theorem moveCounter_lengths (hs : a.seg.length = 10) (hc : a.cnt.length = 10) :
    (a.moveCounter i).seg.length = 10 ∧ (a.moveCounter i).cnt.length = 10 := by
  constructor
  · exact (List.length_set ..).trans hs
  · exact (List.length_set ..).trans ((List.length_set ..).trans hc)

theorem stepCarry_bounds (i : Nat) (a : Acc) : -1 ≤ a.stepCarry i ∧ a.stepCarry i ≤ 1 := by
  have hc1 := BitVec.le_toInt (a.cnt.getD i 0)
  have hc2 := BitVec.toInt_lt (x := a.cnt.getD i 0)
  have hs1 := BitVec.le_toInt (a.seg.getD (i + 1) 0)
  have hs2 := BitVec.toInt_lt (x := a.seg.getD (i + 1) 0)
  have hs3 := (a.seg.getD (i + 1) 0).isLt
  unfold Acc.stepCarry Acc.stepSum
  dsimp only
  split
  · omega
  · omega

/-! ### The step as it is made -/

/-- What a resolution step for a counter leaves, whatever it resolves above it first. -/
structure Resolved (i : Nat) (a a' : Acc) : Prop where
  seg  : a'.seg.length = 10
  cnt  : a'.cnt.length = 10
  val  : a'.val = a.val
  zero : a'.cnt.getD i 0 = 0

/-- The counter above the last one that is resolved has room for its carry. -/
def topFits (a : Acc) : Prop := -32768 < (a.cnt.getD 9 0).toInt ∧ (a.cnt.getD 9 0).toInt < 32767

theorem moveCounter_resolved (hs : a.seg.length = 10) (hc : a.cnt.length = 10) (hi : i ≤ 8)
    (hfit : -32768 ≤ (a.cnt.getD (i + 1) 0).toInt + a.stepCarry i ∧ (a.cnt.getD (i + 1) 0).toInt + a.stepCarry i ≤ 32767) :
    Resolved i a (a.moveCounter i) where
  seg := (moveCounter_lengths hs hc).1
  cnt := (moveCounter_lengths hs hc).2
  val := moveCounter_val hs hc hi hfit
  zero := moveCounter_cnt_zero hc hi

theorem fits_of_not_overflows (ht : topFits a) (hi : i ≤ 8) (h : a.stepOverflows i = false) :
    -32768 ≤ (a.cnt.getD (i + 1) 0).toInt + a.stepCarry i ∧ (a.cnt.getD (i + 1) 0).toInt + a.stepCarry i ≤ 32767 := by
  by_cases h8 : i = 8
  · subst h8
    have := stepCarry_bounds 8 a
    obtain ⟨h1, h2⟩ := ht
    show -32768 ≤ (a.cnt.getD 9 0).toInt + a.stepCarry 8 ∧ (a.cnt.getD 9 0).toInt + a.stepCarry 8 ≤ 32767
    omega
  · unfold Acc.stepOverflows at h
    simpa [show i < 8 by omega] using h

theorem resolveUp_resolved (hs : a.seg.length = 10) (hc : a.cnt.length = 10) (ht : topFits a) (fuel : Nat) (hi : i + fuel = 8) :
    Resolved i a (a.resolveUp fuel i) := by
  induction fuel generalizing i with
  | zero =>
    refine moveCounter_resolved hs hc (by omega) (fits_of_not_overflows ht (by omega) ?_)
    unfold Acc.stepOverflows
    simp [show ¬i < 8 by omega]
  | succ fuel ih =>
    rw [Acc.resolveUp]
    split
    · have hb := ih (i := i + 1) (by omega)
      generalize a.resolveUp fuel (i + 1) = b at hb
      have hcarry := stepCarry_bounds i b
      have hm : Resolved i b (b.moveCounter i) := by
        refine moveCounter_resolved hb.seg hb.cnt (by omega) ?_
        rw [hb.zero]
        simpa using ⟨by omega, by omega⟩
      exact ⟨hm.seg, hm.cnt, hm.val.trans hb.val, hm.zero⟩
    · next h => exact moveCounter_resolved hs hc (by omega) (fits_of_not_overflows ht (by omega) (Bool.eq_false_iff.2 h))

theorem resolveStep_val (hs : a.seg.length = 10) (hc : a.cnt.length = 10) (ht : topFits a) (hi : i ≤ 8) : (a.resolveStep i).val = a.val :=
  (resolveUp_resolved hs hc ht (8 - i) (by omega)).val

theorem resolveUp_status (fuel i : Nat) (a : Acc) : (a.resolveUp fuel i).status = a.status := by
  induction fuel generalizing i with
  | zero => rfl
  | succ fuel ih =>
    rw [Acc.resolveUp]
    split
    · exact ih (i + 1)
    · rfl

/-- A step with room above moves its counter and nothing else. -/
theorem resolveStep_moves (h : a.stepOverflows i = false) : a.resolveStep i = a.moveCounter i := by
  unfold Acc.resolveStep
  cases 8 - i with
  | zero => rfl
  | succ fuel =>
    rw [Acc.resolveUp]
    exact if_neg (by rw [h]; exact Bool.false_ne_true)

theorem resolveUp_cnt_zero (hs : a.seg.length = 10) (hc : a.cnt.length = 10) (fuel : Nat) (hi : i + fuel = 8) :
    (a.resolveUp fuel i).seg.length = 10 ∧ (a.resolveUp fuel i).cnt.length = 10 ∧ (a.resolveUp fuel i).cnt.getD i 0 = 0 := by
  induction fuel generalizing i with
  | zero =>
    obtain ⟨h1, h2⟩ := moveCounter_lengths (i := i) hs hc
    exact ⟨h1, h2, moveCounter_cnt_zero hc (by omega)⟩
  | succ fuel ih =>
    rw [Acc.resolveUp]
    split
    · obtain ⟨h1, h2, -⟩ := ih (i := i + 1) (by omega)
      obtain ⟨h3, h4⟩ := moveCounter_lengths (i := i) h1 h2
      exact ⟨h3, h4, moveCounter_cnt_zero h2 (by omega)⟩
    · obtain ⟨h1, h2⟩ := moveCounter_lengths (i := i) hs hc
      exact ⟨h1, h2, moveCounter_cnt_zero hc (by omega)⟩

theorem resolveStep_carries (hs : a.seg.length = 10) (hc : a.cnt.length = 10) (hi : i ≤ 8) : CarryMoved i a (a.resolveStep i) := by
  unfold CarryMoved
  intro top sum next
  have hsum : a.stepSum i = sum := by
    unfold Acc.stepSum sum top
    by_cases h : i = 8
    · subst h
      rfl
    · simp [h]
  have hcarry : a.stepCarry i = if top then (sum + 2 ^ 63) / 2 ^ 64 else sum / 2 ^ 64 := by
    unfold Acc.stepCarry
    rw [hsum]
    by_cases h : i = 8
    · simp [h, top]
    · simp [h, top]
  refine ⟨(resolveUp_cnt_zero hs hc (8 - i) (by omega)).2.2, fun hroom => ?_⟩
  have hno : a.stepOverflows i = false := by
    unfold Acc.stepOverflows
    rw [hcarry]
    rcases hroom with h | ⟨h1, h2⟩
    · have h8 : i = 8 := h
      simp [h8]
    · show (decide (i < 8) && !(decide (-32768 ≤ next) && decide (next ≤ 32767))) = false
      rw [decide_eq_true h1, decide_eq_true h2]
      simp
  rw [resolveStep_moves hno]
  refine ⟨?_, ?_, fun j => ⟨moveCounter_seg_other, moveCounter_cnt_other⟩⟩
  · rw [moveCounter_seg hs hi, hsum]
  · rw [moveCounter_cnt_next hc hi, hcarry]

end

end Sys2Proof.Proofs
end

section
/-! SUPPORT. The events of translation and coherence, of the host and of errors (R322, R323, R332 to R336, R385 to R388, R405, R420, R429, R431). -/

namespace Sys2Proof.Proofs
open Machine Claims Laws

section
variable (s : State)

/-! ### What the combine leaves -/

/-- `t` has the invalidation, the accesses to come and the agenda's turns of `s`, and more turns at most; its HBM is canonical where that of `s` is. -/
structure Merges (s t : State) : Prop where
  tlbi   : t.dome.tlbi = s.dome.tlbi
  apart  : t.apart = s.apart
  agenda : ∃ es, t.agenda = s.agenda ++ es
  mem    : Memory.wf s.mem = true → Memory.wf t.mem = true

theorem Settles.merges {s t : State} (h : Settles s t) : Merges s t := ⟨h.tlbi, h.apart, h.agenda, h.mem⟩

namespace Merges

variable {s t u : State}

theorem refl (s : State) : Merges s s := (Settles.refl s).merges

theorem trans (h : Merges s t) (k : Merges t u) : Merges s u where
  tlbi := k.tlbi.trans h.tlbi
  apart := k.apart.trans h.apart
  agenda := by
    obtain ⟨xs, hx⟩ := h.agenda
    obtain ⟨ys, hy⟩ := k.agenda
    exact ⟨xs ++ ys, by rw [hy, hx, List.append_assoc]⟩
  mem := k.mem ∘ h.mem

theorem foldl {β : Type} {f : State → β → State} (h : ∀ s x, Merges s (f s x)) (l : List β) (s : State) : Merges s (l.foldl f s) := by
  induction l generalizing s with
  | nil => exact refl s
  | cons x l ih => exact (h s x).trans (ih _)

end Merges

theorem combine_merges (sel : Partial → Bool) : Merges s (s.combine sel) := by
  unfold State.combine
  split
  · extract_lets ps lines
    refine Merges.trans (t := { s with
      partials := s.partials.filter fun p => !sel p
      l2 := lines.foldl (fun l2 x => l2Touch s.dome.l2quota.toNat x.2.2.1 x.2.2.2 x.2.1 true l2) s.l2
      cores := lines.foldl (fun cs x => modifyAt (fun (c : Machine.Core) => { c with l2w := c.l2w + 1 }) x.1 cs) s.cores }) { Merges.refl s with } ?_
    refine (Merges.foldl (fun u p => ?_) ps _).trans (settles_wakeFrom ..).merges
    exact (settles_pokeAt ..).merges
  · exact .refl s

/-- None of the partials that it selects stays recorded. -/
theorem combine_partials (sel : Partial → Bool) : (s.combine sel).partials = s.partials.filter fun p => !sel p := by
  unfold State.combine
  split
  · extract_lets ps lines
    refine (settles_wakeFrom ..).partials.trans (foldl_keeps State.partials (fun u p => ?_) ps _)
    exact (settles_pokeAt ..).partials
  · next h =>
    symm
    refine List.filter_eq_self.2 fun p hp => ?_
    have : sel p = false := by simpa using (List.any_eq_false.1 (Bool.eq_false_iff.2 h)) p hp
    rw [this]
    rfl

theorem combine_unmet {sel : Partial → Bool} (h : ∀ p ∈ s.partials, sel p = false) : s.combine sel = s := by
  unfold State.combine
  refine if_neg ?_
  rw [List.any_eq_true]
  rintro ⟨p, hp, hs⟩
  rw [h p hp] at hs
  exact Bool.false_ne_true hs

/-! ### Invalidation -/

/-- An invalidation's state with what was translated performed, and without the entries and lines that it matches. -/
def tlbiSettled (v : Word) : State :=
  ((s.modDome fun d => { d with tlbi := v &&& 0xF0FFFFFFFFFFFFFF#64 }).settleApart fun _ => true).combine fun _ => true
def dropMatching (v : Word) : State :=
  let u := s.writeBack (s.linesWhere fun l => l.matches v.toNat)
  { u with
    quads := u.quads.map fun (q : Quad) => { q with tlb := q.tlb.filter fun e => !e.matches v.toNat }
    cores := u.cores.map fun (c : Machine.Core) => { c with l1 := c.l1.filter fun l => !l.matches v.toNat } }

theorem dropMatching_tlb (v : Word) {j : Nat} {q : Quad} (hq : (dropMatching s v).quads[j]? = some q) : ∀ e ∈ q.tlb, e.matches v.toNat = false := by
  have hq' : (s.quads.map fun (q : Quad) => { q with tlb := q.tlb.filter fun e => !e.matches v.toNat })[j]? = some q := hq
  rw [List.getElem?_map] at hq'
  obtain ⟨q0, -, rfl⟩ := Option.map_eq_some_iff.1 hq'
  exact fun e he => by simpa using (List.mem_filter.1 he).2

theorem dropMatching_l1 (v : Word) {j : Nat} {c : Machine.Core} (hc : (dropMatching s v).cores[j]? = some c) : ∀ l ∈ c.l1, l.matches v.toNat = false := by
  have hc' : ((s.writeBack (s.linesWhere fun l => l.matches v.toNat)).cores.map fun (c : Machine.Core) =>
      { c with l1 := c.l1.filter fun l => !l.matches v.toNat })[j]? = some c := hc
  rw [List.getElem?_map] at hc'
  obtain ⟨c0, -, rfl⟩ := Option.map_eq_some_iff.1 hc'
  exact fun l hl => by simpa using (List.mem_filter.1 hl).2

theorem domeTlbi_drops {v : Word} (h0 : s.dome.tlbi.getLsbD 63 = false) (h1 : v.getLsbD 63 = true) :
    execDomeTlbi v s = .next ((dropMatching (tlbiSettled s v) v).post .tlbiComplete) :=
  (if_neg (by rw [h0]; exact Bool.false_ne_true)).trans (if_pos h1)

theorem domeTlbi_goes {v : Word} (h0 : s.dome.tlbi.getLsbD 63 = false) (h1 : v.getLsbD 63 = true) : ∃ s', execDomeTlbi v s = .next s'
    ∧ s'.dome.tlbi = v &&& 0xF0FFFFFFFFFFFFFF#64
    ∧ (∀ (j : Nat) (q : Quad), s'.quads[j]? = some q → ∀ e ∈ q.tlb, e.matches v.toNat = false)
    ∧ (∀ (j : Nat) (c : Machine.Core), s'.cores[j]? = some c → ∀ l ∈ c.l1, l.matches v.toNat = false) ∧ s'.partials = []
    ∧ (∃ es, s'.agenda = s.agenda ++ es ++ [.event .tlbiComplete])
    ∧ s'.apart = [] ∧ (s.partials = [] → s.apart = [] → s'.mem = s.mem ∧ s'.agenda = s.agenda ++ [.event .tlbiComplete]) := by
  refine ⟨_, domeTlbi_drops s h0 h1, ?_⟩
  have h01 := (settleApart_settles (s.modDome fun d => { d with tlbi := v &&& 0xF0FFFFFFFFFFFFFF#64 }) fun _ => true).merges.trans
    (combine_merges _ fun _ => true)
  have htlbi : (tlbiSettled s v).dome.tlbi = v &&& 0xF0FFFFFFFFFFFFFF#64 := h01.tlbi
  have hagenda : ∃ es, (tlbiSettled s v).agenda = s.agenda ++ es := h01.agenda
  have hapart : (tlbiSettled s v).apart = [] := h01.apart.trans (by simp)
  have hpartials : (tlbiSettled s v).partials = [] := (combine_partials _ _).trans (by simp)
  have hnone (hp : s.partials = []) (ha : s.apart = []) : (tlbiSettled s v).mem = s.mem ∧ (tlbiSettled s v).agenda = s.agenda := by
    unfold tlbiSettled
    rw [settleApart_none (s.modDome fun d => { d with tlbi := v &&& 0xF0FFFFFFFFFFFFFF#64 }) ha,
      combine_none (s.modDome fun d => { d with tlbi := v &&& 0xF0FFFFFFFFFFFFFF#64 }) hp]
    exact ⟨rfl, rfl⟩
  generalize tlbiSettled s v = u at htlbi hagenda hapart hpartials hnone
  refine ⟨htlbi, fun j q hq => dropMatching_tlb u v hq, fun j c hc => dropMatching_l1 u v hc, hpartials, ?_, hapart, fun hp ha => ?_⟩
  · obtain ⟨es, hes⟩ := hagenda
    exact ⟨es, congrArg (· ++ [Turn.event .tlbiComplete]) hes⟩
  · obtain ⟨h1, h2⟩ := hnone hp ha
    exact ⟨h1, congrArg (· ++ [Turn.event .tlbiComplete]) h2⟩

theorem tlbiComplete_falls (h : s.dome.tlbi.getLsbD 63 = true) : execTlbiComplete s =
    let u := s.modDome fun d =>
      { d with tlbi := d.tlbi &&& 0x7FFFFFFFFFFFFFFF#64, reported := d.reported.filter fun k => !coveredPage s.dome.tlbi.toNat k }
    let asid := some (natBits s.dome.tlbi.toNat 15 0)
    .next (((List.range s.teams.length).foldl (fun (u : State) t => if u.ofAsid asid t then u.rearmTeam t else u) u).retryWaits asid) :=
  if_neg (by rw [h]; exact Bool.false_ne_true)

/-! ### The sweeper -/

/-- The leaves of every context, and the lines of them that the host holds. -/
def allLeaves : List Nat := (s.contexts.flatMap fun C => (C.leaves s).map (·.1)).eraseDups

theorem sweeperPass_eq (h : s.dome.sweep.getLsbD 31 = true) : execSweeperPass s =
    if !((allLeaves s).filterMap fun a => s.heldLine a 8).isEmpty then .next (((allLeaves s).filterMap fun a => s.heldLine a 8).foldl (fun s l => s.askBack l) s)
    else .next (((allLeaves s).foldl sweepLeaf s).modDome fun d => { d with sweepAt := s.tick + natBits d.sweep.toNat 23 0 * 1000 }) :=
  if_neg (by rw [h]; exact Bool.false_ne_true)

/-! ### The host -/

theorem settlePage_mem (pa bits : Nat) (h : Memory.wf s.mem = true) : Memory.wf (s.settlePage pa bits).mem = true := by
  suffices hx : Settles s (s.apart.foldl (fun s x =>
      { (x.blocks.filter (Block.inPage pa bits)).foldl (State.putPart x.stamp) { s with cur := some ⟨x.team, x.grp, x.stream⟩ } with cur := s.cur }) s) from
    hx.mem h
  refine .foldl (fun u x => ?_) _ s
  have hx : Settles { u with cur := some ⟨x.team, x.grp, x.stream⟩ } ((x.blocks.filter (Block.inPage pa bits)).foldl (State.putPart x.stamp)
      { u with cur := some ⟨x.team, x.grp, x.stream⟩ }) := by
    refine .foldl (fun u k => ?_) _ _
    cases k
    · exact .refl u
    · exact settles_writePart ..
  exact hx.as

theorem recall_mem (leaf pa bits : Nat) : (s.recall leaf pa bits).mem = (s.settlePage pa bits).mem := rfl

/-- What the host's access to a page does to one of its leaves. -/
def recallLeaf (s : State) (x : Nat × Nat × Nat) : State :=
  let w1 := readLE s.mem (x.1 + 8) 8
  if w1 % 4 = 1 then (s.devWrite (x.1 + 8) (toBytes 8 (w1 + 1))).recall x.1 (leafBase x.2.1) x.2.2
  else if w1 % 4 = 0 then s.devWrite (x.1 + 8) (toBytes 8 (w1 + 2))
  else s

theorem hostRecall_eq (pa len : Nat) : s.hostRecall pa len = (s.contexts.flatMap fun C => C.leavesIn s pa len).foldl recallLeaf s := rfl

theorem recallLeaf_mem (x : Nat × Nat × Nat) (h : Memory.wf s.mem = true) : Memory.wf (recallLeaf s x).mem = true := by
  unfold recallLeaf
  extract_lets w1
  split
  · rw [recall_mem]
    exact settlePage_mem _ _ _ ((settles_devWrite s _ _).mem h)
  · split
    · exact (settles_devWrite s _ _).mem h
    · exact h

theorem hostRecall_mem (pa len : Nat) (h : Memory.wf s.mem = true) : Memory.wf (s.hostRecall pa len).mem = true := by
  rw [hostRecall_eq]
  generalize (s.contexts.flatMap fun C => C.leavesIn s pa len) = xs
  induction xs generalizing s with
  | nil => exact h
  | cons x xs ih =>
    rw [List.foldl_cons]
    exact ih (recallLeaf s x) (recallLeaf_mem s x h)

theorem dropRange_mem (host : Bool) (pa len : Nat) : (s.dropRange host pa len).mem = s.mem ∧ (s.dropRange host pa len).poison = s.poison := ⟨rfl, rfl⟩

/-- The state in which the host's access is made: what it meets of a page is recalled, combined and dropped. -/
def hostSettled (r : HostReq) : State := if r.take then s.settleApart fun _ => true else s
def hostMerged (r : HostReq) (n : Nat) : State := ((hostSettled s r).hostRecall r.addr n).combine (Partial.meets false r.addr n)
def hostCleared (r : HostReq) (n : Nat) (write : Bool) : State :=
  ((hostMerged s r n).l2Access r.addr n 0 false write).dropLines [{ va := 0, len := n, place := .hbm r.addr, perm := 7, kind := 0 }]

theorem hostCleared_eq (r : HostReq) (n : Nat) (write : Bool) :
    (hostCleared s r n write).mem = (hostMerged s r n).mem ∧ (hostCleared s r n write).poison = (hostMerged s r n).poison :=
  dropRange_mem ((hostMerged s r n).l2Access r.addr n 0 false write) false r.addr n

/-- Whether the host's access is served. -/
def hostRefused (r : HostReq) (n : Nat) (write : Bool) : Bool := !s.hostServed || (r.port == 1 && s.plat.port1Off) || !s.hostMay r.addr n write

variable {s}

theorem hostRefused_false {r : HostReq} {n : Nat} {write : Bool} (h1 : s.hostServed = true) (h2 : r.port = 1 → s.plat.port1Off = false)
    (h3 : s.hostMay r.addr n write = true) : hostRefused s r n write = false := by
  unfold hostRefused
  rw [h1, h3]
  by_cases hp : r.port = 1
  · simp [hp, h2 hp]
  · simp [hp]

theorem hostCleared_mem {r : HostReq} {n : Nat} {write : Bool} (h : Memory.wf s.mem = true) : Memory.wf (hostCleared s r n write).mem = true := by
  have hu : Memory.wf (hostSettled s r).mem = true := by
    unfold hostSettled
    split
    · exact (settleApart_settles s _).mem h
    · exact h
  rw [(hostCleared_eq s r n write).1]
  exact (combine_merges _ _).mem (hostRecall_mem _ _ _ hu)

theorem hostAccess_writes {r : HostReq} {b : List Byte} (h : hostRefused s r b.length true = false) (hb : r.write = some b) :
    execHostAccess r s = .next (((hostCleared s r b.length true).writeMem false r.addr b).send (.hostReply r.addr false [])) := by
  unfold execHostAccess
  rw [hb]
  exact if_neg (Bool.eq_false_iff.1 h)

theorem hostAccess_reads {r : HostReq} (h : hostRefused s r r.len false = false) (hb : r.write = none) :
    execHostAccess r s =
      let u := hostCleared s r r.len false
      let bad := (u.poisonAt false r.addr r.len).isSome
      .next ((if r.take then u.hostTake (r.addr / 128) else u).send (.hostReply r.addr bad (if bad then [] else cellsRead u.mem r.addr r.len))) := by
  unfold execHostAccess
  rw [hb]
  exact if_neg (Bool.eq_false_iff.1 h)

theorem hostAccess_refuses {r : HostReq} (h : hostRefused s r r.len false = true) (hb : r.write = none) :
    execHostAccess r s = .next (s.send (.hostReply r.addr true [])) := by
  unfold execHostAccess
  rw [hb]
  exact if_pos h

theorem hostWrite_served {r : HostReq} {b : List Byte} (h1 : s.hostServed = true) (h2 : r.port = 1 → s.plat.port1Off = false)
    (h3 : s.hostMay r.addr b.length true = true) (hb : r.write = some b) : ∃ s', execHostAccess r s = .next s'
    ∧ s'.outbox.getLast? = some (.hostReply r.addr false []) ∧ (Memory.wf s.mem = true → r.addr + b.length ≤ 2 ^ 40 → ∀ i < b.length,
      cellGet (r.addr + i) s'.mem = b.getD i 0) := by
  refine ⟨_, hostAccess_writes (hostRefused_false h1 h2 h3) hb, List.getLast?_concat .., fun hw _ i hi => ?_⟩
  have hmem : (((hostCleared s r b.length true).writeMem false r.addr b).send (.hostReply r.addr false [])).mem
      = cellsWrite r.addr b (hostCleared s r b.length true).mem := wakeFrom_mem _ _ _ _
  rw [hmem, cellGet_write _ _ (hostCleared_mem hw) hi, List.getD_eq_getElem?_getD, List.getElem?_eq_getElem hi, Option.getD_some]

theorem hostCleared_same {r : HostReq} {n : Nat} {write : Bool} (hp : ∀ p ∈ s.partials, p.meets false r.addr n = false)
    (hC : ∀ C ∈ s.contexts, C.leavesIn s r.addr n = []) (ha : r.take = false ∨ s.apart = []) :
    (hostCleared s r n write).mem = s.mem ∧ (hostCleared s r n write).poison = s.poison := by
  have hu : hostSettled s r = s := by
    unfold hostSettled
    rcases ha with ha | ha
    · exact if_neg (by rw [ha]; exact Bool.false_ne_true)
    · split
      · exact settleApart_none s ha
      · rfl
  have hm : hostMerged s r n = s := by
    unfold hostMerged
    rw [hu, hostRecall_eq, List.flatMap_eq_nil_iff.2 hC]
    exact combine_unmet s hp
  have := hostCleared_eq s r n write
  rw [hm] at this
  exact this

theorem hostRead_served {r : HostReq} (h1 : s.hostServed = true) (h2 : r.port = 1 → s.plat.port1Off = false)
    (h3 : s.hostMay r.addr r.len false = true) (hb : r.write = none) : ∃ s', execHostAccess r s = .next s'
    ∧ (let bad := (s'.poisonAt false r.addr r.len).isSome
      s'.outbox.getLast? = some (.hostReply r.addr bad (if bad then [] else cellsRead s'.mem r.addr r.len)))
    ∧ ((∀ p ∈ s.partials, p.meets false r.addr r.len = false) → (∀ C ∈ s.contexts, C.leavesIn s r.addr r.len = []) →
      (r.take = false ∨ s.apart = []) → s'.mem = s.mem ∧ s'.poison = s.poison)
    ∧ (r.take = true → ∃ d ∈ s'.dome.dir, d.line = r.addr / 128 ∧ d.hostHas = true) := by
  have hx := hostAccess_reads (hostRefused_false h1 h2 h3) hb
  have hsame := @hostCleared_same s r r.len false
  generalize hostCleared s r r.len false = u at hx hsame
  refine ⟨_, hx, ?_, fun hp hC ha => ?_, fun ht => ?_⟩
  · cases r.take
    · exact List.getLast?_concat ..
    · exact List.getLast?_concat ..
  · cases r.take
    · exact hsame hp hC ha
    · exact hsame hp hC ha
  · rw [ht]
    exact ⟨_, List.mem_cons_self, rfl, rfl⟩

end

end Sys2Proof.Proofs
end

section
/-! SUPPORT. Snoops, lines given back, power gating, errors and resolution steps; then the events of the memory together. -/

namespace Sys2Proof.Proofs
open Machine Claims Laws

section
variable {s : State}

/-! ### The host's snoops, and what it gives back -/

/-- A snoop's state, the partials of its line combined, and without the copies that it invalidates. -/
def snooped (s : State) (line : Nat) (inval : Bool) : State :=
  let s := s.combine (Partial.meets true (128 * line) 128)
  if inval then
    { s with
      cores := s.cores.map fun c => { c with l1 := c.l1.filter fun l => !(l.host && l.pline == 128 * line) }
      l2 := s.l2.filter fun x => !(x.host && x.line == line) }
  else s

theorem hostSnoop_served {line : Nat} {inval : Bool} (h : s.hostServed = true) : execHostSnoop line inval s =
    let u := snooped s line inval
    let bad := (u.poisonAt true (128 * line) 128).isSome
    .next (u.send (.hostReply (128 * line) bad (if bad then [] else cellsRead u.hostMem (128 * line) 128))) :=
  if_neg (by rw [h]; exact Bool.false_ne_true)

theorem snooped_keeps (line : Nat) (inval : Bool) : (snooped s line inval).partials = (s.combine (Partial.meets true (128 * line) 128)).partials
    ∧ (snooped s line inval).mem = (s.combine (Partial.meets true (128 * line) 128)).mem
    ∧ (snooped s line inval).hostMem = (s.combine (Partial.meets true (128 * line) 128)).hostMem
    ∧ (snooped s line inval).poison = (s.combine (Partial.meets true (128 * line) 128)).poison := by
  cases inval
  · exact ⟨rfl, rfl, rfl, rfl⟩
  · exact ⟨rfl, rfl, rfl, rfl⟩

theorem hostSnoop_answers {line : Nat} {inval : Bool} (h : s.hostServed = true) : ∃ s', execHostSnoop line inval s = .next s'
    ∧ (let bad := (s'.poisonAt true (128 * line) 128).isSome
      s'.outbox.getLast? = some (.hostReply (128 * line) bad (if bad then [] else cellsRead s'.hostMem (128 * line) 128)))
    ∧ (∀ p ∈ s'.partials, p.meets true (128 * line) 128 = false)
    ∧ ((∀ p ∈ s.partials, p.meets true (128 * line) 128 = false) → s'.mem = s.mem ∧ s'.hostMem = s.hostMem ∧ s'.poison = s.poison)
    ∧ (inval = true → (∀ x ∈ s'.l2, (x.host && x.line == line) = false) ∧ ∀ c ∈ s'.cores, ∀ x ∈ c.l1, (x.host && x.pline == 128 * line) = false) := by
  have hx := hostSnoop_served (line := line) (inval := inval) h
  obtain ⟨hp, hm, hh, hpo⟩ := snooped_keeps (s := s) line inval
  refine ⟨_, hx, List.getLast?_concat .., fun p hp' => ?_, fun hun => ?_, fun hi => ?_⟩
  · have : p ∈ (snooped s line inval).partials := hp'
    rw [hp, combine_partials] at this
    simpa using (List.mem_filter.1 this).2
  · rw [combine_unmet s hun] at hm hh hpo
    exact ⟨hm, hh, hpo⟩
  · subst hi
    refine ⟨fun x hx' => ?_, fun c hc x hx' => ?_⟩
    · exact Bool.not_eq_true' _ ▸ (List.mem_filter.1 hx').2
    · obtain ⟨d, -, rfl⟩ := List.mem_map.1 hc
      exact Bool.not_eq_true' _ ▸ (List.mem_filter.1 hx').2

theorem backInvalidate_gives {line : Nat} {data : List Byte} (h : (s.heldLine (128 * line) 128).isSome = true) : execBackInvalidateResponse line data s =
    .next (((if data.isEmpty then s else s.writeMem false (128 * line) (data.take 128)).modDome fun d =>
      { d with dir := d.dir.filter fun x => x.line != line }).retryWaits none) :=
  if_neg (by rw [← Option.not_isSome, h]; exact Bool.false_ne_true)

/-! ### Power gating -/

theorem powerGating_gates {core : Nat} (h : ∀ T ∈ s.teams, T.live = false ∨ T.away = true ∨ T.core ≠ core) :
    let u := s.combine fun p => p.core == core
    execCorePowerGating core s = .next ((u.writeBack (u.linesOf core fun _ => true)).modCore core fun c => { c with l1 := [], gated := true }) := by
  refine if_neg ?_
  rw [List.any_eq_true]
  rintro ⟨T, hT, hc⟩
  rcases h T hT with h | h | h <;> simp [h] at hc

theorem powerGating_refuses {core : Nat} (h : ∃ T ∈ s.teams, T.live = true ∧ T.away = false ∧ T.core = core) : execCorePowerGating core s = .next s := by
  obtain ⟨T, hT, hl, ha, hc⟩ := h
  refine if_pos (List.any_eq_true.2 ⟨T, hT, ?_⟩)
  rw [hl, ha, hc]
  simp

/-! ### Errors -/

theorem drainRing_unset (h : s.dome.ring = none) (n : Nat) : s.drainRing n = s := by
  cases n with
  | zero => rfl
  | succ n =>
    unfold State.drainRing
    rw [h]
    split
    · rfl
    · rfl

/-- The record of an error in a unit of memory. -/
def eccRecord (s : State) (u : EccUnit) (hard : Bool) : FaultRec :=
  { kind := if hard then 3 else 4, cause := if hard then 0x60 else 0x62, store := (unitStore u).1, addr := (unitStore u).2 % 2 ^ 52
    count := if hard then 0 else 1, ctx := ((s.unitContext u).map (·.id)).getD 0, core := s.unitCore u, grp := (unitOwner u).2
    team := (((unitOwner u).1.bind s.team?).map (·.ordinal)).getD 0 }

/-- What is reported of an error: a record, counted or poisoned. -/
def eccCounted (s : State) (u : EccUnit) (hard : Bool) : State :=
  let s := { s with upsets := s.upsets.filter fun x => x.1 != u }
  if hard then { s with poison := u :: s.poison.filter (· != u) }
  else s.modDome fun d => { d with corrected := modifyAt (· + 1) (unitStore u).1 d.corrected }

theorem meetError_eq (u : EccUnit) (hard : Bool) : s.meetError u hard = (eccCounted s u hard).report (eccRecord s u hard) := by
  cases hard
  · rfl
  · rfl

/-- The records held once one more is reported. -/
def heldWith (s : State) (r : FaultRec) : List (Option Nat × List Byte) :=
  let conf := (s.context? r.ctx).any fun c => c.conf
  let b := (if r.kind = 4 then some r.store else none, (if conf then r.redact else r).bytes s.tick)
  if s.dome.held.length ≥ 256 && s.dome.held.any (fun x => sameStore x b) then
    modifyAt bumpRecord ((findIndexFrom (fun x => sameStore x b) 0 s.dome.held).getD 0) s.dome.held
  else s.dome.held ++ [b]

theorem report_held (h : s.dome.ring = none) (r : FaultRec) : s.report r = s.modDome fun d => { d with held := heldWith s r } :=
  drainRing_unset (s := s.modDome fun d => { d with held := heldWith s r }) h _

theorem heldWith_room (r : FaultRec) (h : s.dome.held.length < 256) (hc : (s.context? r.ctx).any (·.conf) = false) :
    heldWith s r = s.dome.held ++ [(if r.kind = 4 then some r.store else none, r.bytes s.tick)] := by
  unfold heldWith
  dsimp only
  rw [hc, if_neg (by rw [decide_eq_false (by omega : ¬ s.dome.held.length ≥ 256), Bool.false_and]; exact Bool.false_ne_true)]
  rfl

theorem eccError_reports {u : EccUnit} {hard : Bool} (hr : s.dome.ring = none) :
    let bad := ((s.upsets.find? fun x => x.1 == u).map fun x => !correctable u x.2).getD hard
    ∃ s', execEccError u hard s = .next s' ∧ s'.mem = s.mem ∧ (bad = true → u ∈ s'.poison)
      ∧ (bad = false → s'.poison = s.poison ∧ s'.dome.corrected = modifyAt (· + 1) (unitStore u).1 s.dome.corrected)
      ∧ (s.dome.held.length < 256 → (s.context? ((s.unitContext u).map (·.id) |>.getD 0)).any (·.conf) = false →
        s'.dome.held = s.dome.held ++ [(if bad then none else some (unitStore u).1, (eccRecord s u bad).bytes s.tick)]) := by
  intro bad
  have hx : execEccError u hard s = .next (s.meetError u bad) := by
    unfold execEccError bad
    cases s.upsets.find? fun x => x.1 == u with
    | none => rfl
    | some x => rfl
  generalize bad = bad at hx
  have hring : (eccCounted s u bad).dome.ring = none := by
    cases bad
    · exact hr
    · exact hr
  refine ⟨_, hx.trans (congrArg Host.Outcome.next ((meetError_eq u bad).trans (report_held hring _))), ?_, fun h => ?_, fun h => ?_, fun hl hc => ?_⟩
  · cases bad
    · rfl
    · rfl
  · subst h
    exact List.mem_cons_self
  · subst h
    exact ⟨rfl, rfl⟩
  · have hheld : (eccCounted s u bad).dome.held = s.dome.held ∧ (eccCounted s u bad).contexts = s.contexts ∧ (eccCounted s u bad).tick = s.tick := by
      cases bad
      · exact ⟨rfl, rfl, rfl⟩
      · exact ⟨rfl, rfl, rfl⟩
    obtain ⟨h1, h2, h3⟩ := hheld
    have := heldWith_room (s := eccCounted s u bad) (eccRecord s u bad) (by rw [h1]; exact hl) (by unfold State.context?; rw [h2]; exact hc)
    rw [h1, h3] at this
    refine this.trans (congrArg (fun x => s.dome.held ++ [(x, (eccRecord s u bad).bytes s.tick)]) ?_)
    cases bad
    · rfl
    · rfl

/-! ### The trace's space -/

theorem traceSpace_returns {unit records w size : Nat} (ht : s.dome.trace = some (w, size)) (hl : ∀ k < 5, s.dome.lost.getD k 0 = 0) :
    execTraceRingSpaceReturn unit records s = .next (s.modDome fun d => { d with traceFree := min size (d.traceFree + records) }) := by
  unfold execTraceRingSpaceReturn
  rw [ht]
  refine congrArg Host.Outcome.next (foldl_of_fixed fun k hk => if_pos ?_)
  have : (s.modDome fun d => { d with traceFree := min size (d.traceFree + records) }).dome.lost.getD k 0 = 0 := hl k (List.mem_range.1 hk)
  rw [this]
  rfl

end

end Sys2Proof.Proofs
end

section
/-! SUPPORT. Resolution steps of a group's accumulators, and the events of the memory together (O51). -/

namespace Sys2Proof.Proofs
open Machine Claims Laws

section
variable {s : State} {t g lane acc ctr : Nat} {G : Group}

theorem resolutionStep_eq (h : ctr ≤ 8) : execResolutionStep t g lane acc ctr s = .next (s.modGroup t g (Group.resolveAt lane acc ctr)) :=
  if_neg (Nat.not_lt.2 h)

theorem resolved_group {f : Group → Group} {G' : Group} (hG : s.group? t g = some G) (hG' : (s.modGroup t g f).group? t g = some G') : G' = f G := by
  rw [group?_modGroup_same, hG] at hG'
  exact (Option.some_inj.1 hG').symm

/-- An entry of a list after a change of one of its entries: as it was, or changed. -/
theorem modifyAt_entry {α : Type} {f : α → α} {i j : Nat} {l : List α} {x y : α} (hx : l[j]? = some x) (hy : (modifyAt f i l)[j]? = some y) :
    y = x ∨ y = f x := by
  by_cases h : j = i
  · subst h
    rw [modifyAt_get_same, hx] at hy
    exact .inr (Option.some_inj.1 hy).symm
  · rw [modifyAt_get_other f l h, hx] at hy
    exact .inl (Option.some_inj.1 hy).symm

theorem stepped_keeps {a a' : Acc} (h : a' = a ∨ a' = a.resolveStep ctr) (hc : ctr ≤ 8) (hs : a.seg.length = 10) (hl : a.cnt.length = 10)
    (h1 : -32768 < (a.cnt.getD 9 0).toInt) (h2 : (a.cnt.getD 9 0).toInt < 32767) : a'.val = a.val ∧ a'.status = a.status := by
  rcases h with rfl | rfl
  · exact ⟨rfl, rfl⟩
  · exact ⟨resolveStep_val hs hl ⟨h1, h2⟩ hc, resolveUp_status ..⟩

theorem resolveAt_lane {j : Nat} {l l' : Lane} (hl : G.lanes[j]? = some l) (hl' : (G.resolveAt lane acc ctr).lanes[j]? = some l') :
    l' = l ∨ l' = { l with a := modifyAt (Acc.resolveStep ctr) acc l.a } := by
  unfold Group.resolveAt at hl'
  split at hl'
  · exact modifyAt_entry hl hl'
  · exact .inl (Option.some_inj.1 (hl'.symm.trans hl))

theorem resolveAt_acc {j i : Nat} {l l' : Lane} {a a' : Acc} (hl : G.lanes[j]? = some l) (hl' : (G.resolveAt lane acc ctr).lanes[j]? = some l')
    (ha : l.a[i]? = some a) (ha' : l'.a[i]? = some a') : a' = a ∨ a' = a.resolveStep ctr := by
  rcases resolveAt_lane hl hl' with rfl | rfl
  · exact .inl (Option.some_inj.1 (ha'.symm.trans ha))
  · exact modifyAt_entry ha ha'

theorem resolveAt_tile {j i : Nat} {as as' : List Acc} {a a' : Acc} (hl : G.tiles[j]? = some as) (hl' : (G.resolveAt lane acc ctr).tiles[j]? = some as')
    (ha : as[i]? = some a) (ha' : as'[i]? = some a') : a' = a ∨ a' = a.resolveStep ctr := by
  unfold Group.resolveAt at hl'
  split at hl'
  · obtain rfl : as' = as := Option.some_inj.1 (hl'.symm.trans hl)
    exact .inl (Option.some_inj.1 (ha'.symm.trans ha))
  · rcases modifyAt_entry hl hl' with rfl | rfl
    · exact .inl (Option.some_inj.1 (ha'.symm.trans ha))
    · exact modifyAt_entry ha ha'

theorem resolutionStep_moves {a : Acc} (h : ctr ≤ 8) (hG : s.group? t g = some G) (hs : a.seg.length = 10) (hc : a.cnt.length = 10) :
    (∀ l : Lane, acc < 256 → G.lanes[lane]? = some l → l.a[acc]? = some a → ∃ s' G' l' a', execResolutionStep t g lane acc ctr s = .next s'
      ∧ s'.group? t g = some G' ∧ G'.lanes[lane]? = some l' ∧ l'.a[acc]? = some a' ∧ CarryMoved ctr a a')
    ∧ (∀ as : List Acc, 256 ≤ acc → G.tiles[acc - 256]? = some as → as[lane]? = some a → ∃ s' G' as' a', execResolutionStep t g lane acc ctr s = .next s'
      ∧ s'.group? t g = some G' ∧ G'.tiles[acc - 256]? = some as' ∧ as'[lane]? = some a' ∧ CarryMoved ctr a a') := by
  have hG' : (s.modGroup t g (Group.resolveAt lane acc ctr)).group? t g = some (G.resolveAt lane acc ctr) := by
    rw [group?_modGroup_same, hG]
    rfl
  refine ⟨fun l hlt hl ha => ?_, fun as hge hl ha => ?_⟩
  · refine ⟨_, _, { l with a := modifyAt (Acc.resolveStep ctr) acc l.a }, a.resolveStep ctr, resolutionStep_eq h, hG', ?_, ?_, resolveStep_carries hs hc h⟩
    · unfold Group.resolveAt
      rw [if_pos hlt]
      dsimp only
      rw [modifyAt_get_same, hl]
      rfl
    · rw [modifyAt_get_same, ha]
      rfl
  · refine ⟨_, _, modifyAt (Acc.resolveStep ctr) lane as, a.resolveStep ctr, resolutionStep_eq h, hG', ?_, ?_, resolveStep_carries hs hc h⟩
    · unfold Group.resolveAt
      rw [if_neg (Nat.not_lt.2 hge)]
      dsimp only
      rw [modifyAt_get_same, hl]
      rfl
    · rw [modifyAt_get_same, ha]
      rfl

end

/-- Settles O51: the invalidation and what follows it, the sweeper and the copies' expiry, the host, power gating, errors and the trace's space, then
the resolution steps, whose carries leave the sum as it is. -/
theorem memoryEventsComplete : Obligations.MemoryEventsComplete := by
  intro v core asid line unit records t g lane acc ctr r b data inval hard u G l a as s
  refine ⟨domeTlbi_goes s, fun h => ⟨if_pos h, tlbiComplete_falls s h⟩, fun h => ?_, rfl, hostWrite_served, hostRead_served, fun h hb => ?_,
    hostSnoop_answers, backInvalidate_gives, powerGating_gates, powerGating_refuses, eccError_reports, rfl, rfl, fun w size ht hl => traceSpace_returns (unit := unit) ht hl,
    fun hc => ?_, fun hc => ?_, fun hc hG hs hl => ?_⟩
  · intro leaves held
    have hx := sweeperPass_eq s h
    refine ⟨fun hn => hx.trans (if_neg ?_), fun hn => hx.trans (if_pos ?_)⟩
    · rw [show (allLeaves s).filterMap (fun a => s.heldLine a 8) = [] from hn]
      decide
    · rw [Bool.not_eq_true', List.isEmpty_eq_false_iff]
      exact hn
  · refine hostAccess_refuses ?_ hb
    unfold hostRefused
    rcases h with h | ⟨h1, h2⟩ | h
    · simp [h]
    · simp [h1, h2]
    · simp [h]
  · refine ⟨_, resolutionStep_eq hc, fun G G' hG hG' j l l' hl hl' => ?_⟩
    obtain rfl := resolved_group hG hG'
    have hkeep : l'.v = l.v ∧ l'.p = l.p := by rcases resolveAt_lane hl hl' with rfl | rfl <;> exact ⟨rfl, rfl⟩
    exact ⟨hkeep.1, hkeep.2, fun i a a' ha ha' => stepped_keeps (resolveAt_acc hl hl' ha ha') hc⟩
  · refine ⟨_, resolutionStep_eq hc, fun G G' hG hG' j i as as' a a' hl hl' ha ha' => ?_⟩
    obtain rfl := resolved_group hG hG'
    exact stepped_keeps (resolveAt_tile hl hl' ha ha') hc
  · obtain ⟨h1, h2⟩ := resolutionStep_moves (lane := lane) (acc := acc) hc hG hs hl
    exact ⟨h1 l, h2 as⟩

end Sys2Proof.Proofs
end

section
/-! SUPPORT. The canonical form of every memory, kept by the state's operations: the rules (O60). -/

namespace Sys2Proof.Proofs
open Machine Claims Laws

/-- Every memory of a state has the canonical form. -/
def Formed (s : State) : Prop := s.memoryWf = true

/-- A computation keeps the form however it ends; an answer that goes on leaves it. -/
structure Forms {α : Type} (m : M α) : Prop where
  ends : ∀ s, Formed s → Ends Formed m s
def Lands (r : Answer) : Prop := ∀ t, r = .next t → Formed t

section
variable {s t : State} {α β γ : Type}

theorem Settles.formed (h : Settles s t) (hs : Formed s) : Formed t := h.wf hs
theorem Same.formed {face : Team → Team} (h : Same face s t) (hs : Formed s) : Formed t := h.wf hs

/-- A change of anything but the memories and the teams. -/
theorem formed_mk (cur : Option Cur) (agenda : List Turn) (free tick : Nat) (poison : List EccUnit) (upsets : List (EccUnit × List Nat))
    (partials : List Partial) (apart : List Apart) (contexts : List Machine.Context) (launches : List Launch) (cores : List Machine.Core)
    (quads : List Quad) (l2 : List L2Line) (dome : Dome) (plat : Platform) (remotes : List Remote) (nextId : Nat) (outbox : List Msg) (h : Formed s) :
    Formed { s with
      cur := cur, agenda := agenda, free := free, tick := tick, poison := poison, upsets := upsets, partials := partials, apart := apart
      contexts := contexts, launches := launches, cores := cores, quads := quads, l2 := l2, dome := dome, plat := plat, remotes := remotes
      nextId := nextId, outbox := outbox } := h

/-- A change of the teams too, that keeps each one's scratchpad. -/
theorem formed_teams {ts : List Team} (ht : ∀ T ∈ ts, ∃ U ∈ s.teams, T.scratch = U.scratch) (h : Formed s) :
    Formed { s with teams := ts } := by
  obtain ⟨hm, hh, hp⟩ := memoryWf_iff.1 h
  refine memoryWf_iff.2 ⟨hm, hh, fun T hT => ?_⟩
  obtain ⟨U, hU, hs⟩ := ht T hT
  rw [hs]
  exact hp U hU

theorem formed_modTeam (t : Nat) (f : Team → Team) (hf : ∀ T, (f T).scratch = T.scratch) (h : Formed s) : Formed (s.modTeam t f) :=
  memoryWf_modTeam (fun T hT => (hf T).symm ▸ hT) h
theorem formed_modGroup (t g : Nat) (f : Group → Group) (h : Formed s) : Formed (s.modGroup t g f) := (settles_modGroup ..).formed h
theorem formed_modCore (c : Nat) (f : Machine.Core → Machine.Core) (h : Formed s) : Formed (s.modCore c f) := h
theorem formed_modLaunch (l : Nat) (f : Launch → Launch) (h : Formed s) : Formed (s.modLaunch l f) := h
theorem formed_modDome (f : Dome → Dome) (h : Formed s) : Formed (s.modDome f) := h
theorem formed_modPlat (f : Platform → Platform) (h : Formed s) : Formed (s.modPlat f) := h
theorem formed_modContext (id : Nat) (f : Context → Context) (h : Formed s) : Formed (s.modContext id f) := h
theorem formed_post (e : Event) (h : Formed s) : Formed (s.post e) := h
theorem formed_later (e : Event) (h : Formed s) : Formed (s.later e) := h
theorem formed_send (m : Msg) (h : Formed s) : Formed (s.send m) := h

theorem formed_foldl {f : State → β → State} (hf : ∀ s x, Formed s → Formed (f s x)) (l : List β) (h : Formed s) :
    Formed (l.foldl f s) := by
  induction l generalizing s with
  | nil => exact h
  | cons x l ih => exact ih (hf s x h)

theorem formed_foldl_snd {f : γ × State → β → γ × State} (hf : ∀ p x, Formed p.2 → Formed (f p x).2) (l : List β) (p : γ × State)
    (h : Formed p.2) : Formed (l.foldl f p).2 := by
  induction l generalizing p with
  | nil => exact h
  | cons x l ih => exact ih _ (hf p x h)
theorem formed_getD {o : Option State} (ho : ∀ t, o = some t → Formed t) (h : Formed s) : Formed (o.getD s) := by
  cases o with
  | none => exact h
  | some t => exact ho t rfl
theorem formed_elim {f : α → State} (o : Option α) (hf : ∀ a, Formed (f a)) (h : Formed s) : Formed (o.elim s f) := by
  cases o
  · exact h
  · exact hf _

/-! ### Computations -/

theorem forms_ok {m : M α} {a : α} (hm : Forms m) (h : Formed s) (he : m s = .ok (a, t)) : Formed t := ends_of_ok (hm.ends s h) he
theorem forms_error {m : M α} {e : Halt} (hm : Forms m) (h : Formed s) (he : m s = .error (e, t)) : Formed t := ends_of_error (hm.ends s h) he

theorem forms_pure (a : α) : Forms (pure a : M α) := ⟨fun _ h => h⟩
theorem forms_halt (e : Halt) : Forms (halt e : M α) := ⟨fun _ h => h⟩
theorem forms_trap (c : Cause) (l a i : Word) : Forms (trap c l a i : M α) := ⟨fun _ h => h⟩
theorem forms_stallOn (k : Stall) : Forms (stallOn k : M α) := ⟨fun _ h => h⟩
theorem forms_noStream : Forms (noStream : M α) := ⟨fun _ h => h⟩
theorem forms_set (h : Formed t) : Forms (set t : M PUnit) := ⟨fun _ _ => h⟩
theorem forms_upd {f : State → State} (hf : ∀ s, Formed s → Formed (f s)) : Forms (upd f) := ⟨hf⟩
theorem forms_bind {x : M α} {f : α → M β} (hx : Forms x) (hf : ∀ a, Forms (f a)) : Forms (x >>= f) :=
  ⟨fun s h => ends_bind (hx.ends s h) fun a t ht => (hf a).ends t ht⟩
/-- What follows a look at the state may count on its form. -/
theorem forms_get_bind {f : State → M β} (hf : ∀ s, Formed s → Forms (f s)) : Forms (get >>= f) :=
  ⟨fun s h => (hf s h).ends s h⟩
/-- What follows a branch, of two arms and of one. -/
theorem forms_branch {c : Prop} [Decidable c] {x y : M α} {f : α → M β} (hx : Forms x) (hy : Forms y) (hf : ∀ a, Forms (f a)) :
    Forms (if c then x >>= f else y >>= f) := by
  split
  · exact forms_bind hx hf
  · exact forms_bind hy hf
theorem forms_when {c : Prop} [Decidable c] {x : M PUnit} {f : PUnit → M β} (hx : Forms x) (hf : ∀ a, Forms (f a)) :
    Forms (if c then x >>= f else f ⟨⟩) := by
  split
  · exact forms_bind hx hf
  · exact hf _
theorem forms_when_bind {c : Prop} [Decidable c] {x : M α} {y : α → M PUnit} {f : PUnit → M β} (hx : Forms x) (hy : ∀ a, Forms (y a))
    (hf : ∀ a, Forms (f a)) : Forms (if c then x >>= fun a => y a >>= f else f ⟨⟩) := by
  split
  · exact forms_bind hx fun a => forms_bind (hy a) hf
  · exact hf _
theorem forms_require (b : Bool) (c : Cause) (l a i : Word) : Forms (require b c l a i) := ⟨fun _ h => ends_require h ..⟩
theorem forms_here : Forms here := ⟨fun _ h => ends_here h⟩
theorem forms_hereLaunch : Forms hereLaunch := ⟨fun _ h => ends_hereLaunch h⟩
theorem forms_hereContext : Forms hereContext := ⟨fun _ h => ends_hereContext h⟩
theorem forms_hereAgent : Forms hereAgent := ⟨fun _ h => ends_hereAgent h⟩
theorem forms_hereScalar : Forms hereScalar := ⟨fun _ h => ends_hereScalar h⟩
theorem forms_inHandler : Forms inHandler := ⟨fun _ h => h⟩
/-- What a computation is known to keep already. -/
theorem forms_of_same {face : Team → Team} {m : M α} (hm : ∀ s, Ends (Same face s) m s) : Forms m where
  ends s h := by
    unfold Ends
    split
    next he => exact (ends_of_ok (hm s) he).formed h
    next he => exact (ends_of_error (hm s) he).formed h
theorem forms_mapM {f : α → M β} (hf : ∀ x, Forms (f x)) (l : List α) : Forms (l.mapM f) :=
  ⟨fun _ h => ends_mapM (fun x t ht => (hf x).ends t ht) h⟩
theorem forms_forIn {f : α → β → M (ForInStep β)} (hf : ∀ x b, Forms (f x b)) (l : List α) (b : β) : Forms (forIn l b f) :=
  ⟨fun _ h => ends_forIn (fun x b t ht => (hf x b).ends t ht) h⟩

/-! ### Answers -/

theorem lands_next (h : Formed t) : Lands (.next t) := by
  rintro _ ⟨⟩
  exact h
theorem lands_refused (r : Refusal) : Lands (.refused r) := by rintro _ ⟨⟩
theorem formed_takeTrap (a : TrapArgs) (h : Formed s) : Formed (s.takeTrap a) := (settles_takeTrap ..).formed h
theorem formed_markStall (k : Stall) (h : Formed s) : Formed (s.markStall k) := by
  unfold State.markStall
  grind [formed_modTeam, formed_modGroup]
theorem lands_halt_answer (x : Halt) (h : Formed s) : Lands (x.answer s) := by
  cases x with
  | trap a => exact lands_next (formed_takeTrap a h)
  | stall k => exact lands_next (formed_markStall k h)
  | refuse r => exact lands_refused r
theorem lands_answer {m : M Unit} (hm : Forms m) (h : Formed s) : Lands (M.answer m s) := by
  unfold M.answer
  split
  next t he => exact lands_next (forms_ok hm h he)
  next e t he => exact lands_halt_answer e (forms_error hm h he)

end

end Sys2Proof.Proofs
end

section
/-! SUPPORT. The canonical form of every memory, kept function by function: the shared operations, translation, and where each byte lies (O60). -/

namespace Sys2Proof.Proofs
open Machine Claims Laws

-- One proof after another: elaborated at once, the many of this part would each hold a thread.
set_option Elab.async false

section
variable {s : State}

/-! ### Machine/Ops -/

theorem formed_retireScalar (r : ScalarRegs) (h : Formed s) : Formed (s.retireScalar r) :=
  (settles_retireScalar ..).formed h

theorem lands_scalarStep (n : Nat) (f : ScalarRegs → ScalarRegs) (h : Formed s) : Lands (scalarStep n f s) := by
  unfold scalarStep
  grind [formed_retireScalar, lands_next, lands_refused]

theorem formed_wakeFrom (x : State) (stamp : Nat) (who : Option Nat) (h : Formed s) : Formed (s.wakeFrom x stamp who) :=
  (settles_wakeFrom ..).formed h

theorem formed_pokeMem (host : Bool) (a : Nat) (b : List Byte) (key : Option Nat) (h : Formed s) : Formed (s.pokeMem host a b key) :=
  (kept_pokeMem ..).formed h

theorem formed_devPoke (a : Nat) (b : List Byte) (key : Option Nat) (h : Formed s) : Formed (s.devPoke a b key) :=
  (settles_devPoke ..).formed h

theorem formed_writeMem (host : Bool) (a : Nat) (b : List Byte) (stamp : Nat) (h : Formed s) : Formed (s.writeMem host a b stamp) :=
  (kept_writeMem ..).formed h

theorem formed_devWrite (a : Nat) (b : List Byte) (h : Formed s) : Formed (s.devWrite a b) :=
  (settles_devWrite ..).formed h

theorem formed_drainRing (a : Nat) (h : Formed s) : Formed (s.drainRing a) :=
  (settles_drainRing ..).formed h

theorem formed_report (r : FaultRec) (h : Formed s) : Formed (s.report r) :=
  (settles_report ..).formed h

theorem formed_traceWrite (unit : Nat) (b : List Byte) (h : Formed s) : Formed (s.traceWrite unit b) :=
  (settles_traceWrite ..).formed h

theorem formed_trace (kind unit core grp ctx p q : Nat) (h : Formed s) : Formed (s.trace kind unit core grp ctx p q) :=
  (settles_trace ..).formed h

theorem formed_traceGroup (t g kind p q : Nat) (h : Formed s) : Formed (s.traceGroup t g kind p q) :=
  (settles_traceGroup ..).formed h

theorem formed_unfinish (t g : Nat) (h : Formed s) : Formed (s.unfinish t g) :=
  (settles_unfinish ..).formed h

theorem formed_retireGroup (t g : Nat) (h : Formed s) : Formed (s.retireGroup t g) := by
  unfold State.retireGroup
  grind [formed_modGroup, formed_unfinish]

theorem formed_killGroup (t g : Nat) (h : Formed s) : Formed (s.killGroup t g) :=
  (settles_killGroup ..).formed h

theorem formed_abandon (p : Remote → Bool) (h : Formed s) : Formed (s.abandon p) := by
  unfold State.abandon
  grind [formed_modDome, formed_mk]

theorem formed_settleTeam (t : Nat) (h : Formed s) : Formed (s.settleTeam t) :=
  (settles_settleTeam ..).formed h

theorem formed_dropCmd (t id : Nat) (h : Formed s) : Formed (s.dropCmd t id) :=
  (settles_dropCmd ..).formed h

theorem formed_discardLost (t g : Nat) (lost : Option (Bool × Nat)) (h : Formed s) : Formed (s.discardLost t g lost) :=
  (settles_discardLost ..).formed h

theorem formed_discardHeld (t g : Nat) (h : Formed s) : Formed (s.discardHeld t g) :=
  (settles_discardHeld ..).formed h

theorem formed_dropFaulted (t : Nat) (every : Bool) (h : Formed s) : Formed (s.dropFaulted t every) :=
  (settles_dropFaulted ..).formed h

theorem formed_killTeam (t : Nat) (h : Formed s) : Formed (s.killTeam t) :=
  (settles_killTeam ..).formed h

theorem formed_holdTrap (t : Nat) (x : Trap) (h : Formed s) : Formed (s.holdTrap t x) :=
  (settles_holdTrap ..).formed h

theorem formed_doubleFault (t : Nat) (cause2 : Cause) (flags : Nat) (h : Formed s) : Formed (s.doubleFault t cause2 flags) :=
  (settles_doubleFault ..).formed h

theorem formed_enterHandler (t g : Nat) (h : Formed s) : Formed (s.enterHandler t g) := by
  unfold State.enterHandler
  grind [formed_modTeam, formed_modGroup]

theorem formed_closeTrap (t : Nat) (h : Formed s) : Formed (s.closeTrap t) := by
  unfold State.closeTrap
  grind [formed_dropCmd, formed_discardLost]

theorem formed_rouse (t : Nat) (h : Formed s) : Formed (s.rouse t) := by
  unfold State.rouse
  grind [formed_mk]

theorem formed_returnFromTrap (t : Nat) (h : Formed s) : Formed (s.returnFromTrap t) := by
  unfold State.returnFromTrap
  grind [formed_closeTrap, formed_killGroup, formed_discardHeld, formed_modGroup, formed_dropFaulted, formed_enterHandler, formed_settleTeam,
      formed_modTeam, formed_rouse, formed_foldl]

theorem formed_unstall (c : Cur) (h : Formed s) : Formed (s.unstall c) := by
  unfold State.unstall
  grind [formed_modTeam, formed_modGroup]

theorem forms_doneScalar (n : Nat) (r : ScalarRegs) : Forms (doneScalar n r) := by
  unfold doneScalar
  grind [forms_upd, formed_retireScalar, forms_bind]

theorem forms_notInHandler : Forms notInHandler := by
  unfold notInHandler
  grind [forms_inHandler, forms_trap, forms_bind, forms_pure]

theorem forms_onlyInHandler : Forms onlyInHandler := by
  unfold onlyInHandler
  grind [forms_inHandler, forms_trap, forms_bind, forms_pure]

/-! ### Machine/Xlate -/

theorem formed_l2Access (pa len cls : Nat) (host write : Bool) (h : Formed s) : Formed (s.l2Access pa len cls host write) :=
  (kept_l2Access ..).formed h

theorem formed_writeBack (ls : List (Nat × L1Line)) (h : Formed s) : Formed (s.writeBack ls) :=
  (kept_writeBack ..).formed h

theorem formed_askBack (line : Nat) (h : Formed s) : Formed (s.askBack line) :=
  (kept_askBack ..).formed h

theorem formed_writePart (p : Part) (b : List Byte) (stamp : Nat) (h : Formed s) : Formed (s.writePart p b stamp) :=
  (settles_writePart ..).formed h

theorem formed_recall (leaf pa bits : Nat) (h : Formed s) : Formed (s.recall leaf pa bits) :=
  (kept_recall ..).formed h

theorem formed_combine (sel : Partial → Bool) (h : Formed s) : Formed (s.combine sel) :=
  (kept_combine ..).formed h

theorem formed_makeRoom (core : Nat) (host : Bool) (line : Nat) (h : Formed s) : Formed (s.makeRoom core host line) := by
  unfold State.makeRoom
  grind [formed_combine, formed_modCore, formed_writeBack]

theorem formed_addPartial (core : Nat) (host : Bool) (pa kind cls : Nat) (key : Option Nat) (zero : List Byte) (f : List Byte → List Byte)
    (h : Formed s) :
    Formed (s.addPartial core host pa kind cls key zero f) := by
  unfold State.addPartial
  grind [formed_modCore, formed_makeRoom, formed_mk]

theorem formed_dropRange (host : Bool) (pa len : Nat) (h : Formed s) : Formed (s.dropRange host pa len) := by
  unfold State.dropRange
  grind [formed_writeBack, formed_mk]

theorem formed_dropLines (ps : List Part) (h : Formed s) : Formed (s.dropLines ps) := by
  unfold State.dropLines
  grind [formed_dropRange, formed_foldl]

theorem formed_locate (a : Agent) (va len : Nat) (write : Bool) (h : Formed s) : Formed (s.locate a va len write).2 :=
  (kept_locate ..).formed h

theorem formed_reportParts (a : Agent) (acc : Access) (ps : List Part) (h : Formed s) : Formed (s.reportParts a acc ps) :=
  (kept_reportParts ..).formed h

theorem formed_writeParts (ps : List Part) (b : List Byte) (stamp : Nat) (h : Formed s) : Formed (s.writeParts ps b stamp) :=
  (kept_writeParts ..).formed h

/-! ### Machine/Access -/

theorem forms_trapReqs (cause : Cause) (tinfo : Word) (bad : List Req) : Forms (trapReqs cause tinfo bad) := by
  unfold trapReqs
  grind [forms_trap, forms_bind, forms_pure]

end

end Sys2Proof.Proofs
end

section
/-! SUPPORT. The canonical form of every memory, kept function by function: checks, fetching, the scalar stream, the handler's words (O60). -/

namespace Sys2Proof.Proofs
open Machine Claims Laws

-- One proof after another: elaborated at once, the many of this part would each hold a thread.
set_option Elab.async false

section
variable {s : State}

/-! ### Machine/Access -/

theorem forms_checkAccess (reqs : List Req) (suits : Hit → Bool) : Forms (checkAccess reqs suits) :=
  forms_of_same fun s => kept_checkAccess _ _ (.refl s)

theorem forms_reportHits (hs : List Hit) : Forms (reportHits hs) := by
  unfold reportHits
  grind [forms_hereAgent, forms_upd, formed_reportParts, forms_forIn, forms_bind, forms_pure]

theorem formed_writeScratch (t off : Nat) (b : List Byte) (stamp : Nat) (h : Formed s) : Formed (s.writeScratch t off b stamp) :=
  (settles_writeScratch ..).formed h

theorem formed_writeHit (t : Nat) (x : Hit) (b : List Byte) (stamp : Nat) (h : Formed s) : Formed (s.writeHit t x b stamp) := by
  unfold State.writeHit
  grind [formed_writeScratch, formed_writeParts]

theorem formed_putBlock (stamp : Nat) (a : Block) (h : Formed s) : Formed (s.putBlock stamp a) :=
  (settles_putBlock ..).formed h

theorem formed_enterApart (x : Apart) (h : Formed s) : Formed (s.enterApart x) := by
  unfold State.enterApart
  grind [formed_mk]

theorem formed_putApart (whole : Bool) (x : Apart) (accs : List (List Block)) (h : Formed s) : Formed (s.putApart whole x accs).1 := by
  unfold State.putApart
  grind [formed_putBlock, formed_mk, formed_enterApart, formed_foldl]

theorem formed_readsApart (whole : Bool) (x : Apart) (accs : List ReadAt) (h : Formed s) : Formed (s.readsApart whole x accs).1 := by
  unfold State.readsApart
  grind [formed_mk, formed_enterApart]

theorem formed_vread (a : Agent) (va len : Nat) (h : Formed s) : Formed (s.vread a va len).2 :=
  (kept_vread ..).formed h

theorem formed_tryWrite (a : Agent) (va : Nat) (b : List Byte) (h : Formed s) : Formed (s.tryWrite a va b).2 := by
  unfold State.tryWrite
  grind [formed_locate, formed_reportParts, formed_writeParts, formed_dropLines]

theorem formed_domeWrites (ws stuck : List (Nat × Nat × List Byte)) (h : Formed s) : Formed (domeWrites ws stuck s).2 := by
  induction ws generalizing stuck s with
  | nil => exact h
  | cons w ws ih => grind [domeWrites, formed_tryWrite]

theorem formed_flushWrites (h : Formed s) : Formed (s.flushWrites) := by
  unfold State.flushWrites
  grind [formed_domeWrites, formed_modDome]

theorem formed_domeWrite (C : Context) (va : Nat) (b : List Byte) (h : Formed s) : Formed (s.domeWrite C va b) := by
  unfold State.domeWrite
  grind [formed_flushWrites, formed_modDome]

theorem forms_readGlobal (a : Agent) (va len : Nat) (k : Stall) : Forms (readGlobal a va len k) := by
  unfold readGlobal
  refine forms_get_bind fun s h => ?_
  split <;> grind [formed_locate, forms_bind, forms_set, forms_require, forms_trap, forms_upd, formed_reportParts, forms_stallOn, forms_pure]

theorem formed_acquire (a : Agent) (scope : Nat) (h : Formed s) : Formed (s.acquire a scope) := by
  unfold State.acquire
  grind [formed_modCore, formed_foldl]

theorem formed_acquireFor (t scope : Nat) (h : Formed s) : Formed (s.acquireFor t scope) := by
  unfold State.acquireFor
  grind [formed_acquire]

theorem forms_acquireHere (scope : Nat) : Forms (acquireHere scope) := by
  unfold acquireHere
  grind [forms_upd, formed_acquireFor, forms_bind, forms_pure]

theorem forms_releaseHere : Forms releaseHere := by
  unfold releaseHere
  grind [forms_here, forms_stallOn, forms_bind, forms_get_bind, forms_pure]

theorem formed_flush (port : Nat) (h : Formed s) : Formed (s.flush port) :=
  (settles_flush ..).formed h

theorem formed_sendOn (port vc bytes : Nat) (zero : Bool) (m : Msg) (h : Formed s) : Formed (s.sendOn port vc bytes zero m) :=
  (settles_sendOn ..).formed h

theorem formed_sendRemote (r : Remote) (op : FabricOp) (h : Formed s) : Formed (s.sendRemote r op) := by
  unfold State.sendRemote
  grind [formed_mk, formed_sendOn, formed_post]

/-! ### Machine/Fetch -/

theorem forms_scalarSection : Forms scalarSection := by
  unfold scalarSection
  grind [forms_inHandler, forms_hereContext, forms_noStream, forms_hereLaunch, forms_bind, forms_pure]

theorem forms_fetchBytes (va len : Nat) : Forms (fetchBytes va len) :=
  forms_of_same fun s => kept_fetchBytes _ _ (.refl s)

theorem forms_fetchScalar : Forms fetchScalar := by
  unfold fetchScalar
  grind [forms_hereScalar, forms_scalarSection, forms_require, forms_fetchBytes, forms_bind, forms_pure]

theorem forms_headerAt (addr : Nat) : Forms (headerAt addr) :=
  forms_of_same fun s => kept_headerAt _ (.refl s)

theorem forms_fetchLane : Forms fetchLane := by
  unfold fetchLane
  grind [forms_here, forms_hereLaunch, forms_noStream, forms_fetchBytes, forms_bind, forms_pure]

/-! ### Machine/ScalarFlow -/

theorem forms_hereSection : Forms hereSection := by
  unfold hereSection
  grind [forms_inHandler, forms_hereContext, forms_noStream, forms_hereLaunch, forms_bind, forms_pure]

theorem forms_branchTo (target : Word) (r : ScalarRegs) : Forms (branchTo target r) := by
  unfold branchTo
  grind [forms_hereSection, forms_require, forms_upd, formed_retireScalar, forms_bind]

theorem lands_execBr (q : QReg) (neg : Bool) (off : BitVec 20) (h : Formed s) : Lands (execBr q neg off s) := by
  unfold execBr
  grind [lands_answer, forms_hereScalar, forms_branchTo, forms_doneScalar, forms_bind, forms_pure]

theorem lands_execCall (q : QReg) (neg : Bool) (off : BitVec 20) (h : Formed s) : Lands (execCall q neg off s) := by
  unfold execCall
  grind [lands_answer, forms_hereScalar, forms_branchTo, forms_doneScalar, forms_bind, forms_pure]

theorem lands_execRet (q : QReg) (neg : Bool) (h : Formed s) : Lands (execRet q neg s) := by
  unfold execRet
  grind [lands_answer, forms_hereScalar, forms_branchTo, forms_doneScalar, forms_bind]

theorem lands_execJmpr (sa : SReg) (h : Formed s) : Lands (execJmpr sa s) := by
  unfold execJmpr
  grind [lands_answer, forms_hereScalar, forms_branchTo, forms_bind, forms_pure]

theorem lands_execLrun (sa : SReg) (n : BitVec 4) (target : BitVec 32) (h : Formed s) : Lands (execLrun sa n target s) := by
  refine lands_answer (forms_bind forms_notInHandler fun _ => forms_bind forms_here fun p => forms_bind forms_hereScalar fun r => ?_) h
  grind [forms_bind, forms_require, forms_stallOn, forms_releaseHere, forms_upd, formed_modGroup, forms_doneScalar]

theorem lands_execSpop (sd : SReg) (h : Formed s) : Lands (execSpop sd s) := by
  unfold execSpop
  grind [lands_answer, forms_notInHandler, forms_here, forms_upd, formed_modGroup, forms_hereScalar, forms_doneScalar, forms_trap, forms_stallOn,
      forms_bind, forms_pure]

theorem lands_execWflg (mask : BitVec 12) (h : Formed s) : Lands (execWflg mask s) := by
  unfold execWflg
  grind [lands_answer, forms_notInHandler, forms_here, forms_acquireHere, forms_hereScalar, forms_doneScalar, forms_stallOn, forms_bind, forms_pure]

theorem lands_execWflgNow (mask : BitVec 12) (h : Formed s) : Lands (execWflgNow mask s) := by
  unfold execWflgNow
  grind [lands_answer, forms_notInHandler, forms_here, forms_acquireHere, forms_hereScalar, forms_doneScalar, forms_stallOn, forms_bind, forms_pure]

/-! ### Machine/ScalarSys -/

theorem forms_drawFree : Forms drawFree := by
  unfold drawFree
  grind [forms_upd, formed_mk, forms_bind, forms_get_bind, forms_pure]

theorem lands_execSget (sd : SReg) (ty : BitVec 5) (code : BitVec 8) (h : Formed s) : Lands (execSget sd ty code s) := by
  refine lands_answer (forms_bind forms_here fun p => forms_bind forms_hereLaunch fun L => forms_bind forms_hereScalar fun r => ?_) h
  grind [forms_bind, forms_get_bind, forms_require, forms_drawFree, forms_trap, forms_doneScalar]

theorem lands_execSset (hs : BitVec 2) (sa : SReg) (h : Formed s) : Lands (execSset hs sa s) := by
  unfold execSset
  grind [lands_answer, forms_onlyInHandler, forms_here, forms_hereScalar, forms_upd, formed_modTeam, forms_doneScalar, forms_bind, forms_set]

theorem lands_execSdone (h : Formed s) : Lands (execSdone s) := by
  unfold execSdone
  grind [lands_answer, forms_notInHandler, forms_here, forms_hereScalar, forms_doneScalar, forms_upd, formed_settleTeam, formed_retireGroup,
      forms_stallOn, forms_bind, forms_pure]

theorem lands_execReservedScalarWord (h : Formed s) : Lands (execReservedScalarWord s) := by
  unfold execReservedScalarWord
  grind [lands_answer, forms_trap, forms_bind]

theorem lands_execTrap (imm : BitVec 12) (sa : SReg) (h : Formed s) : Lands (execTrap imm sa s) := by
  unfold execTrap
  grind [lands_answer, forms_here, forms_hereScalar, forms_doneScalar, forms_upd, formed_traceGroup, forms_trap, forms_bind]

theorem lands_execMrst (off : BitVec 32) (h : Formed s) : Lands (execMrst off s) := by
  unfold execMrst
  grind [lands_answer, forms_here, forms_hereLaunch, forms_upd, formed_modGroup, forms_hereScalar, forms_doneScalar, forms_require, forms_bind,
      forms_pure]

/-! ### Machine/TrapUnit -/

theorem formed_vacate (t g L : Nat) (h : Formed s) : Formed (s.vacate t g L) := by
  unfold State.vacate
  grind [formed_modGroup, formed_modLaunch]

theorem forms_namedGroup (x : Word) : Forms (namedGroup x) := by
  unfold namedGroup
  grind [forms_here, forms_require, forms_trap, forms_bind, forms_pure]

theorem lands_execTrd (sd sa sb : SReg) (h : Formed s) : Lands (execTrd sd sa sb s) := by
  refine lands_answer (forms_bind forms_onlyInHandler fun _ => forms_bind forms_here fun p => forms_bind forms_hereScalar fun r =>
    forms_bind (forms_namedGroup _) fun q => ?_) h
  grind [forms_bind, forms_get_bind, forms_trap, forms_acquireHere, forms_doneScalar]

theorem lands_execTwr (ss sa sb : SReg) (h : Formed s) : Lands (execTwr ss sa sb s) := by
  refine lands_answer (forms_bind forms_onlyInHandler fun _ => forms_bind forms_here fun p => forms_bind forms_hereScalar fun r =>
    forms_bind (forms_namedGroup _) fun q => ?_) h
  grind [forms_bind, forms_trap, forms_upd, formed_vacate, formed_modGroup, formed_mk, forms_doneScalar]

theorem lands_execTres (sl sa sb : SReg) (h : Formed s) : Lands (execTres sl sa sb s) := by
  unfold execTres
  grind [lands_answer, forms_onlyInHandler, forms_here, forms_hereScalar, forms_namedGroup, forms_upd, formed_modGroup, forms_doneScalar, forms_bind,
      forms_pure]

theorem lands_execTkil (sa : SReg) (h : Formed s) : Lands (execTkil sa s) := by
  unfold execTkil
  grind [lands_answer, forms_onlyInHandler, forms_here, forms_hereScalar, forms_require, forms_upd, formed_modGroup, forms_doneScalar, forms_bind]

theorem lands_execEret (h : Formed s) : Lands (execEret s) := by
  unfold execEret
  grind [lands_answer, forms_onlyInHandler, forms_here, forms_upd, formed_returnFromTrap, forms_stallOn, forms_bind, forms_get_bind, forms_pure]

end

end Sys2Proof.Proofs
end

section
/-! SUPPORT. The canonical form of every memory, kept function by function: the lane words, their control, arithmetic and memory accesses (O60). -/

namespace Sys2Proof.Proofs
open Machine Claims Laws

-- One proof after another: elaborated at once, the many of this part would each hold a thread.
set_option Elab.async false

section
variable {s : State}

/-! ### Machine/Lane -/

theorem forms_computes (f : LaneCtx → LaneWord → Lane → Lane) (x : LaneCtx) (w : LaneWord) : Forms (computes f x w) := by
  unfold computes
  grind [forms_upd, formed_modGroup, forms_bind]

theorem forms_writesV (x : LaneCtx) (vd : Nat) (f : Nat → Lane → Nat) : Forms (writesV x vd f) := by
  unfold writesV
  grind [forms_upd, formed_modGroup, forms_bind]

theorem forms_checkRegs (t g : Nat) (reads : List (Nat × Nat × Bool × Nat)) : Forms (checkRegs t g reads) := by
  unfold checkRegs
  grind [forms_trap, forms_bind, forms_get_bind, forms_pure]

theorem forms_clearRegs (x : LaneCtx) (regs : List (Bool × Nat)) : Forms (clearRegs x regs) := by
  unfold clearRegs
  grind [forms_upd, formed_mk, forms_bind, forms_pure]

theorem forms_roomToPush (x : LaneCtx) : Forms (roomToPush x) := by
  unfold roomToPush
  grind [forms_stallOn, forms_trap, forms_bind, forms_pure]

theorem forms_pushEntry (x : LaneCtx) (v : Nat) : Forms (pushEntry x v) := by
  unfold pushEntry
  grind [forms_upd, formed_modGroup, forms_bind]

theorem forms_retireLane (c : Cur) : Forms (retireLane c) := by
  unfold retireLane
  grind [forms_upd, formed_modGroup, forms_bind]

theorem forms_laneCtx (parts : List Nat) : Forms (laneCtx parts) := by
  unfold laneCtx
  grind [forms_here, forms_hereLaunch, forms_bind, forms_pure]

theorem forms_laneEnter (guard : Nat) (neg ok : Bool) : Forms (laneEnter guard neg ok) := by
  unfold laneEnter
  grind [forms_here, forms_require, forms_laneCtx, forms_bind, forms_pure]

theorem forms_laneChecks (x : LaneCtx) (i : Instr) : Forms (laneChecks x i) := by
  unfold laneChecks
  grind [forms_trap, forms_require, forms_checkRegs, forms_stallOn, forms_bind, forms_pure]

theorem lands_laneRun (i : Instr) (eff : LaneCtx → LaneWord → M Unit) (heff : ∀ x w, Forms (eff x w)) (h : Formed s) :
    Lands (laneRun i eff s) := by
  refine lands_answer ?_ h
  split
  · exact forms_trap ..
  · refine forms_bind (forms_laneEnter ..) fun e => ?_
    grind [forms_bind, forms_here, forms_retireLane, forms_laneChecks, forms_clearRegs, forms_pure]

/-! ### Machine/LaneArith -/

theorem lands_execLget (w : LaneWord) (h : Formed s) : Lands (execLget w s) := by
  unfold execLget
  grind [lands_laneRun, forms_writesV, forms_bind, forms_get_bind]

/-! ### Machine/Ordered -/

theorem forms_orderedWait : Forms orderedWait := by
  unfold orderedWait
  grind [forms_here, forms_hereLaunch, forms_stallOn, forms_bind, forms_get_bind, forms_pure]

theorem forms_orderedLog (kind stamp : Nat) : Forms (orderedLog kind stamp) :=
  forms_of_same fun s => kept_orderedLog _ _ (.refl s)

theorem forms_atomicAllowed : Forms atomicAllowed := by
  unfold atomicAllowed
  grind [forms_hereLaunch, forms_require, forms_bind]

/-! ### Machine/LaneCtl -/

theorem lands_controlRun (i : Instr) (eff : LaneCtx → LaneWord → M Unit) (heff : ∀ x w, Forms (eff x w)) (h : Formed s) :
    Lands (controlRun i eff s) := by
  unfold controlRun
  grind [lands_answer, forms_trap, forms_here, forms_laneCtx, forms_require, forms_bind, forms_pure]

theorem forms_setCounters (x : LaneCtx) (f : Lane → Nat) : Forms (setCounters x f) := by
  unfold setCounters
  grind [forms_upd, formed_modGroup, forms_retireLane, forms_bind, forms_pure]

theorem forms_depthCheck (x : LaneCtx) (n : Nat) : Forms (depthCheck x n) := by
  unfold depthCheck
  grind [forms_require, forms_bind]

theorem lands_execLaneIf (w : LaneWord) (h : Formed s) : Lands (execLaneIf w s) :=
  lands_controlRun _ _ (fun x _ => forms_bind (forms_depthCheck x 254) fun _ => forms_setCounters ..) h

theorem lands_execLaneElse (w : LaneWord) (h : Formed s) : Lands (execLaneElse w s) := by
  unfold execLaneElse
  grind [lands_controlRun, forms_setCounters]

theorem lands_execLaneEndif (w : LaneWord) (h : Formed s) : Lands (execLaneEndif w s) := by
  unfold execLaneEndif
  grind [lands_controlRun, forms_setCounters, forms_bind]

theorem lands_execLaneLoop (w : LaneWord) (h : Formed s) : Lands (execLaneLoop w s) :=
  lands_controlRun _ _ (fun x _ => forms_bind (forms_depthCheck x 253) fun _ => forms_setCounters ..) h

theorem lands_execLaneBrk (w : LaneWord) (h : Formed s) : Lands (execLaneBrk w s) := by
  unfold execLaneBrk
  grind [lands_controlRun, forms_setCounters]

theorem lands_execLaneCont (w : LaneWord) (h : Formed s) : Lands (execLaneCont w s) := by
  unfold execLaneCont
  grind [lands_controlRun, forms_setCounters]

theorem lands_execLaneEndloop (w : LaneWord) (h : Formed s) : Lands (execLaneEndloop w s) := by
  unfold execLaneEndloop
  grind [lands_controlRun, forms_setCounters, forms_headerAt, forms_halt, forms_upd, formed_modGroup, forms_bind, forms_pure]

theorem lands_execLaneExit (w : LaneWord) (h : Formed s) : Lands (execLaneExit w s) := by
  unfold execLaneExit
  grind [lands_laneRun, forms_upd, formed_modLaunch, formed_modGroup, forms_bind]

theorem lands_execLaneStop (w : LaneWord) (h : Formed s) : Lands (execLaneStop w s) := by
  unfold execLaneStop
  grind [lands_controlRun, forms_require, forms_upd, formed_modGroup, forms_bind]

theorem forms_readBarge (a : Agent) (L : Launch) (n : Nat) : Forms (readBarge a L n) := by
  unfold readBarge
  grind [forms_readGlobal, forms_bind, forms_pure]

theorem forms_clearFilled (x : LaneCtx) (lanes : List Nat) : Forms (clearFilled x lanes) := by
  unfold clearFilled
  grind [forms_clearRegs, forms_bind]

theorem forms_refillPlan (x : LaneCtx) : Forms (refillPlan x) := by
  unfold refillPlan
  grind [forms_hereAgent, forms_readBarge, forms_mapM, forms_bind, forms_pure]

theorem forms_applyRefill (x : LaneCtx) (plan : List (Nat × Barge)) : Forms (applyRefill x plan) := by
  unfold applyRefill
  grind [forms_clearFilled, forms_upd, formed_modGroup, forms_bind, forms_pure]

theorem lands_execRfil (w : LaneWord) (h : Formed s) : Lands (execRfil w s) := by
  refine lands_answer (forms_bind forms_here fun p => forms_bind forms_hereLaunch fun L => forms_bind (forms_require ..) fun _ =>
    forms_bind (forms_laneCtx _) fun x => forms_when (forms_require ..) fun _ => forms_bind (forms_require ..) fun _ =>
    forms_bind (forms_roomToPush x) fun _ => forms_when (forms_stallOn .landing) fun _ => forms_bind forms_orderedWait fun stamp =>
    forms_bind (forms_refillPlan x) fun plan => forms_bind (forms_orderedLog 7 stamp) fun _ => forms_bind (forms_applyRefill x plan) fun _ =>
    forms_bind (forms_upd fun s h => formed_modTeam _ _ (fun _ => rfl) (formed_modLaunch _ _ h)) fun _ => ?_) h
  grind [forms_bind, forms_get_bind, forms_pushEntry, forms_retireLane]

theorem lands_execReservedLaneWord (b : BitVec 96) (h : Formed s) : Lands (execReservedLaneWord b s) := by
  unfold execReservedLaneWord
  grind [lands_answer, forms_here, forms_require, forms_laneEnter, forms_retireLane, forms_trap, forms_bind, forms_pure]

/-! ### Machine/LaneFloat -/

theorem forms_wordTable (x : LaneCtx) (w : LaneWord) : Forms (wordTable x w) := by
  unfold wordTable
  grind [forms_trap, forms_bind, forms_get_bind, forms_pure]

theorem lands_execQnt (w : LaneWord) (h : Formed s) : Lands (execQnt w s) := by
  unfold execQnt
  grind [lands_laneRun, forms_wordTable, forms_computes, forms_upd, formed_modCore, formed_foldl, forms_bind]

theorem lands_execDqnt (w : LaneWord) (h : Formed s) : Lands (execDqnt w s) :=
  lands_laneRun _ _ (fun x w => forms_bind (forms_wordTable x w) fun _ => forms_computes _ x w) h

/-! ### Machine/LaneAcc -/

theorem forms_freeImages (f : List (BitVec 16) → LaneWord → Lane → Acc) (x : LaneCtx) (w : LaneWord) : Forms (freeImages f x w) := by
  unfold freeImages
  grind [forms_upd, formed_mk, formed_modGroup, forms_bind, forms_get_bind]

theorem lands_execAadda (w : LaneWord) (h : Formed s) : Lands (execAadda w s) := by
  unfold execAadda
  grind [lands_laneRun, forms_freeImages]

theorem lands_execAneg (w : LaneWord) (h : Formed s) : Lands (execAneg w s) := by
  unfold execAneg
  grind [lands_laneRun, forms_freeImages]

/-! ### Machine/LaneMem -/

theorem forms_prepare (x : LaneCtx) (hits : List Hit) (ordered clocked : Bool) : Forms (prepare x hits ordered clocked) := by
  unfold prepare
  grind [forms_reportHits, forms_stallOn, forms_upd, formed_modGroup, formed_foldl, forms_bind, forms_get_bind, forms_pure]

theorem formed_logAll (core : Nat) (es : List LogEntry) (h : Formed s) : Formed (s.logAll core es) := by
  unfold State.logAll
  grind [formed_modCore]

theorem forms_awaitPeers (x : LaneCtx) (hits : List Hit) (rs : List PeerReq) (size late : Nat) : Forms (awaitPeers x hits rs size late) := by
  unfold awaitPeers
  grind [forms_upd, formed_modGroup, forms_trap, forms_stallOn, formed_sendRemote, forms_forIn, forms_bind, forms_pure]

theorem forms_enterLoad (x : LaneCtx) (dsts : List LoadDst) (es : List LogEntry) (late scope : Nat) : Forms (enterLoad x dsts es late scope) := by
  unfold enterLoad
  grind [forms_upd, formed_modGroup, formed_logAll, formed_post, formed_elim, forms_bind, forms_get_bind, forms_pure]

theorem forms_laneLoad (x : LaneCtx) (reqs : List Req) (acc : Bool) (reg ty kind scope : Nat) (acq : Bool) :
    Forms (laneLoad x reqs acc reg ty kind scope acq) := by
  unfold laneLoad
  refine forms_branch forms_orderedWait (forms_pure 0) fun stamp => forms_bind (forms_checkAccess ..) fun hits =>
    forms_bind (forms_prepare ..) fun _ => forms_when (forms_orderedLog 3 stamp) fun _ => forms_bind (forms_awaitPeers ..) fun r => ?_
  grind [forms_bind, forms_get_bind, forms_hereAgent, forms_upd, formed_acquire, formed_readsApart, forms_set, forms_enterLoad]

theorem forms_laneLdFx (scratch : Bool) (x : LaneCtx) (w : LaneWord) : Forms (laneLdFx scratch x w) := by
  unfold laneLdFx
  grind [forms_laneLoad, forms_bind, forms_pure]

theorem lands_execLaneLd (w : LaneWord) (h : Formed s) : Lands (execLaneLd w s) := by
  unfold execLaneLd
  grind [lands_laneRun, forms_laneLdFx]

theorem lands_execLaneLds (w : LaneWord) (h : Formed s) : Lands (execLaneLds w s) := by
  unfold execLaneLds
  grind [lands_laneRun, forms_laneLdFx]

theorem formed_writeAtHand (ctx core t : Nat) (x : Hit) (b : List Byte) (stamp : Nat) (h : Formed s) :
    Formed (s.writeAtHand ctx core t x b stamp) := by
  unfold State.writeAtHand
  grind [formed_writeHit, formed_writePart, formed_foldl]

theorem forms_enterStore (x : LaneCtx) (es : List LogEntry) (remote scope : Nat) : Forms (enterStore x es remote scope) := by
  unfold enterStore
  grind [forms_upd, formed_modGroup, formed_logAll, formed_post, formed_elim, forms_bind, forms_get_bind, forms_pure]

theorem forms_sendStores (x : LaneCtx) (id : Nat) (rs : List PeerReq) : Forms (sendStores x id rs) := by
  unfold sendStores
  grind [forms_upd, formed_sendRemote, forms_forIn, forms_bind, forms_pure]

theorem forms_laneStore (x : LaneCtx) (reqs : List Req) (data : List (List Byte)) (kind sub scope : Nat) (rel : Bool) :
    Forms (laneStore x reqs data kind sub scope rel) := by
  unfold laneStore
  refine forms_branch forms_orderedWait (forms_pure 0) fun stamp => forms_bind (forms_checkAccess ..) fun hits =>
    forms_bind (forms_prepare ..) fun _ => forms_when (forms_orderedLog 4 stamp) fun _ => ?_
  grind [forms_bind, forms_get_bind, formed_putApart, forms_set, forms_awaitPeers, forms_enterStore, forms_sendStores, forms_pure]

theorem forms_laneStFx (scratch : Bool) (x : LaneCtx) (w : LaneWord) : Forms (laneStFx scratch x w) := by
  unfold laneStFx
  grind [forms_laneStore, forms_bind, forms_pure]

theorem lands_execLaneSt (w : LaneWord) (h : Formed s) : Lands (execLaneSt w s) := by
  unfold execLaneSt
  grind [lands_laneRun, forms_laneStFx]

theorem lands_execLaneSts (w : LaneWord) (h : Formed s) : Lands (execLaneSts w s) := by
  unfold execLaneSts
  grind [lands_laneRun, forms_laneStFx]

theorem lands_execAld (w : LaneWord) (h : Formed s) : Lands (execAld w s) := by
  unfold execAld
  grind [lands_laneRun, forms_laneLoad]

theorem lands_execAst (w : LaneWord) (h : Formed s) : Lands (execAst w s) := by
  unfold execAst
  grind [lands_laneRun, forms_laneStore]

theorem forms_laneAtomic (x : LaneCtx) (w : LaneWord) (kind logKind sub : Nat) (f : Lane → Nat → Nat) (op : Lane → FabricOp)
    (entry : Lane → Word × List Byte) : Forms (laneAtomic x w kind logKind sub f op entry) := by
  unfold laneAtomic
  refine forms_bind forms_atomicAllowed fun _ => forms_bind forms_orderedWait fun stamp => forms_bind (forms_checkAccess ..) fun hits =>
    forms_bind (forms_prepare ..) fun _ => forms_when (forms_orderedLog logKind stamp) fun _ => forms_bind (forms_awaitPeers ..) fun r =>
    forms_when_bind forms_hereAgent (fun a => forms_upd fun s h => formed_acquire _ _ h) fun _ => forms_get_bind fun s h => ?_
  grind [forms_bind, forms_set, formed_foldl_snd, formed_writeAtHand, forms_enterLoad]

theorem lands_execLaneAtom (op : AtomOp) (w : LaneWord) (h : Formed s) : Lands (execLaneAtom op w s) := by
  unfold execLaneAtom
  grind [lands_laneRun, forms_laneAtomic]

theorem lands_execLaneCas (w : LaneWord) (h : Formed s) : Lands (execLaneCas w s) := by
  unfold execLaneCas
  grind [lands_laneRun, forms_laneAtomic]

theorem forms_kindAt (a : Agent) (ea : Int) : Forms (kindAt a ea) := by
  unfold kindAt
  grind [formed_locate, forms_bind, forms_get_bind, forms_pure, forms_set]

theorem forms_raddReq (a : Agent) (lane : Nat) (ea : Int) : Forms (raddReq a lane ea) := by
  unfold raddReq
  grind [forms_kindAt, forms_bind, forms_pure]

theorem formed_mergeAt (p : Part) (ty : Nat) (addends : List (List Byte)) (h : Formed s) : ∀ t, s.mergeAt p ty addends = some t → Formed t := by
  intro t ht
  unfold State.mergeAt at ht
  split at ht
  · obtain ⟨b, -, rfl⟩ := Option.map_eq_some_iff.1 ht
    exact formed_wakeFrom _ _ _ (formed_pokeMem _ _ _ _ h)
  · obtain ⟨b, -, rfl⟩ := Option.map_eq_some_iff.1 ht
    exact formed_writeMem _ _ _ _ h
  · cases ht
    exact h

theorem formed_enterAdd (a : Agent) (p : Part) (ty : Nat) (addends : List (List Byte)) (h : Formed s) : Formed (s.enterAdd a p ty addends) := by
  unfold State.enterAdd
  grind [formed_addPartial, formed_combine]

theorem forms_releaseLanes (x : LaneCtx) : Forms (releaseLanes x) := by
  unfold releaseLanes
  grind [forms_stallOn, forms_bind, forms_get_bind, forms_pure]

theorem forms_laneAdds (x : LaneCtx) (adds : List (Nat × Int × List (List Byte))) (ty : Nat) (rel : Option Nat) :
    Forms (laneAdds x adds ty rel) := by
  unfold laneAdds
  exact forms_when (forms_releaseLanes x) fun _ => forms_bind forms_hereAgent fun a =>
    forms_bind (forms_mapM (fun _ => forms_raddReq ..) _) fun reqs => forms_bind (forms_checkAccess ..) fun hits =>
    forms_bind (forms_reportHits hits) fun _ => forms_get_bind fun s h =>
    forms_when (forms_stallOn .page) fun _ =>
    forms_bind (forms_upd fun s h => formed_foldl (fun s hd h => formed_foldl (fun s p h => formed_enterAdd _ _ _ _ h) _ h) _ h) fun _ =>
    forms_bind (forms_enterStore ..) fun id => forms_sendStores ..

theorem lands_execRadd (w : LaneWord) (h : Formed s) : Lands (execRadd w s) := by
  unfold execRadd
  grind [lands_laneRun, forms_laneAdds]

theorem lands_execRaddAcc (w : LaneWord) (h : Formed s) : Lands (execRaddAcc w s) := by
  unfold execRaddAcc
  grind [lands_laneRun, forms_laneAdds, forms_bind]

theorem lands_execLaneFence (w : LaneWord) (h : Formed s) : Lands (execLaneFence w s) :=
  lands_laneRun _ _ (fun x w => forms_bind (forms_releaseLanes x) fun _ => forms_acquireHere _) h

end

end Sys2Proof.Proofs
end

section
/-! SUPPORT. The canonical form of every memory, kept function by function: clauses, scalar memory, waiting, and the copy engine (O60). -/

namespace Sys2Proof.Proofs
open Machine Claims Laws

-- One proof after another: elaborated at once, the many of this part would each hold a thread.
set_option Elab.async false

section
variable {s : State}

/-! ### Machine/ClauseEvents -/

theorem lands_asStream (t g : Nat) (st : Stream) (m : M Unit) (hm : Forms m) (h : Formed s) : Lands (asStream t g st m s) := by
  unfold asStream
  grind [lands_answer, formed_mk, forms_bind]

theorem lands_execRunStart (t g : Nat) (h : Formed s) : Lands (execRunStart t g s) := by
  unfold execRunStart
  grind [formed_modGroup, lands_next]

theorem lands_execClauseStart (t g : Nat) (h : Formed s) : Lands (execClauseStart t g s) := by
  unfold execClauseStart
  split
  · exact lands_next h
  split
  · refine lands_asStream _ _ _ _ (forms_bind (forms_headerAt _) fun x => ?_) h
    split
    · exact forms_trap ..
    · refine forms_when (forms_stallOn .flag) fun _ => forms_when (forms_stallOn .flag) fun _ => forms_bind (forms_acquireHere _) fun _ => ?_
      exact forms_upd fun s h => formed_traceGroup _ _ _ _ _ (formed_modGroup _ _ _ h)
  · exact lands_next h

theorem formed_cleanLoad (t g : Nat) (r : LoadRec) (h : Formed s) : Formed (s.cleanLoad t g r) := by
  unfold State.cleanLoad
  grind [formed_mk]

theorem lands_execLoadDataReturn (t g id : Nat) (h : Formed s) : Lands (execLoadDataReturn t g id s) := by
  unfold execLoadDataReturn
  grind [formed_settleTeam, formed_cleanLoad, formed_modGroup, lands_next]

theorem lands_execStorePerformed (t g id : Nat) (h : Formed s) : Lands (execStorePerformed t g id s) := by
  unfold execStorePerformed
  grind [formed_settleTeam, formed_modGroup, lands_next]

theorem formed_checkLoad (t g id : Nat) (h : Formed s) : Formed (s.checkLoad t g id) :=
  (settles_checkLoad ..).formed h

theorem formed_checkStore (t g id : Nat) (h : Formed s) : Formed (s.checkStore t g id) :=
  (settles_checkStore ..).formed h

theorem formed_pieceLoaded (t g id lane off : Nat) (b : List Byte) (h : Formed s) : Formed (s.pieceLoaded t g id lane off b) :=
  (settles_pieceLoaded ..).formed h

theorem formed_pieceLost (t g id : Nat) (n : Nack) (h : Formed s) : Formed (s.pieceLost t g id n) := by
  unfold State.pieceLost
  grind [formed_checkLoad, formed_modGroup]

theorem formed_pieceStored (t g id : Nat) (h : Formed s) : Formed (s.pieceStored t g id) :=
  (settles_pieceStored ..).formed h

theorem formed_storeLost (t g id : Nat) (n : Nack) (h : Formed s) : Formed (s.storeLost t g id n) := by
  unfold State.storeLost
  grind [formed_checkStore, formed_modGroup]

/-! ### Machine/ScalarMem -/

theorem forms_waitingRemote : Forms waitingRemote := by
  unfold waitingRemote
  grind [forms_here, forms_bind, forms_get_bind, forms_pure]

theorem forms_remoteScalar (x : Hit) (sd : SReg) (ext : Nat) (op : FabricOp) (acq : Option Nat) : Forms (remoteScalar x sd ext op acq) := by
  unfold remoteScalar
  grind [forms_here, forms_upd, formed_sendRemote, forms_stallOn, forms_noStream, forms_bind, forms_pure]

theorem forms_readsLate (x : Hit) (sd : SReg) (ext : Nat) : Forms (readsLate x sd ext) := by
  unfold readsLate
  grind [forms_here, formed_readsApart, forms_bind, forms_get_bind, forms_pure, forms_set]

theorem forms_scalarLoad (scratch : Bool) (ea : Int) (z : LoadSize) (align : Nat) (sd : SReg) (acq : Option Nat) :
    Forms (scalarLoad scratch ea z align sd acq) := by
  unfold scalarLoad
  refine forms_bind forms_waitingRemote fun b => forms_when (forms_stallOn .remote) fun _ => ?_
  dsimp -zeta only
  extract_lets -underBinder +onlyGivenNames load
  have hload (stamp : Nat) : Forms (load stamp) := by
    refine forms_bind (forms_checkAccess ..) fun hits => forms_bind forms_here fun p => forms_bind forms_hereAgent fun a =>
      forms_bind (forms_forIn (fun h _ => ?_) _ _) fun r => ?_
    · refine forms_get_bind fun s _ => forms_when_bind (forms_reportHits hits) (fun _ => forms_stallOn .page) fun _ =>
        forms_when (forms_orderedLog 3 stamp) fun _ => forms_when (forms_remoteScalar ..) fun _ => ?_
      grind [forms_bind, forms_get_bind, forms_upd, formed_acquire, forms_readsLate, forms_hereScalar, forms_doneScalar, forms_pure]
    · grind [forms_pure]
  clear_value load
  grind [forms_bind, forms_orderedWait, forms_pure]

theorem formed_storeHit (c : Cur) (x : Hit) (b : List Byte) (stamp : Nat) (h : Formed s) : Formed (s.storeHit c x b stamp) := by
  unfold State.storeHit
  grind [formed_putApart]

theorem forms_scalarStore (scratch : Bool) (ea : Int) (z : Size) (align : Nat) (v : Word) (rel : Bool) :
    Forms (scalarStore scratch ea z align v rel) := by
  unfold scalarStore
  refine forms_bind forms_waitingRemote fun b => forms_when (forms_stallOn .remote) fun _ => forms_when forms_releaseHere fun _ =>
    forms_branch forms_orderedWait (forms_pure 0) fun stamp => forms_bind (forms_checkAccess ..) fun hits => forms_bind forms_here fun p =>
    forms_bind forms_hereAgent fun a => forms_bind (forms_forIn (fun h _ => ?_) _ _) fun _ => forms_pure _
  refine forms_get_bind fun s _ => forms_when_bind (forms_reportHits hits) (fun _ => forms_stallOn .page) fun _ =>
    forms_when (forms_orderedLog 4 stamp) fun _ => ?_
  grind [forms_bind, forms_hereLaunch, forms_remoteScalar, forms_upd, formed_sendRemote, formed_storeHit, forms_hereScalar, forms_doneScalar,
    forms_pure]

theorem forms_scalarAtomic (ea : Word) (sd : SReg) (kind : Nat) (f : Nat → Nat) (remote : FabricOp) : Forms (scalarAtomic ea sd kind f remote) := by
  unfold scalarAtomic
  refine forms_bind forms_atomicAllowed fun _ => forms_bind forms_waitingRemote fun b => forms_when (forms_stallOn .remote) fun _ =>
    forms_bind forms_orderedWait fun stamp => forms_bind (forms_checkAccess ..) fun hits => forms_bind forms_here fun p =>
    forms_bind forms_hereAgent fun a => forms_bind (forms_forIn (fun h _ => ?_) _ _) fun _ => forms_pure _
  exact forms_get_bind fun s _ => forms_when_bind (forms_reportHits hits) (fun _ => forms_stallOn .page) fun _ =>
    forms_bind (forms_orderedLog kind stamp) fun _ => forms_when (forms_remoteScalar ..) fun _ => forms_get_bind fun s _ =>
    forms_bind (forms_upd fun s h => formed_writeHit _ _ _ _ h) fun _ => forms_bind forms_hereScalar fun r =>
    forms_bind (forms_doneScalar ..) fun _ => forms_pure _

theorem lands_execLd (sz : LoadSize) (sd base : SReg) (off : BitVec 10) (h : Formed s) : Lands (execLd sz sd base off s) := by
  unfold execLd
  grind [lands_answer, forms_hereScalar, forms_scalarLoad, forms_bind]

theorem lands_execLds (sz : LoadSize) (sd base : SReg) (off : BitVec 10) (h : Formed s) : Lands (execLds sz sd base off s) := by
  unfold execLds
  grind [lands_answer, forms_hereScalar, forms_scalarLoad, forms_bind]

theorem lands_execSt (sz : Size) (ss base : SReg) (off : BitVec 10) (h : Formed s) : Lands (execSt sz ss base off s) := by
  unfold execSt
  grind [lands_answer, forms_hereScalar, forms_scalarStore, forms_bind]

theorem lands_execSts (sz : Size) (ss base : SReg) (off : BitVec 10) (h : Formed s) : Lands (execSts sz ss base off s) := by
  unfold execSts
  grind [lands_answer, forms_hereScalar, forms_scalarStore, forms_bind]

theorem lands_execLdaq (sc : Scope) (sz : Size) (sd sa : SReg) (h : Formed s) : Lands (execLdaq sc sz sd sa s) := by
  unfold execLdaq
  grind [lands_answer, forms_hereScalar, forms_scalarLoad, forms_bind]

theorem lands_execStrl (_sc : Scope) (sz : Size) (ss sa : SReg) (h : Formed s) : Lands (execStrl _sc sz ss sa s) := by
  unfold execStrl
  grind [lands_answer, forms_hereScalar, forms_scalarStore, forms_bind]

theorem lands_execAtom (op : AtomOp) (_sc : Scope) (sd sa sb : SReg) (h : Formed s) : Lands (execAtom op _sc sd sa sb s) := by
  unfold execAtom
  grind [lands_answer, forms_hereScalar, forms_scalarAtomic, forms_bind]

theorem lands_execCas (_sc : Scope) (sd sa sb : SReg) (h : Formed s) : Lands (execCas _sc sd sa sb s) := by
  unfold execCas
  grind [lands_answer, forms_hereScalar, forms_scalarAtomic, forms_bind, forms_pure]

theorem lands_execFence (sc : Scope) (h : Formed s) : Lands (execFence sc s) := by
  unfold execFence
  grind [lands_answer, forms_releaseHere, forms_acquireHere, forms_hereScalar, forms_doneScalar, forms_bind]

/-! ### Machine/Sync -/

theorem forms_parkOn (mask : Nat) (w : Wait) : Forms (parkOn mask w) := by
  unfold parkOn
  grind [forms_here, forms_upd, formed_modGroup, forms_stallOn, forms_bind, forms_pure]

theorem forms_wasWoken : Forms wasWoken := by
  unfold wasWoken
  grind [forms_here, forms_upd, formed_modGroup, forms_bind, forms_pure]

theorem forms_noTimeout (tcode : Nat) : Forms (noTimeout tcode) := by
  unfold noTimeout
  grind [forms_hereLaunch, forms_require, forms_bind]

theorem lands_execWaita (sd sa sb : SReg) (h : Formed s) : Lands (execWaita sd sa sb s) := by
  refine lands_answer (forms_bind forms_hereScalar fun r => forms_bind (forms_require ..) fun _ => forms_bind (forms_noTimeout _) fun _ =>
    forms_bind forms_waitingRemote fun b => forms_when (forms_stallOn .remote) fun _ => forms_bind forms_orderedWait fun stamp =>
    forms_bind (forms_checkAccess ..) fun hits => forms_bind forms_here fun p => forms_bind forms_hereAgent fun a =>
    forms_bind (forms_forIn (fun h _ => ?_) _ _) fun _ => forms_pure _) h
  refine forms_get_bind fun s _ => forms_when_bind (forms_reportHits hits) (fun _ => forms_stallOn .page) fun _ =>
    forms_when (forms_orderedLog 5 stamp) fun _ => ?_
  grind [forms_bind, forms_get_bind, forms_upd, formed_sendRemote, forms_stallOn, formed_acquire, forms_wasWoken, forms_parkOn, forms_doneScalar,
    forms_pure]

theorem lands_execLaneWaita (w : LaneWord) (h : Formed s) : Lands (execLaneWaita w s) := by
  refine lands_answer (forms_bind (forms_laneEnter ..) fun e => ?_) h
  split
  · exact forms_bind forms_here fun p => forms_retireLane _
  · refine forms_bind (forms_laneChecks ..) fun _ => forms_bind (forms_noTimeout _) fun _ => forms_bind forms_orderedWait fun stamp =>
      forms_bind (forms_checkAccess ..) fun hits => forms_bind (forms_prepare ..) fun _ => forms_when (forms_orderedLog 5 stamp) fun _ =>
      forms_bind (forms_awaitPeers ..) fun r => forms_bind forms_hereAgent fun a => forms_bind (forms_upd fun s h => formed_acquire _ _ h) fun _ =>
      forms_get_bind fun s _ => forms_bind forms_wasWoken fun woken => ?_
    grind [forms_bind, forms_upd, formed_post, forms_parkOn, forms_clearRegs, forms_writesV, forms_retireLane]

theorem formed_setSlot (t n : Nat) (b : Barrier) (h : Formed s) : Formed (s.setSlot t n b) := by
  unfold State.setSlot
  grind [formed_modTeam, formed_modLaunch]

theorem formed_wakeSlot (t n stamp : Nat) (h : Formed s) : Formed (s.wakeSlot t n stamp) := by
  unfold State.wakeSlot
  grind [formed_post, formed_modGroup, formed_foldl]

theorem formed_arriveAll (t n : Nat) (counts : List Nat) (stamp : Nat) (h : Formed s) : Formed (s.arriveAll t n counts stamp) := by
  unfold State.arriveAll
  grind [formed_setSlot, formed_wakeSlot, formed_foldl]

theorem forms_readySlot (t n : Nat) : Forms (readySlot t n) := by
  unfold readySlot
  grind [forms_require, forms_trap, forms_bind, forms_get_bind, forms_pure]

theorem forms_slotOf (a : Nat) : Forms (slotOf a) := by
  unfold slotOf
  grind [forms_require, forms_bind, forms_pure]

theorem lands_execSbara (sd sa sb : SReg) (h : Formed s) : Lands (execSbara sd sa sb s) := by
  refine lands_answer (forms_bind forms_here fun p => forms_bind forms_hereScalar fun r => forms_bind (forms_slotOf _) fun n =>
    forms_bind (forms_require ..) fun _ => ?_) h
  grind [forms_bind, forms_require, forms_upd, formed_setSlot, formed_wakeSlot, forms_doneScalar, forms_readySlot, forms_releaseHere,
    forms_orderedWait, forms_orderedLog, formed_arriveAll]

theorem lands_execSbarw (sa sb : SReg) (h : Formed s) : Lands (execSbarw sa sb s) := by
  unfold execSbarw
  grind [lands_answer, forms_here, forms_hereScalar, forms_require, forms_slotOf, forms_readySlot, forms_parkOn, forms_acquireHere, forms_doneScalar,
      forms_bind, forms_pure]

theorem forms_laneArrive (base : Nat) (x : LaneCtx) (w : LaneWord) : Forms (laneArrive base x w) := by
  unfold laneArrive
  grind [forms_readySlot, forms_releaseLanes, forms_orderedWait, forms_orderedLog, forms_upd, formed_arriveAll, forms_writesV, forms_bind]

theorem forms_laneWait (base : Nat) (kind : BitVec 8) (i : Instr) (w : LaneWord) : Forms (laneWait base kind i w) := by
  unfold laneWait
  grind [forms_laneEnter, forms_here, forms_retireLane, forms_laneChecks, forms_readySlot, forms_parkOn, forms_acquireHere, forms_bind, forms_pure]

theorem lands_execBara (w : LaneWord) (h : Formed s) : Lands (execBara w s) := by
  unfold execBara
  grind [lands_laneRun, forms_laneArrive]

theorem lands_execCbara (w : LaneWord) (h : Formed s) : Lands (execCbara w s) := by
  unfold execCbara
  grind [lands_laneRun, forms_laneArrive]

theorem lands_execBarw (w : LaneWord) (h : Formed s) : Lands (execBarw w s) := by
  unfold execBarw
  grind [lands_answer, forms_laneWait, forms_bind]

theorem lands_execCbarw (w : LaneWord) (h : Formed s) : Lands (execCbarw w s) := by
  unfold execCbarw
  grind [lands_answer, forms_laneWait, forms_bind, forms_pure]

theorem lands_execSwini (sa sb : SReg) (h : Formed s) : Lands (execSwini sa sb s) := by
  unfold execSwini
  grind [lands_answer, forms_hereScalar, forms_checkAccess, forms_here, forms_upd, formed_modTeam, formed_writeScratch, forms_doneScalar, forms_bind,
      forms_pure]

theorem forms_checkSync (reqs : List Req) : Forms (checkSync reqs) := by
  unfold checkSync
  grind [forms_here, forms_trapReqs, forms_trap, forms_bind, forms_get_bind, forms_pure]

theorem lands_execSwait (sa sb : SReg) (h : Formed s) : Lands (execSwait sa sb s) := by
  unfold execSwait
  grind [lands_answer, forms_here, forms_hereScalar, forms_checkSync, forms_parkOn, forms_acquireHere, forms_doneScalar, forms_bind, forms_get_bind,
      forms_pure]

theorem lands_execLaneSwait (w : LaneWord) (h : Formed s) : Lands (execLaneSwait w s) := by
  refine lands_answer (forms_bind (forms_laneEnter ..) fun e => ?_) h
  split
  · exact forms_bind forms_here fun p => forms_retireLane _
  · refine forms_bind (forms_laneChecks ..) fun _ => forms_bind (forms_checkSync _) fun _ => forms_get_bind fun s _ => ?_
    split
    · exact forms_bind (forms_acquireHere _) fun _ => forms_retireLane _
    · exact forms_parkOn ..

/-! ### Machine/Engine -/

theorem forms_readDesc (off : Word) (size align : Nat) : Forms (readDesc off size align) := by
  unfold readDesc
  grind [forms_here, forms_require, forms_trap, forms_bind, forms_get_bind, forms_pure]

theorem forms_checkFields (fs : List (Nat × Bool)) : Forms (checkFields fs) := by
  unfold checkFields
  grind [forms_trap, forms_bind, forms_pure]

theorem forms_commandFlag (x : SReg) : Forms (commandFlag x) := by
  unfold commandFlag
  grind [forms_require, forms_inHandler, forms_bind, forms_pure]

theorem forms_issueCommand (x : Issue) : Forms (issueCommand x) := by
  unfold issueCommand
  exact forms_bind forms_here fun p => forms_get_bind fun s _ => forms_when (forms_stallOn .queueFull) fun _ =>
    forms_when (forms_stallOn .flag) fun _ => forms_when (forms_stallOn .lock) fun _ => forms_bind forms_releaseHere fun _ =>
    forms_bind forms_orderedWait fun stamp =>
    forms_bind (forms_orderedLog 8 stamp) fun _ =>
    forms_bind (forms_upd fun s h => formed_modGroup _ _ _ (formed_modTeam _ _ (fun _ => rfl) h)) fun _ => forms_pure _

theorem formed_engineLocate (a : Agent) (va : Int) (len : Nat) (acc : Access) (h : Formed s) : Formed (s.engineLocate a va len acc).2 := by
  unfold State.engineLocate
  grind [formed_locate, formed_reportParts]

theorem formed_readLoc (a : Agent) (l : Loc) (len : Nat) (h : Formed s) : Formed (s.readLoc a l len).2 := by
  unfold State.readLoc
  grind [formed_engineLocate]

theorem formed_writeObuf (t o off : Nat) (b : List Byte) (h : Formed s) : Formed (s.writeObuf t o off b) := by
  unfold State.writeObuf
  grind [formed_modTeam, formed_mk]

theorem formed_writeLoc (a : Agent) (t : Nat) (l : Loc) (b : List Byte) (stamp : Nat) (h : Formed s) : Formed (s.writeLoc a t l b stamp).2 := by
  unfold State.writeLoc
  grind [formed_engineLocate, formed_writeParts, formed_writeScratch, formed_dropLines, formed_mk, formed_writeObuf]

theorem formed_writeLoc_ok (a : Agent) (t : Nat) (l : Loc) (b : List Byte) (stamp : Nat) (h : Formed s) :
    ∀ t', (s.writeLoc a t l b stamp).1 = .ok t' → Formed t' := by
  unfold State.writeLoc
  grind [formed_engineLocate, formed_writeParts, formed_writeScratch, formed_dropLines, formed_mk, formed_writeObuf]

theorem formed_landLoc (a : Agent) (x : Apart) (l : Loc) (b : List Byte) (h : Formed s) : Formed (s.landLoc a x l b).2 := by
  unfold State.landLoc
  grind [formed_engineLocate, formed_putApart, formed_dropLines, formed_mk, formed_writeObuf]

theorem formed_landLoc_ok (a : Agent) (x : Apart) (l : Loc) (b : List Byte) (h : Formed s) :
    ∀ p, (s.landLoc a x l b).1 = .ok p → Formed p.1 := by
  unfold State.landLoc
  grind [formed_engineLocate, formed_putApart, formed_dropLines, formed_mk, formed_writeObuf]

theorem formed_modCmd (t id : Nat) (f : Cmd → Cmd) (h : Formed s) : Formed (s.modCmd t id f) :=
  (settles_modCmd ..).formed h

theorem lands_execEngineFault (t id : Nat) (cause : BitVec 8) (addr : Word) (detail : BitVec 32) (h : Formed s) :
    Lands (execEngineFault t id cause addr detail s) := by
  unfold execEngineFault
  grind [formed_modCmd, formed_dropCmd, formed_holdTrap, formed_modGroup, lands_next]

theorem formed_failCmd (t : Nat) (c : Cmd) (cause : Cause) (addr : Word) (code : Nat) (h : Formed s) : Formed (s.failCmd t c cause addr code) := by
  unfold State.failCmd
  grind [formed_post]

theorem formed_advanceCmd (t id : Nat) (h : Formed s) : Formed (s.advanceCmd t id) :=
  (settles_advanceCmd ..).formed h

theorem formed_landed (t : Nat) (c : Cmd) (n : Nat) (h : Formed s) : Formed (s.landed t c n) :=
  (settles_landed ..).formed h

theorem formed_advanceCursor (t : Nat) (c : Cmd) (j : Nat) (h : Formed s) : Formed (s.advanceCursor t c j) :=
  (settles_advanceCursor ..).formed h

theorem formed_askPiece (t : Nat) (c : Cmd) (n dev off len : Nat) (rd : Bool) (op : FabricOp) (h : Formed s) :
    Formed (s.askPiece t c n dev off len rd op) := by
  unfold State.askPiece
  grind [formed_sendRemote, formed_modCmd]

theorem formed_holdPiece (t : Nat) (c : Cmd) (n : Nat) (h : Formed s) : Formed (s.holdPiece t c n) := by
  unfold State.holdPiece
  grind [formed_modCmd]

theorem formed_mergePiece (t : Nat) (c : Cmd) (va : Int) (wants ty len : Nat) (data : List Byte) (ps : List Part) (fail : Cause → State → State)
    (hfail : ∀ c s, Formed s → Formed (fail c s)) (h : Formed s) :
    Formed (s.mergePiece t c va wants ty len data ps fail) := by
  unfold State.mergePiece
  grind [formed_mergeAt, formed_landed]

theorem formed_deliverSignal (a : Agent) (t : Nat) (c : Cmd) (n : Nat) (h : Formed s) : Formed (s.deliverSignal a t c n) := by
  unfold State.deliverSignal
  grind [formed_post, formed_askPiece, formed_engineLocate, formed_holdPiece, formed_mergePiece]

theorem formed_deliverAdd (a : Agent) (t : Nat) (c : Cmd) (n : Nat) (va : Int) (b : List Byte) (h : Formed s) :
    Formed (s.deliverAdd a t c n va b) := by
  unfold State.deliverAdd
  grind [formed_engineLocate, formed_askPiece, formed_holdPiece, formed_failCmd, formed_mergePiece]

theorem formed_pieceDone (t : Nat) (c : Cmd) (n len : Nat) (h : Formed s) : Formed (s.pieceDone t c n len) :=
  (settles_pieceDone ..).formed h

theorem formed_deliver (a : Agent) (t : Nat) (c : Cmd) (n : Nat) (p : Piece) (b : List Byte) (h : Formed s) : Formed (s.deliver a t c n p b) := by
  unfold State.deliver
  split
  · exact formed_deliverSignal a t c n h
  split
  · exact formed_deliverAdd a t c n _ b h
  · have hl := formed_landLoc a { Apart.of ⟨t, c.grp, .scalar⟩ c.stamp with piece := some (c.id, n, p.len) } p.dst b h
    have ho := formed_landLoc_ok a { Apart.of ⟨t, c.grp, .scalar⟩ c.stamp with piece := some (c.id, n, p.len) } p.dst b h
    split <;> rename_i he <;> simp only [he] at hl ho
    · exact formed_modCmd _ _ _ (ho _ rfl)
    · exact formed_pieceDone _ _ _ _ (ho _ rfl)
    · exact formed_askPiece _ _ _ _ _ _ _ _ hl
    · exact formed_holdPiece _ _ _ hl
    · exact formed_failCmd _ _ _ _ _ hl

theorem formed_takePiece (a : Agent) (t : Nat) (c : Cmd) (n : Nat) (h : Formed s) : Formed (s.takePiece a t c n) := by
  unfold State.takePiece
  grind [formed_failCmd, formed_modCmd, formed_deliver, formed_readLoc, formed_askPiece, formed_holdPiece]

theorem lands_execEnginePieceLand (t id : Nat) (h : Formed s) : Lands (execEnginePieceLand t id s) := by
  unfold execEnginePieceLand
  grind [formed_advanceCmd, formed_takePiece, formed_modCmd, lands_next]

theorem lands_finishCommand (k : List CmdKind) (t id : Nat) (last : Cmd → State → State) (hlast : ∀ c s, Formed s → Formed (last c s))
    (h : Formed s) :
    Lands (finishCommand k t id s last) := by
  unfold finishCommand
  grind [formed_dropCmd, lands_next]

theorem lands_execCpyComplete (t id : Nat) (h : Formed s) : Lands (execCpyComplete t id s) := by
  unfold execCpyComplete
  grind [lands_finishCommand]

theorem formed_writeResult (t : Nat) (c : Cmd) (n : Nat) (h : Formed s) : Formed (s.writeResult t c n) := by
  unfold State.writeResult
  grind [formed_writeScratch]

theorem lands_execGathComplete (t id : Nat) (h : Formed s) : Lands (execGathComplete t id s) := by
  unfold execGathComplete
  grind [lands_finishCommand, formed_writeResult]

theorem lands_execPartComplete (t id : Nat) (h : Formed s) : Lands (execPartComplete t id s) := by
  unfold execPartComplete
  grind [lands_finishCommand, formed_writeResult]

end

end Sys2Proof.Proofs
end

section
/-! SUPPORT. The canonical form of every memory, kept function by function: the fabric, collectives, and the matrix engine's words (O60). -/

namespace Sys2Proof.Proofs
open Machine Claims Laws

-- One proof after another: elaborated at once, the many of this part would each hold a thread.
set_option Elab.async false

section
variable {s : State}

/-! ### Machine/Engine -/

theorem forms_checkSpan (x : Span) : Forms (checkSpan x) := by
  unfold checkSpan
  grind [forms_here, forms_require, forms_bind, forms_get_bind, forms_pure]

theorem formed_beginCmd (t id : Nat) (h : Formed s) : Formed (s.beginCmd t id) := by
  unfold State.beginCmd
  grind [formed_failCmd, formed_advanceCmd]

theorem forms_startCommand (x : Issue) : Forms (startCommand x) := by
  unfold startCommand
  grind [forms_checkSpan, forms_here, forms_issueCommand, forms_hereScalar, forms_doneScalar, forms_upd, formed_beginCmd, forms_forIn, forms_bind,
      forms_pure]

theorem forms_descCommand (kind : CmdKind) (flag : BitVec 6) (sa : SReg) (fields : State → Cur → Team → List Byte → List (Nat × Bool))
    (spans : List Byte → List Span) :
    Forms (descCommand kind flag sa fields spans) := by
  unfold descCommand
  grind [forms_commandFlag, forms_here, forms_hereScalar, forms_readDesc, forms_checkFields, forms_startCommand, forms_bind, forms_get_bind]

theorem lands_execCpy (flag : BitVec 6) (sa : SReg) (h : Formed s) : Lands (execCpy flag sa s) := by
  unfold execCpy
  grind [lands_answer, forms_descCommand, forms_bind]

theorem lands_execGath (flag : BitVec 6) (sa : SReg) (h : Formed s) : Lands (execGath flag sa s) := by
  unfold execGath
  grind [lands_answer, forms_descCommand, forms_bind]

theorem lands_execPart (flag : BitVec 6) (sa : SReg) (h : Formed s) : Lands (execPart flag sa s) := by
  unfold execPart
  grind [lands_answer, forms_descCommand, forms_bind]

/-! ### Machine/Fabric -/

theorem forms_oneSided (kind : CmdKind) (flag : BitVec 6) (sa : SReg) : Forms (oneSided kind flag sa) := by
  unfold oneSided
  grind [forms_descCommand, forms_bind]

theorem lands_execPuts (flag : BitVec 6) (sa : SReg) (h : Formed s) : Lands (execPuts flag sa s) := by
  unfold execPuts
  grind [lands_answer, forms_oneSided, forms_bind]

theorem lands_execGet (flag : BitVec 6) (sa : SReg) (h : Formed s) : Lands (execGet flag sa s) := by
  unfold execGet
  grind [lands_answer, forms_oneSided, forms_bind]

theorem lands_execFabricRadd (flag : BitVec 6) (sa : SReg) (h : Formed s) : Lands (execFabricRadd flag sa s) := by
  unfold execFabricRadd
  grind [lands_answer, forms_oneSided, forms_bind]

theorem lands_execPutsComplete (t id : Nat) (h : Formed s) : Lands (execPutsComplete t id s) := by
  unfold execPutsComplete
  grind [lands_finishCommand]

theorem lands_execGetComplete (t id : Nat) (h : Formed s) : Lands (execGetComplete t id s) := by
  unfold execGetComplete
  grind [lands_finishCommand]

theorem lands_execFabricRaddComplete (t id : Nat) (h : Formed s) : Lands (execFabricRaddComplete t id s) := by
  unfold execFabricRaddComplete
  grind [lands_finishCommand]

theorem formed_merges (ps : List Part) (ty : Part → Nat) (adds : List (List Byte)) (h : Formed s) :
    Formed (ps.foldl (fun s p => (s.mergeAt p (ty p) adds).getD s) s) :=
  formed_foldl (fun _ p h => formed_getD (formed_mergeAt p (ty p) adds h) h) ps h

theorem formed_perform (op : FabricOp) (ps : List Part) (h : Formed s) : Formed (s.perform op ps).2 := by
  have hd := formed_dropLines ps h
  cases op with
  | read => exact h
  | write => exact formed_writeParts _ _ _ hd
  | atom => exact formed_writeParts _ _ _ hd
  | cas =>
    unfold State.perform
    dsimp only
    split
    · exact formed_writeParts _ _ _ hd
    · exact h
  | radd adds ty => exact formed_merges ps (fun _ => ty) adds hd
  | add kind b => exact formed_merges ps (fun _ => elemTy kind) [b] hd
  | signal v => exact formed_merges ps (fun _ => 6) [toBytes 8 v.toNat] hd

theorem formed_resolve (r : FabricReq) (h : Formed s) : Formed (s.resolve r).2 := by
  unfold State.resolve
  split
  · exact h
  dsimp only
  split
  · exact h
  · split <;> grind [formed_locate, formed_reportParts]

theorem formed_park (r : FabricReq) (h : Formed s) : Formed (s.park r) := by
  unfold State.park
  grind [formed_modDome]

theorem formed_reply (r : FabricReq) (nack : Option Nat) (data : List Byte) (h : Formed s) : Formed (s.reply r nack data) :=
  (settles_reply ..).formed h

theorem lands_execVcCreditReturn (port vc n : Nat) (h : Formed s) : Lands (execVcCreditReturn port vc n s) := by
  unfold execVcCreditReturn
  grind [formed_flush, formed_modDome, lands_next]

/-! ### Machine/Plane -/

theorem formed_modColl (t cmd : Nat) (f : Coll → Coll) (h : Formed s) : Formed (s.modColl t cmd f) :=
  (settles_modColl ..).formed h

theorem formed_modTile (t cmd i : Nat) (f : Tile → Tile) (h : Formed s) : Formed (s.modTile t cmd i f) :=
  (settles_modTile ..).formed h

theorem lands_waitFor (e : Event) (k : PlaneKey) (h : Formed s) : Lands (waitFor e k s) := by
  unfold waitFor
  grind [formed_later, lands_next]

theorem formed_sendRing (c : Coll) (k : PlaneKey) (vc bytes : Nat) (m : Msg) (h : Formed s) : Formed (s.sendRing c k vc bytes m) := by
  unfold State.sendRing
  grind [formed_sendOn]

theorem formed_ringCredit (k : PlaneKey) (vc bytes : Nat) (h : Formed s) : Formed (s.ringCredit k vc bytes) := by
  unfold State.ringCredit
  grind [formed_send]

theorem lands_arrival3 (k : PlaneKey) (mine : Bool) (e : Event) (f : State → Answer) (hf : ∀ s, Formed s → Lands (f s)) (h : Formed s) :
    Lands (arrival3 k mine e f s) := by
  unfold arrival3
  grind [formed_modDome, formed_ringCredit]

theorem lands_arrival (credit : State → State) (mine : Bool) (r : Answer) (hcredit : ∀ s, Formed s → Formed (credit s)) (hr : Lands r) :
    Lands (arrival credit mine s r) := by
  unfold arrival
  split
  next t =>
    have ht := hr t rfl
    refine lands_next ?_
    split
    · exact ht
    · exact hcredit t ht
  next => exact hr

theorem formed_touch (t cmd i : Nat) (h : Formed s) : Formed (s.touch t cmd i) :=
  (settles_touch ..).formed h

theorem formed_failColl (t : Nat) (c : Coll) (cause : Cause) (addr : Word) (detail : Nat) (h : Formed s) :
    Formed (s.failColl t c cause addr detail) := by
  unfold State.failColl
  grind [formed_post, formed_modColl]

theorem formed_sourceTile (t : Nat) (c : Coll) (i : Nat) (h : Formed s) : Formed (s.sourceTile t c i).2 := by
  unfold State.sourceTile
  grind [formed_readLoc, formed_sendRemote, formed_modColl, formed_failColl]

theorem formed_forgetTile (t cmd i : Nat) (h : Formed s) : Formed (s.forgetTile t cmd i) := by
  unfold State.forgetTile
  grind [formed_modColl]

theorem formed_freeBits (h : Formed s) : Formed (freeBits s).2 := by
  unfold freeBits
  grind [formed_mk]

theorem formed_markTile (t cmd i : Nat) (h : Formed s) : Formed (s.markTile t cmd i) :=
  (settles_markTile ..).formed h

theorem formed_finishTile (t cmd i : Nat) (h : Formed s) : Formed (s.finishTile t cmd i) := by
  have h : Formed { s with apart := s.apart.filter fun x => !(x.team == t && x.tile == some (cmd, i)) } := h
  unfold State.finishTile
  generalize { s with apart := s.apart.filter fun x => !(x.team == t && x.tile == some (cmd, i)) } = s at h
  dsimp only
  split
  next c a x _ _ _ =>
    split
    · exact formed_markTile _ _ _ h
    · generalize hq : State.landLoc a _ _ _ s = q
      have hl : Formed q.2 := hq ▸ formed_landLoc _ _ _ _ h
      have ho : ∀ p, q.1 = .ok p → Formed p.1 := hq ▸ formed_landLoc_ok _ _ _ _ h
      clear hq
      split
      · exact formed_modTile _ _ _ _ (ho _ rfl)
      · exact formed_markTile _ _ _ (ho _ rfl)
      · exact formed_modTile _ _ _ _ hl
      · exact formed_sendRemote _ _ (formed_modTile _ _ _ _ hl)
      · exact formed_failColl _ _ _ _ _ hl
  · exact h

theorem formed_sendFreeze (c : Coll) (k : PlaneKey) (f : Nat) (vals : List Int) (h : Formed s) : Formed (s.sendFreeze c k f vals) := by
  unfold State.sendFreeze
  grind [formed_sendRing, formed_foldl]

theorem formed_arbitrate (ctx t cmd i c pos : Nat) (detm : Bool) (h : Formed s) : Formed (s.arbitrate ctx t cmd i c pos detm) := by
  unfold State.arbitrate
  grind [formed_finishTile, formed_modTile, formed_sendFreeze, formed_post, formed_sendRing]

theorem formed_checkWant (ctx t cmd i : Nat) (h : Formed s) : Formed (s.checkWant ctx t cmd i) := by
  unfold State.checkWant
  grind [formed_arbitrate, formed_modTile, formed_foldl]

theorem formed_startColl (t ctx : Nat) (c : Coll) (h : Formed s) : Formed (s.startColl t ctx c) := by
  unfold State.startColl
  grind [formed_writeScratch, formed_modContext, formed_modTeam]

theorem formed_leadColl (ctx : Nat) (c : Coll) (h : Formed s) : Formed (s.leadColl ctx c) := by
  unfold State.leadColl
  grind [formed_post, formed_foldl]

theorem lands_execPlcl (flag : BitVec 6) (sa : SReg) (h : Formed s) : Lands (execPlcl flag sa s) := by
  refine lands_answer (forms_bind (forms_commandFlag flag) fun fl => forms_bind forms_here fun p => forms_bind forms_hereContext fun C =>
    forms_bind forms_hereScalar fun r => forms_bind (forms_readDesc ..) fun d => forms_bind (forms_checkFields _) fun _ => ?_) h
  split
  · exact forms_trap ..
  · exact forms_bind (forms_require ..) fun _ => forms_get_bind fun s _ => forms_when (forms_stallOn .queueFull) fun _ =>
      forms_bind (forms_issueCommand _) fun id => forms_get_bind fun s _ => forms_bind (forms_upd fun s h => formed_startColl _ _ _ h) fun _ =>
      forms_bind forms_hereScalar fun r => forms_bind (forms_doneScalar ..) fun _ => forms_upd fun s h => formed_leadColl _ _ h

theorem formed_endOdd (t : Nat) (c : Coll) (dev : Nat) (h : Formed s) : Formed (s.endOdd t c dev) := by
  unfold State.endOdd
  grind [formed_failColl, formed_modColl, formed_touch, formed_foldl]

theorem formed_fixTile (ctx t : Nat) (c : Coll) (i : Nat) (E : Int) (flags : Nat) (h : Formed s) : Formed (s.fixTile ctx t c i E flags) := by
  unfold State.fixTile
  grind [formed_touch, formed_modTile, formed_post, formed_foldl]

theorem formed_sendGathers (ctx : Nat) (c : Coll) (i : Nat) (vs : List Int) (h : Formed s) : Formed (s.sendGathers ctx c i vs) := by
  unfold State.sendGathers
  grind [formed_sendRing, formed_foldl]

theorem formed_convertOwn (ctx t : Nat) (c : Coll) (i : Nat) (vs : List Int) (h : Formed s) : Formed (s.convertOwn ctx t c i vs) := by
  unfold State.convertOwn
  grind [formed_modTile, formed_checkWant, formed_touch, formed_sendGathers, formed_finishTile]

theorem lands_headerHere (k : PlaneKey) (x : HeaderBody) (h : Formed s) : Lands (headerHere k x s) := by
  unfold headerHere
  split
  · exact lands_waitFor _ _ h
  next t c _ =>
    extract_lets dev i p own forward again y
    have hforward (x : HeaderBody) (s : State) (h : Formed s) : Formed (forward x s) := by grind [formed_sendRing]
    have hagain : Lands again := lands_next (formed_later _ h)
    clear_value dev i p own y forward again
    repeat' split
    all_goals grind [formed_later, formed_endOdd, formed_fixTile, formed_modColl, formed_post, formed_convertOwn,
      formed_forgetTile, formed_sourceTile, formed_mk, lands_next]

theorem lands_execPlaneHeader (k : PlaneKey) (x : HeaderBody) (h : Formed s) : Lands (execPlaneHeader k x s) := by
  unfold execPlaneHeader
  grind [lands_arrival, formed_ringCredit, lands_headerHere]

theorem formed_ownBits (t : Nat) (c : Coll) (i plane : Nat) (E : Int) (h : Formed s) : Formed (s.ownBits t c i plane E).2 := by
  unfold State.ownBits
  grind [formed_sourceTile, formed_forgetTile, formed_freeBits]

theorem lands_countHere (k : PlaneKey) (plane : Nat) (counts : List Nat) (h : Formed s) : Lands (countHere k plane counts s) := by
  unfold countHere
  repeat' split
  all_goals grind [formed_later, formed_ownBits, formed_sendRing, formed_touch, formed_modTile, formed_checkWant, formed_finishTile,
      formed_sendGathers, lands_waitFor, lands_next]

theorem lands_execCountPlane (k : PlaneKey) (plane : Nat) (counts : List Nat) (h : Formed s) : Lands (execCountPlane k plane counts s) := by
  unfold execCountPlane
  grind [lands_arrival, formed_ringCredit, lands_countHere]

theorem lands_gatherHere (k : PlaneKey) (plane : Nat) (vals : List Int) (h : Formed s) : Lands (gatherHere k plane vals s) := by
  unfold gatherHere
  grind [formed_later, formed_sendRing, formed_modTile, formed_touch, formed_finishTile, lands_waitFor, lands_next]

theorem lands_execGatherPlane (k : PlaneKey) (plane : Nat) (vals : List Int) (h : Formed s) : Lands (execGatherPlane k plane vals s) := by
  unfold execGatherPlane
  grind [lands_arrival, formed_ringCredit, lands_gatherHere]

theorem lands_cancelHere (k : PlaneKey) (c pos : Nat) (detm : Bool) (h : Formed s) : Lands (cancelHere k c pos detm s) := by
  unfold cancelHere
  grind [formed_sendRing, formed_later, formed_arbitrate, lands_waitFor, lands_next]

theorem lands_execCancelRequest (k : PlaneKey) (c pos : Nat) (detm : Bool) (h : Formed s) : Lands (execCancelRequest k c pos detm s) := by
  unfold execCancelRequest
  grind [lands_arrival3, lands_cancelHere]

theorem lands_freezeHere (k : PlaneKey) (f : Nat) (vals : List Int) (h : Formed s) : Lands (freezeHere k f vals s) := by
  unfold freezeHere
  grind [formed_sendFreeze, formed_later, formed_finishTile, formed_modTile, lands_waitFor, lands_next]

theorem lands_execFreeze (k : PlaneKey) (f : Nat) (vals : List Int) (h : Formed s) : Lands (execFreeze k f vals s) := by
  unfold execFreeze
  grind [lands_arrival3, lands_arrival, formed_ringCredit, lands_freezeHere, formed_foldl]

theorem lands_answerHere (k : PlaneKey) (r : CancelReply) (h : Formed s) : Lands (answerHere k r s) := by
  unfold answerHere
  grind [formed_sendRing, formed_modGroup, lands_next, lands_refused]

theorem lands_execCancelAnswer (k : PlaneKey) (r : CancelReply) (h : Formed s) : Lands (execCancelAnswer k r s) := by
  unfold execCancelAnswer
  grind [lands_arrival3, lands_answerHere]

theorem forms_hereTile (area : Word) (j : Nat) : Forms (hereTile area j) := by
  unfold hereTile
  grind [forms_here, forms_trap, forms_require, forms_bind, forms_pure]

theorem lands_execPlcn (sd sa sb : SReg) (h : Formed s) : Lands (execPlcn sd sa sb s) := by
  unfold execPlcn
  grind [lands_answer, forms_hereScalar, forms_hereTile, forms_doneScalar, forms_bind]

theorem lands_execPlwt (sd sa sb : SReg) (h : Formed s) : Lands (execPlwt sd sa sb s) := by
  unfold execPlwt
  grind [lands_answer, forms_here, forms_hereScalar, forms_hereTile, forms_hereAgent, forms_upd, formed_acquire, forms_doneScalar, forms_parkOn,
      forms_bind, forms_pure]

theorem lands_execPlval (flag : BitVec 6) (sa sb : SReg) (h : Formed s) : Lands (execPlval flag sa sb s) := by
  unfold execPlval
  grind [lands_answer, forms_commandFlag, forms_hereScalar, forms_hereLaunch, forms_require, forms_hereTile, forms_startCommand, forms_bind]

theorem lands_execPlvalViewWrite (t id : Nat) (h : Formed s) : Lands (execPlvalViewWrite t id s) := by
  unfold execPlvalViewWrite
  split
  next v a _ _ =>
    dsimp only
    split
    · exact lands_next h
    next c _ =>
      split
      · exact lands_next h
      next x _ =>
        split
        · exact lands_next h
        split
        · exact lands_next (formed_dropCmd _ _ h)
        · generalize hl : State.landLoc a _ _ _ s = l
          have hs : Formed l.2 := hl ▸ formed_landLoc _ _ _ _ h
          have ho : ∀ p, l.1 = .ok p → Formed p.1 := hl ▸ formed_landLoc_ok _ _ _ _ h
          clear hl
          split
          · exact lands_next (formed_modCmd _ _ _ (ho _ rfl))
          · exact lands_next (formed_dropCmd _ _ (ho _ rfl))
          · exact lands_next (formed_modCmd _ _ _ hs)
          · exact lands_next (formed_askPiece _ _ _ _ _ _ _ _ (formed_modCmd _ _ _ hs))
          · exact lands_next (formed_failCmd _ _ _ _ _ hs)
  · exact lands_next h

theorem lands_execPlcx (sd sa sb : SReg) (h : Formed s) : Lands (execPlcx sd sa sb s) := by
  refine lands_answer (forms_bind forms_here fun p => forms_bind forms_hereLaunch fun L => forms_bind forms_hereContext fun C =>
    forms_bind forms_hereScalar fun r => forms_bind (forms_require ..) fun _ => forms_bind (forms_hereTile ..) fun q => ?_) h
  grind [forms_bind, forms_upd, formed_modGroup, formed_mk, formed_foldl, formed_post, formed_sendRing, forms_stallOn, forms_require,
    forms_doneScalar]

theorem formed_tellRing (x : Comm) (k : PlaneKey) (pos : Nat) (h : Formed s) : Formed (s.tellRing x k pos) := by
  unfold State.tellRing
  grind [formed_sendOn]

theorem formed_breakColl (t : Nat) (c : Coll) (h : Formed s) : Formed (s.breakColl t c) := by
  unfold State.breakColl
  grind [formed_modColl, formed_finishTile, formed_modTile, formed_report, formed_post, formed_foldl]

theorem formed_breakComm (k : PlaneKey) (h : Formed s) : Formed (s.breakComm k) := by
  unfold State.breakComm
  grind [formed_breakColl, formed_foldl]

theorem formed_portDown (port : Nat) (h : Formed s) : Formed (s.portDown port) := by
  unfold State.portDown
  grind [formed_report, formed_modDome, formed_post, formed_tellRing, formed_breakComm, formed_foldl]

theorem lands_ringDownHere (k : PlaneKey) (pos : Nat) (h : Formed s) : Lands (ringDownHere k pos s) := by
  unfold ringDownHere
  grind [formed_breakComm, formed_tellRing, formed_later, lands_next]

theorem lands_execLinkDown (x : LinkLoss) (h : Formed s) : Lands (execLinkDown x s) := by
  unfold execLinkDown
  grind [formed_portDown, lands_arrival3, lands_ringDownHere, lands_next]

theorem lands_execLinkRestored (port : Nat) (h : Formed s) : Lands (execLinkRestored port s) := by
  unfold execLinkRestored
  grind [formed_flush, formed_modDome, lands_next]

/-! ### Machine/Matrix -/

theorem lands_execObres (sd sa sb : SReg) (h : Formed s) : Lands (execObres sd sa sb s) := by
  refine lands_answer (forms_bind forms_hereScalar fun r => forms_bind (forms_readDesc ..) fun d => forms_bind forms_here fun p =>
    forms_bind (forms_require ..) fun _ => forms_bind (forms_checkFields _) fun _ => forms_get_bind fun s _ => ?_) h
  grind [forms_bind, forms_upd, formed_modTeam, formed_mk, forms_doneScalar]

theorem lands_execObrel (sa : SReg) (h : Formed s) : Lands (execObrel sa s) := by
  unfold execObrel
  grind [lands_answer, forms_hereScalar, forms_here, forms_require, forms_upd, formed_modTeam, formed_mk, forms_doneScalar, forms_stallOn, forms_bind,
      forms_pure, forms_set]

theorem formed_loadTable (ctx core n : Nat) (b : List Byte) (h : Formed s) : ∀ t, s.loadTable ctx core n b = some t → Formed t := by
  intro t ht
  obtain ⟨k, -, rfl⟩ := Option.map_eq_some_iff.1 ht
  exact formed_modCore _ _ h

theorem lands_execCtab (sa sb : SReg) (h : Formed s) : Lands (execCtab sa sb s) := by
  refine lands_answer (forms_bind forms_hereScalar fun r => forms_bind forms_here fun p => forms_bind forms_hereContext fun C =>
    forms_bind (forms_require ..) fun _ => forms_get_bind fun s _ => forms_when (forms_stallOn .remote) fun _ =>
    forms_bind (forms_checkAccess ..) fun hits => forms_bind forms_hereAgent fun a => forms_bind (forms_forIn (fun h _ => ?_) _ _) fun _ => ?_) h
  · refine forms_get_bind fun s _ => forms_when_bind (forms_reportHits hits) (fun _ => forms_stallOn .page) fun _ => ?_
    split
    · grind [forms_bind, forms_here, forms_upd, formed_sendRemote, forms_stallOn, forms_doneScalar, forms_pure]
    · refine forms_bind (forms_readsLate ..) fun late => ?_
      grind [forms_bind, forms_get_bind, formed_loadTable, forms_trap, forms_set, forms_doneScalar, forms_pure]
  · grind [forms_pure]

theorem forms_matrixEnter (i : Instr) (w : LaneWord) (more : LaneCtx → Bool) : Forms (matrixEnter i w more) := by
  unfold matrixEnter
  grind [forms_laneEnter, forms_trap, forms_require, forms_bind, forms_pure]

theorem lands_matrixRun (i : Instr) (w : LaneWord) (more : LaneCtx → Bool) (eff : LaneCtx → M Unit) (heff : ∀ x, Forms (eff x)) (h : Formed s) :
    Lands (matrixRun i w more eff s) := by
  unfold matrixRun
  grind [lands_answer, forms_matrixEnter, forms_here, forms_retireLane, forms_bind, forms_pure]

theorem forms_mmaIssue (i : Instr) (w : LaneWord) (x : LaneCtx) : Forms (mmaIssue i w x) := by
  unfold mmaIssue
  split
  case h_2 => exact forms_trap ..
  extract_lets -underBinder +onlyGivenNames o
  split
  case h_2 => exact forms_trap ..
  refine forms_bind (forms_require ..) fun _ => forms_bind (forms_require ..) fun _ => forms_get_bind fun s _ => ?_
  extract_lets -underBinder +onlyGivenNames tabs tab
  refine forms_bind (forms_require ..) fun _ => ?_
  dsimp -zeta only
  extract_lets -underBinder +onlyGivenNames issue
  have hissue (l : Latch) : Forms (issue l) := by
    refine forms_get_bind fun s _ => forms_when (forms_stallOn .engine) fun _ => ?_
    grind [forms_bind, forms_get_bind, forms_stallOn, forms_upd, formed_modTeam, formed_mk, formed_modGroup, formed_post, forms_pure]
  clear_value issue
  grind [forms_bind, forms_trap, forms_checkRegs, forms_stallOn, forms_pure]

theorem lands_execMma (w : LaneWord) (h : Formed s) : Lands (execMma w s) := by
  unfold execMma
  grind [lands_matrixRun, forms_mmaIssue]

theorem lands_execMmaKreg (w : LaneWord) (h : Formed s) : Lands (execMmaKreg w s) := by
  unfold execMmaKreg
  grind [lands_matrixRun, forms_mmaIssue]

theorem formed_dropMma (t g : Nat) (m : Mma) (h : Formed s) : Formed (s.dropMma t g m) := by
  unfold State.dropMma
  grind [formed_modGroup, formed_settleTeam, formed_modTeam]

theorem lands_execMmaComplete (t g id : Nat) (h : Formed s) : Lands (execMmaComplete t g id s) := by
  unfold execMmaComplete
  repeat' split
  all_goals grind [formed_post, formed_dropMma, formed_modGroup, formed_holdTrap, lands_next]

theorem lands_execMfen (w : LaneWord) (h : Formed s) : Lands (execMfen w s) := by
  unfold execMfen
  grind [lands_controlRun, forms_roomToPush, forms_upd, formed_modGroup, forms_pushEntry, forms_retireLane, forms_bind, forms_pure]

theorem lands_mwaitRun (i : Instr) (n : LaneCtx → LaneWord → BitVec 32) (h : Formed s) : Lands (mwaitRun i n s) := by
  unfold mwaitRun
  grind [lands_controlRun, forms_require, forms_retireLane, forms_stallOn, forms_bind, forms_pure]

end

end Sys2Proof.Proofs
end

section
/-! SUPPORT. The canonical form of every memory, kept function by function: tiles, the Spire, answers, wakes, coherence, cross-lane words (O60). -/

namespace Sys2Proof.Proofs
open Machine Claims Laws

-- One proof after another: elaborated at once, the many of this part would each hold a thread.
set_option Elab.async false

section
variable {s : State}

/-! ### Machine/Matrix -/

theorem lands_execMwait (w : LaneWord) (h : Formed s) : Lands (execMwait w s) := by
  unfold execMwait
  grind [lands_mwaitRun]

theorem lands_execMwaitLast (w : LaneWord) (h : Formed s) : Lands (execMwaitLast w s) := by
  unfold execMwaitLast
  grind [lands_mwaitRun, forms_bind, forms_pure]

theorem forms_tileReady (x : LaneCtx) (tile : Nat) : Forms (tileReady x tile) := by
  unfold tileReady
  grind [forms_stallOn, forms_bind, forms_pure]

theorem lands_execMzero (w : LaneWord) (h : Formed s) : Lands (execMzero w s) := by
  unfold execMzero
  grind [lands_matrixRun, forms_tileReady, forms_upd, formed_modGroup, formed_mk, forms_bind]

theorem forms_mstReady (i : Instr) (w : LaneWord) (x : LaneCtx) : Forms (mstReady i w x) := by
  unfold mstReady
  grind [forms_trap, forms_checkRegs, forms_tileReady, forms_stallOn, forms_bind, forms_pure]

theorem forms_mstStore (i : Instr) (w : LaneWord) (size align kind : Nat) (bytes : List Acc → List Byte) (x : LaneCtx) :
    Forms (mstStore i w size align kind bytes x) := by
  unfold mstStore
  grind [forms_mstReady, forms_laneStore, forms_bind]

theorem lands_execMstRnd (w : LaneWord) (h : Formed s) : Lands (execMstRnd w s) := by
  unfold execMstRnd
  grind [lands_matrixRun, forms_mstStore]

theorem lands_execMstRaw (w : LaneWord) (h : Formed s) : Lands (execMstRaw w s) := by
  unfold execMstRaw
  grind [lands_matrixRun, forms_mstStore, forms_bind]

theorem lands_execMstAdd (w : LaneWord) (h : Formed s) : Lands (execMstAdd w s) := by
  unfold execMstAdd
  grind [lands_matrixRun, forms_mstReady, forms_checkAccess, forms_laneAdds, forms_bind]

/-! ### Machine/Spire -/

theorem forms_spireRegions (x : LaneCtx) (rs : List Req) : Forms (spireRegions x rs) := by
  unfold spireRegions
  grind [forms_trapReqs, forms_bind]

theorem forms_spireRead (x : LaneCtx) (off n : Nat) : Forms (spireRead x off n) := by
  unfold spireRead
  grind [forms_trap, forms_bind, forms_get_bind, forms_pure]

theorem forms_spireRecord (x : LaneCtx) (off : Nat) (b : List Byte) : Forms (spireRecord x off b) := by
  unfold spireRecord
  grind [forms_checkFields, forms_spireRead, forms_bind, forms_pure]

theorem forms_spireOffsets (x : LaneCtx) (w : LaneWord) (reads merge : Bool) : Forms (spireOffsets x w reads merge) := by
  unfold spireOffsets
  grind [forms_spireRegions, forms_stallOn, forms_checkAccess, forms_bind, forms_pure]

theorem lands_spireRun (i : Instr) (w : LaneWord) (reads merge : Bool) (checks : LaneCtx → Nat → Nat → M SpireIssue)
    (hchecks : ∀ x i j, Forms (checks x i j)) (h : Formed s) : Lands (spireRun i w reads merge checks s) := by
  refine lands_answer (forms_bind (forms_laneEnter ..) fun e => ?_) h
  split
  · exact forms_bind forms_here fun p => forms_retireLane _
  · exact forms_bind (forms_laneChecks ..) fun _ => forms_bind (forms_spireOffsets ..) fun p => forms_bind (hchecks _ p.1 p.2) fun y =>
      forms_get_bind fun s _ => forms_when (forms_stallOn .queueFull) fun _ => forms_when (forms_stallOn .lock) fun _ =>
      forms_bind (forms_releaseLanes _) fun _ =>
      forms_bind (forms_upd fun s h => formed_post _ (formed_modCore _ _ (formed_modGroup _ _ _ (formed_modTeam _ _ (fun _ => rfl) h)))) fun _ =>
      forms_retireLane _

theorem lands_execVpjs (w : LaneWord) (h : Formed s) : Lands (execVpjs w s) := by
  unfold execVpjs
  grind [lands_spireRun, forms_spireRead, forms_spireRegions, forms_checkFields, forms_bind, forms_pure]

theorem forms_streamChecks (x : LaneCtx) (a : Nat) (d : List Byte) (back : Bool) : Forms (streamChecks x a d back) := by
  unfold streamChecks
  grind [forms_spireRead, forms_spireRegions, forms_spireRecord, forms_checkFields, forms_bind, forms_pure]

theorem lands_execVpjr (w : LaneWord) (h : Formed s) : Lands (execVpjr w s) := by
  unfold execVpjr
  grind [lands_spireRun, forms_spireRead, forms_streamChecks, forms_require, forms_bind, forms_pure]

theorem lands_execVpjm (w : LaneWord) (h : Formed s) : Lands (execVpjm w s) :=
  lands_spireRun _ _ _ _ _ (fun x a b => forms_bind (forms_spireRead x a 256) fun p => forms_bind (forms_spireRead x b 256) fun q =>
    forms_bind (forms_spireRegions ..) fun _ => forms_bind (forms_spireRecord ..) fun r => forms_bind (forms_spireRecord ..) fun q =>
    forms_bind (forms_require ..) fun _ => forms_bind (forms_require ..) fun _ => forms_pure _) h

theorem lands_execVpjx (w : LaneWord) (h : Formed s) : Lands (execVpjx w s) := by
  unfold execVpjx
  grind [lands_spireRun, forms_spireRead, forms_spireRegions, forms_spireRecord, forms_checkFields, forms_bind, forms_pure]

theorem lands_execVpjb (w : LaneWord) (h : Formed s) : Lands (execVpjb w s) := by
  unfold execVpjb
  grind [lands_spireRun, forms_spireRead, forms_streamChecks, forms_bind, forms_pure]

theorem formed_spireBytes (a : Agent) (c : Cmd) (va : Int) (len : Nat) (h : Formed s) : Formed (s.spireBytes a c va len).2 := by
  unfold State.spireBytes
  grind [formed_readLoc]

theorem formed_spireRow (a : Agent) (c : Cmd) (r : SpireRec) (n : Nat) (h : Formed s) : Formed (s.spireRow a c r n).2 := by
  unfold State.spireRow
  grind [formed_spireBytes]

theorem formed_spireLogits (a : Agent) (c : Cmd) (r : SpireRec) (x : List FVal) (k n : Nat) (h : Formed s) :
    Formed (s.spireLogits a c r x k n).2 := by
  induction k generalizing n s with
  | zero => exact h
  | succ k ih => grind [State.spireLogits, formed_spireRow]

theorem formed_dropSpire (core t id : Nat) (h : Formed s) : Formed (s.dropSpire core t id) := by
  unfold State.dropSpire
  grind [formed_modCore]

theorem formed_endSpire (core t id : Nat) (h : Formed s) : Formed (s.endSpire core t id) := by
  unfold State.endSpire
  grind [formed_dropCmd, formed_dropSpire]

theorem formed_waitSpire (t : Nat) (c : Cmd) (h : Formed s) : Formed (s.waitSpire t c) := by
  unfold State.waitSpire
  grind [formed_modCmd]

theorem formed_askSpire (t : Nat) (c : Cmd) (dev off va len : Nat) (h : Formed s) : Formed (s.askSpire t c dev off va len) := by
  unfold State.askSpire
  grind [formed_sendRemote, formed_modCmd]

theorem formed_failSpire (core t : Nat) (c : Cmd) (cause : Cause) (addr : Word) (detail : Nat) (h : Formed s) :
    Formed (s.failSpire core t c cause addr detail) :=
  (settles_failSpire ..).formed h

theorem formed_gradPart (a : Agent) (va : Int) (h : Formed s) : Formed (s.gradPart a va).2 := by
  unfold State.gradPart
  grind [formed_engineLocate]

theorem formed_gradRow (a : Agent) (vas : List Int) (h : Formed s) : Formed (s.gradRow a vas).2 := by
  induction vas generalizing s with
  | nil => exact h
  | cons va vas ih => grind [State.gradRow, formed_gradPart]

theorem formed_waitOutput (t : Nat) (c : Cmd) (h : Formed s) : Formed (s.waitOutput t c) := by
  unfold State.waitOutput
  grind [formed_modCmd]

theorem formed_putOutput (t : Nat) (c : Cmd) (accs : List (List Block)) (h : Formed s) : Formed (s.putOutput t c accs) := by
  unfold State.putOutput
  grind [formed_putApart, formed_waitOutput]

theorem formed_addGrads (t : Nat) (c : Cmd) (δ : FVal) (x w : List FVal) (ps : List (Option Part × Nat × Nat)) (h : Formed s) :
    Formed (s.addGrads t c δ x w ps) := by
  refine formed_foldl (fun s hp h => ?_) _ (formed_putOutput _ _ _ h)
  dsimp only
  split
  · exact formed_getD (formed_mergeAt _ _ _ h) h
  · exact formed_askPiece _ _ _ _ _ _ _ _ h

theorem formed_spireBack (a : Agent) (core t id : Nat) (r : SpireRec) (x : List FVal) (k : Nat) (h : Formed s) :
    Formed (s.spireBack a core t id r x k) := by
  induction k generalizing s with
  | zero => exact h
  | succ k ih =>
    unfold State.spireBack
    repeat' split
    all_goals grind [formed_endSpire, formed_spireRow, formed_waitSpire, formed_askSpire, formed_failSpire, formed_modCmd, formed_gradRow,
      formed_addGrads]

theorem formed_blurSpill (t : Nat) (r : SpireRec) (stamp : Nat) (h : Formed s) : Formed (s.blurSpill t r stamp) := by
  unfold State.blurSpill
  grind [formed_writeScratch, formed_mk]

theorem formed_finishSpire (core t : Nat) (c : Cmd) (off : Nat) (b : List Byte) (h : Formed s) : Formed (s.finishSpire core t c off b) := by
  unfold State.finishSpire
  grind [formed_putApart, formed_waitOutput, formed_endSpire]

theorem formed_extracted (core t : Nat) (a : Agent) (c : Cmd) (b : List Byte) (h : Formed s) : Formed
    (match s.landLoc a (c.output t) (.global (fld c.desc 0 8)) b with
      | (.ok (s', true), _) => s'.waitOutput t c
      | (.ok (s', false), _) => s'.endSpire core t c.id
      | (.wait, s) => s.waitSpire t c
      | (.peer dev off, s) =>
        if c.pos = 0 then (s.modCmd t c.id fun c => { c with pos := 1 }).askPiece t c 0 dev off b.length false (.write b)
        else s.endSpire core t c.id
      | (.fault cause x d, s) => s.failSpire core t c cause x d) := by
  have hl := formed_landLoc a (c.output t) (.global (fld c.desc 0 8)) b h
  have ho := formed_landLoc_ok a (c.output t) (.global (fld c.desc 0 8)) b h
  split <;> rename_i he <;> simp only [he] at hl ho
  · exact formed_waitOutput _ _ (ho _ rfl)
  · exact formed_endSpire _ _ _ (ho _ rfl)
  · exact formed_waitSpire _ _ hl
  · grind [formed_modCmd, formed_askPiece, formed_endSpire]
  · exact formed_failSpire _ _ _ _ _ _ hl

theorem formed_runSpire (a : Agent) (core t : Nat) (c : Cmd) (h : Formed s) : Formed (s.runSpire a core t c) := by
  unfold State.runSpire
  extract_lets -underBinder +onlyGivenNames r finish reads
  have hfinish (b : List Byte) (s : State) (h : Formed s) : Formed (finish b s) := formed_finishSpire core t c c.srec b h
  clear_value r finish reads
  split
  · exact formed_failSpire _ _ _ _ _ _ h
  extract_lets -underBinder +onlyGivenNames x
  split
  · exact hfinish _ _ h
  · exact hfinish _ _ (formed_blurSpill _ _ _ h)
  · have h' : Formed { s with free := s.free + r.heap.length } := h
    generalize { s with free := s.free + r.heap.length } = u at h'
    dsimp only
    split
    · exact formed_finishSpire _ _ _ _ _ h'
    split
    · exact formed_failSpire _ _ _ _ _ _ h'
    · exact formed_extracted core t a c _ h'
  · exact formed_spireBack _ _ _ _ _ _ _ h
  · grind [formed_spireLogits, formed_blurSpill, formed_waitSpire, formed_askSpire, formed_failSpire]

theorem lands_execSpireComplete (core : Nat) (h : Formed s) : Lands (execSpireComplete core s) := by
  unfold execSpireComplete
  grind [formed_dropSpire, formed_runSpire, formed_post, lands_next]

theorem formed_answerSpire (t : Nat) (c : Cmd) (rd : Bool) (va : Nat) (nack : Option (Cause × Word × Nat)) (b : List Byte) (h : Formed s) :
    Formed (s.answerSpire t c rd va nack b) :=
  (settles_answerSpire ..).formed h

/-! ### Machine/FabricAnswer -/

theorem formed_answerWaita (r : Remote) (st : Stream) (sd code : Nat) (v : Word) (g : ScalarRegs) (h : Formed s) :
    Formed (s.answerWaita r st sd code v g) := by
  have hm (f : Group → Group) := formed_modGroup r.team r.grp f h
  unfold State.answerWaita
  dsimp only
  repeat' split
  next => exact h
  next he => exact formed_post _ (forms_ok (forms_parkOn ..) (hm _) he)
  next he => exact forms_error (forms_parkOn ..) (hm _) he
  next => exact formed_retireScalar _ (hm _)

theorem formed_landScalar (t sd ext : Nat) (b : List Byte) (g : ScalarRegs) (h : Formed s) : Formed (s.landScalar t sd ext b g) :=
  (settles_landScalar ..).formed h

theorem formed_answerScalar (r : Remote) (x : Stream × Nat × Nat) (f : FabricResp) (h : Formed s) : Formed (s.answerScalar r x f) := by
  unfold State.answerScalar
  grind [formed_mk, formed_acquireFor, formed_takeTrap, formed_retireScalar, formed_answerWaita, formed_landScalar, formed_elim]

theorem formed_answerColl (r : Remote) (c : Coll) (f : FabricResp) (h : Formed s) : Formed (s.answerColl r c f) := by
  unfold State.answerColl
  grind [formed_failColl, formed_modColl, formed_markTile]

theorem formed_answerCmd (r : Remote) (id : Nat) (f : FabricResp) (h : Formed s) : Formed (s.answerCmd r id f) := by
  unfold State.answerCmd
  grind [formed_modCmd, formed_answerSpire, formed_post, formed_advanceCmd, formed_deliver, formed_advanceCursor, formed_landed]

theorem formed_answerCredit (port n : Nat) (h : Formed s) : Formed (s.answerCredit port n) := by
  unfold State.answerCredit
  grind [formed_send]

theorem formed_answerRemote (f : FabricResp) (r : Remote) (h : Formed s) : Formed (answerRemote f r s) := by
  unfold answerRemote
  grind [formed_answerCredit, formed_answerScalar, formed_answerColl, formed_answerCmd, formed_pieceLost, formed_pieceLoaded, formed_storeLost,
      formed_pieceStored, formed_holdTrap, formed_modGroup]

theorem lands_execFabricResponse (f : FabricResp) (h : Formed s) : Lands (execFabricResponse f s) := by
  unfold execFabricResponse
  grind [formed_settleTeam, formed_answerRemote, formed_mk, formed_answerCredit, formed_modDome, lands_next]

/-! ### Machine/Apart -/

theorem formed_performApart (x : Apart) (h : Formed s) : Formed (s.performApart x) :=
  (settles_performApart ..).formed h

theorem formed_settleApart (p : Apart → Bool) (h : Formed s) : Formed (s.settleApart p) := by
  unfold State.settleApart
  grind [formed_performApart, formed_mk, formed_foldl]

theorem formed_settleWrites (t : Nat) (h : Formed s) : Formed (s.settleWrites t) := by
  unfold State.settleWrites
  grind [formed_settleApart]

theorem formed_settleAll (t : Nat) (h : Formed s) : Formed (s.settleAll t) := by
  unfold State.settleAll
  grind [formed_settleApart]

theorem formed_serveRequest (r : FabricReq) (ps : List Part) (h : Formed s) : Formed (s.serveRequest r ps) := by
  unfold State.serveRequest
  grind [formed_putApart, formed_dropLines, formed_reply, formed_readsApart, formed_perform]

theorem lands_execFabricRequest (r : FabricReq) (h : Formed s) : Lands (execFabricRequest r s) := by
  unfold execFabricRequest
  grind [formed_settleApart, formed_park, formed_resolve, formed_reply, formed_serveRequest, lands_next]

/-! ### Machine/Wake -/

theorem lands_waitAgain (i : Instr) (h : Formed s) : Lands (waitAgain i s) := by
  unfold waitAgain
  grind [lands_execWaita, lands_execSwait, lands_execSbarw, lands_execPlwt, lands_execLaneWaita, lands_execLaneSwait, lands_execBarw, lands_execCbarw,
      lands_next]

theorem lands_leavePark (t g : Nat) (p : Park) (detm : Nat) (h : Formed s) : Lands (leavePark t g p detm s) := by
  unfold leavePark
  grind [lands_waitAgain, formed_modGroup, formed_mk, lands_next]

theorem lands_execParkWake (t g : Nat) (h : Formed s) : Lands (execParkWake t g s) := by
  unfold execParkWake
  grind [formed_modGroup, lands_leavePark, lands_next]

theorem lands_execWaitaTimeout (t g : Nat) (h : Formed s) : Lands (execWaitaTimeout t g s) := by
  unfold execWaitaTimeout
  grind [lands_leavePark, lands_next]

/-! ### Machine/Retry -/

theorem formed_loseEntry (e : LogEntry) (cause : Cause) (addr : Word) (info : Nat) (h : Formed s) : Formed (s.loseEntry e cause addr info) := by
  unfold State.loseEntry
  grind [formed_storeLost, formed_pieceLost]

theorem formed_performEntry (e : LogEntry) (ps : List Part) (h : Formed s) : Formed (s.performEntry e ps) := by
  unfold State.performEntry
  grind [formed_pieceStored, formed_writeParts, formed_pieceLoaded]

theorem formed_retryEntry (e : LogEntry) (h : Formed s) : Formed (s.retryEntry e).2 := by
  unfold State.retryEntry
  grind [formed_locate, formed_loseEntry, formed_reportParts, formed_performEntry]

theorem formed_retryEntries (asid : Option Nat) (es : List LogEntry) (stopped : List (Nat × Nat × Nat)) (h : Formed s) :
    Formed (retryEntries asid es stopped s).2 := by
  induction es generalizing stopped s with
  | nil => exact h
  | cons e es ih => grind [retryEntries, formed_retryEntry]

theorem formed_retryLog (asid : Option Nat) (core : Nat) (h : Formed s) : Formed (s.retryLog asid core) := by
  unfold State.retryLog
  grind [formed_retryEntries, formed_modCore]

theorem formed_retryCmd (t : Nat) (c : Cmd) (h : Formed s) : Formed (s.retryCmd t c) := by
  unfold State.retryCmd
  grind [formed_post, formed_modCmd, formed_advanceCmd]

theorem formed_retryColl (t : Nat) (c : Coll) (h : Formed s) : Formed (s.retryColl t c) := by
  unfold State.retryColl
  grind [formed_finishTile, formed_foldl]

theorem formed_retryTeam (t : Nat) (h : Formed s) : Formed (s.retryTeam t) := by
  unfold State.retryTeam
  grind [formed_modTeam, formed_retryColl, formed_retryCmd, formed_foldl]

theorem formed_retryQueues (asid : Option Nat) (h : Formed s) : Formed (s.retryQueues asid) := by
  unfold State.retryQueues
  grind [formed_mk]

theorem formed_rearmTeam (t : Nat) (h : Formed s) : Formed (s.rearmTeam t) := by
  unfold State.rearmTeam
  grind [formed_modGroup, formed_post, formed_foldl]

theorem formed_retryWaits (asid : Option Nat) (h : Formed s) : Formed (s.retryWaits asid) := by
  unfold State.retryWaits
  grind [formed_flushWrites, formed_retryLog, formed_retryTeam, formed_retryQueues, formed_modDome, formed_mk, formed_foldl]

/-! ### Machine/Coherence -/

theorem lands_execDomeTlbi (v : Word) (h : Formed s) : Lands (execDomeTlbi v s) := by
  unfold execDomeTlbi
  grind [formed_modDome, formed_combine, formed_settleApart, formed_writeBack, formed_mk, formed_post, lands_next]

theorem lands_execTlbiComplete (h : Formed s) : Lands (execTlbiComplete s) := by
  unfold execTlbiComplete
  grind [formed_modDome, formed_retryWaits, formed_rearmTeam, formed_foldl, lands_next]

theorem formed_sweepLeaf (a : Nat) (h : Formed s) : Formed (sweepLeaf s a) := by
  unfold sweepLeaf
  grind [formed_devWrite]

theorem lands_execSweeperPass (h : Formed s) : Lands (execSweeperPass s) := by
  unfold execSweeperPass
  grind [formed_askBack, formed_sweepLeaf, formed_modDome, formed_foldl, lands_next]

theorem lands_execL1CleanExpiry (core asid line : Nat) (h : Formed s) : Lands (execL1CleanExpiry core asid line s) := by
  unfold execL1CleanExpiry
  grind [formed_modCore, lands_next]

theorem formed_hostRecall (pa len : Nat) (h : Formed s) : Formed (s.hostRecall pa len) := by
  unfold State.hostRecall
  grind [formed_recall, formed_devWrite, formed_foldl]

theorem formed_hostTake (line : Nat) (h : Formed s) : Formed (s.hostTake line) := by
  unfold State.hostTake
  grind [formed_modDome]

theorem lands_execHostAccess (r : HostReq) (h : Formed s) : Lands (execHostAccess r s) := by
  unfold execHostAccess
  grind [formed_send, formed_settleApart, formed_l2Access, formed_combine, formed_hostRecall, formed_dropLines, formed_writeMem, formed_hostTake,
      lands_next]

theorem lands_execHostSnoop (line : Nat) (inval : Bool) (h : Formed s) : Lands (execHostSnoop line inval s) := by
  unfold execHostSnoop
  grind [formed_send, formed_combine, formed_mk, lands_next]

theorem lands_execBackInvalidateResponse (line : Nat) (data : List Byte) (h : Formed s) : Lands (execBackInvalidateResponse line data s) := by
  unfold execBackInvalidateResponse
  grind [formed_writeMem, formed_retryWaits, formed_modDome, lands_next]

theorem lands_execCorePowerGating (core : Nat) (h : Formed s) : Lands (execCorePowerGating core s) := by
  unfold execCorePowerGating
  grind [formed_combine, formed_modCore, formed_writeBack, lands_next]

/-! ### Machine/CrossLane -/

theorem forms_pushIf (x : LaneCtx) (w : LaneWord) (v : Nat) : Forms (pushIf x w v) := by
  unfold pushIf
  grind [forms_pushEntry, forms_bind, forms_pure]

theorem forms_roomIf (x : LaneCtx) (w : LaneWord) : Forms (roomIf x w) := by
  unfold roomIf
  grind [forms_roomToPush, forms_bind, forms_pure]

theorem lands_execPollThr (w : LaneWord) (h : Formed s) : Lands (execPollThr w s) := by
  unfold execPollThr
  grind [lands_laneRun, forms_roomIf, forms_pushIf, forms_computes, forms_bind, forms_pure]

theorem lands_execPollMask (w : LaneWord) (h : Formed s) : Lands (execPollMask w s) := by
  unfold execPollMask
  grind [lands_laneRun, forms_roomIf, forms_pushIf, forms_writesV, forms_bind]

theorem lands_execPollRank (w : LaneWord) (h : Formed s) : Lands (execPollRank w s) := by
  unfold execPollRank
  grind [lands_laneRun, forms_roomIf, forms_pushIf, forms_writesV, forms_bind]

theorem lands_execKeyg (w : LaneWord) (h : Formed s) : Lands (execKeyg w s) := by
  unfold execKeyg
  grind [lands_laneRun, forms_roomIf, forms_pushIf, forms_writesV, forms_bind]

theorem lands_execLead (w : LaneWord) (h : Formed s) : Lands (execLead w s) := by
  unfold execLead
  grind [lands_laneRun, forms_roomIf, forms_pushIf, forms_upd, formed_modGroup, forms_bind]

theorem lands_execLpush (w : LaneWord) (h : Formed s) : Lands (execLpush w s) := by
  unfold execLpush
  grind [lands_laneRun, forms_roomToPush, forms_pushEntry, forms_bind]

theorem forms_moves (f : LaneCtx → LaneWord → Nat → Nat → Int) (x : LaneCtx) (w : LaneWord) : Forms (moves f x w) := by
  unfold moves
  grind [forms_checkRegs, forms_writesV, forms_bind]

theorem lands_execBcst (w : LaneWord) (h : Formed s) : Lands (execBcst w s) :=
  lands_laneRun _ _ (fun x w => forms_when (forms_checkRegs ..) fun _ => forms_writesV ..) h

end

end Sys2Proof.Proofs
end

section
/-! SUPPORT. The canonical form of every memory, kept function by function: the handler, launches, pair words, registers, the platform (O60). -/

namespace Sys2Proof.Proofs
open Machine Claims Laws

-- One proof after another: elaborated at once, the many of this part would each hold a thread.
set_option Elab.async false

section
variable {s : State}

/-! ### Machine/CrossLane -/

theorem lands_execGred (op : RedOp) (w : LaneWord) (h : Formed s) : Lands (execGred op w s) :=
  lands_laneRun _ _ (fun x w => forms_bind (forms_roomIf x w) fun _ => forms_bind (forms_pushIf ..) fun _ => forms_writesV ..) h

theorem lands_execGscan (op : RedOp) (excl : Bool) (w : LaneWord) (h : Formed s) : Lands (execGscan op excl w s) := by
  unfold execGscan
  grind [lands_laneRun, forms_writesV, forms_bind, forms_get_bind, forms_pure]

theorem lands_execGsync (w : LaneWord) (h : Formed s) : Lands (execGsync w s) := by
  unfold execGsync
  grind [lands_laneRun, forms_require, forms_stallOn, forms_bind, forms_get_bind, forms_pure]

/-! ### Machine/Handler -/

theorem lands_execHandlerEntry (t : Nat) (h : Formed s) : Lands (execHandlerEntry t s) := by
  unfold execHandlerEntry
  grind [formed_killTeam, formed_report, formed_enterHandler, formed_settleWrites, formed_rouse, formed_modTeam, lands_next]

theorem lands_execHang (t g : Nat) (h : Formed s) : Lands (execHang t g s) := by
  unfold execHang
  grind [formed_takeTrap, formed_mk, lands_next]

theorem lands_execOrderedOpRelease (t g : Nat) (h : Formed s) : Lands (execOrderedOpRelease t g s) := by
  unfold execOrderedOpRelease
  grind [formed_modGroup, lands_next]

theorem formed_dumpWrites (a : Agent) (t : Nat) (ws : List (Int × List Byte)) (n : Nat) (h : Formed s) : Formed (dumpWrites a t ws n s).2.2 := by
  induction ws generalizing n s with
  | nil => exact h
  | cons w ws ih => grind [dumpWrites, formed_writeLoc, formed_writeLoc_ok]

theorem formed_seal (C : Context) (start cause flags : Nat) (plain : List Byte) (h : Formed s) : Formed (s.seal C start cause flags plain).2 := by
  unfold State.seal
  grind [formed_mk]

theorem formed_envelope (t : Nat) (T : Team) (L : Launch) (C : Context) (flags n : Nat) (h : Formed s) : Formed (s.envelope t T L C flags n).2 := by
  unfold State.envelope
  grind [formed_seal]

theorem formed_cutDump (t buf made : Nat) (h : Formed s) : Formed (s.cutDump t buf made) := by
  have hw (a : Agent) (ws : List (Int × List Byte)) (s : State) (h : Formed s) : Formed (dumpWrites a t ws 0 s).2.2 := formed_dumpWrites a t ws 0 h
  unfold State.cutDump
  repeat' split
  next => exact h
  next T L C a _ _ _ _ _ _ _ _ _ he =>
    have hs := formed_envelope t T L C 2 (made - 1) h
    rw [he] at hs
    exact hw _ _ _ hs
  next => exact hw _ _ _ h
  next => exact h

theorem lands_execHandlerWdogExpiry (t : Nat) (h : Formed s) : Lands (execHandlerWdogExpiry t s) := by
  unfold execHandlerWdogExpiry
  grind [formed_doubleFault, formed_cutDump, lands_next]

/-- The end of an attempt to dump: it is complete, a fault cuts it, or it waits for a page. -/
theorem forms_dumpEnd (a : Agent) (t buf len : Nat) (steps : List (Int × List Byte)) (h : Formed s) : Forms (do
    match dumpWrites a t steps 0 s with
    | (_, .ok _, s) => set s; return len
    | (m, .fault cause _ _, s) => set ((s.cutDump t buf m).doubleFault t cause (if m = 0 then 0 else 2)); return 0
    | (m, _, s) =>
      set (s.modTeam t fun T => { T with handler := { T.handler with dump := some (buf, m) } })
      stallOn .page : M Nat) := by
  have hd := formed_dumpWrites a t steps 0 h
  split <;> rename_i he <;> rw [he] at hd
  · exact forms_bind (forms_set hd) fun _ => forms_pure _
  · exact forms_bind (forms_set (formed_doubleFault _ _ _ (formed_cutDump _ _ _ hd))) fun _ => forms_pure _
  · exact forms_bind (forms_set (formed_modTeam _ _ (fun _ => rfl) hd)) fun _ => forms_stallOn _

theorem forms_dumpInto (buf limit : Nat) : Forms (dumpInto buf limit) := by
  unfold dumpInto
  refine forms_bind forms_here fun p => forms_bind forms_hereLaunch fun L => forms_bind forms_hereContext fun C => forms_bind forms_hereAgent fun a =>
    forms_get_bind fun s h => ?_
  obtain ⟨c, T, G⟩ := p
  dsimp only
  generalize (if C.conf = true then 160 else 0) = wrap
  generalize fitSections _ _ _ = fit
  have he := formed_envelope c.team T L C (if fit.1 = 9 then 1 else 0) fit.1 h
  generalize hst : (ite (C.conf = true) _ _ : List (Int × List Byte) × State) = st
  have hs : Formed st.2 := by
    rw [← hst]
    split
    · exact he
    · exact h
  split
  · exact forms_pure _
  · exact forms_dumpEnd _ _ _ _ _ hs

theorem lands_execDump (sd sa sb : SReg) (h : Formed s) : Lands (execDump sd sa sb s) := by
  refine lands_answer (forms_bind forms_onlyInHandler fun _ => forms_bind forms_hereScalar fun r => forms_bind forms_here fun p =>
    forms_bind (forms_require ..) fun _ => ?_) h
  grind [forms_bind, forms_get_bind, forms_doneScalar, forms_dumpInto, forms_upd, formed_modTeam, forms_stallOn, forms_pure]

/-! ### Machine/Launch -/

theorem formed_readRange (a : Agent) (va len : Nat) (h : Formed s) : Formed (s.readRange a va len).2 := by
  unfold State.readRange
  grind [formed_locate, formed_reportParts]

theorem formed_readHandles (a : Agent) (d : List Byte) (h : Formed s) : Formed (s.readHandles a d).2 := by
  unfold State.readHandles
  grind [formed_readRange]

theorem formed_readRefill (a : Agent) (d : List Byte) (h : Formed s) : Formed (s.readRefill a d).2 := by
  unfold State.readRefill
  grind [formed_readRange]

theorem formed_readReplay (C : Context) (d : List Byte) (h : Formed s) : Formed (s.readReplay C d).2 := by
  unfold State.readReplay
  grind [formed_readRange]

theorem formed_takeRecord (C : Context) (va : Nat) (h : Formed s) : Formed (s.takeRecord C va).2 := by
  unfold State.takeRecord
  grind [formed_readRange, formed_readRefill, formed_readHandles, formed_readReplay]

theorem formed_accept (L : Launch) (hs : List (Nat × Nat)) (h : Formed s) : Formed (s.accept L hs) := by
  unfold State.accept
  grind [formed_trace, formed_modContext, formed_mk, formed_foldl]

theorem formed_writeStatus (C : Context) (va status : Nat) (h : Formed s) : Formed (s.writeStatus C va status) := by
  unfold State.writeStatus
  grind [formed_domeWrite]

theorem lands_execLaunchAccept (ctx queue : Nat) (h : Formed s) : Lands (execLaunchAccept ctx queue s) := by
  unfold execLaunchAccept
  split
  · exact lands_next h
  split
  · exact lands_next h
  next C _ _ q _ =>
    extract_lets -underBinder +onlyGivenNames onQueue later
    have hon (f : Queue → Queue) (s : State) (h : Formed s) : Formed (onQueue f s) := formed_modContext _ _ h
    have hlater (s : State) (h : Formed s) : Formed (later s) := hon _ s h
    clear_value later onQueue
    split
    · exact lands_next (hlater s h)
    dsimp only
    split
    · exact lands_next (hlater _ (formed_askBack _ h))
    · repeat' split
      all_goals grind [formed_combine, formed_send, formed_takeRecord, formed_vread, formed_writeStatus, formed_accept, lands_next]

theorem lands_execLnch (sd sa : SReg) (h : Formed s) : Lands (execLnch sd sa s) := by
  refine lands_answer (forms_bind forms_notInHandler fun _ => forms_bind forms_hereScalar fun r => forms_bind forms_hereContext fun C =>
    forms_bind (forms_require ..) fun _ => forms_bind forms_releaseHere fun _ => forms_get_bind fun s _ => forms_when (forms_stallOn .engine) fun _ =>
    forms_get_bind fun s h => ?_) h
  grind [forms_bind, forms_get_bind, forms_set, formed_takeRecord, forms_stallOn, forms_doneScalar, forms_upd, formed_writeStatus, formed_accept]

theorem formed_takeRoom (cores : List Nat) (h : Formed s) : Formed (s.takeRoom cores) := by
  refine formed_teams (fun T hT => ?_) h
  obtain ⟨U, hU, rfl⟩ := List.mem_map.1 hT
  exact ⟨U, hU, by split <;> rfl⟩

theorem formed_clearL1 (cores : List Nat) (h : Formed s) : Formed (s.clearL1 cores) := by
  unfold State.clearL1
  grind [formed_modCore, formed_writeBack, formed_combine, formed_foldl]

/-- A team starts with an empty scratchpad. -/
theorem formed_newTeams {ts : List Team} (ht : ∀ T ∈ ts, T.scratch = []) (h : Formed s) : Formed { s with teams := s.teams ++ ts } := by
  obtain ⟨hm, hh, hp⟩ := memoryWf_iff.1 h
  refine memoryWf_iff.2 ⟨hm, hh, fun T hT => ?_⟩
  rcases List.mem_append.1 hT with hT | hT
  · exact hp T hT
  · rw [ht T hT]
    rfl

theorem formed_startCluster (l : Nat) (p : List (Nat × List (Nat × Nat × Nat))) (h : Formed s) : Formed (s.startCluster l p) := by
  unfold State.startCluster
  split
  · exact h
  next L _ =>
    refine formed_modLaunch _ _ (formed_newTeams (fun T hT => ?_) (formed_takeRoom _ ?_))
    · obtain ⟨ip, -, rfl⟩ := List.mem_map.1 hT
      rfl
    · grind [formed_modCore, formed_mk, formed_clearL1, formed_foldl]

theorem lands_execTeamPlace (l : Nat) (h : Formed s) : Lands (execTeamPlace l s) := by
  have hp (t : Nat) (s : State) (h : Formed s) : Formed ((s.modTeam t fun T => { T with stop := true }).post (.preempt t)) :=
    formed_post _ (formed_modTeam _ _ (fun _ => rfl) h)
  unfold execTeamPlace
  repeat' split
  all_goals grind [formed_foldl, formed_startCluster, formed_modCore, lands_next]

theorem formed_finishLaunch (l : Nat) (h : Formed s) : Formed (s.finishLaunch l) := by
  unfold State.finishLaunch
  grind [formed_modContext, formed_modLaunch, formed_trace, formed_writeStatus, formed_domeWrite]

theorem lands_execLaunchEnd (l : Nat) (h : Formed s) : Lands (execLaunchEnd l s) := by
  unfold execLaunchEnd
  grind [formed_finishLaunch, lands_next]

theorem lands_execDriverLaunchEnd (l : Nat) (h : Formed s) : Lands (execDriverLaunchEnd l s) := by
  unfold execDriverLaunchEnd
  grind [formed_modLaunch, formed_post, formed_killTeam, formed_foldl, lands_next]

/-! ### Machine/Pair -/

theorem forms_shortFx (x : LaneCtx) (a : Instr) : Forms (shortFx x a) := by
  unfold shortFx
  grind [forms_computes, forms_laneLdFx, forms_laneStFx, forms_bind, forms_pure]

theorem forms_slotChecks (x : LaneCtx) (o : ShortOp) : Forms (slotChecks x o) := by
  unfold slotChecks
  grind [forms_laneChecks, forms_bind, forms_pure]

theorem forms_slotFx (x : LaneCtx) (o : ShortOp) : Forms (slotFx x o) := by
  unfold slotFx
  grind [forms_shortFx, forms_clearRegs, forms_bind, forms_pure]

theorem forms_undoLanes (c : Cur) (G : Group) (m : M Unit) (hm : Forms m) : Forms (undoLanes c G m) where
  ends s h := by
    unfold Ends undoLanes
    cases he : m s with
    | ok r => exact forms_ok hm h he
    | error r => exact formed_modGroup _ _ _ (forms_error hm h he)

theorem lands_execPairWord (p : PairWord) (h : Formed s) : Lands (execPairWord p s) := by
  refine lands_answer (forms_bind forms_here fun ⟨c, T, G⟩ => ?_) h
  dsimp only
  split
  · exact forms_retireLane _
  refine forms_bind (forms_require ..) fun _ => forms_bind (forms_laneCtx _) fun x0 => forms_bind (forms_laneCtx _) fun x1 => ?_
  split
  · exact forms_retireLane _
  · exact forms_bind (forms_require ..) fun _ => forms_bind (forms_require ..) fun _ => forms_bind (forms_slotChecks ..) fun _ =>
      forms_bind (forms_slotChecks ..) fun _ => forms_bind (forms_slotFx ..) fun _ =>
      forms_bind (forms_undoLanes _ _ _ (forms_slotFx ..)) fun _ => forms_retireLane _

/-! ### Machine/Registers -/

theorem lands_execDomeL2quota (v : Word) (h : Formed s) : Lands (execDomeL2quota v s) := by
  unfold execDomeL2quota
  grind [formed_modDome, lands_next]

theorem lands_execCpClasscfg (cls : BitVec 2) (v : Word) (h : Formed s) : Lands (execCpClasscfg cls v s) := by
  unfold execCpClasscfg
  grind [formed_modDome, lands_next]

theorem lands_execDomeCls0rsv (v : Word) (h : Formed s) : Lands (execDomeCls0rsv v s) := by
  unfold execDomeCls0rsv
  grind [formed_retryWaits, formed_modDome, lands_next]

theorem lands_execDomeSweep (v : Word) (h : Formed s) : Lands (execDomeSweep v s) := by
  unfold execDomeSweep
  grind [formed_modDome, lands_next]

theorem lands_execFabPodcfg (v : Word) (h : Formed s) : Lands (execFabPodcfg v s) := by
  unfold execFabPodcfg
  grind [formed_modDome, lands_next]

theorem lands_execDomeCntsnap (v : Word) (h : Formed s) : Lands (execDomeCntsnap v s) := by
  unfold execDomeCntsnap
  grind [formed_modDome, lands_next]

theorem lands_execCntsnapCopy (h : Formed s) : Lands (execCntsnapCopy s) := by
  unfold execCntsnapCopy
  grind [formed_modDome, formed_mk, lands_next]

theorem lands_execDbgTracectl (v : Word) (h : Formed s) : Lands (execDbgTracectl v s) := by
  unfold execDbgTracectl
  grind [formed_modDome, lands_next]

theorem lands_execTraceSample (h : Formed s) : Lands (execTraceSample s) := by
  unfold execTraceSample
  grind [formed_traceGroup, formed_foldl, lands_next]

theorem lands_execDbgStopctl (v : Word) (h : Formed s) : Lands (execDbgStopctl v s) := by
  unfold execDbgStopctl
  grind [formed_modDome, lands_next]

theorem formed_portsDown (h : Formed s) : Formed (s.portsDown) := by
  unfold State.portsDown
  grind [formed_modDome, formed_mk]

theorem lands_execDbgStop (h : Formed s) : Lands (execDbgStop s) := by
  unfold execDbgStop
  grind [formed_modDome, formed_portsDown, formed_mk, lands_next]

theorem lands_execPwrClkctl (v : Word) (h : Formed s) : Lands (execPwrClkctl v s) := by
  unfold execPwrClkctl
  grind [formed_modPlat, lands_next]

theorem lands_execThrottleEval (h : Formed s) : Lands (execThrottleEval s) := by
  unfold execThrottleEval
  grind [formed_modPlat, lands_next]

theorem lands_execRegisterWrite (addr : Nat) (v : Word) (h : Formed s) : Lands (execRegisterWrite addr v s) := by
  unfold execRegisterWrite
  repeat' split
  · exact lands_next (formed_modDome _ h)
  · exact lands_execDomeL2quota v h
  · exact lands_execDomeCls0rsv v h
  · exact lands_execDomeSweep v h
  · exact lands_execDomeTlbi v h
  · exact lands_execFabPodcfg v h
  · exact lands_execPwrClkctl v h
  · exact lands_execDomeCntsnap v h
  · exact lands_execDbgTracectl v h
  · exact lands_execDbgStopctl v h
  · exact lands_execCpClasscfg _ v h
  · exact lands_next h

theorem formed_tellLost (h : Formed s) : Formed (s.tellLost) := by
  unfold State.tellLost
  grind [formed_modDome, formed_traceWrite, formed_foldl]

theorem lands_execTraceRingSpaceReturn (_unit records : Nat) (h : Formed s) : Lands (execTraceRingSpaceReturn _unit records s) := by
  unfold execTraceRingSpaceReturn
  grind [formed_tellLost, formed_modDome, lands_next]

theorem lands_execFaultRingDrain (h : Formed s) : Lands (execFaultRingDrain s) := by
  unfold execFaultRingDrain
  grind [formed_drainRing, lands_next]

theorem formed_upset (u : EccUnit) (bits : List Nat) (h : Formed s) : Formed (s.upset u bits) := by
  unfold State.upset
  grind [formed_mk]

theorem formed_refetch (x : TagUnit) (h : Formed s) : Formed (s.refetch x) := by
  unfold State.refetch
  grind [formed_modCore, formed_writeBack, formed_mk]

theorem formed_meetError (u : EccUnit) (hard : Bool) (h : Formed s) : Formed (s.meetError u hard) := by
  unfold State.meetError
  grind [formed_mk, formed_report, formed_modDome]

theorem lands_execEccError (u : EccUnit) (hard : Bool) (h : Formed s) : Lands (execEccError u hard s) := by
  unfold execEccError
  grind [formed_meetError, lands_next]

theorem lands_execScrubPass (h : Formed s) : Lands (execScrubPass s) := by
  unfold execScrubPass
  grind [formed_modDome, formed_meetError, formed_foldl, lands_next]

theorem lands_execResolutionStep (t g lane acc ctr : Nat) (h : Formed s) : Lands (execResolutionStep t g lane acc ctr s) := by
  unfold execResolutionStep
  grind [formed_modGroup, lands_next]

/-! ### Machine/Platform -/

theorem formed_requestReset (trip : Bool) (h : Formed s) : Formed (s.requestReset trip) := by
  unfold State.requestReset
  grind [formed_modPlat, formed_portsDown]

theorem lands_execDevRstN (h : Formed s) : Lands (execDevRstN s) := by
  unfold execDevRstN
  grind [formed_modPlat, formed_requestReset, lands_next]

theorem lands_execPgDeassert (h : Formed s) : Lands (execPgDeassert s) := by
  unfold execPgDeassert
  grind [formed_requestReset, formed_modPlat, lands_next]

theorem lands_execPgAllAsserted (h : Formed s) : Lands (execPgAllAsserted s) := by
  unfold execPgAllAsserted
  grind [formed_modPlat, lands_next]

theorem lands_execCxlConventionalReset (h : Formed s) : Lands (execCxlConventionalReset s) := by
  unfold execCxlConventionalReset
  grind [formed_requestReset, lands_next]

theorem lands_execCxlFlrPort0 (h : Formed s) : Lands (execCxlFlrPort0 s) := by
  unfold execCxlFlrPort0
  grind [formed_requestReset, lands_next]

theorem lands_execCxlFlrPort1 (h : Formed s) : Lands (execCxlFlrPort1 s) := by
  unfold execCxlFlrPort1
  grind [formed_modPlat, lands_next]

theorem lands_execFunctionEnable (h : Formed s) : Lands (execFunctionEnable s) := by
  unfold execFunctionEnable
  grind [formed_modPlat, lands_next]

theorem lands_execThermalTrip (h : Formed s) : Lands (execThermalTrip s) := by
  unfold execThermalTrip
  grind [formed_requestReset, lands_next]

theorem lands_execThermNDeassert (h : Formed s) : Lands (execThermNDeassert s) := by
  unfold execThermNDeassert
  grind [formed_modPlat, lands_next]

/-- A reset empties HBM and the scratchpads, and leaves host memory. -/
theorem formed_internalReset (h : Formed s) : Formed (s.internalReset) :=
  memoryWf_iff.2 ⟨rfl, (memoryWf_iff.1 h).2.1, fun _ hT => absurd hT List.not_mem_nil⟩

theorem formed_programFirewall (h : Formed s) : Formed (s.programFirewall) := by
  unfold State.programFirewall
  grind [formed_modPlat]

theorem formed_advancePlatform (h : Formed s) : Formed (s.advancePlatform) := by
  unfold State.advancePlatform
  grind [formed_modPlat, formed_programFirewall, formed_internalReset, formed_mk]

theorem formed_doe (status : Nat) (h : Formed s) : Formed (s.doe status) := by
  unfold State.doe
  grind [formed_send]

theorem lands_execDoeBegin (len : BitVec 32) (hdr : List Byte) (h : Formed s) : Lands (execDoeBegin len hdr s) := by
  unfold execDoeBegin
  grind [formed_doe, formed_modPlat, lands_next]

theorem lands_execDoeChunk (off : BitVec 32) (body : List Byte) (h : Formed s) : Lands (execDoeChunk off body s) := by
  unfold execDoeChunk
  grind [formed_doe, formed_modPlat, lands_next]

theorem formed_placeOps (i : Option Image) (h : Formed s) : Formed (s.placeOps i) := by
  unfold State.placeOps
  grind [formed_writeMem]

theorem lands_execDoeEnd (h : Formed s) : Lands (execDoeEnd s) := by
  unfold execDoeEnd
  grind [formed_doe, formed_modPlat, formed_placeOps, lands_next]

theorem formed_initControl (h : Formed s) : Formed (s.initControl) := by
  unfold State.initControl
  grind [formed_mk]

theorem lands_execFirmwareReady (h : Formed s) : Lands (execFirmwareReady s) := by
  unfold execFirmwareReady
  grind [formed_initControl, formed_modPlat, formed_post, formed_retryQueues, formed_doe, lands_next]

theorem lands_execLiveUpdateTimeout (h : Formed s) : Lands (execLiveUpdateTimeout s) := by
  unfold execLiveUpdateTimeout
  grind [formed_doe, formed_placeOps, formed_modPlat, lands_next]

theorem lands_execDoeCommit (h : Formed s) : Lands (execDoeCommit s) := by
  unfold execDoeCommit
  grind [formed_doe, formed_modPlat, lands_next]

theorem lands_execDoeAttest (ctx : BitVec 32) (nonce : List Byte) (h : Formed s) : Lands (execDoeAttest ctx nonce s) := by
  unfold execDoeAttest
  grind [formed_doe, formed_send, formed_mk, lands_next]

theorem lands_execConfidentialContextCreate (ctx : Nat) (key : List Byte) (h : Formed s) : Lands (execConfidentialContextCreate ctx key s) := by
  unfold execConfidentialContextCreate
  grind [formed_programFirewall, formed_modContext, formed_mk, lands_next]

theorem formed_endContext (ctx : Nat) (h : Formed s) : Formed (s.endContext ctx) := by
  have hs : Formed ((s.settleApart fun _ => true).combine fun _ => true) := formed_combine _ (formed_settleApart _ h)
  have ht : ∀ (ls : List Launch) (s : State), Formed s →
      Formed (ls.foldl (fun s L => if L.ctx = ctx ∧ !L.ended then s.trace 1 4 0 0 ctx L.record 4 else s) s) := fun ls s h =>
    formed_foldl (fun s L h => by
      split
      · exact formed_trace _ _ _ _ _ _ _ h
      · exact h) ls h
  unfold State.endContext
  generalize (s.settleApart fun _ => true).combine (fun _ => true) = u at hs
  dsimp only
  have hu := ht u.launches u hs
  generalize u.launches.foldl _ u = u at hu ⊢
  obtain ⟨hm, hh, hp⟩ := memoryWf_iff.1 hu
  refine memoryWf_iff.2 ⟨hm, hh, fun T hT => ?_⟩
  obtain ⟨⟨i, U⟩, hU, rfl⟩ := List.mem_map.1 hT
  have := hp U ((indexed_mem 0 _ U).1 ⟨i, hU⟩)
  split
  · exact this
  · exact this

theorem lands_execConfidentialContextEnd (ctx : Nat) (h : Formed s) : Lands (execConfidentialContextEnd ctx s) := by
  unfold execConfidentialContextEnd
  grind [formed_programFirewall, formed_endContext, lands_next]

end

end Sys2Proof.Proofs
end

section
/-! SUPPORT. The canonical form of every memory, kept function by function: saving and restoring, scheduling, the tick, and every step (O60). -/

namespace Sys2Proof.Proofs
open Machine Claims Laws

-- One proof after another: elaborated at once, the many of this part would each hold a thread.
set_option Elab.async false

section
variable {s : State}

/-! ### Machine/Platform -/

theorem formed_violation (h : Formed s) : Formed (s.violation) := by
  unfold State.violation
  grind [formed_modPlat]

theorem formed_controlWrite (a : Nat) (b : List Byte) (h : Formed s) : Formed (s.controlWrite a b) := by
  unfold State.controlWrite
  grind [formed_writeMem, formed_dropLines, formed_combine, formed_violation]

theorem formed_controlRead (a n : Nat) (h : Formed s) : Formed (s.controlRead a n) := by
  unfold State.controlRead
  grind [formed_combine, formed_send, formed_violation]

theorem formed_serve (d : DriverCmd) (h : Formed s) : Formed (s.serve d) := by
  unfold State.serve
  grind [formed_mk, formed_endContext, formed_modContext, formed_modDome, formed_controlWrite, formed_modPlat, formed_controlRead, formed_send]

theorem formed_drive (d : DriverCmd) (h : Formed s) : Formed (s.drive d) := by
  unfold State.drive
  grind [formed_modPlat, formed_requestReset, formed_writeMem, formed_dropRange, formed_combine, formed_upset, formed_refetch, formed_serve,
      formed_modDome, formed_askBack]

/-! ### Machine/Save -/

theorem lands_execSwapEligible (t : Nat) (h : Formed s) : Lands (execSwapEligible t s) := by
  unfold execSwapEligible
  grind [formed_modTeam, formed_post, formed_foldl, lands_next]

theorem formed_cleanCore (core : Nat) (h : Formed s) : Formed (s.cleanCore core) := by
  unfold State.cleanCore
  grind [formed_modCore, formed_writeBack]

theorem formed_team {t : Nat} {T : Team} (h : Formed s) (hT : s.team? t = some T) : Memory.wf T.scratch = true :=
  (memoryWf_iff.1 h).2.2 T (List.mem_of_getElem? hT)

theorem formed_putTeam {T : Team} (t : Nat) (hT : Memory.wf T.scratch = true) (h : Formed s) : Formed (s.modTeam t fun _ => T) :=
  memoryWf_modTeam (fun _ _ => hT) h

theorem formed_saveTeam (t : Nat) (h : Formed s) : Formed (s.saveTeam t) := by
  unfold State.saveTeam
  split
  next T L C hT _ _ =>
    have hw := formed_team h hT
    refine formed_modCore _ _ (formed_putTeam _ hw (formed_devPoke _ _ _ ?_))
    split
    · exact formed_modContext _ _ (formed_abandon _ (formed_cleanCore _ h))
    · exact formed_abandon _ (formed_cleanCore _ h)
  · exact h

theorem lands_execPreempt (t : Nat) (h : Formed s) : Lands (execPreempt t s) := by
  unfold execPreempt
  grind [formed_modDome, formed_modTeam, formed_saveTeam, formed_settleAll, formed_foldl, lands_next]

theorem formed_reloadTables (key : Option Nat) (image off mask ctx core : Nat) (h : Formed s) :
    Formed (s.reloadTables key image off mask ctx core) := by
  refine formed_foldl (fun s n h => ?_) _ h
  split
  · exact formed_getD (formed_loadTable _ _ _ _ h) h
  · exact h

theorem formed_seatTeam (x : Seat) (h : Formed s) : Formed (s.seatTeam x) := by
  unfold State.seatTeam
  split
  next T C hT _ =>
    have hw := formed_team h hT
    extract_lets -underBinder +onlyGivenNames word cleared tables live bases gs T' spire tiles seated
    have hc : Formed cleared := by
      unfold cleared
      split
      · exact formed_clearL1 _ h
      · exact h
    have hr : Formed tables := formed_reloadTables _ _ _ _ _ _ hc
    have ht : Formed tiles := by
      unfold tiles
      split
      · exact hr
      · exact hr
    have hs : Formed seated := formed_modCore _ _ (formed_putTeam (T := T') _ hw ht)
    clear_value seated
    split
    · exact hs
    · exact formed_post _ hs
  · exact h

theorem formed_resumeTeam (t : Nat) (h : Formed s) : Formed (s.resumeTeam t) := by
  unfold State.resumeTeam
  grind [formed_retryLog, formed_acquire, formed_rouse]

theorem lands_execRestore (t core : Nat) (h : Formed s) : Lands (execRestore t core s) := by
  unfold execRestore
  grind [formed_takeRoom, formed_seatTeam, formed_resumeTeam, formed_report, formed_modTeam, formed_foldl, lands_next]

/-! ### Machine/Schedule -/

theorem formed_noteIssue (t : Nat) (h : Formed s) : Formed (s.noteIssue t) := by
  unfold State.noteIssue
  grind [formed_modLaunch]

theorem formed_charge (core k : Nat) (who : Option Seen) (h : Formed s) : Formed (s.charge core k who) := by
  unfold State.charge
  grind [formed_modCore, formed_mk]

theorem formed_cycleDatapath (core cycle : Nat) (all : List Seen) (d : Nat) (h : Formed s) : Formed (s.cycleDatapath core cycle all d) := by
  unfold State.cycleDatapath
  grind [formed_charge, formed_modCore, formed_modGroup, formed_mk, formed_foldl]

theorem formed_cycleScalar (k : Trials) (core cycle : Nat) (h : Formed s) : Formed (s.cycleScalar k core cycle) := by
  unfold State.cycleScalar
  grind [formed_modCore, formed_modGroup, formed_mk, formed_foldl]

theorem formed_cycleCore (k : Trials) (cycle core : Nat) (h : Formed s) : Formed (s.cycleCore k cycle core) := by
  unfold State.cycleCore
  grind [formed_cycleScalar, formed_cycleDatapath, formed_charge, formed_foldl]

theorem formed_issueCycle (k : Trials) (h : Formed s) : Formed (s.issueCycle k) := by
  unfold State.issueCycle
  grind [formed_cycleCore, formed_mk, formed_foldl]

theorem lands_execCoreClockCycle (h : Formed s) : Lands (execCoreClockCycle s) := by
  unfold execCoreClockCycle
  grind [formed_modPlat, formed_mk, lands_next]

/-! ### Machine/Tick -/

theorem formed_clockCores (h : Formed s) : Formed (s.clockCores) := by
  unfold State.clockCores
  grind [formed_modPlat, formed_mk]

theorem pauseWatchdog_scratch (T : Team) : T.pauseWatchdog.scratch = T.scratch := rfl

theorem formed_pauseWatchdogs (h : Formed s) : Formed { s with teams := s.teams.map Team.pauseWatchdog } := by
  refine formed_teams (fun T hT => ?_) h
  obtain ⟨U, hU, rfl⟩ := List.mem_map.1 hT
  exact ⟨U, hU, pauseWatchdog_scratch U⟩

theorem lands_execGlobalTick (h : Formed s) : Lands (execGlobalTick s) := by
  have ht : Formed { s with tick := s.tick + 1 } := h
  unfold execGlobalTick
  split
  · exact lands_next ht
  split
  · exact lands_next (formed_advancePlatform ht)
  · exact lands_next (formed_clockCores (formed_pauseWatchdogs (formed_advancePlatform ht)))

/-! ### Machine/Dispatch -/

/-- A word that computes in each lane by itself. -/
theorem lands_computing {i : Instr} {fx : LaneFx} (hi : Computing i fx) (h : Formed s) : Lands (exec i s) := by
  rw [hi.exec]
  exact lands_laneRun i _ (forms_computes fx) h

theorem lands_exec (i : Instr) (h : Formed s) : Lands (exec i s) := by
  cases i with
  | add | sub | mul | mulh | div | rem | and | or | xor | shl | shr | sar | min | max | bfx | addi | andi | ori | xori | shli | shri | sari | popc
    | clz | ctz | brev | bfi | movi | movhi | cmp | cmpi | qop | sel | nop =>
    exact lands_scalarStep _ _ h
  | laneAdd | laneAddi | laneSub | adds | subs | neg | abs | laneMul | laneMulh | muls | mad | mads | laneDiv | laneRem | laneMin | laneMax | clamp
    | laneAnd | laneOr | laneXor | andn | not | tern | laneShl | laneShr | laneSar | rol | ror | laneShli | laneShri | laneSari | roli | rori | mov
    | laneMovi | laneSel =>
    exact lands_computing (.inl rfl) h
  | bsAdd | bsSub | bsAdds | bsSubs | bsMul | bsMuls | bsMin | bsMax | bscmp | lanePopc | laneClz | laneCtz | laneBrev | laneBfx | laneBfi | bfxi
    | bfii | hashCrc | hashMix | scmp | sfind | slen | rng | laneCmp | pand | por | pxor | pandn | pnot | pmov | pset | pget | pput =>
    exact lands_computing (.inr (.inl rfl)) h
  | fadd | fsub | fmul | fdiv | fsqrt | fmin | fmax | fabs | fneg | cpsgn | fma | fms | fnma | ex2f | lg2 | rcp | rsq | sinp | cosp | rndi | expi
    | cvt | fcmp =>
    exact lands_computing (.inr (.inr (.inl rfl))) h
  | azero | aadd | amac | adot | cres | arnd | arndDiv | aseg | astat | ageti | ared =>
    exact lands_computing (.inr (.inr (.inr rfl))) h
  | xlnGet w => exact lands_laneRun (.xlnGet w) _ (forms_moves _) h
  | xlnFlip w => exact lands_laneRun (.xlnFlip w) _ (forms_moves _) h
  | xlnRot w => exact lands_laneRun (.xlnRot w) _ (forms_moves _) h
  | xlnSlide w => exact lands_laneRun (.xlnSlide w) _ (forms_moves _) h
  | ld sz sd base off => exact lands_execLd sz sd base off h
  | st sz ss base off => exact lands_execSt sz ss base off h
  | lds sz sd base off => exact lands_execLds sz sd base off h
  | sts sz ss base off => exact lands_execSts sz ss base off h
  | ldaq sc sz sd sa => exact lands_execLdaq sc sz sd sa h
  | strl sc sz ss sa => exact lands_execStrl sc sz ss sa h
  | atom op sc sd sa sb => exact lands_execAtom op sc sd sa sb h
  | cas sc sd sa sb => exact lands_execCas sc sd sa sb h
  | fence sc => exact lands_execFence sc h
  | br q neg off => exact lands_execBr q neg off h
  | call q neg off => exact lands_execCall q neg off h
  | ret q neg => exact lands_execRet q neg h
  | jmpr sa => exact lands_execJmpr sa h
  | lrun sa n target => exact lands_execLrun sa n target h
  | spop sd => exact lands_execSpop sd h
  | lnch sd sa => exact lands_execLnch sd sa h
  | sget sd ty code => exact lands_execSget sd ty code h
  | sset hs sa => exact lands_execSset hs sa h
  | mrst off => exact lands_execMrst off h
  | sdone => exact lands_execSdone h
  | cpy flag sa => exact lands_execCpy flag sa h
  | gath flag sa => exact lands_execGath flag sa h
  | part flag sa => exact lands_execPart flag sa h
  | puts flag sa => exact lands_execPuts flag sa h
  | get flag sa => exact lands_execGet flag sa h
  | fabricRadd flag sa => exact lands_execFabricRadd flag sa h
  | plcl flag sa => exact lands_execPlcl flag sa h
  | plcn sd sa sb => exact lands_execPlcn sd sa sb h
  | plwt sd sa sb => exact lands_execPlwt sd sa sb h
  | plval flag sa sb => exact lands_execPlval flag sa sb h
  | plcx sd sa sb => exact lands_execPlcx sd sa sb h
  | wflg mask => exact lands_execWflg mask h
  | wflgNow mask => exact lands_execWflgNow mask h
  | swini sa sb => exact lands_execSwini sa sb h
  | swait sa sb => exact lands_execSwait sa sb h
  | waita sd sa sb => exact lands_execWaita sd sa sb h
  | sbara sd sa sb => exact lands_execSbara sd sa sb h
  | sbarw sa sb => exact lands_execSbarw sa sb h
  | obres sd sa sb => exact lands_execObres sd sa sb h
  | obrel sa => exact lands_execObrel sa h
  | ctab sa sb => exact lands_execCtab sa sb h
  | trap imm sa => exact lands_execTrap imm sa h
  | eret => exact lands_execEret h
  | trd sd sa sb => exact lands_execTrd sd sa sb h
  | twr ss sa sb => exact lands_execTwr ss sa sb h
  | tres sl sa sb => exact lands_execTres sl sa sb h
  | tkil sa => exact lands_execTkil sa h
  | dump sd sa sb => exact lands_execDump sd sa sb h
  | pairWord w => exact lands_execPairWord w h
  | lget w => exact lands_execLget w h
  | qnt w => exact lands_execQnt w h
  | dqnt w => exact lands_execDqnt w h
  | laneIf w => exact lands_execLaneIf w h
  | laneElse w => exact lands_execLaneElse w h
  | laneEndif w => exact lands_execLaneEndif w h
  | laneLoop w => exact lands_execLaneLoop w h
  | laneBrk w => exact lands_execLaneBrk w h
  | laneCont w => exact lands_execLaneCont w h
  | laneEndloop w => exact lands_execLaneEndloop w h
  | laneExit w => exact lands_execLaneExit w h
  | laneStop w => exact lands_execLaneStop w h
  | rfil w => exact lands_execRfil w h
  | pollThr w => exact lands_execPollThr w h
  | pollMask w => exact lands_execPollMask w h
  | pollRank w => exact lands_execPollRank w h
  | keyg w => exact lands_execKeyg w h
  | lead w => exact lands_execLead w h
  | lpush w => exact lands_execLpush w h
  | bcst w => exact lands_execBcst w h
  | gred op w => exact lands_execGred op w h
  | gscan op excl w => exact lands_execGscan op excl w h
  | gsync w => exact lands_execGsync w h
  | aadda w => exact lands_execAadda w h
  | aneg w => exact lands_execAneg w h
  | ald w => exact lands_execAld w h
  | ast w => exact lands_execAst w h
  | laneLd w => exact lands_execLaneLd w h
  | laneSt w => exact lands_execLaneSt w h
  | laneLds w => exact lands_execLaneLds w h
  | laneSts w => exact lands_execLaneSts w h
  | laneAtom op w => exact lands_execLaneAtom op w h
  | laneCas w => exact lands_execLaneCas w h
  | radd w => exact lands_execRadd w h
  | raddAcc w => exact lands_execRaddAcc w h
  | laneFence w => exact lands_execLaneFence w h
  | laneWaita w => exact lands_execLaneWaita w h
  | bara w => exact lands_execBara w h
  | barw w => exact lands_execBarw w h
  | cbara w => exact lands_execCbara w h
  | cbarw w => exact lands_execCbarw w h
  | laneSwait w => exact lands_execLaneSwait w h
  | mma w => exact lands_execMma w h
  | mmaKreg w => exact lands_execMmaKreg w h
  | mfen w => exact lands_execMfen w h
  | mwait w => exact lands_execMwait w h
  | mwaitLast w => exact lands_execMwaitLast w h
  | mzero w => exact lands_execMzero w h
  | mstRnd w => exact lands_execMstRnd w h
  | mstRaw w => exact lands_execMstRaw w h
  | mstAdd w => exact lands_execMstAdd w h
  | vpjs w => exact lands_execVpjs w h
  | vpjr w => exact lands_execVpjr w h
  | vpjm w => exact lands_execVpjm w h
  | vpjx w => exact lands_execVpjx w h
  | vpjb w => exact lands_execVpjb w h
  | runStart team grp => exact lands_execRunStart team grp h
  | clauseStart team grp => exact lands_execClauseStart team grp h
  | loadDataReturn team grp id => exact lands_execLoadDataReturn team grp id h
  | storePerformed team grp id => exact lands_execStorePerformed team grp id h
  | enginePieceLand team cmd => exact lands_execEnginePieceLand team cmd h
  | cpyComplete team cmd => exact lands_execCpyComplete team cmd h
  | gathComplete team cmd => exact lands_execGathComplete team cmd h
  | partComplete team cmd => exact lands_execPartComplete team cmd h
  | putsComplete team cmd => exact lands_execPutsComplete team cmd h
  | getComplete team cmd => exact lands_execGetComplete team cmd h
  | fabricRaddComplete team cmd => exact lands_execFabricRaddComplete team cmd h
  | engineFault team cmd cause addr detail => exact lands_execEngineFault team cmd cause addr detail h
  | mmaComplete team grp id => exact lands_execMmaComplete team grp id h
  | spireComplete core => exact lands_execSpireComplete core h
  | plvalViewWrite team cmd => exact lands_execPlvalViewWrite team cmd h
  | parkWake team grp => exact lands_execParkWake team grp h
  | waitaTimeout team grp => exact lands_execWaitaTimeout team grp h
  | hang team grp => exact lands_execHang team grp h
  | orderedOpRelease team grp => exact lands_execOrderedOpRelease team grp h
  | handlerEntry team => exact lands_execHandlerEntry team h
  | handlerWdogExpiry team => exact lands_execHandlerWdogExpiry team h
  | launchAccept ctx queue => exact lands_execLaunchAccept ctx queue h
  | teamPlace launch => exact lands_execTeamPlace launch h
  | launchEnd launch => exact lands_execLaunchEnd launch h
  | swapEligible team => exact lands_execSwapEligible team h
  | preempt team => exact lands_execPreempt team h
  | restore team core => exact lands_execRestore team core h
  | domeTlbi v => exact lands_execDomeTlbi v h
  | sweeperPass => exact lands_execSweeperPass h
  | l1CleanExpiry core asid line => exact lands_execL1CleanExpiry core asid line h
  | hostAccess r => exact lands_execHostAccess r h
  | hostSnoop line inval => exact lands_execHostSnoop line inval h
  | backInvalidateResponse line data => exact lands_execBackInvalidateResponse line data h
  | fabricRequest r => exact lands_execFabricRequest r h
  | fabricResponse r => exact lands_execFabricResponse r h
  | linkDown x => exact lands_execLinkDown x h
  | planeHeader k x => exact lands_execPlaneHeader k x h
  | countPlane k plane counts => exact lands_execCountPlane k plane counts h
  | gatherPlane k plane vals => exact lands_execGatherPlane k plane vals h
  | cancelRequest k c pos detm => exact lands_execCancelRequest k c pos detm h
  | freeze k f vals => exact lands_execFreeze k f vals h
  | cancelAnswer k r => exact lands_execCancelAnswer k r h
  | domeL2quota v => exact lands_execDomeL2quota v h
  | cpClasscfg cls v => exact lands_execCpClasscfg cls v h
  | domeCls0rsv v => exact lands_execDomeCls0rsv v h
  | domeSweep v => exact lands_execDomeSweep v h
  | fabPodcfg v => exact lands_execFabPodcfg v h
  | domeCntsnap v => exact lands_execDomeCntsnap v h
  | cntsnapCopy => exact lands_execCntsnapCopy h
  | dbgTracectl v => exact lands_execDbgTracectl v h
  | traceSample => exact lands_execTraceSample h
  | dbgStopctl v => exact lands_execDbgStopctl v h
  | dbgStop => exact lands_execDbgStop h
  | pwrClkctl v => exact lands_execPwrClkctl v h
  | throttleEval => exact lands_execThrottleEval h
  | registerWrite addr v => exact lands_execRegisterWrite addr v h
  | devRstN => exact lands_execDevRstN h
  | pgDeassert => exact lands_execPgDeassert h
  | pgAllAsserted => exact lands_execPgAllAsserted h
  | cxlConventionalReset => exact lands_execCxlConventionalReset h
  | cxlFlrPort0 => exact lands_execCxlFlrPort0 h
  | cxlFlrPort1 => exact lands_execCxlFlrPort1 h
  | thermalTrip => exact lands_execThermalTrip h
  | thermNDeassert => exact lands_execThermNDeassert h
  | doeBegin len hdr => exact lands_execDoeBegin len hdr h
  | doeChunk off body => exact lands_execDoeChunk off body h
  | doeEnd => exact lands_execDoeEnd h
  | doeAttest ctx nonce => exact lands_execDoeAttest ctx nonce h
  | doeCommit => exact lands_execDoeCommit h
  | firmwareReady => exact lands_execFirmwareReady h
  | liveUpdateTimeout => exact lands_execLiveUpdateTimeout h
  | confidentialContextCreate ctx key => exact lands_execConfidentialContextCreate ctx key h
  | faultRingDrain => exact lands_execFaultRingDrain h
  | scrubPass => exact lands_execScrubPass h
  | globalTick => exact lands_execGlobalTick h
  | coreClockCycle => exact lands_execCoreClockCycle h
  | resolutionStep team grp lane acc ctr => exact lands_execResolutionStep team grp lane acc ctr h
  | reservedScalarWord => exact lands_execReservedScalarWord h
  | reservedLaneWord w => exact lands_execReservedLaneWord w h
  | tlbiComplete => exact lands_execTlbiComplete h
  | linkRestored port => exact lands_execLinkRestored port h
  | vcCreditReturn port vc beats => exact lands_execVcCreditReturn port vc beats h
  | driverLaunchEnd launch => exact lands_execDriverLaunchEnd launch h
  | confidentialContextEnd ctx => exact lands_execConfidentialContextEnd ctx h
  | functionEnable => exact lands_execFunctionEnable h
  | eccError u hard => exact lands_execEccError u hard h
  | corePowerGating core => exact lands_execCorePowerGating core h
  | traceRingSpaceReturn unit records => exact lands_execTraceRingSpaceReturn unit records h

/-! ### Machine/Events -/

/-- Every event is the instruction of some code of the opcode table. -/
theorem exists_eventIs (e : Event) : ∃ i, eventIs e i := by
  cases e <;> exact ⟨_, rfl⟩

theorem lands_runEvent (e : Event) (h : Formed s) : Lands (runEvent e s) := by
  obtain ⟨i, hi⟩ := exists_eventIs e
  rw [runEvent_exec hi]
  exact lands_exec i h

/-! ### Machine/Turns -/

theorem forms_fetchNext (c : Cur) : Forms (fetchNext c) := by
  unfold fetchNext
  grind [forms_fetchLane, forms_fetchScalar, forms_bind, forms_pure]

theorem lands_issued (c : Cur) (r : Answer) (hr : Lands r) : Lands (Issued c r) := by
  unfold Issued
  split
  next t =>
    have ht := hr t rfl
    refine lands_next ?_
    split
    · exact ht
    · exact formed_noteIssue _ ht
  next => exact hr

theorem lands_streamStep (c : Cur) (h : Formed s) : Lands (streamStep c s) := by
  have hs : Formed { s.settleApart fun x => x.isOf c with cur := some c } := formed_settleApart _ h
  unfold streamStep
  dsimp only
  split
  next he => exact lands_issued c _ (lands_exec _ (forms_ok (forms_fetchNext c) hs he))
  next he => exact lands_halt_answer _ (forms_error (forms_fetchNext c) hs he)

theorem lands_laneTurn (t g : Nat) (h : Formed s) : Lands (laneTurn t g s) := by
  unfold laneTurn
  grind [lands_execRunStart, lands_execClauseStart, lands_streamStep, lands_next]

theorem formed_stateAfter {r : Answer} (hr : Lands r) (h : Formed s) : Formed (stateAfter s r) := by
  unfold stateAfter
  split
  next t => exact hr t rfl
  next => exact h

theorem formed_tried (c : Cur) (h : Formed s) : ∀ t, s.tried c = some t → Formed t := by
  have hu := formed_unstall c h
  have hlane (s : State) (h : Formed s) : Formed (stateAfter s (laneTurn c.team c.grp s)) := formed_stateAfter (lands_laneTurn _ _ h) h
  have hstream (c : Cur) (u : State) (hu : Formed u) : Formed (stateAfter s (streamStep c u)) := formed_stateAfter (lands_streamStep c hu) h
  intro t ht
  unfold State.tried at ht
  split at ht <;> grind [Option.map_eq_some_iff]

theorem formed_attempt (c : Cur) (h : Formed s) : Formed (s.attempt c) := by
  unfold State.attempt
  grind [formed_tried]

theorem lands_runTurn (x : Turn) (h : Formed s) : Lands (runTurn x s) := by
  unfold runTurn
  grind [lands_runEvent, formed_drive, formed_issueCycle, formed_settleApart, lands_streamStep, lands_laneTurn, formed_attempt, lands_next]

/-! ### Machine/Step -/

theorem lands_step (h : Formed s) : Lands (step s) := by
  unfold step
  grind [lands_execGlobalTick, lands_runTurn, formed_mk]

/-- Settles O60: what a step does is an answer of its turn, and every answer keeps the form. -/
theorem stepKeepsMemoryForm : Obligations.StepKeepsMemoryForm :=
  fun _ t hs h => lands_step hs t h

end

end Sys2Proof.Proofs
end
